-- ==== Sys2Proof/Word.lean ====
section
/-! DEFINITION. The word types and the small names of the block (spec/00_scope.md R2, R8). -/

namespace Sys2Proof

/-- One byte, bit 0 least significant (R2). -/
abbrev Byte := BitVec 8

/-- Carrier A or carrier B (R8). -/
inductive Carrier where
  | a
  | b
  deriving DecidableEq, Repr

/-- The ports of the Calond ring: east (0) and west (1) (R461). -/
inductive Port where
  | east
  | west
  deriving DecidableEq, Repr

/-- The submission queues Q0 to Q3 (R387), and the relay FIFO that a ring worker serves as if it were its own Q0 (R449). -/
inductive QueueId where
  | q0
  | q1
  | q2
  | q3
  | relay
  deriving DecidableEq, Repr

end Sys2Proof
end

