-- ==== Sys2Proof/Syntax.lean ====
section
/-! DEFINITION. The commands and events of the block: one constructor of Instr per row of spec/opcode_table.json, with the
operands of the row. A Swiys command carries its packet; an event carries what the world outside the block decides or
measures. -/

namespace Sys2Proof

/-- A Swiys packet as its queue received it (R380), without the opcode, which the constructor gives, and with a CRC that
checks (a packet that fails a header check is INVALID_PACKET). -/
structure Packet where
  queue  : QueueId
  tag    : Nat
  target : Nat
  flags  : Nat
  tenant : Nat
  params : List Byte
  deriving DecidableEq, Repr

/-- What the check bits and the duplicated pointers of a queue find at one access (R389, R390). -/
inductive MemErr where
  | clean
  | corrected
  | double
  | pointer
  deriving DecidableEq, Repr

/-- One access to BAR0 or BAR2 (R410): the offset and the width in bits. -/
structure Access where
  bar2   : Bool
  offset : Nat
  write  : Bool
  width  : Nat
  deriving DecidableEq, Repr

/-- A configuration request (R408, R409, R436): a read, or a write of a setting that this manual names. -/
inductive CfgAccess where
  | read (offset : Nat)
  | busMaster (v : Bool)
  | msixEnable (v : Bool)
  | msixMask (v : Bool)
  deriving DecidableEq, Repr

/-- The level of the coded-bit FIFO of a transmitter (R30, R46): low asks for more fill blocks, high for fewer. -/
inductive FifoLevel where
  | low
  | high
  | outOfRange
  deriving DecidableEq, Repr

/-- A symbol of both polarisations in units of the pilot amplitude's 65,536th part. -/
structure Sym where
  xi : Int := 0
  xq : Int := 0
  yi : Int := 0
  yq : Int := 0
  deriving DecidableEq, Repr

/-- A 256 ns window of the ADCs (R65, R69): the 8-bit codes of the four channels in order, and the gain that the running loop gives
(1/64 dB). -/
structure AgcObs where
  codes : List (List Int)
  gain  : Int
  deriving DecidableEq, Repr

/-- What one overlap-save block measures (R74, R99, R103): timing correction (ppb), received clock offset (0.001 ppm),
DGD of the MIMO taps (1/16 ps), target angles of the principal states (mrad). -/
structure OsaObs where
  correction  : Int
  clockOffset : Int
  dgd16       : Nat
  angle1      : Int
  angle2      : Int
  deriving DecidableEq, Repr

/-- One 64-symbol group at the output of the equaliser (R72, R101, R102, R107, R108): its clipped samples, whether the carried phase differs
from the pilot at its end by more than pi/4, the value of the frequency loop (kHz), the centroid of the tap energy (1/16 tap), the mean power
before the normaliser and the error power per dimension of X and Y (units of the pilot amplitude squared over 2^32), the equalised and
frequency-corrected samples, and the symbols after the first pass. -/
structure GroupObs where
  clipped  : Nat
  slip     : Bool
  loopKhz  : Int
  centroid : Nat
  power    : Nat
  errX     : Nat
  errY     : Nat
  samples  : List Sym
  first    : List Sym
  deriving DecidableEq, Repr

/-- The power of the symbol-clock line at each candidate of a CD scan, stage by stage (R100). -/
structure CdObs where
  coarse : List Nat
  medium : List Nat
  fine   : List Nat
  deriving DecidableEq, Repr

/-- What the estimators of a carrier measure (R118): pilot phase error (mrad RMS), residual dispersion and DGD of the MIMO taps (ps/nm,
1/16 ps), PDL (0.01 dB), SOP rotation speed (krad/s). -/
structure EstObs where
  phaseErr : Nat
  residual : Int
  dgd      : Nat
  pdl      : Nat
  sop      : Nat
  deriving DecidableEq, Repr

/-- The conditions that lose lock (R116). -/
inductive LockLoss where
  | phase
  | singular
  | lag
  | timing
  | los
  deriving DecidableEq, Repr

/-- The outcome of one outer codeword (R126). -/
inductive OuterOutcome where
  | clean
  | corrected (bits : Nat)
  | uncorrectable
  deriving DecidableEq, Repr

/-- A 1 ms adaptation window of a host lane (R182, R183): the item measured, its new values, the mean-square slicer error
(0.01 dB). -/
structure LaneObs where
  item   : Nat
  values : List Int
  mse    : Int
  deriving DecidableEq, Repr

/-- The object of a host-side defect (R196): lane, PHY by its first lane, FlexE group, FlexE client by its tenant. -/
inductive HostScope where
  | lane   (n : Nat)
  | phy    (n : Nat) (marks : List (Option (Nat × Nat)))
  | group  (n : Nat)
  | client (tenant : Nat)
  deriving DecidableEq, Repr

/-- What a received FlexE overhead frame carries (R192, R193, R196, R352): calendar in use C, CR, CA, whether the group
number, instance number and PHY map agree, whether it was received without error, the calendar it announces, remote PHY
fault, and the SSM code of an ESMC PDU. -/
structure FlexeOh where
  c       : Bool
  cr      : Bool
  ca      : Bool
  idOk    : Bool
  ok      : Bool
  cal     : Option (List Nat)
  rpf     : Bool
  ssm     : Option Nat
  deriving DecidableEq, Repr

/-- A SEC-DED error of the Keep (R295). -/
inductive EccKind where
  | corrected
  | oneCopy
  | bothCopies
  deriving DecidableEq, Repr

/-- A line operation of a Dome stack (R331): a write of 64 bytes, or a read that finds symbols flipped (symbol 0 to 71 of
the line's two codewords, and the bits flipped in it). -/
inductive LineOp where
  | write (data : List Byte)
  | read (flips : List (Nat × Byte))
  deriving DecidableEq, Repr

/-- How the flash answers the read of an image (R485, R486): it is read, the read fails, or the flash gives no valid SFDP. -/
inductive FlashRead where
  | ok
  | failed
  | noSfdp
  deriving DecidableEq, Repr

/-- The FIFO whose pointer copies disagree (R468): coded bits toward a superframe, the elastic store of a tenant, the frames of a skew buffer,
blocks toward a PHY, or one whose content this model moves at once. -/
inductive FifoRef where
  | coded (c : Carrier)
  | store (t : Nat)
  | frames (c : Carrier)
  | phyTx (p : Nat)
  | other
  deriving DecidableEq, Repr

/-- What an on-die word that fails uncorrectably was holding (R340). -/
inductive SramUse where
  | settings
  | code
  | holdover
  | dpllWord
  | tenants (ts : List Nat)
  | sample
  | loopState
  | block
  | spare (entry : Nat)
  | engine (e : Nat)
  | checkpoint (e : Nat)
  | message (p : Port) (i : Nat)
  deriving DecidableEq, Repr

/-- A 66-bit block of IEEE 802.3: a control block or not, and 64 payload bits in sending order (R189). -/
structure Block66 where
  control : Bool
  payload : List Bool
  deriving DecidableEq, Repr

/-- A ring message: the header of R444 and the body. -/
structure RingMsg where
  type  : Nat
  src   : Nat
  dst   : Nat
  hops  : Nat
  epoch : Nat
  tag   : Nat
  body  : List Byte
  deriving DecidableEq, Repr

/-- A trigger of the waveform capture (R532). -/
inductive CapSource where
  | command
  | event (code : Nat)
  | gpio (pin : Nat) (falling : Bool)
  | second (sec : Nat)
  | defect (c : Carrier) (mask : Nat)
  deriving DecidableEq, Repr

/-- The commands and events of the block, in the order of spec/opcode_table.json. -/
inductive Instr where
  /-- NOP (R402). -/
  | nop (pk : Packet)
  /-- FENCE (R403). -/
  | fence (pk : Packet)
  /-- GET_IDENTITY (R404). -/
  | getIdentity (pk : Packet)
  /-- GET_QUEUE_STATUS (R405). -/
  | getQueueStatus (pk : Packet)
  /-- RESET_QUEUE (R406). -/
  | resetQueue (pk : Packet)
  /-- SET_QUEUE_CONFIG (R407). -/
  | setQueueConfig (pk : Packet)
  /-- SET_MODE (R493). -/
  | setMode (pk : Packet)
  /-- SET_DOMAINS (R494). -/
  | setDomains (pk : Packet)
  /-- GET_POWER_STATUS (R495). -/
  | getPowerStatus (pk : Packet)
  /-- SET_SUPERVISION (R496). -/
  | setSupervision (pk : Packet)
  /-- CLEAR_PAIR_FAULT (R497). -/
  | clearPairFault (pk : Packet)
  /-- SET_LINE_PLAN (R41). -/
  | setLinePlan (pk : Packet)
  /-- GET_LINE_PLAN (R42). -/
  | getLinePlan (pk : Packet)
  /-- SET_TX_SHAPING (R59). -/
  | setTxShaping (pk : Packet)
  /-- SET_TX_CORRECTION (R60). -/
  | setTxCorrection (pk : Packet)
  /-- SET_TX_OUTPUT (R61). -/
  | setTxOutput (pk : Packet)
  /-- SET_TX_STATE (R62). -/
  | setTxState (pk : Packet)
  /-- GET_TX_STATUS (R63). -/
  | getTxStatus (pk : Packet)
  /-- SET_RX_FRONT_END (R90). -/
  | setRxFrontEnd (pk : Packet)
  /-- GET_RX_STATUS (R91). -/
  | getRxStatus (pk : Packet)
  /-- SET_CAL_CONTROL (R92). -/
  | setCalControl (pk : Packet)
  /-- GET_CAL_STATUS (R93). -/
  | getCalStatus (pk : Packet)
  /-- SET_MONITOR (R94). -/
  | setMonitor (pk : Packet)
  /-- MONITOR_CONTROL (R95). -/
  | monitorControl (pk : Packet)
  /-- RUN_TONE_SEARCH (R96). -/
  | runToneSearch (pk : Packet)
  /-- SET_RX_DSP (R120). -/
  | setRxDsp (pk : Packet)
  /-- RESTART_ACQUISITION (R121). -/
  | restartAcquisition (pk : Packet)
  /-- GET_CHANNEL_ESTIMATES (R122). -/
  | getChannelEstimates (pk : Packet)
  /-- SET_FEC (R147). -/
  | setFec (pk : Packet)
  /-- SET_FEC_DEFECTS (R148). -/
  | setFecDefects (pk : Packet)
  /-- GET_FEC_STATUS (R149). -/
  | getFecStatus (pk : Packet)
  /-- SET_FRAME_CONFIG (R176). -/
  | setFrameConfig (pk : Packet)
  /-- GET_FRAME_STATUS (R177). -/
  | getFrameStatus (pk : Packet)
  /-- SET_CALENDAR (R234). -/
  | setCalendar (pk : Packet)
  /-- SWAP_CALENDAR (R235). -/
  | swapCalendar (pk : Packet)
  /-- GET_CALENDAR (R236). -/
  | getCalendar (pk : Packet)
  /-- SET_TENANT_CONTROL (R237). -/
  | setTenantControl (pk : Packet)
  /-- GET_TENANT_STATUS (R238). -/
  | getTenantStatus (pk : Packet)
  /-- SET_SKEW_CONFIG (R259). -/
  | setSkewConfig (pk : Packet)
  /-- SET_MERGE_CONFIG (R260). -/
  | setMergeConfig (pk : Packet)
  /-- GET_SKEW_STATUS (R261). -/
  | getSkewStatus (pk : Packet)
  /-- GET_MERGE_STATUS (R262). -/
  | getMergeStatus (pk : Packet)
  /-- SET_PM_CONFIG (R283). -/
  | setPmConfig (pk : Packet)
  /-- SET_PM_THRESHOLDS (R284). -/
  | setPmThresholds (pk : Packet)
  /-- SET_PM_PROFILE (R285). -/
  | setPmProfile (pk : Packet)
  /-- GET_PM_CURRENT (R286). -/
  | getPmCurrent (pk : Packet)
  /-- GET_PM_HISTORY (R287). -/
  | getPmHistory (pk : Packet)
  /-- GET_LINK_QUALITY (R288). -/
  | getLinkQuality (pk : Packet)
  /-- ESTABLISH_KEK (R314). -/
  | establishKek (pk : Packet)
  /-- LOAD_KEY (R315). -/
  | loadKey (pk : Packet)
  /-- GENERATE_KEY (R316). -/
  | generateKey (pk : Packet)
  /-- ROTATE_KEY (R317). -/
  | rotateKey (pk : Packet)
  /-- ERASE_KEY (R318). -/
  | eraseKey (pk : Packet)
  /-- SET_TENANT_CIPHER (R319). -/
  | setTenantCipher (pk : Packet)
  /-- GET_KEY_STATUS (R320). -/
  | getKeyStatus (pk : Packet)
  /-- GET_TURRET_STATUS (R321). -/
  | getTurretStatus (pk : Packet)
  /-- SET_MEMORY_CONFIG (R345). -/
  | setMemoryConfig (pk : Packet)
  /-- GET_MEMORY_STATUS (R346). -/
  | getMemoryStatus (pk : Packet)
  /-- GET_CE_LOG (R347). -/
  | getCeLog (pk : Packet)
  /-- SET_REMAP (R348). -/
  | setRemap (pk : Packet)
  /-- REPAIR_ROW (R349). -/
  | repairRow (pk : Packet)
  /-- SET_REF_CONFIG (R371). -/
  | setRefConfig (pk : Packet)
  /-- SET_DPLL_CONFIG (R372). -/
  | setDpllConfig (pk : Packet)
  /-- SET_SELECTION (R373). -/
  | setSelection (pk : Packet)
  /-- STEP_PHASE (R374). -/
  | stepPhase (pk : Packet)
  /-- SET_TIME (R375). -/
  | setTime (pk : Packet)
  /-- SET_TOD_CONFIG (R376). -/
  | setTodConfig (pk : Packet)
  /-- GET_TIMING_STATUS (R377). -/
  | getTimingStatus (pk : Packet)
  /-- GET_TIME (R378). -/
  | getTime (pk : Packet)
  /-- SET_LEARNING (R379). -/
  | setLearning (pk : Packet)
  /-- SET_RING_ROLE (R459). -/
  | setRingRole (pk : Packet)
  /-- ASSIGN_WORKER (R460). -/
  | assignWorker (pk : Packet)
  /-- GET_RING_STATUS (R461). -/
  | getRingStatus (pk : Packet)
  /-- GET_OUTCOME (R462). -/
  | getOutcome (pk : Packet)
  /-- SET_RING_PROTECT (R463). -/
  | setRingProtect (pk : Packet)
  /-- GET_RING_PROTECT (R464). -/
  | getRingProtect (pk : Packet)
  /-- SET_COUNTER (R432). -/
  | setCounter (pk : Packet)
  /-- GRANT_COUNTERS (R433). -/
  | grantCounters (pk : Packet)
  /-- SET_BW_WINDOW (R434). -/
  | setBwWindow (pk : Packet)
  /-- READ_COUNTERS (R435). -/
  | readCounters (pk : Packet)
  /-- GET_PCIE_STATUS (R436). -/
  | getPcieStatus (pk : Packet)
  /-- SET_LOOP (R538). -/
  | setLoop (pk : Packet)
  /-- SET_LINE_PATTERN (R539). -/
  | setLinePattern (pk : Packet)
  /-- SET_LANE_PATTERN (R540). -/
  | setLanePattern (pk : Packet)
  /-- SET_TENANT_PATTERN (R541). -/
  | setTenantPattern (pk : Packet)
  /-- GET_PATTERN_STATUS (R542). -/
  | getPatternStatus (pk : Packet)
  /-- START_CAPTURE (R543). -/
  | startCapture (pk : Packet)
  /-- TRIGGER_CAPTURE (R544). -/
  | triggerCapture (pk : Packet)
  /-- STOP_CAPTURE (R544). -/
  | stopCapture (pk : Packet)
  /-- BUS_TRANSFER (R545). -/
  | busTransfer (pk : Packet)
  /-- FW_PREPARE (R498). -/
  | fwPrepare (pk : Packet)
  /-- FW_VERIFY (R499). -/
  | fwVerify (pk : Packet)
  /-- FW_ACTIVATE (R500). -/
  | fwActivate (pk : Packet)
  /-- FW_COMMIT (R501). -/
  | fwCommit (pk : Packet)
  /-- GET_FW_STATUS (R502). -/
  | getFwStatus (pk : Packet)
  /-- GET_JOURNAL_STATUS (R503). -/
  | getJournalStatus (pk : Packet)
  /-- SET_HOST_QUAD (R200). -/
  | setHostQuad (pk : Packet)
  /-- SET_HOST_LANE_TX (R201). -/
  | setHostLaneTx (pk : Packet)
  /-- SET_HOST_PHY (R202). -/
  | setHostPhy (pk : Packet)
  /-- SET_CLIENT (R203). -/
  | setClient (pk : Packet)
  /-- SET_FLEXE_GROUP (R204). -/
  | setFlexeGroup (pk : Packet)
  /-- SET_FLEXE_CALENDAR (R205). -/
  | setFlexeCalendar (pk : Packet)
  /-- SWITCH_FLEXE_CALENDAR (R206). -/
  | switchFlexeCalendar (pk : Packet)
  /-- GET_HOST_STATUS (R207). -/
  | getHostStatus (pk : Packet)
  /-- GET_CLIENT_STATUS (R208). -/
  | getClientStatus (pk : Packet)
  /-- INVALID_PACKET (R382). -/
  | invalidPacket (q : QueueId) (bytes : List Byte)
  /-- RELAY_REQUEST (R447). -/
  | relayRequest (q : QueueId) (bytes : List Byte)
  /-- QDATA_WRITE (R387). -/
  | qdataWrite (q : QueueId) (word : BitVec 32) (err : MemErr)
  /-- QUEUE_WRITE_RESUME (R392). -/
  | queueWriteResume (q : QueueId)
  /-- QEND (R387). -/
  | qend (q : QueueId) (len : Nat) (err : MemErr)
  /-- TWI_QDATA_WRITE (R386). -/
  | twiQdataWrite (byte : Byte) (err : MemErr)
  /-- TWI_QEND_WRITE (R386). -/
  | twiQendWrite (bytes : List Byte)
  /-- TWI_RSP_READ (R386). -/
  | twiRspRead
  /-- TWI_STRETCH_EXPIRY (R393). -/
  | twiStretchExpiry
  /-- RESPONSE_WRITE (R385). -/
  | responseWrite (q : QueueId)
  /-- POINTER_WINDOW_CLOSE (R390). -/
  | pointerWindowClose (q : QueueId) (mismatch : Bool)
  /-- FENCE_COMPLETE (R397). -/
  | fenceComplete (q : QueueId)
  /-- CONTROLLER_MISMATCH (R17). -/
  | controllerMismatch
  /-- CONFIG_REQUEST (R409). -/
  | configRequest (w : CfgAccess)
  /-- FUNCTION_LEVEL_RESET (R409). -/
  | functionLevelReset
  /-- PERST_N_ASSERT (R409). -/
  | perstNAssert
  /-- PCIE_LINK (R415). -/
  | pcieLink (speed : Nat) (width : Nat)
  /-- QRSP_SIZE_WRITE (R413). -/
  | qrspSizeWrite (q : QueueId) (value : BitVec 32)
  /-- QRSP_HEAD_WRITE (R413). -/
  | qrspHeadWrite (q : QueueId) (value : BitVec 32)
  /-- EVT_SIZE_WRITE (R414). -/
  | evtSizeWrite (value : BitVec 32)
  /-- EVT_HEAD_WRITE (R414). -/
  | evtHeadWrite (value : BitVec 32)
  /-- EVT_LOST_READ (R414). -/
  | evtLostRead
  /-- MSIX_UNMASK (R414). -/
  | msixUnmask (vector : Nat)
  /-- DMA_DOORBELL (R421). -/
  | dmaDoorbell (ch : Nat) (host : List Host.Cell) (err : Bool)
  /-- DMA_ABORT (R425). -/
  | dmaAbort (ch : Nat)
  /-- DMA_CPL_HEAD_WRITE (R417). -/
  | dmaCplHeadWrite (ch : Nat) (value : BitVec 32)
  /-- CNT_SNAPSHOT (R418). -/
  | cntSnapshot (value : BitVec 32)
  /-- CNT_OVF_CLEAR (R418). -/
  | cntOvfClear (idx : Nat) (value : BitVec 32)
  /-- BW_PEAK_READ (R418). -/
  | bwPeakRead (port : Nat) (out : Bool) (wide : Bool)
  /-- COUNTER_LOW_READ (R410). -/
  | counterLowRead (bar2 : Bool) (offset : Nat)
  /-- VIOLATION_CLEAR (R419). -/
  | violationClear (value : BitVec 32)
  /-- BAR2_COUNTER_READ (R431). -/
  | bar2CounterRead (offset : Nat) (wide : Bool)
  /-- VIOLATION (R411). -/
  | violation (acc : Access)
  /-- REGISTER_WRITE (R6). -/
  | registerWrite (offset : Nat) (value : BitVec 32)
  /-- DMA_BURST (R422). -/
  | dmaBurst (host : List Host.Cell) (hostErr : Bool) (domeErr : Bool)
  /-- RECEIVE_FLUSH_TIMEOUT (R426). -/
  | receiveFlushTimeout (ch : Nat)
  /-- EVENT_RING_WRITE (R416). -/
  | eventRingWrite
  /-- COUNTER_WRAP (R429). -/
  | counterWrap (idx : Nat) (n : Nat)
  /-- BW_WINDOW_END (R430). -/
  | bwWindowEnd (port : Nat)
  /-- PORESET_N_ASSERT (R470). -/
  | poresetNAssert
  /-- PORESET_N_DEASSERT (R485). -/
  | poresetNDeassert
  /-- FIRMWARE_VERIFIED (R485). -/
  | firmwareVerified (read : FlashRead)
  /-- READY (R485). -/
  | ready
  /-- LOCAL_OSC_WINDOW_END (R18). -/
  | localOscWindowEnd (ppb : Option Int)
  /-- LOCAL_OSC_EDGE_LOSS (R18). -/
  | localOscEdgeLoss
  /-- RAIL_WARN (R471). -/
  | railWarn (rail : Nat) (mv : Nat)
  /-- RAIL_WARN_CLEAR (R471). -/
  | railWarnClear (rail : Nat) (mv : Nat)
  /-- RAIL_RESET (R471). -/
  | railReset (rail : Nat) (mv : Nat)
  /-- DOMAIN_RETURN_START (R468). -/
  | domainReturnStart (rail : Nat)
  /-- DOMAIN_PLL_LOCK (R465). -/
  | domainPllLock (dom : Nat)
  /-- DOMAIN_INIT_DONE (R465). -/
  | domainInitDone (dom : Nat)
  /-- FIFO_MISMATCH (R468). -/
  | fifoMismatch (dom : Nat) (fifo : FifoRef)
  /-- FIFO_WINDOW_CLOSE (R468). -/
  | fifoWindowClose (dom : Nat)
  /-- MODE_ANNOUNCE (R24). -/
  | modeAnnounce
  /-- MODE_BOUNDARY (R24). -/
  | modeBoundary
  /-- RAMP_DOWN_DONE (R242). -/
  | rampDownDone
  /-- TXSAFE_ASSERT (R56). -/
  | txsafeAssert (inp : Carrier)
  /-- TXSAFE_DEASSERT (R57). -/
  | txsafeDeassert (inp : Carrier)
  /-- PAIR_FAULT (R473). -/
  | pairFault
  /-- SETTLE_EXPIRY (R57). -/
  | settleExpiry (c : Carrier)
  /-- PFAIL_N_ASSERT (R475). -/
  | pfailNAssert
  /-- PFAIL_N_DEASSERT (R475). -/
  | pfailNDeassert
  /-- TEMP_SAMPLE (R477). -/
  | tempSample (readings : List Int)
  /-- JOURNAL_WRITE (R483). -/
  | journalWrite
  /-- FLASH_OPERATION_DONE (R483). -/
  | flashOperationDone (found : Option (List Byte))
  /-- FW_SLOT_ERASED (R498). -/
  | fwSlotErased
  /-- FW_VERIFY_DONE (R499). -/
  | fwVerifyDone
  /-- FW_CONTROLLER_SWITCH (R488). -/
  | fwControllerSwitch
  /-- FW_CLUSTER_SWITCH (R488). -/
  | fwClusterSwitch (cluster : Nat)
  /-- SUPERFRAME_TRANSMIT (R30). -/
  | superframeTransmit (c : Carrier) (level : FifoLevel)
  /-- TX_CLIP_INTERVAL (R51). -/
  | txClipInterval (c : Carrier) (dac : Nat)
  /-- LINE_PLAN_APPLY_DONE (R41). -/
  | linePlanApplyDone (c : Carrier)
  /-- AGC_WINDOW (R69). -/
  | agcWindow (c : Carrier) (obs : AgcObs)
  /-- AGC_SETTLE_FAIL (R70). -/
  | agcSettleFail (c : Carrier)
  /-- AGC_LIMIT (R68). -/
  | agcLimit (c : Carrier)
  /-- RX_CLIP_INTERVAL (R71). -/
  | rxClipInterval (c : Carrier) (adc : Nat)
  /-- OVERLAP_SAVE_BLOCK (R99). -/
  | overlapSaveBlock (c : Carrier) (obs : OsaObs)
  /-- SYMBOL_GROUP_RECEIVE (R102). -/
  | symbolGroupReceive (c : Carrier) (obs : GroupObs)
  /-- MONITOR_RECORD_CLOSE (R78). -/
  | monitorRecordClose (c : Carrier) (ch : Nat)
  /-- TONE_SWEEP_DONE (R81). -/
  | toneSweepDone (c : Carrier) (bins : List (List (Nat × Nat)))
  /-- CAL_WINDOW_CLOSE (R85). -/
  | calWindowClose (c : Carrier) (item : Nat) (values : List Int)
  /-- CAL_APPLY (R86). -/
  | calApply (c : Carrier) (item : Nat)
  /-- TX_CAL_APPLY (R86). -/
  | txCalApply (c : Carrier)
  /-- TX_CAL_TIMEOUT (R86). -/
  | txCalTimeout (c : Carrier)
  /-- FOREGROUND_CAL_DONE (R89). -/
  | foregroundCalDone (c : Carrier) (values : List (List Int))
  /-- FOREGROUND_CAL_REPEAT (R89). -/
  | foregroundCalRepeat (c : Carrier)
  /-- CAL_DEFERRED (R89). -/
  | calDeferred (c : Carrier)
  /-- CD_SCAN_DONE (R100). -/
  | cdScanDone (c : Carrier) (obs : CdObs)
  /-- FREQ_COARSE_DONE (R106). -/
  | freqCoarseDone (c : Carrier) (khz : Int)
  /-- TIMING_ACQUIRED (R113). -/
  | timingAcquired (c : Carrier) (clockOffset : Int)
  /-- EQ_CONVERGED (R102). -/
  | eqConverged (c : Carrier) (correlated : Bool) (dgd16 : Nat)
  /-- SF_SYNC_FOUND (R113). -/
  | sfSyncFound (c : Carrier) (swapped : Bool) (iqSwapped : Bool)
  /-- FREQ_FINE_DONE (R107). -/
  | freqFineDone (c : Carrier) (khz : Int)
  /-- LOCKED (R113). -/
  | locked (c : Carrier) (est : EstObs)
  /-- ACQUISITION_TIMEOUT (R114). -/
  | acquisitionTimeout (c : Carrier)
  /-- WARM_PATH_TIMEOUT (R116). -/
  | warmPathTimeout (c : Carrier)
  /-- LOSS_OF_LOCK (R116). -/
  | lossOfLock (c : Carrier) (cause : LockLoss)
  /-- EQ_SINGULAR_CHECK (R102). -/
  | eqSingularCheck (c : Carrier) (correlated : Bool) (est : EstObs)
  /-- EQ_LIMIT (R105). -/
  | eqLimit (c : Carrier) (energyOver : Bool)
  /-- XTALK_FALLBACK (R112). -/
  | xtalkFallback (c : Carrier) (parity : Nat)
  /-- XTALK_RESUME (R112). -/
  | xtalkResume (c : Carrier)
  /-- SPACING_ERR (R38). -/
  | spacingErr
  /-- TURBO_PASS (R109). -/
  | turboPass (c : Carrier) (block : Nat) (pass : Nat)
  /-- SUPERFRAME_RECEIVE (R32). -/
  | superframeReceive (c : Carrier)
  /-- LDPC_BLOCK_ENTER (R133). -/
  | ldpcBlockEnter (c : Carrier)
  /-- DECODER_ITERATION_PERIOD (R133). -/
  | decoderIterationPeriod (c : Carrier)
  /-- BLOCK_LEAVE (R135). -/
  | blockLeave (c : Carrier)
  /-- FULL_HUNT_DONE (R136). -/
  | fullHuntDone (c : Carrier)
  /-- FEC_DEG_WINDOW (R143). -/
  | fecDegWindow (c : Carrier)
  /-- FEC_FAIL_WINDOW (R144). -/
  | fecFailWindow (c : Carrier)
  /-- FEC_THROTTLE (R140). -/
  | fecThrottle (c : Carrier)
  /-- FRAME_TRANSMIT (R153). -/
  | frameTransmit
  /-- FRAME_RECEIVE (R165). -/
  | frameReceive (c : Carrier)
  /-- FLYWHEEL_TICK (R169). -/
  | flywheelTick (c : Carrier)
  /-- LOS_DECLARE (R167). -/
  | losDeclare (c : Carrier)
  /-- LOS_CLEAR (R167). -/
  | losClear (c : Carrier)
  /-- MULTIFRAME_BOUNDARY_RX (R162). -/
  | multiframeBoundaryRx (c : Carrier)
  /-- CALENDAR_SWAP_BOUNDARY (R230). -/
  | calendarSwapBoundary
  /-- POINTER_PERIOD_TRANSMIT (R216). -/
  | pointerPeriodTransmit (tenant : Nat) (arrived : List Block66)
  /-- TC_FREQ_OFFSET_WINDOW (R218). -/
  | tcFreqOffsetWindow (tenant : Nat) (offset : Int)
  /-- POINTER_PERIOD_RECEIVE (R221). -/
  | pointerPeriodReceive (tenant : Nat)
  /-- TAG_CHECK_RESULT (R222). -/
  | tagCheckResult (tenant : Nat)
  /-- LANE_FOREGROUND_ADAPT_DONE (R182). -/
  | laneForegroundAdaptDone (lane : Nat) (values : List (List Int))
  /-- LANE_ADAPT_WINDOW (R183). -/
  | laneAdaptWindow (lane : Nat) (obs : LaneObs)
  /-- LANE_ADAPT_APPLY (R182). -/
  | laneAdaptApply (lane : Nat)
  /-- HOST_DEFECT (R197). -/
  | hostDefect (scope : HostScope) (declared : Nat) (indications : Nat)
  /-- RS_FEC_CODEWORD (R186). -/
  | rsFecCodeword (phy : Nat) (received : List (List Nat))
  /-- FLEXE_OVERHEAD_FRAME_RX (R193). -/
  | flexeOverheadFrameRx (phy : Nat) (oh : FlexeOh)
  /-- FLEXE_MULTIFRAME_BOUNDARY (R193). -/
  | flexeMultiframeBoundary (group : Nat)
  /-- FLEXE_CA_TIMEOUT (R193). -/
  | flexeCaTimeout (group : Nat)
  /-- ESMC_TIMEOUT (R352). -/
  | esmcTimeout (group : Nat)
  /-- ESMC_INFO_PDU (R352). -/
  | esmcInfoPdu (group : Nat)
  /-- SKEW_UPDATE (R239). -/
  | skewUpdate (sum : Int)
  /-- SCHEDULE_FRAME_READ (R240). -/
  | scheduleFrameRead (fc : Nat) (arrA : Option Int) (arrB : Option Int)
  /-- EXCESS_END (R244). -/
  | excessEnd
  /-- MERGE_FRAME_SELECT (R252). -/
  | mergeFrameSelect (fc : Nat)
  /-- LEG_QUALIFICATION_HOLD_EXPIRY (R251). -/
  | legQualificationHoldExpiry (leg : Carrier)
  /-- MERGE_WTR_EXPIRY (R253). -/
  | mergeWtrExpiry
  /-- PM_SECOND_END (R265). -/
  | pmSecondEnd (snrAx snrAy snrBx snrBy : Nat)
  /-- PM_SECOND_SETTLE (R268). -/
  | pmSecondSettle
  /-- PM_BIN_CLOSE (R269). -/
  | pmBinClose
  /-- FRAMER_CIPHER_REQUEST (R291). -/
  | framerCipherRequest (tenant : Nat) (transmit : Bool) (served : Bool)
  /-- DOME_CIPHER_REQUEST (R291). -/
  | domeCipherRequest (sector : Nat) (write : Bool) (data : List Byte)
  /-- DOME_SECTOR_TIMEOUT (R292). -/
  | domeSectorTimeout (sector : Nat)
  /-- PIPE_FENCED (R292). -/
  | pipeFenced (pipe : Nat)
  /-- KEEP_ECC_ERROR (R295). -/
  | keepEccError (slot : Nat) (reg : Nat) (kind : EccKind)
  /-- KEY_ROTATED (R302). -/
  | keyRotated (tenant : Nat) (fc : Nat)
  /-- KEK_ESTABLISHED (R305). -/
  | kekEstablished
  /-- KEY_GENERATED (R307). -/
  | keyGenerated (tenant : Nat)
  /-- ENTROPY_TIMEOUT (R311). -/
  | entropyTimeout
  /-- TRNG_HEALTH_FAIL (R311). -/
  | trngHealthFail (samples : List Bool)
  /-- TRNG_RETEST (R311). -/
  | trngRetest (samples : List Bool)
  /-- MASK_REKEY (R310). -/
  | maskRekey
  /-- DOME_STACK_READY (R332). -/
  | domeStackReady (stack : Nat) (failing : List Nat)
  /-- DOME_LINE_OPERATION (R331). -/
  | domeLineOperation (stack : Nat) (addr : Nat) (op : LineOp)
  /-- DOME_REFRESH (R322). -/
  | domeRefresh (stack : Nat) (hot : Bool)
  /-- SCRUB_VISIT (R334). -/
  | scrubVisit (target : Nat) (addr : Nat) (flips : List (Nat × Byte))
  /-- SCRUB_PASS_START (R342). -/
  | scrubPassStart (target : Nat)
  /-- SCRUB_LATE (R342). -/
  | scrubLate (target : Nat)
  /-- SRAM_UNCORRECTABLE (R340). -/
  | sramUncorrectable (region : Nat) (word : Nat) (use : SramUse)
  /-- ROW_REPAIR_DONE (R338). -/
  | rowRepairDone (failed : List Nat)
  /-- REF_PHASE_MEASURE (R353). -/
  | refPhaseMeasure (ref : Nat) (phasePs : Int) (ppb : Int)
  /-- REF_FREQ_CHECK (R353). -/
  | refFreqCheck (ref : Nat)
  /-- REF_SIGNAL_CHANGE (R350). -/
  | refSignalChange (ref : Nat) (valid : Bool)
  /-- REF_WTR_EXPIRY (R355). -/
  | refWtrExpiry (ref : Nat)
  /-- HOLD_OFF_EXPIRY (R356). -/
  | holdOffExpiry
  /-- SELECTION_EVALUATION (R357). -/
  | selectionEvaluation
  /-- DPLL_LOCK (R360). -/
  | dpllLock
  /-- LOCK_FAIL (R360). -/
  | lockFail
  /-- HOLDOVER_CORRECTION_UPDATE (R362). -/
  | holdoverCorrectionUpdate (temp : Int)
  /-- LEARNING_SAMPLE (R363). -/
  | learningSample (freq : Int) (temp : Int)
  /-- MODEL_UPDATE (R363). -/
  | modelUpdate
  /-- MODEL_JOURNAL (R364). -/
  | modelJournal
  /-- SLEW_DONE (R365). -/
  | slewDone
  /-- TOD_SECOND (R366). -/
  | todSecond
  /-- SET_TIME_EDGE_TIMEOUT (R375). -/
  | setTimeEdgeTimeout
  /-- PPS_IN_EDGE (R367). -/
  | ppsInEdge (offsetPs : Int)
  /-- PPS_LOSS (R367). -/
  | ppsLoss
  /-- RING_SIGNAL_DETECT (R441). -/
  | ringSignalDetect (p : Port)
  /-- RING_ALIGN_DONE (R441). -/
  | ringAlignDone (p : Port)
  /-- RING_ALIGN_TIMEOUT (R441). -/
  | ringAlignTimeout (p : Port)
  /-- RING_STEP_START (R441). -/
  | ringStepStart (p : Port)
  /-- RING_STEP_END (R441). -/
  | ringStepEnd (p : Port) (ok : Bool)
  /-- RING_LINK (R442). -/
  | ringLink (p : Port) (codeErrors : Nat)
  /-- RING_MESSAGE_FORWARD (R446). -/
  | ringMessageForward (p : Port) (bytes : List Byte)
  /-- RING_STATUS_RECEIVE (R445). -/
  | ringStatusReceive (p : Port) (m : RingMsg)
  /-- MANAGER_RESUME (R439). -/
  | managerResume
  /-- WORKER_LEFT (R451). -/
  | workerLeft (w : Nat)
  /-- WORKER_REACHABILITY_TIMEOUT (R447). -/
  | workerReachabilityTimeout (w : Nat) (p : Port)
  /-- ROSTER_RECEIVE (R438). -/
  | rosterReceive (m : RingMsg)
  /-- NEG_RECEIVE (R441). -/
  | negReceive (p : Port) (ceil : Nat)
  /-- STATUS_SEND (R445). -/
  | statusSend
  /-- ROSTER_SEND (R438). -/
  | rosterSend
  /-- DELAY_EXCHANGE (R453). -/
  | delayExchange (p : Port) (t1 : Nat)
  /-- DELAY_REQ_RECEIVE (R453). -/
  | delayReqReceive (p : Port) (t2 : Nat) (t3 : Nat)
  /-- DELAY_RESP_RECEIVE (R453). -/
  | delayRespReceive (p : Port) (t2 : Nat) (t3 : Nat) (t4 : Nat)
  /-- TIMING_SEND (R454). -/
  | timingSend
  /-- TIMING_RECEIVE (R454). -/
  | timingReceive (p : Port) (m : RingMsg) (rxSec : Nat) (rxNs : Nat)
  /-- REQUEST_RECEIVE (R449). -/
  | requestReceive (p : Port) (m : RingMsg)
  /-- RECEIPT_RECEIVE (R448). -/
  | receiptReceive (p : Port) (w : Nat) (tag : Nat) (refused : Bool)
  /-- RELAY_RETRY (R448). -/
  | relayRetry (w : Nat)
  /-- RELAY_UNREACHABLE_TIMEOUT (R448). -/
  | relayUnreachableTimeout (w : Nat)
  /-- RESPONSE_RECEIVE (R450). -/
  | responseReceive (p : Port) (m : RingMsg)
  /-- RESP_ACK_RECEIVE (R450). -/
  | respAckReceive (p : Port) (tag : Nat) (epoch : Nat)
  /-- RESPONSE_RESEND (R450). -/
  | responseResend
  /-- EVENT_RECEIVE (R452). -/
  | eventReceive (p : Port) (m : RingMsg)
  /-- PM_RECEIVE (R452). -/
  | pmReceive (p : Port) (m : RingMsg)
  /-- STREAM_ACK_RECEIVE (R452). -/
  | streamAckReceive (p : Port) (type : Nat) (seq : Nat)
  /-- STREAM_RESEND (R452). -/
  | streamResend
  /-- PROTECT_RECEIVE (R456). -/
  | protectReceive (m : RingMsg)
  /-- PROTECT_SEND (R456). -/
  | protectSend (pair : Nat)
  /-- PROTECT_WTR_EXPIRY (R456). -/
  | protectWtrExpiry (pair : Nat)
  /-- PROTECT_PARTNER (R457). -/
  | protectPartner (pair : Nat)
  /-- ENGINE_FAILED (R15). -/
  | engineFailed (e : Nat)
  /-- ENGINE_FAILOVER (R15). -/
  | engineFailover (e : Nat)
  /-- ENGINE_CHECKPOINT (R15). -/
  | engineCheckpoint (e : Nat)
  /-- CAPTURE_TRIGGER (R532). -/
  | captureTrigger (src : CapSource)
  /-- CAPTURE_POST_DONE (R531). -/
  | capturePostDone
  /-- CAPTURE_END_EARLY (R534). -/
  | captureEndEarly (reason : Nat)
  /-- PATTERN_LOCK (R528). -/
  | patternLock (kind idx : Nat) (errs : List Bool)
  /-- TIMING_FALLBACK (R526). -/
  | timingFallback (c : Carrier)
  /-- BUS_TRANSFER_DONE (R535). -/
  | busTransferDone (bus : Nat) (status : Nat) (bytes : List Byte)
  /-- BUS_STUCK_RELEASE (R535). -/
  | busStuckRelease (bus : Nat)
  /-- WAIT_SIGNAL_TIMEOUT (R121). -/
  | waitSignalTimeout (c : Carrier)
  /-- RING_TIMING_TIMEOUT (R369). -/
  | ringTimingTimeout
  /-- PERST_N_DEASSERT (R409). -/
  | perstNDeassert
  /-- CONTROLLER_RESTART_DONE (R17). -/
  | controllerRestartDone
  /-- HOLDOVER_READY (R360). -/
  | holdoverReady
  deriving DecidableEq, Repr

end Sys2Proof
end

