-- ==== Sys2Proof/Decode.lean ====
section
/-! DEFINITION. Decoding of table words. No row of spec/opcode_table.json gives bits: a command reaches the block as a row of its queue, not
as a word. -/

namespace Sys2Proof

/-- The command that a table word spells: none, since no row of the table gives bits. [log 5 DEDUCED] -/
def decodeTableWord (_nbits _w : Nat) : Option Instr := none

end Sys2Proof
end

