-- ==== Sys2Proof/Config.lean ====
section
/-! DEFINITION. What the board, the fuses or the analogue world fix and the manual leaves open. A constant without a body is a free value:
no proof can see what it is. -/

namespace Sys2Proof.Config

/-- A value that the manual leaves open: the point that asks and the running count of such questions. -/
opaque freeNat : Nat → Nat → Nat

/-- A signed value that the manual leaves open. -/
opaque freeInt : Nat → Nat → Int

/-- A choice that the manual leaves open. -/
opaque freeBool : Nat → Nat → Bool

/-- The straps TWI_ADDR1 and TWI_ADDR0 of the two-wire address (R518). -/
opaque straps : Fin 4

/-- The 8-bit code of a component of a MIMO output symbol in a capture (R530). -/
opaque symbolCode : Int → BitVec 8

/-- The key of the conditioning component of the TRNG (R309). -/
opaque conditionKey : Nat → BitVec 8

/-- Block `i` of the alignment markers that IEEE 802.3 gives a PHY type (R187). -/
opaque hostMarker : Nat → Nat → BitVec 257

/-- The place of the main tap among the 12 receive FFE taps of a host lane (R183). -/
opaque mainTap : Fin 12

/-- Spare rows of a bank of the Dome beyond its first, keyed by 1024 x stack + 32 x pseudo-channel + bank (R338). -/
opaque spareRows : Nat → Nat

/-- An output sample of a monitor chain: a running count, the moving average's values (R77). -/
opaque monitorSample : Nat → List Int → Int

/-- A sample of a channel moved by a skew of so many 1/64 ps: skew, samples, place (R49). -/
opaque delayedSample : Int → List Int → Nat → Int

end Sys2Proof.Config
end

