-- ==== Sys2Proof/Machine/Data.lean ====
section
/-! DEFINITION. The containers of the state: one value per carrier or port, and sparse tables in one canonical form. -/

namespace Sys2Proof.Machine

/-- One value per carrier, or per ring port (east is `a`). -/
structure Pair (α : Type) where
  a : α
  b : α
  deriving DecidableEq, Repr

/-- The value of one carrier. -/
def pget {α : Type} (p : Pair α) : Carrier → α
  | .a => p.a
  | .b => p.b

/-- The pair with the value of one carrier replaced. -/
def pset {α : Type} (p : Pair α) (c : Carrier) (v : α) : Pair α :=
  match c with
  | .a => { p with a := v }
  | .b => { p with b := v }

/-- The pair with the value of one carrier updated. -/
def pupd {α : Type} (p : Pair α) (c : Carrier) (f : α → α) : Pair α := pset p c (f (pget p c))

/-- Carrier number of a command field or event argument: 0 carrier A, 1 carrier B (R8). -/
def carrierNum : Carrier → Nat
  | .a => 0
  | .b => 1

/-- The carrier that a command field names; the field is checked before. -/
def carrierOf (n : Nat) : Carrier := if n = 0 then .a else .b

/-- The other carrier. -/
def otherCarrier : Carrier → Carrier
  | .a => .b
  | .b => .a

/-- Port number (R461): 0 east, 1 west. -/
def portNum : Port → Nat
  | .east => 0
  | .west => 1

/-- The place of a port in a pair. -/
def portSlot : Port → Carrier
  | .east => .a
  | .west => .b

/-- The other port. -/
def otherPort : Port → Port
  | .east => .west
  | .west => .east

/-- A sparse table: keys strictly rising, no entry equal to the default that an unlisted key reads as. -/
abbrev Tbl (α : Type) := List (Nat × α)

/-- The value at a key. -/
def tget {α : Type} (d : α) : Tbl α → Nat → α
  | [], _ => d
  | (j, v) :: r, k => if j = k then v else tget d r k

/-- The table without a key. -/
def terase {α : Type} : Tbl α → Nat → Tbl α
  | [], _ => []
  | (j, v) :: r, k => if j = k then r else (j, v) :: terase r k

/-- The table with a key set to a value, whatever the value. -/
def tput {α : Type} : Tbl α → Nat → α → Tbl α
  | [], k, v => [(k, v)]
  | (j, w) :: r, k, v => if j = k then (k, v) :: r else if k < j then (k, v) :: (j, w) :: r else (j, w) :: tput r k v

/-- The table with a key set: a default value leaves no entry. -/
def tset {α : Type} [DecidableEq α] (d : α) (t : Tbl α) (k : Nat) (v : α) : Tbl α :=
  if v = d then terase t k else tput t k v

/-- The table with a key updated. -/
def tupd {α : Type} [DecidableEq α] (d : α) (t : Tbl α) (k : Nat) (f : α → α) : Tbl α := tset d t k (f (tget d t k))

/-- Every entry of a table lies above a key and differs from the default. -/
def tblAbove {α : Type} [DecidableEq α] (d : α) : Nat → Tbl α → Bool
  | _, [] => true
  | lo, (j, v) :: r => decide (lo ≤ j) && decide (v ≠ d) && tblAbove d (j + 1) r

/-- The canonical form of a table. -/
def tblWf {α : Type} [DecidableEq α] (d : α) (t : Tbl α) : Bool := tblAbove d 0 t

/-- The list with one place updated; a place beyond the list changes nothing. -/
def lupd {α : Type} (l : List α) (i : Nat) (f : α → α) : List α := l.modify i f

/-- The record of R87 and R88 for values keyed by number: runs of consecutive failures, values that passed since their item
was stuck, the stuck mask. -/
structure Track where
  runs   : Tbl Nat := []
  passed : Tbl Bool := []
  stuck  : Nat := 0
  deriving DecidableEq, Repr

/-- A saturating counter of `w` bits counts `n` more. -/
def satAdd (w x n : Nat) : Nat := min (x + n) (2 ^ w - 1)

/-- A mask bit as a Bool. -/
def bitOf (m i : Nat) : Bool := m.testBit i

/-- One bit of a mask set or cleared. -/
def setBit (m i : Nat) (v : Bool) : Nat :=
  if v then (if m.testBit i then m else m + 2 ^ i) else (if m.testBit i then m - 2 ^ i else m)

/-- A Bool as a number. -/
def b2n (b : Bool) : Nat := if b then 1 else 0

/-- A number kept within bounds. -/
def clampInt (lo hi x : Int) : Int := max lo (min hi x)

/-- Division rounding to the nearest, halves away from zero. -/
def roundDiv (x : Int) (d : Nat) : Int :=
  if 0 ≤ x then (2 * x + d) / (2 * d) else -((2 * (-x) + d) / (2 * d))

/-- A checked value is recorded (R87, R88): `keys` are the keys of all values of its item. -/
def trackValue (item : Nat) (keys : List Nat) (key : Nat) (pass : Bool) (t : Track) : Track :=
  if pass then
    let t1 := { t with runs := tset 0 t.runs key 0 }
    if t.stuck.testBit item then
      let p := tset false t.passed key true
      if keys.all (fun k => tget false p k) then
        { t1 with stuck := setBit t.stuck item false, passed := keys.foldl (fun q k => tset false q k false) p }
      else { t1 with passed := p }
    else t1
  else
    let n := tget 0 t.runs key + 1
    let t1 := { t with runs := tset 0 t.runs key n }
    if n = 8 && !t.stuck.testBit item then
      { t1 with stuck := setBit t.stuck item true, passed := keys.foldl (fun q k => tset false q k false) t.passed }
    else t1

end Sys2Proof.Machine
end

