-- ==== Sys2Proof/Machine/Prbs.lean ====
section
/-! DEFINITION. The pseudo-random sequences of the line (R30, R46, R152, R527) and packed bit strings: bit k of a packed string is its k-th
bit in sending order. -/

namespace Sys2Proof.Machine

/-- One step of a shift register of `w` bits for x^w + x^k + 1: the oldest bit leaves as the output, and the sum of stages w
and k enters. [log 189 DESIGN CHOICE] -/
def lfsrStep (w k r : Nat) : Nat := (2 * r + b2n (r.testBit (w - 1) != r.testBit (k - 1))) % 2 ^ w

/-- `n` output bits of a register. -/
def lfsrBits (w k : Nat) : Nat → Nat → List Bool
  | 0, _ => []
  | n + 1, r => r.testBit (w - 1) :: lfsrBits w k n (lfsrStep w k r)

/-- The register after `n` steps. -/
def lfsrAfter (w k : Nat) : Nat → Nat → Nat
  | 0, r => r
  | n + 1, r => lfsrAfter w k n (lfsrStep w k r)

/-- Bits packed, the first as bit 0. -/
def packBits : List Bool → Nat
  | [] => 0
  | b :: r => b2n b + 2 * packBits r

/-- The first `n` bits of a packed string. -/
def unpackBits : Nat → Nat → List Bool
  | 0, _ => []
  | n + 1, v => v.testBit 0 :: unpackBits n (v / 2)

/-- `n` output bits of a register, packed. -/
def lfsrPacked (w k n seed : Nat) : Nat := packBits (lfsrBits w k n seed)

/-- Bytes packed in sending order, each byte most significant bit first (R150). -/
def packBytes : List Byte → Nat
  | [] => 0
  | b :: r => b.reverse.toNat + 256 * packBytes r

/-- The first `n` bytes of a packed string. -/
def unpackBytes : Nat → Nat → List Byte
  | 0, _ => []
  | n + 1, v => (BitVec.ofNat 8 v).reverse :: unpackBytes n (v / 256)

/-- The bits of a number that are set, counted over `n` bits. -/
def popCount : Nat → Nat → Nat
  | 0, _ => 0
  | n + 1, v => v % 2 + popCount n (v / 2)

/-- The scrambler sequence over `n` bits (R152): x^31 + x^28 + 1, set to 0x7FFF_FFFF at frame bit 64. -/
def scramblerBits (n : Nat) : Nat := lfsrPacked 31 28 n 0x7FFFFFFF

/-- A frame of `n` bits, packed, scrambled or descrambled from bit 64 on (R152). -/
def scramble (n frame : Nat) : Nat := frame ^^^ (scramblerBits (n - 64) * 2 ^ 64)

end Sys2Proof.Machine
end

