-- ==== Sys2Proof/Machine/Bch.lean ====
section
/-! DEFINITION. The outer code BCH(1057,1024) over GF(2^11) (R125, R126). A word is packed: bit k is its k-th bit in sending order, the
coefficient of x^(1056 - k). -/

namespace Sys2Proof.Machine

/-! Fields of characteristic 2. -/

/-- A field GF(2^bits) on a primitive polynomial. -/
structure Field where
  bits : Nat
  poly : Nat
  deriving DecidableEq, Repr

/-- GF(2^11) on x^11 + x^2 + 1 (R125). -/
def outerField : Field := ⟨11, 0x805⟩

/-- A field element times x. -/
def gfStep (f : Field) (a : Nat) : Nat := if a.testBit (f.bits - 1) then (2 * a) ^^^ f.poly else 2 * a

/-- The product of two field elements, over the bits of the second from bit `n - 1` down. -/
def gfTimes (f : Field) (a b : Nat) : Nat → Nat
  | 0 => 0
  | n + 1 => (if b.testBit 0 then a else 0) ^^^ gfTimes f (gfStep f a) (b / 2) n

/-- The product of two field elements. -/
def gfProd (f : Field) (a b : Nat) : Nat := gfTimes f a b f.bits

/-- A power by squaring, with fuel for the bits of the exponent. -/
def gfPowFrom (f : Field) : Nat → Nat → Nat → Nat → Nat
  | 0, _, _, acc => acc
  | k + 1, b, n, acc => gfPowFrom f k (gfProd f b b) (n / 2) (if n % 2 = 1 then gfProd f acc b else acc)

/-- A power of a field element. -/
def gfPower (f : Field) (b n : Nat) : Nat := gfPowFrom f f.bits b n 1

/-- The inverse of a field element, a^(2^bits - 2). -/
def gfInverse (f : Field) (a : Nat) : Nat := gfPower f a (2 ^ f.bits - 2)

/-- The power of the root: alpha^n (R125). -/
def alphaPow (f : Field) (n : Nat) : Nat := gfPower f 2 (n % (2 ^ f.bits - 1))

/-- A polynomial over the field (coefficients from x^0 on) times x + r. -/
def polyTimesRoot (f : Field) (r : Nat) (p : List Nat) : List Nat :=
  List.zipWith (· ^^^ ·) (0 :: p) (p.map (gfProd f r) ++ [0])

/-! The generator polynomial. -/

/-- The conjugates of alpha^k: exponents k, 2 k, 4 k and on, 11 of them. -/
def conjugates (k : Nat) : List Nat := (List.range 11).map fun i => k * 2 ^ i % 2047

/-- The minimal polynomial of alpha^k, its coefficients from x^0 on. -/
def minimalPoly (k : Nat) : List Nat := (conjugates k).foldl (fun p e => polyTimesRoot outerField (alphaPow outerField e) p) [1]

/-- A polynomial with coefficients 0 and 1 packed: bit i is the coefficient of x^i. -/
def polyBits (p : List Nat) : Nat := packBits (p.map (· == 1))

/-- The product of packed polynomials over GF(2), over the `n` low coefficients of the first. -/
def polyMul : Nat → Nat → Nat → Nat
  | 0, _, _ => 0
  | n + 1, a, b => (if a.testBit 0 then b else 0) ^^^ polyMul n (a / 2) (2 * b)

/-- g(x) = m1(x) m3(x) m5(x), of degree 33 (R125). -/
def bchGenerator : Nat := polyMul 12 (polyBits (minimalPoly 1)) (polyMul 12 (polyBits (minimalPoly 3)) (polyBits (minimalPoly 5)))

/-! Encoding. -/

/-- The remainder register after one message bit, highest degree first. -/
def bchStep (g r : Nat) (b : Bool) : Nat := if r.testBit 32 != b then (2 * r) ^^^ g else 2 * r

/-- The remainder of the message polynomial modulo g (R125). -/
def bchRemainder (g msg : Nat) : Nat := (unpackBits 1024 msg).foldl (bchStep g) 0

/-- A codeword: the 1,024 message bits, then the 33 parity bits, highest degree first (R125). -/
def bchEncode (msg : Nat) : Nat :=
  msg % 2 ^ 1024 + packBits ((List.range 33).map fun i => (bchRemainder bchGenerator msg).testBit (32 - i)) * 2 ^ 1024

/-! Decoding (R126). -/

/-- The value of a received word at a field element, by Horner over its bits. -/
def bchEval (x : Nat) (w : Nat) : Nat := (unpackBits 1057 w).foldl (fun a b => gfProd outerField a x ^^^ b2n b) 0

/-- The syndromes S1 to S6. -/
def bchSyndromes (w : Nat) : List Nat := (List.range 6).map fun i => bchEval (alphaPow outerField (i + 1)) w

/-- A list element, 0 beyond the list. -/
def at0 (l : List Nat) (i : Nat) : Nat := l.getD i 0

/-- Berlekamp-Massey: the running locator, the one before the last length change, its length, the gap since, that change's
discrepancy. -/
structure BmState where
  loc  : List Nat := [1]
  prev : List Nat := [1]
  len  : Nat := 0
  gap  : Nat := 1
  disc : Nat := 1
  deriving DecidableEq, Repr

/-- One step of the Berlekamp-Massey method for syndrome `n` (from 0 on). -/
def bmStep (f : Field) (syn : List Nat) (st : BmState) (n : Nat) : BmState :=
  let d := (List.range (st.len + 1)).foldl (fun a i => a ^^^ gfProd f (at0 st.loc i) (at0 syn (n - i))) 0
  if d = 0 then { st with gap := st.gap + 1 }
  else
    let k := gfProd f d (gfInverse f st.disc)
    let shifted := List.replicate st.gap 0 ++ st.prev.map (gfProd f k)
    let m := max st.loc.length shifted.length
    let next := (List.range m).map fun i => at0 st.loc i ^^^ at0 shifted i
    if 2 * st.len ≤ n then { loc := next, prev := st.loc, len := n + 1 - st.len, gap := 1, disc := d }
    else { st with loc := next, gap := st.gap + 1 }

/-- The error locator of syndromes: its coefficients from x^0 on, and its length. -/
def bmLocator (f : Field) (syn : List Nat) : List Nat × Nat :=
  let st := (List.range syn.length).foldl (bmStep f syn) {}
  (st.loc, st.len)

/-- The degree of a polynomial over the field. -/
def polyDegree (p : List Nat) : Nat := ((List.range p.length).filter fun i => at0 p i != 0).foldl max 0

/-- The value of a polynomial over the field. -/
def polyAt (f : Field) (p : List Nat) (x : Nat) : Nat := p.foldr (fun c a => c ^^^ gfProd f a x) 0

/-- The positions of the word, bit k at degree 1056 - k, at which the locator has a root alpha^(-degree). -/
def bchRoots (loc : List Nat) : List Nat :=
  (List.range 1057).filter fun k => polyAt outerField loc (alphaPow outerField (2047 - (1056 - k))) == 0

/-- The outcome of the outer decoder for one word, with the word that it passes on (R126). -/
def bchDecode (w : Nat) : Nat × OuterOutcome :=
  let syn := bchSyndromes w
  if syn.all (· == 0) then (w, .clean)
  else
    let l := bmLocator outerField syn
    let deg := polyDegree l.1
    let roots := bchRoots l.1
    if 1 ≤ deg && deg ≤ 3 && l.2 == deg && roots.length == deg then
      (roots.foldl (fun v k => v ^^^ 2 ^ k) w, .corrected deg)
    else (w, .uncorrectable)

end Sys2Proof.Machine
end

