-- ==== Sys2Proof/Machine/Bytes.lean ====
section
/-! DEFINITION. Byte order, fields of parameter blocks and results, and the cyclic codes of the block. -/

namespace Sys2Proof.Machine

/-- `n` bytes of a number, little-endian (R3). -/
def le : Nat → Nat → List Byte
  | 0, _ => []
  | n + 1, v => BitVec.ofNat 8 v :: le n (v / 256)

/-- `n` bytes of a signed number, little-endian, two's complement. -/
def leS (n : Nat) (v : Int) : List Byte := le n (v % (256 ^ n : Nat)).toNat

/-- `n` bytes of a number, most significant first (R3, wire formats). -/
def be (n v : Nat) : List Byte := (le n v).reverse

/-- The number that bytes hold, little-endian. -/
def leNat : List Byte → Nat
  | [] => 0
  | b :: r => b.toNat + 256 * leNat r

/-- The number that bytes hold, most significant first. -/
def beNat (l : List Byte) : Nat := leNat l.reverse

/-- A number of `w` bits read as two's complement. -/
def signed (w v : Nat) : Int := if v < 2 ^ (w - 1) then (v : Int) else (v : Int) - (2 ^ w : Nat)

/-- `n` bytes of a block from an offset; bytes beyond the block read zero. -/
def slice (l : List Byte) (off n : Nat) : List Byte := ((l.drop off).take n) ++ List.replicate (n - ((l.drop off).take n).length) 0

/-- Unsigned field of `n` bytes. -/
def uField (l : List Byte) (off n : Nat) : Nat := leNat ((l.drop off).take n)

/-- Signed field of `n` bytes. -/
def sField (l : List Byte) (off n : Nat) : Int := signed (8 * n) (uField l off n)

/-- Byte field. -/
def u8 (l : List Byte) (off : Nat) : Nat := uField l off 1
/-- 16-bit field. -/
def u16 (l : List Byte) (off : Nat) : Nat := uField l off 2
/-- 32-bit field. -/
def u32 (l : List Byte) (off : Nat) : Nat := uField l off 4
/-- 64-bit field. -/
def u64 (l : List Byte) (off : Nat) : Nat := uField l off 8
/-- Signed 8-bit field. -/
def i8 (l : List Byte) (off : Nat) : Int := sField l off 1
/-- Signed 16-bit field. -/
def i16 (l : List Byte) (off : Nat) : Int := sField l off 2
/-- Signed 32-bit field. -/
def i32 (l : List Byte) (off : Nat) : Int := sField l off 4

/-- The bytes from an offset are zero: a reserved field (R5). -/
def zeroAt (l : List Byte) (off n : Nat) : Bool := uField l off n == 0

/-- A field of a number: bits [hi:lo]. -/
def bits (v hi lo : Nat) : Nat := v / 2 ^ lo % 2 ^ (hi + 1 - lo)

/-- Bytes padded with zeros to a multiple of `m`. -/
def padTo (m : Nat) (l : List Byte) : List Byte := l ++ List.replicate ((m - l.length % m) % m) 0

/-- One bit of a reflected CRC register of `w` bits. -/
def crcBit {w : Nat} (poly : BitVec w) (c : BitVec w) : BitVec w :=
  if c.getLsbD 0 then (c >>> 1) ^^^ poly else c >>> 1

/-- `n` bits of a reflected CRC register. -/
def crcBits {w : Nat} (poly : BitVec w) : Nat → BitVec w → BitVec w
  | 0, c => c
  | n + 1, c => crcBits poly n (crcBit poly c)

/-- CRC-32C register over bytes, polynomial 0x1EDC_6F41 reflected (R381). -/
def crc32cFrom : BitVec 32 → List Byte → BitVec 32
  | c, [] => c
  | c, b :: r => crc32cFrom (crcBits 0x82F63B78#32 8 (c ^^^ b.setWidth 32)) r

/-- CRC-32C with initial value and final XOR of ones (R381). -/
def crc32c (l : List Byte) : BitVec 32 := ~~~ (crc32cFrom 0xFFFFFFFF#32 l)

/-- One bit, most significant first, of a CRC register of `w` bits. -/
def crcMsbBit {w : Nat} (poly : BitVec w) (c : BitVec w) (b : Bool) : BitVec w :=
  if c.getLsbD (w - 1) != b then (c <<< 1) ^^^ poly else c <<< 1

/-- A most-significant-first CRC over bits. -/
def crcMsb {w : Nat} (poly : BitVec w) : BitVec w → List Bool → BitVec w
  | c, [] => c
  | c, b :: r => crcMsb poly (crcMsbBit poly c b) r

/-- The bits of a number, most significant first. -/
def msbBits : Nat → Nat → List Bool
  | 0, _ => []
  | n + 1, v => v.testBit n :: msbBits n v

/-- The bits of bytes, most significant of each byte first. -/
def bytesBits (l : List Byte) : List Bool := l.flatMap fun b => msbBits 8 b.toNat

/-- ASCII bytes. -/
def asciiOf (l : List Nat) : List Byte := l.map (BitVec.ofNat 8)

end Sys2Proof.Machine
end

