-- ==== Sys2Proof/Machine/Crypto.lean ====
section
/-! DEFINITION. The algorithms that spec/12_turret_cipher.md names by their standards: AES-256, key wrap (R306), XTS (R308), SHA-384,
P-384 and the key derivation of R305. Their content comes from those standards (PRESUMED). -/

namespace Sys2Proof.Machine

/-! AES-256. -/

/-- Multiplication by x in the AES field. -/
def gfDouble (a : Byte) : Byte := if a.getLsbD 7 then (a <<< 1) ^^^ 0x1B#8 else a <<< 1

/-- Product in the AES field. -/
def gfMulFrom : Nat → Byte → Byte → Byte → Byte
  | 0, _, _, acc => acc
  | f + 1, a, b, acc => gfMulFrom f (gfDouble a) (b >>> 1) (if b.getLsbD 0 then acc ^^^ a else acc)

/-- Product in the AES field. -/
def gfMul (a b : Byte) : Byte := gfMulFrom 8 a b 0

/-- The product of the powers a^2, a^4 up to a^128: the inverse a^254. -/
def gfInvFrom : Nat → Byte → Byte → Byte
  | 0, _, acc => acc
  | f + 1, a, acc => gfInvFrom f (gfMul a a) (gfMul acc (gfMul a a))

/-- Inverse in the AES field; 0 for 0. -/
def gfInv (a : Byte) : Byte := gfInvFrom 7 a 1#8

/-- The S-box. -/
def aesSub (a : Byte) : Byte :=
  let i := gfInv a
  i ^^^ i.rotateLeft 1 ^^^ i.rotateLeft 2 ^^^ i.rotateLeft 3 ^^^ i.rotateLeft 4 ^^^ 0x63#8

/-- The inverse S-box. -/
def aesSubInv (a : Byte) : Byte := gfInv (a.rotateLeft 1 ^^^ a.rotateLeft 3 ^^^ a.rotateLeft 6 ^^^ 0x05#8)

/-- XOR of byte strings. -/
def xorBytes (a b : List Byte) : List Byte := List.zipWith (· ^^^ ·) a b

/-- The rows of a state of 16 bytes in column order shift by `k` times their number. -/
def aesShift (k : Nat) (l : List Byte) : List Byte :=
  (List.range 16).map fun i => l.getD (i % 4 + 4 * ((i / 4 + k * (i % 4)) % 4)) 0

/-- The columns multiply by a circulant. -/
def aesMix (m0 m1 m2 m3 : Byte) (l : List Byte) : List Byte :=
  (List.range 16).map fun i =>
    let c (j : Nat) : Byte := l.getD (4 * (i / 4) + (i + j) % 4) 0
    gfMul m0 (c 0) ^^^ gfMul m1 (c 1) ^^^ gfMul m2 (c 2) ^^^ gfMul m3 (c 3)

/-- Key schedule: `n` more words of 4 bytes from the words so far, newest first; `i` the number of the next word. -/
def aesExpand : Nat → Nat → Byte → List (List Byte) → List (List Byte)
  | 0, _, _, ws => ws
  | n + 1, i, rc, ws =>
    let t := ws.headD []
    let old := ws.getD 7 []
    let g := if i % 8 = 0 then xorBytes ((t.drop 1 ++ t.take 1).map aesSub) [rc, 0, 0, 0]
      else if i % 8 = 4 then t.map aesSub else t
    aesExpand n (i + 1) (if i % 8 = 0 then gfDouble rc else rc) (xorBytes old g :: ws)

/-- The 15 round keys of 16 bytes. -/
def aesKeys (key : List Byte) : List (List Byte) :=
  let w0 := (List.range 8).map fun i => slice key (4 * i) 4
  let ws := (aesExpand 52 8 1#8 w0.reverse).reverse
  (List.range 15).map fun r => ((ws.drop (4 * r)).take 4).flatten

/-- AES-256 of one block of 16 bytes under round keys. [log 130 PRESUMED] -/
def aesEncrypt (ks : List (List Byte)) (b : List Byte) : List Byte :=
  let s := ((ks.drop 1).take 13).foldl (fun x k => xorBytes (aesMix 2 3 1 1 (aesShift 1 (x.map aesSub))) k) (xorBytes b (ks.headD []))
  xorBytes (aesShift 1 (s.map aesSub)) (ks.getD 14 [])

/-- The inverse cipher. [log 130 PRESUMED] -/
def aesDecrypt (ks : List (List Byte)) (b : List Byte) : List Byte :=
  let s := (((ks.drop 1).take 13).reverse).foldl
    (fun x k => aesMix 14 11 13 9 (xorBytes ((aesShift 3 x).map aesSubInv) k)) (xorBytes b (ks.getD 14 []))
  xorBytes ((aesShift 3 s).map aesSubInv) (ks.headD [])

/-! AES key wrap (RFC 3394). -/

/-- One step of the wrap over `A` and the semiblocks; `t` its number. -/
def kwStep (ks : List (List Byte)) (n : Nat) (st : List Byte × List (List Byte)) (t : Nat) : List Byte × List (List Byte) :=
  let i := (t - 1) % n
  let b := aesEncrypt ks (st.1 ++ st.2.getD i [])
  (xorBytes (b.take 8) (be 8 t), st.2.set i (b.drop 8))

/-- One step of the unwrap. -/
def kwBack (ks : List (List Byte)) (n : Nat) (st : List Byte × List (List Byte)) (t : Nat) : List Byte × List (List Byte) :=
  let i := (t - 1) % n
  let b := aesDecrypt ks (xorBytes st.1 (be 8 t) ++ st.2.getD i [])
  (b.take 8, st.2.set i (b.drop 8))

/-- Semiblocks of 8 bytes. -/
def semiblocks (l : List Byte) : List (List Byte) := (List.range (l.length / 8)).map fun i => slice l (8 * i) 8

/-- A key wrapped under a KEK. [log 130 PRESUMED] -/
def keyWrap (kek plain : List Byte) : List Byte :=
  let ks := aesKeys kek
  let n := plain.length / 8
  let r := ((List.range (6 * n)).map (· + 1)).foldl (kwStep ks n) (List.replicate 8 0xA6#8, semiblocks plain)
  r.1 ++ r.2.flatten

/-- The plaintext of a wrapped key, where its integrity check holds. -/
def keyUnwrap (kek blob : List Byte) : Option (List Byte) :=
  let ks := aesKeys kek
  let n := blob.length / 8 - 1
  let r := ((List.range (6 * n)).map (6 * n - ·)).foldl (kwBack ks n) (blob.take 8, semiblocks (blob.drop 8))
  if r.1 = List.replicate 8 0xA6#8 then some r.2.flatten else none

/-! XTS-AES-256 (R308). -/

/-- The next tweak: multiplication by x in GF(2^128), little-endian. -/
def xtsNext (t : List Byte) : List Byte :=
  let v := leNat t
  let d := v * 2
  le 16 (if d < 2 ^ 128 then d else (d - 2 ^ 128) ^^^ 0x87)

/-- The blocks of a sector run through a cipher, each under its tweak. -/
def xtsBlocks (f : List Byte → List Byte) : Nat → List Byte → List Byte → List Byte
  | 0, _, _ => []
  | n + 1, t, l => xorBytes (f (xorBytes (l.take 16) t)) t ++ xtsBlocks f n (xtsNext t) (l.drop 16)

/-- A sector of 4,096 bytes encrypted under K1 and K2. -/
def xtsEncrypt (k1 k2 : List Byte) (sector : Nat) (data : List Byte) : List Byte :=
  xtsBlocks (aesEncrypt (aesKeys k1)) 256 (aesEncrypt (aesKeys k2) (le 16 sector)) data

/-- A sector decrypted. -/
def xtsDecrypt (k1 k2 : List Byte) (sector : Nat) (data : List Byte) : List Byte :=
  xtsBlocks (aesDecrypt (aesKeys k1)) 256 (aesEncrypt (aesKeys k2) (le 16 sector)) data

/-! SHA-384. -/

/-- The first primes in order, `n` more from `c` on, by trial division with the primes found. -/
def primesFrom : Nat → Nat → List Nat → List Nat
  | 0, _, ps => ps
  | f + 1, c, ps => primesFrom f (c + 1) (if ps.any (fun p => c % p == 0) then ps else ps ++ [c])

/-- The largest number whose power `e` is at most `v`, bit by bit from bit `n`. -/
def rootFrom (e v : Nat) : Nat → Nat → Nat
  | 0, acc => acc
  | n + 1, acc => rootFrom e v n (if (acc + 2 ^ n) ^ e ≤ v then acc + 2 ^ n else acc)

/-- The first 80 primes: those below 410. -/
def shaPrimes : List Nat := primesFrom 408 2 []

/-- The round constants: fractional bits of cube roots of primes. -/
def shaK : List (BitVec 64) := shaPrimes.map fun p => BitVec.ofNat 64 (rootFrom 3 (p * 2 ^ 192) 68 0)

/-- The initial value of SHA-384: fractional bits of square roots of the 9th to 16th primes. -/
def shaInit : List (BitVec 64) := ((shaPrimes.drop 8).take 8).map fun p => BitVec.ofNat 64 (rootFrom 2 (p * 2 ^ 128) 68 0)

/-- Message schedule: `n` more words, newest first. -/
def shaSchedule : Nat → List (BitVec 64) → List (BitVec 64)
  | 0, ws => ws
  | n + 1, ws =>
    let a := ws.getD 14 0
    let b := ws.getD 1 0
    let s0 := a.rotateRight 1 ^^^ a.rotateRight 8 ^^^ (a >>> 7)
    let s1 := b.rotateRight 19 ^^^ b.rotateRight 61 ^^^ (b >>> 6)
    shaSchedule n ((ws.getD 15 0 + s0 + ws.getD 6 0 + s1) :: ws)

/-- One round over the eight working words. -/
def shaRound (h : List (BitVec 64)) (kw : BitVec 64 × BitVec 64) : List (BitVec 64) :=
  let g (i : Nat) : BitVec 64 := h.getD i 0
  let s1 := (g 4).rotateRight 14 ^^^ (g 4).rotateRight 18 ^^^ (g 4).rotateRight 41
  let ch := (g 4 &&& g 5) ^^^ (~~~ (g 4) &&& g 6)
  let t1 := g 7 + s1 + ch + kw.1 + kw.2
  let s0 := (g 0).rotateRight 28 ^^^ (g 0).rotateRight 34 ^^^ (g 0).rotateRight 39
  let mj := (g 0 &&& g 1) ^^^ (g 0 &&& g 2) ^^^ (g 1 &&& g 2)
  [t1 + s0 + mj, g 0, g 1, g 2, g 3 + t1, g 4, g 5, g 6]

/-- One block of 128 bytes. -/
def shaBlock (ks h : List (BitVec 64)) (b : List Byte) : List (BitVec 64) :=
  let w0 := (List.range 16).map fun i => BitVec.ofNat 64 (beNat (slice b (8 * i) 8))
  let ws := (shaSchedule 64 w0.reverse).reverse
  List.zipWith (· + ·) h ((ks.zip ws).foldl shaRound h)

/-- SHA-384 of a byte string. -/
def sha384 (l : List Byte) : List Byte :=
  let pad := (239 - l.length % 128) % 128
  let m := l ++ [0x80#8] ++ List.replicate pad 0 ++ be 16 (8 * l.length)
  let ks := shaK
  let h := (List.range (m.length / 128)).foldl (fun h i => shaBlock ks h (slice m (128 * i) 128)) shaInit
  (h.take 6).flatMap fun w => be 8 w.toNat

/-! P-384. -/

/-- The prime of P-384. -/
def pMod : Nat := 2 ^ 384 - 2 ^ 128 - 2 ^ 96 + 2 ^ 32 - 1
/-- The coefficient b. -/
def pB : Nat := 0xb3312fa7e23ee7e4988e056be3f82d19181d9c6efe8141120314088f5013875ac656398d8a2ed19d2a85c8edd3ec2aef
/-- The order of the group. -/
def pOrder : Nat := 0xffffffffffffffffffffffffffffffffffffffffffffffffc7634d81f4372ddf581a0db248b0a77aecec196accc52973
/-- The base point. -/
def pBase : Nat × Nat :=
  (0xaa87ca22be8b05378eb1c71ef320ad746e1d3b628ba79b9859f741e082542a385502f25dbf55296c3a545e3872760ab7,
   0x3617de4a96262c6f5d9e98bf9292dc29f8f41dbd289a147ce9da3113b5f0b8c00a60b1ce1d7e819d7a431d7c90ea0e5f)

/-- Power modulo the prime, with fuel for the bits of the exponent. -/
def pPow : Nat → Nat → Nat → Nat → Nat
  | 0, _, _, acc => acc
  | f + 1, b, e, acc => pPow f (b * b % pMod) (e / 2) (if e % 2 = 1 then acc * b % pMod else acc)

/-- Inverse modulo the prime. -/
def pInv (a : Nat) : Nat := pPow 384 a (pMod - 2) 1

/-- A point in Jacobian coordinates; Z = 0 at infinity. -/
structure JPoint where
  x : Nat
  y : Nat
  z : Nat
  deriving DecidableEq, Repr

/-- Difference modulo the prime. -/
def pSub (a b : Nat) : Nat := (a + pMod - b % pMod) % pMod

/-- Doubling. -/
def jDouble (p : JPoint) : JPoint :=
  if p.z = 0 || p.y = 0 then ⟨1, 1, 0⟩
  else
    let d := p.z * p.z % pMod
    let g := p.y * p.y % pMod
    let b := p.x * g % pMod
    let a := 3 * pSub p.x d * (p.x + d) % pMod
    let x := pSub (a * a) (8 * b)
    let z := pSub (pSub ((p.y + p.z) * (p.y + p.z)) g) d
    ⟨x, pSub (a * pSub (4 * b) x) (8 * (g * g % pMod)), z⟩

/-- Addition. -/
def jAdd (p q : JPoint) : JPoint :=
  if p.z = 0 then q
  else if q.z = 0 then p
  else
    let z1 := p.z * p.z % pMod
    let z2 := q.z * q.z % pMod
    let u1 := p.x * z2 % pMod
    let u2 := q.x * z1 % pMod
    let s1 := p.y * q.z % pMod * z2 % pMod
    let s2 := q.y * p.z % pMod * z1 % pMod
    let h := pSub u2 u1
    let r := pSub s2 s1
    if h = 0 then (if r = 0 then jDouble p else ⟨1, 1, 0⟩)
    else
      let h2 := h * h % pMod
      let h3 := h * h2 % pMod
      let v := u1 * h2 % pMod
      let x := pSub (r * r) (h3 + 2 * v)
      ⟨x, pSub (r * pSub v x) (s1 * h3), p.z * q.z % pMod * h % pMod⟩

/-- The multiple of a point by the low bits of a number, most significant first. -/
def jMul (p : JPoint) (k : Nat) : Nat → JPoint → JPoint
  | 0, acc => acc
  | n + 1, acc => jMul p k n (let d := jDouble acc; if k.testBit n then jAdd d p else d)

/-- A multiple of an affine point, in affine coordinates. -/
def pointMul (k : Nat) (q : Nat × Nat) : Nat × Nat :=
  let r := jMul ⟨q.1, q.2, 1⟩ k 384 ⟨1, 1, 0⟩
  let i := pInv r.z
  let i2 := i * i % pMod
  (r.x * i2 % pMod, r.y * i2 % pMod * i % pMod)

/-- A public key of 97 bytes is valid (R305): uncompressed, in range and on the curve, whose cofactor is 1. -/
def pointValid (l : List Byte) : Bool :=
  let x := beNat (slice l 1 48)
  let y := beNat (slice l 49 48)
  u8 l 0 == 4 && decide (x < pMod) && decide (y < pMod) && (y * y) % pMod == (x * x * x + (pMod - 3) * x + pB) % pMod

/-- A public key in the form of R314. -/
def pointBytes (q : Nat × Nat) : List Byte := [0x04#8] ++ be 48 q.1 ++ be 48 q.2

/-- The KEK of an exchange (R305). -/
def deriveKek (z idx xDev xHost : Nat) : List Byte :=
  (sha384 (be 4 1 ++ be 48 z ++ asciiOf [0x4C, 0x4B, 0x4D, 0x2D, 0x4B, 0x45, 0x4B] ++ be 1 idx ++ be 48 xDev ++ be 48 xHost)).take 32

/-- The check value of a KEK (R305). -/
def kekCheck (kek : List Byte) : List Byte := (aesEncrypt (aesKeys kek) (List.replicate 16 0)).take 4

end Sys2Proof.Machine
end

