-- ==== Sys2Proof/Machine/Gcm.lean ====
section
/-! DEFINITION. AES-256 in Galois/counter mode over the words of a pointer period (R296, SP 800-38D), and the CBC-MAC conditioning of R309. A
128-bit block is a number, its first bit most significant. -/

namespace Sys2Proof.Machine

/-- A 64-bit word of a container, its first bit most significant. -/
abbrev Word64 := BitVec 64

/-- The product in GF(2^128) of SP 800-38D: `n` bits of `x` to go, the most significant first; `v` the turned second factor. [log 192 PRESUMED] -/
def ghashMulFrom (x : Nat) : Nat → Nat → Nat → Nat
  | 0, _, z => z
  | n + 1, v, z =>
    ghashMulFrom x n (if v.testBit 0 then (v / 2) ^^^ (0xE1 * 2 ^ 120) else v / 2) (if x.testBit n then z ^^^ v else z)

/-- The product of two blocks. -/
def ghashMul (x y : Nat) : Nat := ghashMulFrom x 128 y 0

/-- GHASH of blocks under a hash key. -/
def ghash (h : Nat) (l : List Nat) : Nat := l.foldl (fun y x => ghashMul (y ^^^ x) h) 0

/-- Words in pairs as blocks. -/
def wordBlocks : List Word64 → List Nat
  | a :: b :: r => (a.toNat * 2 ^ 64 + b.toNat) :: wordBlocks r
  | [a] => [a.toNat * 2 ^ 64]
  | [] => []

/-- The two words of a block. -/
def blockWords (b : Nat) : List Word64 := [BitVec.ofNat 64 (b / 2 ^ 64), BitVec.ofNat 64 b]

/-- AES-256 of a block. -/
def aesBlock (ks : List (List Byte)) (b : Nat) : Nat := beNat (aesEncrypt ks (be 16 b))

/-- J0 of a period (R296, R297): salt, W and FC[23:3], then 1. -/
def gcmJ0 (salt w fc : Nat) : Nat := salt * 2 ^ 96 + (w * 2 ^ 21 + fc / 8) % 2 ^ 64 * 2 ^ 32 + 1

/-- The words XORed with the counter stream after J0. -/
def gcmCrypt (ks : List (List Byte)) (j0 : Nat) (l : List Word64) : List Word64 :=
  ((wordBlocks l).zipIdx.map fun e => blockWords (e.1 ^^^ aesBlock ks (j0 + 1 + e.2))).flatten.take l.length

/-- GHASH over the header word, the encrypted words and both lengths in bits. -/
def gcmHash (ks : List (List Byte)) (h : Word64) (l : List Word64) : Nat :=
  ghash (aesBlock ks 0) ([h.toNat * 2 ^ 64] ++ wordBlocks l ++ [64 * 2 ^ 64 + 64 * l.length])

/-- T: the 64 most significant bits of the tag (R296). -/
def gcmTag (ks : List (List Byte)) (j0 : Nat) (h : Word64) (l : List Word64) : Word64 :=
  BitVec.ofNat 64 ((gcmHash ks h l ^^^ aesBlock ks j0) / 2 ^ 64)

/-- The CBC-MAC of SP 800-90B over bytes in blocks of 16 (R309). -/
def cbcMac (ks : List (List Byte)) (l : List Byte) : List Byte :=
  be 16 (((List.range (l.length / 16)).map fun i => beNat (slice l (16 * i) 16)).foldl (fun y x => aesBlock ks (y ^^^ x)) 0)

end Sys2Proof.Machine
end

