-- ==== Sys2Proof/Machine/FrameBits.lean ====
section
/-! DEFINITION. The content of a KLF frame (R150 to R158) and of the periods of a container (R209 to R219) as words and packed bits. -/

namespace Sys2Proof.Machine

/-! Payload words and slots (R151). -/

/-- The payload of a frame: 1,280 n words, word w first to last. -/
abbrev Payload := List Word64

/-- The slot index of payload word `w` of a KLF-n frame (R151). -/
def wordSlot (n w : Nat) : Nat := w % (80 * n)

/-- Which of its slot's words payload word `w` is (R151). -/
def wordOfSlot (n w : Nat) : Nat := w / (80 * n)

/-- The unit that a slot lies in (R151). -/
def slotUnit (s : Nat) : Nat := s / 80

/-- The payload of a KLF-n frame from the words of its slots: `f s j` is word j of slot s. -/
def layPayload (n : Nat) (f : Nat → Nat → Word64) : Payload :=
  (List.range (1280 * n)).map fun w => f (wordSlot n w) (wordOfSlot n w)

/-- Word j of slot s of a payload. -/
def slotWord (n : Nat) (p : Payload) (s j : Nat) : Word64 := p.getD (80 * n * j + s) 0

/-- The XOR of the eight bytes of a word. -/
def wordParity (w : Word64) : Byte :=
  (List.range 8).foldl (fun a i => a ^^^ (w >>> (8 * i)).setWidth 8) 0

/-- The BIP-8 of unit `u` over the unscrambled bytes of its 80 slots (R158). [log 89 DEDUCED] -/
def unitParity (n : Nat) (p : Payload) (u : Nat) : Byte :=
  (p.zipIdx.filter fun e => slotUnit (wordSlot n e.2) = u).foldl (fun a e => a ^^^ wordParity e.1) 0

/-- The BIP-8 of every unit of a frame. -/
def frameParity (n : Nat) (p : Payload) : List Byte := (List.range n).map (unitParity n p)

/-- Overhead block u for u from 1 on (R157): the BIP-8 of unit u, the value u, zeros. -/
def overheadBlock (bip : Byte) (u : Nat) : List Byte := bip :: BitVec.ofNat 8 u :: List.replicate 126 0

/-- The overhead of a frame (R150, R157): block 0 as given, then the blocks of the other units with the BIP-8 of the frame before. -/
def overheadArea (n : Nat) (block0 bips : List Byte) : List Byte :=
  block0 ++ ((List.range n).drop 1).flatMap fun u => overheadBlock (bips.getD u 0) u

/-- `n` words of PRBS31 from a register on, and the register after them (R527). -/
def prbsWords : Nat → Nat → List Word64 × Nat
  | 0, r => ([], r)
  | n + 1, r =>
    let w := BitVec.ofNat 64 ((lfsrBits 31 28 64 r).foldl (fun a b => 2 * a + b2n b) 0)
    let rest := prbsWords n (lfsrAfter 31 28 64 r)
    (w :: rest.1, rest.2)

/-! Frame bits (R123, R150, R152). -/

/-- The bits of a frame of n x 82,944. -/
def frameLen (n : Nat) : Nat := 82944 * n

/-- The bits of a word, its first bit as bit 0. -/
def packWord (w : Word64) : Nat := w.reverse.toNat

/-- Words packed in sending order. -/
def packWords (l : List Word64) : Nat := l.foldr (fun w a => packWord w + 2 ^ 64 * a) 0

/-- A frame of n units, packed: overhead, then payload; scrambled from bit 64 on (R150, R152). -/
def frameBits (n : Nat) (oh : List Byte) (p : Payload) : Nat :=
  scramble (frameLen n) (packBytes oh + packWords p * 2 ^ (1024 * n))

/-- The 1,024-bit messages of a frame (R123). -/
def frameMessages (n frame : Nat) : List Nat := (List.range (81 * n)).map fun i => frame / 2 ^ (1024 * i) % 2 ^ 1024

/-- The outer codeword at which frame k of an encoder period starts, its place in its LDPC block, and that block (R124). -/
def frameStart (n k : Nat) : Nat × Nat × Nat := (81 * n * k, 81 * n * k % 8, 81 * n * k / 8)

/-- A descrambled frame's header. -/
def framedHeader (frame : Nat) : Word64 := (BitVec.ofNat 64 frame).reverse

/-- A descrambled frame's overhead blocks. -/
def framedOverhead (n frame : Nat) : List (List Byte) := (List.range n).map fun u => unpackBytes 128 (frame / 2 ^ (1024 * u) % 2 ^ 1024)

/-- A descrambled frame's payload. -/
def framedPayload (n frame : Nat) : Payload :=
  (List.range (1280 * n)).map fun w => (BitVec.ofNat 64 (frame / 2 ^ (1024 * n + 64 * w) % 2 ^ 64)).reverse

/-- A received KLF frame after the outer decoder and the descrambler (R150 to R159): its header, its overhead blocks of
128 bytes, the uncorrectable flags of their outer codewords and whether any of the frame's is set, the BIP-8 of each unit computed over its
slots, and its payload. -/
structure RxFrame where
  header  : BitVec 64 := 0#64
  oh      : List (List Byte) := []
  flags   : List Bool := []
  spoiled : Bool := false
  bip     : List Byte := []
  slots   : Payload := []
  deriving DecidableEq, Repr

/-- Messages in order as one bit string. -/
def joinMessages (l : List Nat) : Nat := l.foldr (fun m a => m + 2 ^ 1024 * a) 0

/-- The header at a 64-bit position of delivered messages (R164). -/
def headerAt (words : List (Nat × Bool)) (pos : Nat) : Word64 :=
  (BitVec.ofNat 64 ((words.getD (pos / 16) (0, true)).1 / 2 ^ (64 * (pos % 16)))).reverse

/-- The messages that a frame of n units from a 64-bit position of the first of them on takes part in. -/
def frameSpan (n pos : Nat) : Nat := 81 * n + (if pos = 0 then 0 else 1)

/-- The frame of n units that stands at a 64-bit position of the first of the delivered messages (R150, R152, R164). -/
def frameAt (n : Nat) (words : List (Nat × Bool)) (pos : Nat) : RxFrame :=
  let l := words.take (frameSpan n pos)
  let f := scramble (frameLen n) (joinMessages (l.map (·.1)) / 2 ^ (64 * pos) % 2 ^ frameLen n)
  let p := framedPayload n f
  let flag (u : Nat) : Bool := (l.getD u (0, true)).2 || (pos != 0 && (l.getD (u + 1) (0, true)).2)
  { header := framedHeader f, oh := framedOverhead n f, flags := (List.range n).map flag, spoiled := l.any (·.2)
    bip := frameParity n p, slots := p }

/-! Containers (R209 to R212). -/

/-- The word of a container that word j of its slot of rank r carries in the frame with FC[2:0] = f (R209, R210). -/
def containerPlace (c f j r : Nat) : Nat := 16 * c * f + c * j + r

/-- The words of a period without H and T: data first, then stuff words of zero (R212). -/
def periodPlain (c : Nat) (data : List Word64) : List Word64 :=
  (data ++ List.replicate (128 * c - 2 - data.length) 0).take (128 * c - 2)

/-- The 128 c words of a period: H at 0, T at 64 c, the rest in order (R210). -/
def periodWords (c : Nat) (h t : Word64) (body : List Word64) : List Word64 :=
  h :: body.take (64 * c - 1) ++ t :: body.drop (64 * c - 1)

/-- The words of a period without H and T. -/
def periodBody (c : Nat) (l : List Word64) : List Word64 := (l.take (64 * c)).drop 1 ++ l.drop (64 * c + 1)

/-- The 64 payload bits of the 66-bit block that carries a fault sequence of IEEE 802.3, in sending order: 1 local, 2 remote fault. [log 193 PRESUMED] -/
def faultPayload (code : Nat) : List Bool := ([0x4B, 0, 0, code, 0, 0, 0, 0] : List Nat).flatMap fun b => unpackBits 8 b

/-- The 257-bit control block of four fault blocks (R198, R219). [log 193 PRESUMED] -/
def faultBlock (code : Nat) : List Bool :=
  let p := faultPayload code
  List.replicate 5 false ++ p.take 4 ++ p.drop 8 ++ p ++ p ++ p

/-- 64 bits of a fault stream from bit `k` of a block on, as a word. -/
def faultWord (code k : Nat) : Word64 :=
  BitVec.ofNat 64 ((List.range 64).foldl (fun a i => 2 * a + b2n ((faultBlock code).getD ((k + i) % 257) false)) 0)

/-- `n` data words of a fault stream in a period whose pointer is `ptr` (R215, R219). -/
def faultStream (code ptr n : Nat) : List Word64 := (List.range n).map fun i => faultWord code ((64 * i + 257 - ptr % 257) % 257)

/-- Bits of a client stream that fill no whole word yet: how many, and their value, the first most significant. -/
structure BitRun where
  len : Nat := 0
  val : Nat := 0
  deriving DecidableEq, Repr

/-- The value of bits, the first most significant. -/
def bitValue (l : List Bool) : Nat := l.foldl (fun a b => 2 * a + b2n b) 0

/-- Blocks of 257 bits, by their values, behind bits. -/
def addBlocks (r : BitRun) (l : List Nat) : BitRun := l.foldl (fun r b => ⟨r.len + 257, r.val * 2 ^ 257 + b⟩) r

/-- The whole words of bits, and the bits left (R215). -/
def wholeWords (r : BitRun) : List Word64 × BitRun :=
  ((List.range (r.len / 64)).map fun i => BitVec.ofNat 64 (r.val / 2 ^ (r.len - 64 * (i + 1))), ⟨r.len % 64, r.val % 2 ^ (r.len % 64)⟩)

/-- The rest of the local-fault block that the `n`-th word of a stream whose pointer is `ptr` leaves open. -/
def faultRest (ptr n : Nat) : BitRun :=
  let l := if (64 * n + 257 - ptr % 257) % 257 = 0 then [] else (faultBlock 1).drop ((64 * n + 257 - ptr % 257) % 257)
  ⟨l.length, bitValue l⟩

/-- `n` data words of the local-fault stream (R219). -/
def faultWords (ptr n : Nat) : List Word64 := faultStream 1 ptr n

/-! Transcoding (R189) of four 66-bit blocks. -/

/-- 256b/257b transcoding of four blocks as in IEEE 802.3: the flag of four data blocks, or the four flags and the first control
block without the high half of its type field. [log 193 PRESUMED] -/
def transcode (l : List Block66) : List Bool :=
  if l.all fun b => !b.control then true :: l.flatMap (·.payload)
  else
    let c := l.findIdx (·.control)
    false :: l.map (!·.control) ++ l.zipIdx.flatMap fun e => if e.2 = c then e.1.payload.take 4 ++ e.1.payload.drop 8 else e.1.payload

/-- The low half of a type field decides its high half, since the type fields of IEEE 802.3 differ in it. [log 193 PRESUMED] -/
def typeHigh (low : Nat) : Nat :=
  match low with
  | 0xE => 0x1
  | 0xD => 0x2
  | 0x3 => 0x3
  | 0xB => 0x4
  | 0x5 => 0x5
  | 0x6 => 0x6
  | 0x8 => 0x7
  | 0x7 => 0x8
  | 0x9 => 0x9
  | 0xA => 0xA
  | 0x4 => 0xB
  | 0xC => 0xC
  | 0x2 => 0xD
  | 0x1 => 0xE
  | 0xF => 0xF
  | _ => 0x0

/-- The four blocks of a 257-bit block. -/
def untranscode (l : List Bool) : List Block66 :=
  if l.headD false then (List.range 4).map fun i => ⟨false, ((l.drop 1).drop (64 * i)).take 64⟩
  else
    let flags := (l.drop 1).take 4
    let c := flags.findIdx (!·)
    let start (i : Nat) : Nat := 5 + 64 * i - (if c < i then 4 else 0)
    (List.range 4).map fun i =>
      let d := flags.getD i false
      if i = c then
        let low := (l.drop (start i)).take 4
        ⟨true, low ++ unpackBits 4 (typeHigh (packBits low)) ++ (l.drop (start i + 4)).take 56⟩
      else ⟨!d, (l.drop (start i)).take 64⟩

end Sys2Proof.Machine
end

