-- ==== Sys2Proof/Machine/HostFec.lean ====
section
/-! DEFINITION. The host side's codes: RS(544,514) of IEEE 802.3 with its 257-bit blocks and alignment markers (R185 to R187), and the shim of a FlexE
client (R189). -/

namespace Sys2Proof.Machine

/-! RS(544,514). A codeword is 544 symbols of 10 bits, the coefficient of the highest degree first. -/

/-- GF(2^10) on x^10 + x^3 + 1. [log 240 PRESUMED] -/
def hostField : Field := ⟨10, 0x409⟩

/-- g(x), with the roots alpha^0 to alpha^29; coefficients from x^0 on. -/
def hostGenerator : List Nat := (List.range 30).foldl (fun p i => polyTimesRoot hostField (alphaPow hostField i) p) [1]

/-- The division register, highest degree first, after one message symbol. -/
def hostDivide (g r : List Nat) (m : Nat) : List Nat :=
  let k := r.headD 0 ^^^ m
  List.zipWith (fun a b => a ^^^ gfProd hostField k b) (r.tail ++ [0]) g

/-- The 544 symbols of a codeword: 514 message symbols and 30 parity symbols (R187). [log 240 PRESUMED] -/
def hostEncode (msg : List Nat) : List Nat :=
  msg ++ msg.foldl (hostDivide (hostGenerator.reverse.drop 1)) (List.replicate 30 0)

/-- The value of a received word at a field element. -/
def hostEval (x : Nat) (w : List Nat) : Nat := w.foldl (fun a c => gfProd hostField a x ^^^ c) 0

/-- The error value at a locator X: X times omega(1/X) over the formal derivative of lambda at 1/X. -/
def hostError (syn loc : List Nat) (x : Nat) : Nat :=
  let inv := gfInverse hostField x
  let omega := (List.range syn.length).map fun n => (List.range (n + 1)).foldl (fun a i => a ^^^ gfProd hostField (at0 loc i) (at0 syn (n - i))) 0
  let deriv := (List.range (loc.length - 1)).map fun i => if i % 2 = 0 then at0 loc (i + 1) else 0
  gfProd hostField x (gfProd hostField (polyAt hostField omega inv) (gfInverse hostField (polyAt hostField deriv inv)))

/-- What the decoder makes of a received word: the symbols that it passes on, and how many it corrected; none where it is uncorrectable
(R185, R186). [log 240 PRESUMED] -/
def hostDecode (w : List Nat) : List Nat × Option Nat :=
  let syn := (List.range 30).map fun i => hostEval (alphaPow hostField i) w
  if syn.all (· == 0) then (w, some 0)
  else
    let l := bmLocator hostField syn
    let deg := polyDegree l.1
    let at_ (k : Nat) : Nat := alphaPow hostField (543 - k)
    let roots := (List.range 544).filter fun k => polyAt hostField l.1 (gfInverse hostField (at_ k)) == 0
    if 1 ≤ deg && deg ≤ 15 && l.2 == deg && roots.length == deg then
      (w.zipIdx.map fun e => if roots.contains e.2 then e.1 ^^^ hostError syn l.1 (at_ e.2) else e.1, some deg)
    else (w, none)

/-! Blocks of 257 bits. -/

/-- A list in pieces of `n`; what is left over is a shorter last piece. -/
def pieces {α : Type} (n : Nat) (l : List α) : List (List α) := (List.range ((l.length + n - 1) / n)).map fun i => (l.drop (n * i)).take n

/-- The 20 blocks of 257 bits of 514 message symbols, each symbol from its lowest bit on. [log 240 PRESUMED] -/
def messageBlocks (msg : List Nat) : List (List Bool) := pieces 257 (msg.flatMap (unpackBits 10))

/-- The 514 message symbols of 20 blocks. -/
def blockMessage (l : List (List Bool)) : List Nat := (pieces 10 l.flatten).map packBits

/-- The 66-bit block with the error character in every position. [log 193 PRESUMED] -/
def errorBlock66 : Block66 := ⟨true, unpackBits 8 0x1E ++ (List.replicate 8 (unpackBits 7 0x1E)).flatten⟩

/-- The block that replaces each block of an uncorrectable codeword: four error blocks (R186). -/
def errorBlock : List Bool := transcode (List.replicate 4 errorBlock66)

/-! Alignment markers. -/

/-- The blocks that the alignment markers of a PHY type take, and the codewords from one set of them to the next. [log 240 PRESUMED] -/
def markerShape : Nat → Nat × Nat
  | 0 => (5, 4096)
  | 1 => (4, 4096)
  | 2 => (8, 8192)
  | 3 => (16, 16384)
  | _ => (16, 32768)

/-- The alignment markers of a PHY type, with the values that IEEE 802.3 gives, as blocks (R187). -/
def markerBlocks (type : Nat) : List (List Bool) := (List.range (markerShape type).1).map fun i => unpackBits 257 (Config.hostMarker type i).toNat

/-- The PCS lanes of a PHY type. [log 240 PRESUMED] -/
def pcsLanes : Nat → Nat
  | 0 => 4
  | 1 => 8
  | 2 => 16
  | 3 => 32
  | _ => 16

/-- align_status of a PHY (R185, R196): every PCS lane shows its marker lock, each marker number once in whatever order, and the lanes lie within
64 ns; `marks` is per received lane the marker's number and its delay in ps. -/
def alignedMarks (type : Nat) (marks : List (Option (Nat × Nat))) : Bool :=
  let l := marks.filterMap id
  let ds : List Nat := l.map (·.2)
  marks.length == pcsLanes type && l.length == marks.length
    && (List.range (pcsLanes type)).all (fun n => l.any (·.1 == n))
    && decide (ds.foldl max 0 ≤ ds.foldl min (ds.headD 0) + 64000)

/-- Codewords are sent while 20 blocks are at hand, the markers first in each period: the codewords, the blocks left, the place in the period (R187). -/
def sendCodewords (type : Nat) : Nat → List (List Bool) → Nat → List (List Nat) × List (List Bool) × Nat
  | 0, bs, cw => ([], bs, cw)
  | f + 1, bs, cw =>
    let m := if cw = 0 then markerBlocks type else []
    let n := 20 - m.length
    if bs.length < n then ([], bs, cw)
    else
      let r := sendCodewords type f (bs.drop n) ((cw + 1) % (markerShape type).2)
      (hostEncode (blockMessage (m ++ bs.take n)) :: r.1, r.2)

/-! Lanes: symbol i of a codeword lies on PCS lane i modulo their number, and each lane carries equally many PCS lanes bit by bit. PAM4 levels
are 0 to 3 with Gray coding (R178, R180). -/

/-- The level of two bits and back, Gray coded. -/
def grayLevel (a b : Bool) : Nat := match a, b with
  | false, false => 0
  | false, true => 1
  | true, true => 2
  | true, false => 3

/-- The two bits of a level. -/
def levelBits : Nat → List Bool
  | 0 => [false, false]
  | 1 => [false, true]
  | 2 => [true, true]
  | _ => [true, false]

/-- Levels of a lane's bits: precoded with 1/(1+D) where the lane is set so, inverted where its polarity is; and the precoder's last level (R180). [log 240 PRESUMED] -/
def sendLevels (pre inv : Bool) : Nat → List Bool → List Nat × Nat
  | last, a :: b :: r =>
    let g := grayLevel a b
    let p := if pre then (g + 4 - last) % 4 else g
    let t := sendLevels pre inv p r
    ((if inv then 3 - p else p) :: t.1, t.2)
  | last, _ => ([], last)

/-- The bits of received levels of a lane, and its last level (R180). [log 240 PRESUMED] -/
def takeLevels (pre inv : Bool) : Nat → List Nat → List Bool × Nat
  | last, v :: r =>
    let p := if inv then 3 - v else v
    let t := takeLevels pre inv p r
    (levelBits (if pre then (p + last) % 4 else p) ++ t.1, t.2)
  | last, [] => ([], last)

/-- Every `m`-th element from `j` on. -/
def everyNth {α : Type} (m j : Nat) (l : List α) : List α := (l.zipIdx.filter fun e => e.2 % m == j).map (·.1)

/-- The bits of codewords on each lane of a PHY (R187). [log 240 PRESUMED] -/
def overLanes (type lanes : Nat) (cws : List (List Nat)) : List (List Bool) :=
  let n := pcsLanes type
  let m := n / lanes
  let pcs := (List.range n).map fun j => (everyNth n j cws.flatten).flatMap (unpackBits 10)
  (List.range lanes).map fun l =>
    let subs := (List.range m).map fun j => pcs.getD (l * m + j) []
    (List.range ((subs.headD []).length)).flatMap fun i => subs.map fun b => b.getD i false

/-- The 544 symbols of a codeword from the bits of each lane; `order` is the marker number of each received PCS lane (R185). [log 240 PRESUMED] -/
def fromLanes (type : Nat) (order : List Nat) (bits : List (List Bool)) : List Nat :=
  let n := pcsLanes type
  let m := n / bits.length
  let got := bits.flatMap fun l => (List.range m).map fun j => (pieces 10 (everyNth m j l)).map packBits
  let lane (k : Nat) : List Nat := got.getD (order.findIdx (· == k)) []
  (List.range 544).map fun i => (lane (i % n)).getD (i / n) 0

/-! Bits of a client stream (R215). -/

/-- The bits of words, most significant first. -/
def wordBits (l : List Word64) : List Bool := l.flatMap fun w => (List.range 64).map fun i => w.getLsbD (63 - i)

/-- The whole 257-bit blocks of a period whose pointer is `ptr`, after the part of a block before it, and the part left; a part that the pointer
does not continue is dropped (R215). -/
def wholeBlocks (part : List Bool) (ptr : Nat) (bits : List Bool) : List (List Bool) × List Bool :=
  let l := if (part.length + ptr) % 257 = 0 then part ++ bits else bits.drop ptr
  let n := l.length / 257
  (pieces 257 (l.take (257 * n)), l.drop (257 * n))

/-! The shim of a FlexE client (R189). -/

/-- An idle block: a control block of type 0x1E. [log 193 PRESUMED] -/
def isIdle (b : Block66) : Bool := b.control && packBits (b.payload.take 8) == 0x1E

/-- An idle block may follow: the block before is no data block and starts no packet. [log 241 PRESUMED] -/
def idleMayFollow (b : Block66) : Bool := b.control && packBits (b.payload.take 8) != 0x78

/-- The 66-bit block of eight idles. -/
def idleBlock : Block66 := ⟨true, unpackBits 8 0x1E ++ List.replicate 56 false⟩

/-- Up to `n` idle blocks deleted. -/
def deleteIdles : Nat → List Block66 → List Block66
  | _, [] => []
  | 0, l => l
  | n + 1, b :: r => if isIdle b then deleteIdles n r else b :: deleteIdles (n + 1) r

/-- `n` idle blocks inserted at the first place where they may stand; after the last block where there is none. [log 241 PRESUMED] -/
def insertIdles (n : Nat) : List Block66 → List Block66
  | [] => List.replicate n idleBlock
  | b :: r => if idleMayFollow b then b :: (List.replicate n idleBlock ++ r) else b :: insertIdles n r

/-- The shim brings waiting blocks to exactly `want`: idles deleted or inserted; blocks beyond it wait (R189). -/
def shimFit (want : Nat) (l : List Block66) : List Block66 × List Block66 :=
  let d := deleteIdles (l.length - want) l
  if d.length < want then (insertIdles (want - d.length) d, []) else (d.take want, d.drop want)

/-- The blocks of 257 bits that c slots carry in a pointer period, in 1/33 of a block: c x 5.01953125 Gb/s (R189, R213). -/
abbrev shimShare : Nat := 1024

end Sys2Proof.Machine
end

