-- ==== Sys2Proof/Machine/StCore.lean ====
section
/-! DEFINITION. The state of the command interface, of the PCIe endpoint, of the DMA channels and of the counters (spec/15_swiys_commands.md,
spec/16_pcie_dma_counters.md). Each field's default is its reset value. -/

namespace Sys2Proof.Machine

/-- A submitted packet that waits: its bytes and its submission count (R387). -/
structure WaitPk where
  bytes : List Byte
  sub   : Nat
  deriving DecidableEq, Repr

/-- A started command whose final record is not yet written (R384, R395). `withheld`: its interim record is withheld (R399). -/
structure Running where
  sub      : Nat
  opcode   : Nat
  tag      : Nat
  flags    : Nat
  accepted : Bool
  withheld : Bool
  deriving DecidableEq, Repr

/-- The started command that an activity of the device completes later: its queue and its submission count. -/
structure Ref where
  queue : QueueId
  sub   : Nat
  deriving DecidableEq, Repr

/-- A response record before it is written (R384); `sub` names its command, `fin` marks the final record, `reserved` a
record within the reservation of an ACCEPTED command (R386, R413). -/
structure Rec where
  opcode   : Nat
  tag      : Nat
  status   : Nat
  kind     : Nat
  source   : Nat
  result   : List Byte
  sub      : Nat
  fin      : Bool
  reserved : Bool
  deriving DecidableEq, Repr

/-- A ring in host memory (R385, R413, R414, R417): base, size as a power of two (0 unconfigured), head, tail, HEAD_ERR. -/
structure HostRing where
  base    : Nat := 0
  sizeLog : Nat := 0
  head    : Nat := 0
  tail    : Nat := 0
  headErr : Bool := false
  deriving DecidableEq, Repr

/-- A FENCE that waits (R397): its submission count, the mask of queues. -/
structure FenceWait where
  sub  : Nat
  mask : Nat
  deriving DecidableEq, Repr

/-- One submission queue (R387 to R399) with its response path (R386, R413). -/
structure Queue where
  openBytes  : List Byte := []
  openCount  : Nat := 0
  waiting    : List WaitPk := []
  running    : List Running := []
  fence      : Option FenceWait := none
  epoch      : Nat := 0
  seq        : Nat := 0
  window     : Option Nat := none
  ring       : HostRing := {}
  hold       : List Rec := []
  corrected  : Nat := 0
  resets     : Nat := 0
  mismatches : Nat := 0
  badCrc     : Nat := 0
  framing    : Nat := 0
  nacks      : Nat := 0
  unclosed   : Nat := 0
  deriving DecidableEq, Repr

/-- A posted write of the host that a stall holds (R392): a QDATA word, a QEND, or a write of another register. A doorbell
carries what the host then holds in its memory. -/
inductive PostedWrite where
  | qdata (q : QueueId) (word : BitVec 32)
  | qend (q : QueueId) (len : Nat)
  | reg (offset value : Nat)
  | bell (ch : Nat) (host : List (Nat × Byte)) (err : Bool)
  deriving DecidableEq, Repr

/-- What the two-wire port holds by stretching SCL (R393). -/
inductive TwiHeld where
  | byte (b : Byte)
  | close (len : Nat)
  deriving DecidableEq, Repr

/-- The command interface. -/
structure Swiys where
  q0        : Queue := {}
  q1        : Queue := {}
  q2        : Queue := {}
  q3        : Queue := {}
  relay     : Queue := {}
  subCount  : Nat := 0
  turnQ3    : Bool := false
  sinceQ2   : Nat := 0
  stalled   : List PostedWrite := []
  q3Buf     : List (List Byte) := []
  twiPtr    : Nat := 0
  twiHeld   : Option TwiHeld := none
  twiLimit  : Option Nat := none
  stretch   : Nat := 25
  alertQ3   : Bool := false
  ptrAlways : Bool := false
  deriving DecidableEq, Repr

/-- An event record before it is written (R415); GAP is set when it is written. -/
structure EvRec where
  code   : Nat
  set    : Bool
  source : Nat
  seq    : Nat
  ns     : Nat
  sec    : Nat
  args   : List Nat
  deriving DecidableEq, Repr

/-- The event path (R414 to R416). `since` : events discarded since EVT_LOST was last read. -/
structure Events where
  ring  : HostRing := {}
  hold  : List EvRec := []
  seq   : Nat := 0
  gap   : Bool := false
  lost  : Nat := 0
  since : Bool := false
  deriving DecidableEq, Repr

/-- An entry of the MSI-X table (R414), in the layout of the PCIe specification: address, data, vector control. -/
structure MsixEntry where
  addr : Nat := 0
  data : Nat := 0
  ctrl : Nat := 1
  deriving DecidableEq, Repr

/-- The endpoint (R408, R409, R436). `sent` counts the messages sent per vector; `retry` tells whether the last
configuration request was answered with retry status, `posted` the records posted to streams, `lastChan` the channel served last. -/
structure Pcie where
  speed      : Nat := 0
  width      : Nat := 0
  perst      : Bool := true
  busMaster  : Bool := false
  msixEnable : Bool := false
  msixMask   : Bool := false
  msix       : Tbl MsixEntry := []
  pba        : Nat := 0
  sent       : Tbl Nat := []
  retry      : Bool := false
  answerAt   : Option Nat := none
  corr       : Nat := 0
  uncorr     : Nat := 0
  replays    : Nat := 0
  timeouts   : Nat := 0
  linkDowns  : Nat := 0
  flr        : Nat := 0
  posted     : Nat := 0
  lastChan   : Nat := 15
  deriving DecidableEq, Repr

/-- A DMA descriptor (R420). -/
structure Desc where
  flags  : Nat
  crc    : Nat
  length : Nat
  source : Nat
  dest   : Nat
  next   : Nat
  deriving DecidableEq, Repr

/-- A record of a device stream that waits for a RECEIVE descriptor: its place in the order of posting, its producer (4 x
carrier + channel for a monitor chain, 8 for the records of ring workers). -/
structure StreamRec where
  order : Nat
  from_ : Nat
  bytes : List Byte
  deriving DecidableEq, Repr

/-- A DMA channel (R417, R420 to R426). STATE is 0 IDLE, 1 RUNNING, 2 PRE-EMPTED, 3 HALTED. `fetch` is the descriptor
address to read next, `desc` the current descriptor, `moved` its bytes moved, `staged` the staging buffer, `crcReg` the
running CRC register, `waits` an idle channel that waits at its last descriptor, `needHead` a halt that only a new DMA_HEAD ends, `dataErr` an uncorrectable sector met. -/
structure Channel where
  ctrl    : Nat := 0xA0000
  head    : Nat := 0
  cur     : Nat := 0
  state   : Nat := 0
  status  : Nat := 0
  cpl     : HostRing := {}
  count   : Nat := 0
  fetch   : Option Nat := none
  desc    : Option Desc := none
  moved   : Nat := 0
  staged  : List Byte := []
  crcReg  : BitVec 32 := 0xFFFFFFFF#32
  waits   : Bool := false
  needHead : Bool := false
  dataErr : Bool := false
  flushAt : Option Nat := none
  stream  : List StreamRec := []
  deriving DecidableEq, Repr

/-- The settings of a counter (R418, R432). -/
structure CntCfg where
  source : Nat := 0
  object : Nat := 0
  enable : Bool := false
  chain  : Bool := false
  irq    : Bool := false
  deriving DecidableEq, Repr

/-- The performance counters and the bandwidth windows (R418, R427 to R431). `latchKey` names the value whose high half a
32-bit read of its low half latched (R410). -/
structure Counters where
  cfg      : Tbl CntCfg := []
  val      : Tbl Nat := []
  snap     : Tbl Nat := []
  ovf      : Nat := 0
  grant    : Nat := 0
  mode     : Bool := false
  latchKey : Option Nat := none
  latchVal : Nat := 0
  bwWin    : Tbl Nat := []
  bwAccIn  : Tbl Nat := []
  bwAccOut : Tbl Nat := []
  bwEnd    : Tbl Nat := []
  bwIn     : Tbl Nat := []
  bwOut    : Tbl Nat := []
  bwPeakIn  : Tbl Nat := []
  bwPeakOut : Tbl Nat := []
  deriving DecidableEq, Repr

/-- The violation record, the alert mask, and the data that the last register or pointer read returned. -/
structure StatusPage where
  violations : Nat := 0
  last       : Nat := 0
  alertMask  : Nat := 1
  readData   : Nat := 0
  deriving DecidableEq, Repr

end Sys2Proof.Machine
end

