-- ==== Sys2Proof/Machine/StPower.lean ====
section
/-! DEFINITION. The state of modes, clocks, controller and engines (spec/01_architecture.md), and of supplies, pins, temperature, flash,
journal and firmware (spec/18_power_and_recovery.md). Each field's default is its reset value. -/

namespace Sys2Proof.Machine

/-- The operating modes (R22), in the order of their codes (R404). -/
inductive Mode where
  | dormant
  | configure
  | independent
  | twin
  | bonded
  | merge
  | regenerate
  | maintain
  deriving DecidableEq, Repr

/-- A mode transition in progress (R24): its target, its command, the step it is in (2 power-up and initialisation,
3 ramp-down of Dome delays, 4 ready to announce, 5 waiting for the boundary), the domains started for it, the frame counter of
an announced boundary. -/
structure Trans where
  target  : Mode
  ref     : Ref
  step    : Nat
  started : List Nat
  boundary : Option Nat
  deriving DecidableEq, Repr

/-- The operating mode and its transition. -/
structure ModeSt where
  cur   : Mode := .dormant
  trans : Option Trans := none
  deriving DecidableEq, Repr

/-- The clock of the Cupola (R18): LOCAL_OSC qualified, and LOCAL_OSC_ABSENT posted since it was last qualified. -/
structure ClockSt where
  qualified : Bool := false
  absent    : Bool := false
  deriving DecidableEq, Repr

/-- The lockstep pair (R17, R485): held before its image is verified, running, restarting, or held after CONTROLLER_FAIL. -/
inductive CtlPhase where
  | held
  | running
  | restarting
  | failed
  deriving DecidableEq, Repr

/-- The controller: phase, times of the mismatches of the last 60 s (R17), READY (R485). -/
structure CtlSt where
  phase      : CtlPhase := .held
  mismatches : List Nat := []
  ready      : Bool := false
  deriving DecidableEq, Repr

/-- A Lantern engine (R14 to R16): active, hot spare, a spare taking over, or fenced. -/
inductive EngState where
  | active
  | spare
  | taking
  | fenced
  deriving DecidableEq, Repr

/-- A takeover in progress: failed engine, spare, tenants to move (R15). -/
structure Takeover where
  failed   : Nat
  spare    : Nat
  tenants  : List Nat
  deriving DecidableEq, Repr

/-- The engines E000 to E191. `state` lists the engines that are not active; `hosts` maps an engine to the engine that
runs its tenants now, plus one; `checkpoint` is the time of the last checkpoint and `saved` the end of the restore time that it
holds for a pair; `code` the firmware of a cluster. [log 38 DESIGN CHOICE] -/
structure EngSt where
  state      : Tbl EngState := [(15, .spare), (31, .spare), (47, .spare), (63, .spare), (79, .spare), (95, .spare),
    (111, .spare), (127, .spare), (143, .spare), (159, .spare), (175, .spare), (191, .spare)]
  hosts      : Tbl Nat := []
  checkpoint : Tbl Nat := []
  saved      : Tbl (Option Nat) := []
  takeovers  : List Takeover := []
  suspended  : List Nat := []
  shortage   : Bool := false
  code       : Tbl Nat := []
  deriving DecidableEq, Repr

/-- The domain states of R465. -/
inductive DomState where
  | off
  | powering
  | init
  | on
  | reset
  deriving DecidableEq, Repr

/-- A power domain PD01 to PD31: state; the last command wants it ON; it runs the return of R468; its return gave up; a
RAIL_RESET left it OFF with automatic return disabled; end of its FIFO pointer window. -/
structure Dom where
  state     : DomState := .off
  wanted    : Bool := false
  returning : Bool := false
  gaveUp    : Bool := false
  leftOff   : Bool := false
  window    : Option Nat := none
  deriving DecidableEq, Repr

/-- A SET_DOMAINS in progress (R494): its command, its mask, its action, the named domains that failed and why. -/
structure DomJob where
  ref    : Ref
  mask   : List Nat
  up     : Bool
  failed : List Nat
  status : Nat
  deriving DecidableEq, Repr

/-- A supervised rail (R470, R471): supply (mV), RAIL_WARN (0 none, 1 low, 2 high), times of its resets, give-up, and its
settings (R492; 0.1 %, us). -/
structure Rail where
  mv       : Nat := 750
  warn     : Nat := 0
  resets   : List Nat := []
  gaveUp   : Bool := false
  warnLvl  : Nat := 30
  resetLvl : Nat := 70
  deglitch : Nat := 2
  deriving DecidableEq, Repr

/-- The supplies and the domains. `queue` holds domains that wait for a group of 4 (R20). [log 37 DESIGN CHOICE] -/
structure PowerSt where
  doms       : Tbl Dom := []
  queue      : List Nat := []
  jobs       : List DomJob := []
  rails      : List Rail := [{}, { mv := 900 }, { mv := 1800 }, {}, { mv := 900 }, { mv := 900 }, { mv := 900 },
    { mv := 1100 }, { mv := 1800 }]
  autoReturn : Bool := true
  discrepancies : Nat := 0
  railResets : Nat := 0
  returns    : Nat := 0
  fifoMismatch : Nat := 0
  deriving DecidableEq, Repr

/-- The laser-safety pair and the pins (R472 to R475): inputs as asserted levels, T_d (ms), the start of the running
disagreement, PAIR_FAULT and the input found asserted at its latch. [log 184 DESIGN CHOICE] -/
structure Pins where
  poreset   : Bool := true
  safeA     : Bool := true
  safeB     : Bool := true
  pfail     : Bool := false
  td        : Nat := 20
  discSince : Option Nat := none
  pairFault : Bool := false
  faultInput : Nat := 0
  gpioOut   : Nat := 0
  deriving DecidableEq, Repr

/-- The temperature supervisor (R476 to R479): readings of the valid sensors (0.1 C), Tj and the hottest sensor, samples in
each raising and clearing band, levels, shutdown. [log 37 DESIGN CHOICE] -/
structure Thermal where
  sensors  : List (Option Int) := List.replicate 24 (some 250)
  tj       : Int := 250
  hottest  : Nat := 0
  nLow     : Nat := 0
  nLowClr  : Nat := 0
  nWarn    : Nat := 0
  nWarnClr : Nat := 0
  nCrit    : Nat := 0
  nCritClr : Nat := 0
  nShut    : Nat := 0
  low      : Bool := false
  warn     : Bool := false
  critical : Bool := false
  shutdown : Bool := false
  deriving DecidableEq, Repr

/-- A journal record (R482). -/
structure JRec where
  type : Nat
  key  : Nat
  seq  : Nat
  body : List Byte
  deriving DecidableEq, Repr

/-- A copy of a record in a bank: its bytes as programmed, its sector and offset within the bank. -/
structure JCopy where
  bytes  : List Byte
  sector : Nat
  off    : Nat
  deriving DecidableEq, Repr

/-- A journal bank of 8 sectors of 64 KiB (R480, R483): its copies in the order written, the sector and offset that the
next record takes, erase counts per sector. -/
structure JBank where
  copies : List JCopy := []
  sector : Nat := 0
  off    : Nat := 0
  erases : List Nat := List.replicate 8 0
  deriving DecidableEq, Repr

/-- A record that waits to be written (R483), with the command that waits for it. -/
structure JPend where
  type : Nat
  key  : Nat
  body : List Byte
  ref  : Option Ref
  deriving DecidableEq, Repr

/-- The journal: both banks, the winners of R484 in PD00, the next seq, the pending records, the record whose seq is the one
before the next with its place (0 copy 0 is being programmed, 1 copy 1 is, 2 copy 0 waits, 3 copy 1 waits), whether a sector
erase is suspended (R478), JOURNAL_ERR count. -/
structure Journal where
  bank0   : JBank := {}
  bank1   : JBank := {}
  kept    : List JRec := []
  nextSeq : Nat := 0
  pending : List JPend := []
  writing : Option (JPend × Nat) := none
  suspended : Bool := false
  errors  : Nat := 0
  deriving DecidableEq, Repr

/-- The header fields of a firmware image that the device reports (R481). -/
structure ImageHdr where
  major    : Nat
  minor    : Nat
  stepping : Nat
  security : Nat
  bodyLen  : Nat
  settings : Nat
  deriving DecidableEq, Repr

/-- The identity fuses (R521): 61 bytes of each copy, from bit 0 to bit 487, and the blown bits of each copy's FLOOR. [log 253 DESIGN CHOICE] -/
structure Fuses where
  copy0  : List Byte := List.replicate 61 0#8
  copy1  : List Byte := List.replicate 61 0#8
  floor0 : Nat := 0
  floor1 : Nat := 0
  deriving DecidableEq, Repr

/-- A flash slot (R480, R487): an image that the board fitted and that verifies, or the bytes programmed since the last
erase (unlisted bytes are 0xFF); an erase was cut off, and from this draw on the bytes are free. -/
structure Slot where
  fitted : Option ImageHdr := none
  bytes  : Tbl Byte := []
  torn   : Option Nat := none
  deriving DecidableEq, Repr

/-- The firmware command that awaits its completion (R498): its opcode, its reference, and whether it raises the floor (R501). -/
structure FwJob where
  opcode : Nat
  ref    : Ref
  raise  : Bool
  deriving DecidableEq, Repr

/-- An activation in progress (R488): clusters switched, clusters reloaded in place, next cluster, its start, the
controller switched. -/
structure Activation where
  switched : Nat
  inPlace  : Nat
  next     : Nat
  start    : Nat
  ctlDone  : Bool
  deriving DecidableEq, Repr

/-- The firmware state (R486 to R502). `image` is the running image, `old` the image kept in the other buffer with its
slot, `jobs` the commands that await their completion, `fuses` what is fused. [log 36 DESIGN CHOICE] -/
structure Firmware where
  slot0      : Slot := { fitted := some ⟨1, 0, 0x3042, 0, 1048064, 1⟩ }
  slot1      : Slot := {}
  running    : Nat := 0
  committed  : Nat := 0
  image      : Option ImageHdr := none
  old        : Option (Nat × ImageHdr) := none
  recovery   : Bool := false
  activation : Option Activation := none
  switchedAt : Option Nat := none
  verified   : Bool := false
  regionOpen : Bool := false
  written    : Nat := 0
  jobs       : List FwJob := []
  fuses      : Fuses := {}
  tryOther   : Bool := false
  deriving DecidableEq, Repr

end Sys2Proof.Machine
end

