-- ==== Sys2Proof/Machine/Fuses.lean ====
section
/-! DEFINITION. What the device uses of the identity fuses (R521, R522). -/

namespace Sys2Proof.Machine

/-- The CRC-8 of R211 over `n` bytes of fuses, from their highest bit down. [log 254 PRESUMED] -/
def fuseCrc (l : List Byte) : Nat := (crcMsb 0x07#8 0#8 (msbBits (8 * l.length) (leNat l))).toNat

/-- The identity of a copy checks (R521). -/
def copyIdOk (l : List Byte) : Bool := fuseCrc (slice l 0 11) == u8 l 11

/-- The key hash of a copy checks (R521). -/
def copyKeyOk (l : List Byte) : Bool := fuseCrc (slice l 12 48) == u8 l 60

/-- The identity of R404, lot, wafer, die_x, die_y: that of the first copy that checks, else unreadable (R522). -/
def fusedIdentity (f : Fuses) : List Byte :=
  if copyIdOk f.copy0 then slice f.copy0 0 11
  else if copyIdOk f.copy1 then slice f.copy1 0 11
  else List.replicate 8 0x3F#8 ++ [0xFF, 0, 0]

/-- The hash of the signing key in the first copy that checks (R522). -/
def fusedKeyHash (f : Fuses) : Option (List Byte) :=
  if copyKeyOk f.copy0 then some (slice f.copy0 12 48)
  else if copyKeyOk f.copy1 then some (slice f.copy1 12 48)
  else none

/-- The consecutive blown bits of a FLOOR from its first one on (R521). -/
def blownRun (m : Nat) : Nat := ((List.range 64).find? fun i => !m.testBit i).getD 64

/-- The fused floor: the higher of the two counts (R522). -/
def fusedFloor (f : Fuses) : Nat := max (blownRun f.floor0) (blownRun f.floor1)

/-- The floor is raised to a security version (R501): the fuses below it are blown in both copies. -/
def blowFloor (v : Nat) (f : Fuses) : Fuses :=
  { f with floor0 := f.floor0 ||| (2 ^ min v 64 - 1), floor1 := f.floor1 ||| (2 ^ min v 64 - 1) }

end Sys2Proof.Machine
end

