-- ==== Sys2Proof/Machine/StBelfry.lean ====
section
/-! DEFINITION. The state of Belfry (spec/14_belfry_timing.md). Each field's default is its reset value. -/

namespace Sys2Proof.Machine

/-- The states of the DPLL (R360), in the order of their codes. -/
inductive DpllState where
  | freeRun
  | acquiring
  | locked
  | holdover
  deriving DecidableEq, Repr

/-- The settings of a reference (R370). -/
structure RefSet where
  enable   : Bool := false
  priority : Nat := 1
  written  : Bool := false
  ql       : Nat := 0xF
  wtr      : Nat := 300
  jump     : Nat := 150
  freq     : Nat := 10000000
  deriving DecidableEq, Repr

/-- A reference (R350 to R355): written settings and those in effect, level at a pin or ring port (references 6 to 9),
signal-valid, frequency check passed, offset beyond f_mon or not and since when (R353), end of its WTR, jumped within it, offset (0.001 ppm), measured phases of the last
100 ms (ps, newest first), counters. -/
structure BelRef where
  set      : RefSet := {}
  use      : RefSet := {}
  raw      : Bool := false
  valid    : Bool := false
  freqOk   : Bool := true
  out      : Bool := false
  outAt    : Nat := 0
  wtrAt    : Option Nat := none
  jumped   : Bool := false
  offset   : Int := 0
  hist     : List Int := []
  jumps    : Nat := 0
  lockFail : Nat := 0
  deriving DecidableEq, Repr

/-- The reset value of a reference by index. -/
def belRef0 (i : Nat) : BelRef :=
  let v : RefSet := { priority := i + 1, written := i == 6 || i == 7 }
  { set := v, use := v }

/-- The settings of the DPLL (R370). -/
structure DpllSet where
  option  : Nat := 1
  qlOn    : Bool := true
  revert  : Bool := false
  learn   : Bool := true
  tempCorr : Bool := true
  ageCorr : Bool := true
  bw      : Nat := 2
  own     : Nat := 0xB
  holdOff : Nat := 300
  fMon    : Nat := 50
  slew    : Nat := 100
  deriving DecidableEq, Repr

/-- The time-of-day settings (R370). -/
structure TodSet where
  source  : Nat := 0
  out     : Bool := false
  width   : Nat := 100
  inComp  : Int := 0
  outComp : Int := 0
  deriving DecidableEq, Repr

/-- The learned model (R363, R364). -/
structure BelModel where
  tempOk  : Bool := false
  ageOk   : Bool := false
  a0Ok    : Bool := false
  tSpan   : Nat := 0
  samples : Nat := 0
  a0      : Int := 0
  c1      : Int := 0
  c2      : Int := 0
  a1      : Int := 0
  hours   : Nat := 0
  deriving DecidableEq, Repr

/-- The coefficients that a model update fits (R363): 10^-12, 10^-12 per degree, per squared degree, per day. -/
structure ModelFit where
  a0 : Int
  c1 : Int
  c2 : Int
  a1 : Int
  deriving DecidableEq, Repr

/-- A SET_TIME that awaits its completion (R375); `deadline` the end of the 2 s of mode 1. -/
structure TimeJob where
  mode     : Nat
  secs     : Nat
  ref      : Ref
  deadline : Nat
  deriving DecidableEq, Repr

/-- ESMC toward a FlexE group (R352): the code of the last PDU sent, and PDUs sent. -/
structure EsmcOut where
  last : Option Nat := none
  sent : Nat := 0
  deriving DecidableEq, Repr

/-- Belfry. `held` the state that hold-off will resume and `heldQl` the outgoing QL it keeps; `lockedSince` and `lockedSum`
the LOCKED time since PD01 powered up; `samples` the NCO samples of LOCKED time, one per ms, newest first; `entryTemp` and
`entryAt` T_e and t_e; `fit` the weighted sums of the learning samples (R363); frequencies in 10^-12, temperatures in 0.1 C. `slew` is the remainder of slewed steps in 10^-8 ns;
`cands` the candidates of R367 and `ppsLast`, `ppsPulse` the last edge within 10 us and the last pulse; `offAt` when PD01 went off. -/
structure Belfry where
  refs      : List BelRef := (List.range 10).map belRef0
  set       : DpllSet := {}
  use       : DpllSet := {}
  selMode   : Nat := 0
  selRef    : Option Nat := none
  state     : DpllState := .freeRun
  cause     : Nat := 0
  selected  : Option Nat := none
  selAt     : Nat := 0
  holdOffAt : Option Nat := none
  held      : DpllState := .acquiring
  heldQl    : Nat := 0xB
  lockedSince : Option Nat := none
  lockedSum : Nat := 0
  ready     : Bool := false
  nco       : Int := 0
  phaseErr  : Int := 0
  holdCorr  : Int := 0
  holdFreq  : Int := 0
  entryTemp : Int := 250
  entryAt   : Nat := 0
  samples   : List Int := []
  temp      : Int := 250
  model     : BelModel := {}
  tMin      : Option Int := none
  tMax      : Option Int := none
  modelAt   : Option Nat := none
  fit       : List (List Int) := []
  switches  : Nat := 0
  rejects   : Nat := 0
  qlInvalid : Nat := 0
  esmcLost  : Nat := 0
  esmc      : Tbl EsmcOut := []
  slew      : Int := 0
  todSet    : TodSet := {}
  todUse    : TodSet := {}
  coarse    : Bool := false
  setTime   : Option TimeJob := none
  ppsRise   : Option Nat := none
  lastSec   : Nat := 0
  ppsOffset : Int := 0
  cands     : List Int := []
  ppsLast   : Option Nat := none
  ppsPulse  : Option Nat := none
  ppsGood   : Nat := 0
  ppsLoss   : Bool := false
  outliers  : Nat := 0
  offAt     : Nat := 0
  deriving DecidableEq, Repr

end Sys2Proof.Machine
end

