-- ==== Sys2Proof/Machine/Ldpc.lean ====
section
/-! DEFINITION. The inner code (R127 to R129, R133, R134, R136): blocks, checks, encoder, and the layered normalised min-sum update. A part of
1,057 bits is packed with bit k as its bit k in sending order. -/

namespace Sys2Proof.Machine

/-- The circulant shifts S(i, c) of R128. -/
def ldpcShifts : List (List Nat) := [
  [0, 211, 467, 58, 902, 733, 329, 1040],
  [17, 588, 125, 979, 396, 810, 264, 641],
  [95, 742, 371, 1003, 530, 186, 856, 444]]

/-- S(i, c). -/
def ldpcShift (i c : Nat) : Nat := (ldpcShifts.getD i []).getD c 0

/-- A block, packed: 8 outer codewords of 1,057 bits in order, then the parity part (R127). -/
abbrev BlockBits := Nat

/-- Part `c` of a block: codeword 0 to 7, or 8 for the parity part. -/
def blockPart (b : BlockBits) (c : Nat) : Nat := b / 2 ^ (1057 * c) % 2 ^ 1057

/-- A part turned so that its bit (j + k) mod 1057 stands at j. -/
def turnPart (v k : Nat) : Nat := v / 2 ^ (k % 1057) + v % 2 ^ (k % 1057) * 2 ^ (1057 - k % 1057)

/-- The sums s_j over the 24 information bits of each check of a block (R127, R129): the block, the one before, and the one before
that. -/
def checkSums (b0 b1 b2 : BlockBits) : Nat :=
  (List.range 8).foldl (fun a c => a ^^^ turnPart (blockPart b0 c) (ldpcShift 0 c) ^^^ turnPart (blockPart b1 c) (ldpcShift 1 c)
    ^^^ turnPart (blockPart b2 c) (ldpcShift 2 c)) 0

/-- The running sum of bits: bit j becomes the sum of bits 0 to j, by doubling. -/
def prefixXor : Nat → Nat → Nat → Nat
  | 0, _, v => v
  | f + 1, k, v => prefixXor f (2 * k) (v ^^^ (v * 2 ^ k))

/-- The parity part of a block: p[0] = s_0 and p[j] = p[j-1] + s_j (R129). -/
def ldpcParity (s : Nat) : Nat := prefixXor 11 1 s % 2 ^ 1057

/-- A block from its 8 outer codewords and the two blocks before (R129). -/
def ldpcEncode (words : List Nat) (b1 b2 : BlockBits) : BlockBits :=
  let info := (List.range 8).foldl (fun a c => a + words.getD c 0 % 2 ^ 1057 * 2 ^ (1057 * c)) 0
  info + ldpcParity (checkSums info b1 b2) * 2 ^ 8456

/-- The 1,057 checks of a block, bit j set where check j is not satisfied (R127). -/
def ldpcChecks (b0 b1 b2 : BlockBits) : Nat :=
  let p := blockPart b0 8
  (checkSums b0 b1 b2 ^^^ p ^^^ (2 * p)) % 2 ^ 1057

/-- The unsatisfied checks of a block. -/
def unsatisfied (b0 b1 b2 : BlockBits) : Nat := popCount 1057 (ldpcChecks b0 b1 b2)

/-- Where a block stands relative to the block whose checks are formed: the block itself, the one before, and the one before that;
with the bit within it (0 to 9,512). -/
abbrev EdgeBit := Nat × Nat

/-- The bits of check `j` of a block (R127). -/
def checkBits (j : Nat) : List EdgeBit :=
  ((List.range 3).flatMap fun i => (List.range 8).map fun c => (i, 1057 * c + (j + ldpcShift i c) % 1057))
    ++ [(0, 8456 + j)] ++ (if j = 0 then [] else [(0, 8456 + j - 1)])

/-! Soft values. -/

/-- A block in soft form: one value per coded bit, positive when a 0 is more likely. -/
abbrev SoftBlock := List Rat

/-- The hard values of a soft block, packed; a value of 0 reads as bit 0. [log 190 DESIGN CHOICE] -/
def hardBits (l : SoftBlock) : BlockBits := packBits (l.map fun x => decide (x < 0))

/-- The sign of a value as 1 or -1. -/
def ratSign (x : Rat) : Rat := if x < 0 then -1 else 1

/-- The magnitude of a value. -/
def ratAbs (x : Rat) : Rat := if x < 0 then -x else x

/-- The least magnitude of the values other than the one at a place; 0 where there is none. -/
def minOther (l : List Rat) (k : Nat) : Rat :=
  match (l.eraseIdx k).map ratAbs with
  | [] => 0
  | x :: r => r.foldl (fun a b => if b < a then b else a) x

/-- The check's answer to each of its bits (R133): the product of the other signs, three quarters of the least other magnitude. -/
def minSumAnswers (l : List Rat) : List Rat :=
  let s := l.foldl (fun a x => a * ratSign x) 1
  (List.range l.length).map fun k => s * ratSign (l.getD k 0) * (3 / 4) * minOther l k

end Sys2Proof.Machine
end

