-- ==== Sys2Proof/Machine/Decibel.lean ====
section
/-! DEFINITION. The level arithmetic of R280 and R281 in 40-digit fixed point: ratios in dB, the Gaussian tail, and the nearest 0.01 dB. -/

namespace Sys2Proof.Machine

/-- The unit of the fixed point. -/
def fixOne : Nat := 10 ^ 40

/-- 10^(-1/4000), the amplitude ratio of 0.005 dB. -/
def fixQuarter : Nat := 9994245193792801627130825953035114998053

/-- A fixed-point power by squaring, with fuel for the bits of the exponent. -/
def fixPow : Nat → Nat → Nat → Nat → Nat
  | 0, _, _, acc => acc
  | f + 1, b, n, acc => fixPow f (b * b / fixOne) (n / 2) (if n % 2 = 1 then acc * b / fixOne else acc)

/-- 10^(-n/4000) in fixed point. -/
def tenthPow (n : Nat) : Nat := fixPow 20 fixQuarter n fixOne

/-- A power ratio of -k x 0.01 dB: 10^(-k/1000). -/
def powerRatio (k : Nat) : Nat := tenthPow (4 * k)

/-- The least number from `lo` on, within `n` halvings of `hi - lo`, at which a property that then stays true holds. -/
def leastFrom (p : Nat → Bool) : Nat → Nat → Nat → Nat
  | 0, _, hi => hi
  | f + 1, lo, hi =>
    if lo ≥ hi then hi
    else
      let m := (lo + hi) / 2
      if p m then leastFrom p f lo m else leastFrom p f (m + 1) hi

/-- The level of a power ratio below one, to the nearest 0.01 dB and at most 40 dB. -/
def dbOf (y : Nat) : Nat := leastFrom (fun k => decide (tenthPow (2 * (2 * k + 1)) ≤ y)) 14 0 4000

/-- SNR from the SNR of both polarisations: Es over the mean of the noise variances (R280). -/
def snrMean (x y : Nat) : Nat := dbOf ((powerRatio x + powerRatio y) / 2)

/-- EVM in 0.01 % (R280): 100 over the root of the linear SNR. -/
def evmOf (snr : Nat) : Nat := (10000 * tenthPow (2 * snr) + fixOne / 2) / fixOne

/-- GSNR estimate in 0.01 dB and its ceiling flag (R281); SNR_trx in 0.1 dB. -/
def gsnrOf (snr trx : Nat) : Nat × Bool :=
  if 10 * trx ≤ snr + 10 then (4000, true) else (dbOf (powerRatio snr - powerRatio (10 * trx)), false)

/-- The alternating series of the Gaussian integral: terms added, terms taken away. -/
def gaussTerms (x2 : Nat) : Nat → Nat → Nat → Nat × Nat → Nat × Nat
  | 0, _, _, acc => acc
  | f + 1, n, t, (a, b) =>
    let term := t / (2 * n + 1)
    gaussTerms x2 f (n + 1) (t * x2 / fixOne / (2 * (n + 1))) (if n % 2 = 0 then (a + term, b) else (a, b + term))

/-- The Gaussian tail above `x`, half of erfc(x / sqrt 2), in fixed point. -/
def gaussTail (x : Nat) : Nat :=
  let r := gaussTerms (x * x / fixOne) 160 0 x (0, 0)
  let area := (r.1 - r.2) * 3989422804014326779399460599343818684758 / fixOne
  fixOne / 2 - area

/-- Q in 0.01 dB of a BER in 10^-9 (R281): the nearest level whose tail is that BER, from 0 to 15.56 dB. -/
def qOf (ber : Nat) : Nat :=
  leastFrom (fun k => decide (gaussTail (fixOne * fixOne / tenthPow (2 * k + 1)) ≤ max 1 ber * 10 ^ 31)) 12 0 1556

end Sys2Proof.Machine
end

