-- ==== Sys2Proof/Machine/Matcher.lean ====
section
/-! DEFINITION. The sphere-shaping matcher of the PCS formats (R44), the level distribution that it produces (R130), and the scaling of the
levels (R45). An index i has the energy (2 i + 1)^2 = 1 + 8 T(i) with T(i) = i (i + 1) / 2, so 256 dimensions of energy E use
the budget (E - 256) / 8 of T units. -/

namespace Sys2Proof.Machine

/-- The amplitude levels of a format (R44). -/
def levelCount : Nat → Nat
  | 0 => 1
  | 1 => 2
  | 2 => 2
  | 3 => 4
  | _ => 8

/-- T(i), the energy of an index above that of index 0, in eighths. -/
def triEnergy (i : Nat) : Nat := i * (i + 1) / 2

/-- The format is shaped by the matcher (R27). -/
def isPcs (fmt : Nat) : Bool := decide (2 ≤ fmt)

/-- A list moved up by `k` places, with zeros below. -/
def movedUp (k : Nat) (l : List Nat) : List Nat := (List.replicate k 0 ++ l).take l.length

/-- The next row of the matcher tables: sequences one dimension longer within each budget. -/
def nextRow (m : Nat) (row : List Nat) : List Nat :=
  (List.range m).foldl (fun a i => List.zipWith (· + ·) a (movedUp (triEnergy i) row)) (List.replicate row.length 0)

/-- The rows for `n` dimensions more. -/
def matcherRows (m : Nat) : Nat → List Nat → List (List Nat)
  | 0, row => [row]
  | n + 1, row => row :: matcherRows m n (nextRow m row)

/-- The matcher of a plan: levels, amplitude bits, the greatest budget, and the rows: row j holds, for each budget from 0 on, the
sequences of j indices within it. `prior` is the number of times that each index occurs in the 2^A sequences in use. -/
structure Shape where
  levels : Nat := 1
  bits   : Nat := 0
  budget : Nat := 0
  rows   : List (List Nat) := []
  prior  : List Nat := [1]
  deriving DecidableEq, Repr

/-- E_max of a matcher (R44). -/
def Shape.eMax (h : Shape) : Nat := 256 + 8 * h.budget

/-- Sequences of `j` indices within a budget. -/
def rowAt (rows : List (List Nat)) (j k : Nat) : Nat := (rows.getD j []).getD k 0

/-- Sequences of `j` indices that follow an index of energy `t` within a budget. -/
def restCount (rows : List (List Nat)) (j k t : Nat) : Nat := if t ≤ k then rowAt rows j (k - t) else 0

/-- The place of a number among the indices of one dimension, `j` dimensions to follow: the index and what remains, or none when
the number lies beyond them all. -/
def pickIndex (rows : List (List Nat)) (j k : Nat) : List Nat → Nat → Option (Nat × Nat)
  | [], _ => none
  | i :: r, x =>
    let n := restCount rows j k (triEnergy i)
    if x < n then some (i, x) else pickIndex rows j k r (x - n)

/-- The sequence of a number in lexicographic order, dimension 0 first (R44): `n` dimensions to go. -/
def matchIndices (h : Shape) : Nat → Nat → Nat → List Nat
  | 0, _, _ => []
  | n + 1, k, x =>
    match pickIndex h.rows n k (List.range h.levels) x with
    | some (i, y) => i :: matchIndices h n (k - triEnergy i) y
    | none => 0 :: matchIndices h n k 0

/-- The number of a sequence (R131 step 4). -/
def rankIndices (h : Shape) : Nat → List Nat → Nat
  | _, [] => 0
  | k, i :: r => ((List.range i).map fun j => restCount h.rows r.length k (triEnergy j)).sum + rankIndices h (k - triEnergy i) r

/-- The occurrences of each index in the sequences of `j` indices within a budget. -/
def fullCounts (m : Nat) (rows : List (List Nat)) (j k : Nat) : List Nat :=
  (List.range m).map fun i => j * restCount rows (j - 1) k (triEnergy i)

/-- The occurrences of each index in the first `x` sequences: `n` dimensions to go, `pre` the occurrences before them. -/
def firstCounts (m : Nat) (rows : List (List Nat)) : Nat → Nat → List Nat → Nat → List Nat
  | 0, _, pre, x => if x = 0 then pre.map (fun _ => 0) else pre
  | n + 1, k, pre, x =>
    let whole (i : Nat) : List Nat :=
      let c := restCount rows n k (triEnergy i)
      let own := (lupd pre i (· + 1)).map (c * ·)
      if triEnergy i ≤ k then List.zipWith (· + ·) own (fullCounts m rows n (k - triEnergy i)) else pre.map fun _ => 0
    let sum (is : List Nat) : List Nat := is.foldl (fun a i => List.zipWith (· + ·) a (whole i)) (List.replicate m 0)
    match pickIndex rows n k (List.range m) x with
    | some (i, y) => List.zipWith (· + ·) (sum (List.range i)) (firstCounts m rows n (k - triEnergy i) (lupd pre i (· + 1)) y)
    | none => sum (List.range m)

/-- The matcher tables of a plan (R44): format and H x 64. -/
def shapeOf (fmt h64 : Nat) : Shape :=
  let m := levelCount fmt
  let a := 2 * h64 - 256
  if !isPcs fmt then { levels := m, bits := a, budget := 256 * triEnergy (m - 1), rows := [], prior := List.replicate m 1 }
  else
    let all := matcherRows m 256 (List.replicate (256 * triEnergy (m - 1) + 1) 1)
    let k := ((all.getD 256 []).takeWhile fun v => decide (v < 2 ^ a)).length
    let rows := all.map fun r => r.take (k + 1)
    { levels := m, bits := a, budget := k, rows := rows, prior := firstCounts m rows 256 k (List.replicate m 0) (2 ^ a) }

/-! Scaling (R45): the pilot amplitude a = sqrt(Es / 2) is the unit 65,536. -/

/-- The pilot amplitude a. -/
abbrev unitAmp : Nat := 65536

/-- The mean energy of a dimension's level, as a fraction. -/
def meanEnergy (h : Shape) : Nat × Nat :=
  (((List.range h.levels).map fun i => h.prior.getD i 0 * (2 * i + 1) ^ 2).sum, h.prior.sum)

/-- The scaled level of an index: (2 i + 1) a over the root of the mean energy, so that the mean power of a polarisation is
Es (R45). [log 191 DESIGN CHOICE] -/
def levelAmp (h : Shape) (i : Nat) : Nat :=
  let e := meanEnergy h
  if e.1 = 0 then 0 else ((2 * i + 1) ^ 2 * unitAmp ^ 2 * e.2 / e.1).sqrt

end Sys2Proof.Machine
end

