-- ==== Sys2Proof/Machine/Symbols.lean ====
section
/-! DEFINITION. The symbols of a superframe (R29 to R31, R43 to R46) and the pulse shaping, correction and scaling of a transmitter (R47 to
R52). -/

namespace Sys2Proof.Machine

/-- A queue of bits, packed: the next bit to leave is bit 0. -/
structure BitFifo where
  bits : Nat := 0
  len  : Nat := 0
  deriving DecidableEq, Repr

/-- Bits put behind those of a queue. -/
def BitFifo.push (q : BitFifo) (v n : Nat) : BitFifo := ⟨q.bits + v % 2 ^ n * 2 ^ q.len, q.len + n⟩

/-- The queue without its next `n` bits. -/
def BitFifo.drop (q : BitFifo) (n : Nat) : BitFifo := ⟨q.bits / 2 ^ n, q.len - n⟩

/-! Superframes. -/

/-- The block indices of the fill blocks of a superframe with fill count `m` (R30). -/
def fillPlaces (m : Nat) : List Nat := (List.range m).map fun j => 251 - 63 * j

/-- The fill-count codewords (R31). -/
def fillWordOf (m : Nat) : Nat := [0x55555555, 0x33333333, 0x66666666, 0x0F0F0F0F, 0x5A5A5A5A].getD m 0

/-- A bit as a signed amplitude: 0 gives +a, 1 gives -a. -/
def signedAmp (b : Bool) (a : Nat) : Int := if b then -(a : Int) else a

/-- The pilot-position symbol of group `g` of a superframe that announces the fill count `m` (R29, R31, R46): the sync sequence, the
fill-count word, the PRBS11 pilots. -/
def pilotSym (m g : Nat) : Sym :=
  let pm (b : Bool) : Int := signedAmp b unitAmp
  if g < 16 then
    let x := 0xC6A73E19
    let y := 0x5E319CD4
    ⟨pm (x.testBit (31 - 2 * g)), pm (x.testBit (30 - 2 * g)), pm (y.testBit (31 - 2 * g)), pm (y.testBit (30 - 2 * g))⟩
  else if g < 32 then
    let x := pm ((fillWordOf m).testBit (47 - g))
    let y := pm ((fillWordOf m).testBit (31 - g))
    ⟨x, x, y, y⟩
  else
    let x := lfsrPacked 11 9 448 0x7FF
    let y := lfsrPacked 11 9 448 0x0F0
    let k := 2 * (g - 32)
    ⟨pm (x.testBit k), pm (x.testBit (k + 1)), pm (y.testBit k), pm (y.testBit (k + 1))⟩

/-- Dimensions in order as symbols: dimension 4 j + d is d of data symbol j (R43). -/
def dimSyms : List Int → List Sym
  | a :: b :: c :: d :: r => ⟨a, b, c, d⟩ :: dimSyms r
  | _ => []

/-- The amplitude indices of a shaping block from its amplitude bits, packed (R44). -/
def blockIndices (fmt : Nat) (h : Shape) (amp : Nat) : List Nat :=
  if fmt = 0 then List.replicate 256 0
  else if fmt = 1 then (unpackBits 256 amp).map b2n
  else matchIndices h 256 h.budget ((unpackBits h.bits amp).foldl (fun a b => 2 * a + b2n b) 0)

/-- The 64 symbols of a data block of packed bits: bits 0 to 255 are signs, the rest amplitude bits (R43 to R45). -/
def dataBlockSyms (fmt : Nat) (h : Shape) (v : Nat) : List Sym :=
  let amps := (List.range h.levels).map (levelAmp h)
  dimSyms (List.zipWith (fun b i => signedAmp b (amps.getD i 0)) (unpackBits 256 v) (blockIndices fmt h (v / 2 ^ 256)))

/-- The 64 symbols of the fill block that is the k-th to be sent in its superframe (R30): PRBS15 signs at the mean power. [log 194 DESIGN CHOICE] -/
def fillBlockSyms (k : Nat) : List Sym :=
  dimSyms ((lfsrBits 15 14 256 (lfsrAfter 15 14 (256 * k) 0x7FFF)).map fun b => signedAmp b unitAmp)

/-- The data symbols of a superframe: blocks 0 to 251, the fill blocks at their places, the others from the coded bits of 2 H64
each (R30, R43). -/
def superframeData (fmt : Nat) (h : Shape) (m : Nat) : Nat → Nat → Nat → List Sym
  | 0, _, _ => []
  | n + 1, k, v =>
    let b := 251 - n
    if (fillPlaces m).contains b then fillBlockSyms k ++ superframeData fmt h m n (k + 1) v
    else dataBlockSyms fmt h v ++ superframeData fmt h m n k (v / 2 ^ (256 + h.bits))

/-- The coded bits that a superframe with fill count `m` carries. -/
def superframeBits (h : Shape) (m : Nat) : Nat := (252 - m) * (256 + h.bits)

/-- The data symbols put behind the pilot of each of the 256 groups (R29). -/
def withPilots (mNext : Nat) (data : List Sym) : List Sym :=
  (List.range 256).flatMap fun g => pilotSym mNext g :: (data.drop (63 * g)).take 63

/-- The 16,384 symbols of a superframe: fill count `m`, announcing `mNext`, from coded bits. -/
def superframeSyms (fmt : Nat) (h : Shape) (m mNext v : Nat) : List Sym :=
  withPilots mNext (superframeData fmt h m 252 0 v)

/-! Pulse shaping (R47). Fixed point of 18 digits. -/

/-- The unit of the fixed point of the filter design. -/
def designOne : Int := 10 ^ 18

/-- Pi in the fixed point. -/
def designPi : Int := 3141592653589793238

/-- The series of sine and cosine: `n` terms to go, term `t` of order `k`. -/
def sinCosFrom (x : Int) : Nat → Nat → Int → Int × Int → Int × Int
  | 0, _, _, acc => acc
  | n + 1, k, t, (s, c) =>
    let sg : Int := if k % 4 < 2 then 1 else -1
    sinCosFrom x n (k + 1) (t * x / designOne / (k + 1)) (if k % 2 = 1 then (s + sg * t, c) else (s, c + sg * t))

/-- Sine and cosine of pi p / q. -/
def sinCosPi (p : Int) (q : Nat) : Int × Int :=
  let r := (p + q) % (2 * q) - q
  sinCosFrom (designPi * r / q) 36 0 designOne (0, 0)

/-- The root-raised-cosine response at tap `i` for a roll-off of `b` hundredths, in the fixed point. [log 195 DESIGN CHOICE] -/
def rrcAt (b : Nat) (i : Nat) : Int :=
  let j : Int := (i : Int) - 64
  if j = 0 then designOne * (100 - (b : Int)) / 100 + 4 * (b : Int) * designOne * designOne / (100 * designPi)
  else if j.natAbs * b = 200 then
    let a := sinCosPi 25 b
    let two := 2 * designOne * designOne / designPi
    (b : Int) * ((designOne + two) * a.1 / designOne + (designOne - two) * a.2 / designOne) * 707106781186547524 / (100 * designOne)
  else
    let s := (sinCosPi (j * (100 - (b : Int))) 800).1
    let c := (sinCosPi (j * (100 + (b : Int))) 800).2
    let u := (b : Int) * j * designOne / 200
    let num := s + u * c / designOne
    let den := designPi * j / 8 * (designOne - u * u / designOne) / designOne
    num * designOne / den

/-- The response under its Hann window over 129 taps. [log 195 DESIGN CHOICE] -/
def windowedRrc (b i : Nat) : Int := rrcAt b i * (designOne + (sinCosPi ((i : Int) - 64) 64).2) / (2 * designOne)

/-- The computed filter (R47): 129 taps of 15 fractional bits, normalised to unit DC gain. [log 195 DESIGN CHOICE] -/
def computedTaps (b : Nat) : List Int :=
  let l := (List.range 129).map (windowedRrc b)
  l.map fun x => roundDiv (x * 32768) l.sum.toNat

/-- A loaded filter: taps 0 to 64, mirrored (R47). -/
def mirroredTaps (l : List Int) : List Int := l ++ (l.take 64).reverse

/-- The interpolator's sample at phase `ph` (eighths of a symbol) over the symbols received so far, the newest first (R47). -/
def interpolate (taps : List Int) (ph : Nat) (hist : List Int) : Int :=
  ((List.range 17).map fun j => hist.getD j 0 * taps.getD (8 * j + ph) 0).sum

/-- The samples of one dimension: sample k falls 7 k / 8 symbols after the start, so a symbol gives the samples of its phases; the
answer is the samples in order with the phase that comes next and the last 16 symbols. -/
def shapeSamples (taps : List Int) : Nat → List Int → List Int → List Int × Nat × List Int
  | ph, hist, [] => ([], ph, hist)
  | ph, hist, x :: r =>
    let h := (x :: hist).take 17
    let own := if ph = 0 then [interpolate taps 0 h, interpolate taps 7 h] else [interpolate taps ph h]
    let rest := shapeSamples taps (if ph = 0 then 6 else ph - 1) (h.take 16) r
    (own ++ rest.1, rest.2)

/-! Correction and scaling (R49, R51, R52). -/

/-- A FIR filter of 15 taps over samples, `hist` the last ones before them, the newest first (R49). -/
def firSamples (taps : List Int) : List Int → List Int → List Int
  | _, [] => []
  | hist, x :: r =>
    let h := (x :: hist).take 15
    (List.zipWith (· * ·) taps h).sum :: firSamples taps h r

/-- The samples moved by a skew in 1/64 ps (R49); how a fraction of a sample is formed the manual leaves open. [log 196 DESIGN CHOICE] -/
def skewSamples (skew : Int) (l : List Int) : List Int :=
  if skew = 0 then l else (List.range l.length).map (Config.delayedSample skew l)

/-- The amplitude ratio of a gain in 0.01 dB, in fixed point. -/
def gainRatio (g : Int) : Nat := if g < 0 then tenthPow (2 * g.natAbs) else fixOne * fixOne / tenthPow (2 * g.natAbs)

/-- The RMS of samples. -/
def rmsOf (l : List Int) : Nat := ((l.map fun x => x.natAbs ^ 2).sum / max 1 l.length).sqrt

/-- The written level as DAC codes in fixed point: 0 dBFS is an RMS of 128 codes. [log 197 DESIGN CHOICE] -/
def rmsCodes (rms : Int) : Nat := 128 * tenthPow (20 * rms.natAbs)

/-- The tone's share of one channel (R52): with I and Q of both polarisations alike, 30 dB below the channel's RMS. [log 198 DESIGN CHOICE] -/
def toneCodes (rms : Int) : Int := roundDiv (rmsCodes rms * tenthPow 6000) (fixOne * fixOne)

/-- A channel's samples scaled to the written level, with gain, DC offset and tone, before the DAC clips (R49, R51, R52). [log 197 DESIGN CHOICE] -/
def scaleSamples (rms gain dc tone : Int) (l : List Int) : List Int :=
  let r := max 1 (rmsOf l)
  let k : Nat := rmsCodes rms * gainRatio gain / fixOne
  l.map fun x => roundDiv (x * k) (r * fixOne) + dc + tone

/-- The DAC's range (R51). -/
def clipCode (x : Int) : Int := clampInt (-128) 127 x

/-- The samples outside the range. -/
def clippedCount (l : List Int) : Nat := (l.filter fun x => decide (clipCode x ≠ x)).length

end Sys2Proof.Machine
end

