-- ==== Sys2Proof/Machine/Soft.lean ====
section
/-! DEFINITION. The demapper (R130 to R132) and the symbols that a turbo pass expects (R138). Log-likelihoods are in units of 2^-20, LLRs in
half steps of 0.5. -/

namespace Sys2Proof.Machine

/-- One coded bit as received: its LLR in steps of 0.5, and the hard channel decision (R130, R131). -/
structure SoftBit where
  llr  : Int := 0
  hard : Bool := false
  deriving DecidableEq, Repr

/-! Exponential and logarithm in the fixed point of Machine/Decibel.lean. -/

/-- The unit of log-likelihoods. -/
abbrev logUnit : Nat := 2 ^ 20

/-- exp(-1 / 2^20). -/
def expStep : Nat := 9999990463261383409563262089200758775332

/-- exp(-n / 2^20). -/
def expNeg (n : Nat) : Nat := fixPow 64 expStep n fixOne

/-- The series of the area tangent: `n` terms to go, term of order `k`. -/
def atanhFrom (z2 : Nat) : Nat → Nat → Nat → Nat
  | 0, _, _ => 0
  | n + 1, k, t => t / (2 * k + 1) + atanhFrom z2 n (k + 1) (t * z2 / fixOne)

/-- ln(a / b) for b ≤ a < 2 b, in units of log-likelihood. -/
def lnNear (a b : Nat) : Nat :=
  let z := (a - b) * fixOne / (a + b)
  2 * atanhFrom (z * z / fixOne) 45 0 z * logUnit / fixOne

/-- ln 2 in units of log-likelihood. -/
def lnTwo : Nat := lnNear 2 1

/-- ln(a / b) for 0 < a ≤ b as a number below zero. -/
def lnRatio (a b : Nat) : Int :=
  let k := (b / a).log2
  0 - ((k * lnTwo + lnNear b (a * 2 ^ k) : Nat) : Int)

/-- ln(e^a + e^b), by the log-sum. -/
def logAdd (a b : Int) : Int := max a b + lnNear (fixOne + expNeg (a - b).natAbs) fixOne

/-- The log-sum of a list. -/
def logSum : List Int → Int
  | [] => -1048576000
  | x :: r => r.foldl logAdd x

/-! Likelihoods of one dimension (R130). -/

/-- ln of the prior of each level, which R44's matcher produces for the plan. -/
def levelPriors (h : Shape) : List Int := h.prior.map fun p => if p = 0 then -1048576000 else lnRatio p h.prior.sum

/-- The exponent of a received value `y` for the sent value `x`, noise variance `v` per dimension. -/
def gaussLog (v : Nat) (y x : Int) : Int := -((y - x) ^ 2 * logUnit / (2 * max 1 v))

/-- What the demapper knows of a dimension: the log-likelihood of each index, and the LLR of the sign. -/
structure DimSoft where
  idx  : List Int
  sign : Int

/-- The log-likelihoods of a dimension (R130): the amplitudes `amps`, the noise variance `v`, the received value `y`. -/
def demapDim (priors : List Int) (amps : List Nat) (v : Nat) (y : Int) : DimSoft :=
  let pos := List.zipWith (fun p (a : Nat) => p + gaussLog v y a) priors amps
  let neg := List.zipWith (fun p (a : Nat) => p + gaussLog v y (-a)) priors amps
  { idx := List.zipWith logAdd pos neg, sign := logSum pos - logSum neg }

/-- An LLR in units of log-likelihood as a 6-bit value in steps of 0.5 (R130). [log 203 DESIGN CHOICE] -/
def quantLlr (x : Int) : Int := clampInt (-31) 31 (roundDiv (2 * x) logUnit)

/-- A log-likelihood times the weight of its dimension in 16ths: 16, the clip weight where it is flagged (R132), 0 where its samples were lost
(R340). -/
def weigh (w : Nat) (x : Int) : Int := x * w / 16

/-! The list dematcher (R131). -/

/-- The best and the second best index of a dimension, and the margin between them. -/
def bestTwo (l : List Int) : Nat × Nat × Int :=
  let best := (List.range l.length).foldl (fun b i => if l.getD b 0 < l.getD i 0 then i else b) 0
  let rest := (List.range l.length).filter (· ≠ best)
  let second := rest.foldl (fun b i => if l.getD b 0 < l.getD i 0 then i else b) (rest.headD best)
  (best, second, l.getD best 0 - l.getD second 0)

/-- The `n` places of least reliability, in order; of equal ones the lower place first. -/
def leastReliable (r : List Int) : Nat → List Nat → List Nat
  | 0, _ => []
  | n + 1, got =>
    let left := (List.range r.length).filter fun i => !got.contains i
    let k := left.foldl (fun b i => if r.getD i 0 < r.getD b 0 then i else b) (left.headD 0)
    k :: leastReliable r n (k :: got)

/-- A candidate of the dematcher: its amplitude bits as a number, and its metric. -/
structure Candidate where
  num    : Nat
  metric : Int
  deriving DecidableEq, Repr

/-- The candidates that remain (R131 steps 1 to 4), with the fifth smallest reliability. [log 204 DESIGN CHOICE] -/
def dematchList (h : Shape) (ds : List (List Int)) : List Candidate × Int :=
  let two := ds.map bestTwo
  let rel := two.map (·.2.2)
  let five := leastReliable rel 5 []
  let seqOf (m : Nat) : List Nat := two.zipIdx.map fun e =>
    if (five.take 4).zipIdx.any (fun p => p.1 == e.2 && m.testBit p.2) then e.1.2.1 else e.1.1
  let ok (q : List Nat) : Bool := decide ((q.map triEnergy).sum ≤ h.budget) && decide (rankIndices h h.budget q < 2 ^ h.bits)
  let cands := ((List.range 16).map seqOf).filter ok
  (cands.map fun q => ⟨rankIndices h h.budget q, (List.zipWith (fun (d : List Int) i => d.getD i 0) ds q).sum⟩, rel.getD (five.getD 4 0) 0)

/-- The best metric of the candidates of a bit value. -/
def bestMetric : List Candidate → Option Int
  | [] => none
  | c :: r => match bestMetric r with
    | some m => some (max c.metric m)
    | none => some c.metric

/-- The candidate of the best metric. -/
def bestCandidate (l : List Candidate) : Option Candidate :=
  l.foldl (fun b c => match b with
    | some x => if x.metric < c.metric then some c else b
    | none => some c) none

/-- The amplitude bits of a shaping block by the list dematcher (R131 steps 5 to 7); none remaining gives LLR 0 and bit 0. -/
def dematchBits (h : Shape) (l : List Candidate) (r5 : Int) : List SoftBit :=
  match bestCandidate l with
  | none => List.replicate h.bits {}
  | some best => (List.range h.bits).map fun i =>
    let bit (c : Candidate) : Bool := c.num.testBit (h.bits - 1 - i)
    let llr := match bestMetric (l.filter fun c => !bit c), bestMetric (l.filter bit) with
      | some a, some b => a - b
      | _, _ => if bit best then -r5 else r5
    { llr := quantLlr llr, hard := bit best }

/-! Shaping blocks. -/

/-- Symbols as dimensions in order, with the weight of each (R43, R132). -/
def symDimsOf (l : List (Sym × Nat)) : List (Int × Nat) :=
  l.flatMap fun e => [(e.1.xi, e.2), (e.1.xq, e.2), (e.1.yi, e.2), (e.1.yq, e.2)]

/-- The demapper's view of a shaping block: noise variance of a dimension of X and of Y. -/
def demapBlock (h : Shape) (vx vy : Nat) (l : List (Sym × Nat)) : List (DimSoft × Nat) :=
  let priors := levelPriors h
  let amps := (List.range h.levels).map (levelAmp h)
  (symDimsOf l).zipIdx.map fun e => (demapDim priors amps (if e.2 % 4 < 2 then vx else vy) e.1.1, e.1.2)

/-- The coded bits of a data block (R130 to R132), and whether the dematcher found no candidate. -/
def blockLlrs (fmt : Nat) (h : Shape) (ds : List (DimSoft × Nat)) : List SoftBit × Bool :=
  let bit (w : Nat) (x : Int) : SoftBit := ⟨quantLlr (weigh w x), decide (weigh w x < 0)⟩
  let signs := ds.map fun d => bit d.2 d.1.sign
  if fmt = 0 then (signs, false)
  else if fmt = 1 then
    (signs ++ ds.map fun d => bit d.2 (d.1.idx.getD 0 0 - d.1.idx.getD 1 0), false)
  else
    let c := dematchList h (ds.map fun d => d.1.idx.map (weigh d.2))
    (signs ++ dematchBits h c.1 c.2, c.1.isEmpty)

/-! Expected symbols (R138). LLRs of the decoder come in units of log-likelihood. -/

/-- The expected sign of an LLR, tanh(L / 2), in 65,536ths. -/
def expectedSign (l : Int) : Int :=
  let e := expNeg l.natAbs
  let t : Int := ((fixOne - e) * 65536 / (fixOne + e) : Nat)
  if l < 0 then -t else t

/-- The probability, in 65,536ths, that the bit of an LLR is 1. -/
def probOne (l : Int) : Nat :=
  let e := expNeg l.natAbs
  (if l < 0 then fixOne else e) * 65536 / (fixOne + e)

/-- The posterior mean amplitude of a dimension (R130, R138). -/
def meanAmp (amps : List Nat) (d : DimSoft) : Nat :=
  let m := d.idx.foldl max (d.idx.headD 0)
  let ws := d.idx.map fun x => expNeg (m - x).natAbs
  (List.zipWith (· * ·) ws amps).sum / max 1 ws.sum

/-- The expected dimensions of a data block from the decoder's LLRs of its bits (R138): signs by tanh, amplitudes by their bits, by re-matching
confident hard bits, or by the demapper's posterior mean. -/
def expectBlock (fmt : Nat) (h : Shape) (ds : List (DimSoft × Nat)) (llrs : List Int) : List Int :=
  let amps := (List.range h.levels).map (levelAmp h)
  let signs := (llrs.take 256).map expectedSign
  let bits := llrs.drop 256
  let mags : List Nat :=
    if fmt = 0 then ds.map fun _ => amps.getD 0 0
    else if fmt = 1 then bits.map fun l => ((65536 - probOne l) * amps.getD 0 0 + probOne l * amps.getD 1 0) / 65536
    else if bits.all fun l => decide (4 * logUnit ≤ l.natAbs) then
      (matchIndices h 256 h.budget (bits.foldl (fun a l => 2 * a + b2n (decide (l < 0))) 0)).map fun i => amps.getD i 0
    else ds.map fun d => meanAmp amps d.1
  List.zipWith (fun s (a : Nat) => s * a / 65536) signs mags

end Sys2Proof.Machine
end

