-- ==== Sys2Proof/Machine/StFrame.lean ====
section
/-! DEFINITION. The state of the FEC and of the framer (spec/06_fec.md, spec/07_line_frame.md). Each field's default is its reset value. -/

namespace Sys2Proof.Machine

/-- The FEC settings of R146. -/
structure FecSet where
  iMax     : Nat := 16
  lDec     : Nat := 16
  iFloor   : Nat := 8
  clipW    : Nat := 4
  early    : Bool := true
  throttle : Bool := true
  degSet   : Nat := 10000
  degClr   : Nat := 8000
  degWin   : Nat := 10
  failCount : Nat := 1
  failSet  : Nat := 3
  failClr  : Nat := 10
  deriving DecidableEq, Repr

/-- A block of 9,513 coded bits as received: the place of its first bit in the coded stream, its soft bits, and whether a superframe within it used
a replaced fill count (R110). -/
structure ChanBlock where
  start : Nat := 0
  bits  : List SoftBit := []
  bad   : Bool := false
  deriving DecidableEq, Repr

/-- The values of the decoder (R133): the soft value of each bit of the blocks it works on, by block number; the last answer of each check to
each of its bits, by block number and check; the hard values of the last two blocks that have left. -/
structure DecMem where
  soft : Tbl (Array Rat) := []
  msgs : Tbl (List (List Rat)) := []
  past : List (Nat × BlockBits) := []
  deriving DecidableEq, Repr

/-- A block in the decoder window (R133 to R135): number, I_eff at its entry, iterations received, the iteration at which
it first met its checks, its age in periods; a fill count replaced within it, LOCKED from its first symbol (R110), and the
turbo positions and the early stop that apply to it (R117, R147), and its channel values. -/
structure DecBlock where
  num     : Nat
  iEff    : Nat
  iters   : Nat
  convAt  : Option Nat
  age     : Nat
  badFill : Bool
  locked  : Bool
  i1      : Nat
  i2      : Nat
  early   : Bool
  chan    : ChanBlock := {}
  deriving DecidableEq, Repr

/-- The counts of R142 and R149. -/
structure FecCounts where
  bits      : Nat := 0
  errors    : Nat := 0
  blocks    : Nat := 0
  unconv    : Nat := 0
  bchBits   : Nat := 0
  bchWords  : Nat := 0
  bchUncorr : Nat := 0
  alignLoss : Nat := 0
  quick     : Nat := 0
  hunts     : Nat := 0
  empties   : Nat := 0
  hist      : List Nat := List.replicate 16 0
  deriving DecidableEq, Repr

/-- The sums of the running second, for ber_last and iter_mean (R149, R280). -/
structure FecSecond where
  bits   : Nat := 0
  errors : Nat := 0
  blocks : Nat := 0
  iters  : Nat := 0
  uncorr : Nat := 0
  corrected : Nat := 0
  unconv : Nat := 0
  iMax   : Nat := 0
  deriving DecidableEq, Repr

/-- The window of FEC-DEG (R143, R145): end, bits, errors, blocks, excluded blocks, neutral, runs. -/
structure DegWindow where
  endAt    : Option Nat := none
  bits     : Nat := 0
  errors   : Nat := 0
  blocks   : Nat := 0
  excluded : Nat := 0
  neutral  : Bool := false
  high     : Nat := 0
  low      : Nat := 0
  deriving DecidableEq, Repr

/-- The window of FEC-FAIL (R144, R145). -/
structure FailWindow where
  endAt   : Option Nat := none
  count   : Nat := 0
  neutral : Bool := false
  failing : Nat := 0
  clean   : Nat := 0
  deriving DecidableEq, Repr

/-- The decoder and encoder of a carrier. `clipWUse` is the clip weight in effect; `full` a full hunt runs; `badRun` blocks
with too many unsatisfied checks; `degUse` and `failUse` the settings of the running windows; `encBlock` the number of the next LDPC block
to send, none until R124 starts it, `encWords` the outer codewords of that block so far, `enc1` and `enc2` the two blocks before (R129). Received:
`inp` the soft bits of the block that arrives with the place of its first bit, `skip` the bits to pass over before it, `chan` the blocks that wait
to enter, `raw` the hard channel decisions of the last 8 blocks (the oldest lowest) and `rawLen` how many of them have arrived, `mem` the decoder's values, `chPast` the hard channel
decisions of the last two blocks that left, the newest first. -/
structure Fec where
  set       : FecSet := {}
  clipWUse  : Nat := 4
  delta     : Nat := 0
  throttleAt : Option Nat := none
  aligned   : Bool := false
  hunting   : Bool := false
  offset    : Nat := 0
  badRun    : Nat := 0
  window    : List DecBlock := []
  nextBlock : Nat := 0
  deg       : Bool := false
  fail      : Bool := false
  degUse    : FecSet := {}
  failUse   : FecSet := {}
  degW      : DegWindow := {}
  failW     : FailWindow := {}
  cnt       : FecCounts := {}
  sec       : FecSecond := {}
  berLast   : Nat := 0
  iterMean  : Nat := 0
  encBlock  : Option Nat := none
  encWords  : List Nat := []
  enc1      : BlockBits := 0
  enc2      : BlockBits := 0
  inp       : ChanBlock := {}
  skip      : Nat := 0
  chan      : List ChanBlock := []
  raw       : Nat := 0
  rawLen    : Nat := 0
  mem       : DecMem := {}
  chPast    : List BlockBits := []
  deriving DecidableEq, Repr

/-- The alignment states of R165. -/
inductive AlignState where
  | hunt
  | presync
  | sync
  deriving DecidableEq, Repr

/-- The frame settings of R175. -/
structure FrmSet where
  losSet   : Int := -320
  losClr   : Int := -290
  tSet     : Nat := 2
  tClr     : Nat := 100
  bdiIns   : Bool := true
  ttiCmp   : Bool := false
  carCheck : Bool := true
  deriving DecidableEq, Repr

/-- A remote indication (R172): raised, and the run of consecutive opposite headers. -/
structure Indication where
  on  : Bool := false
  run : Nat := 0
  deriving DecidableEq, Repr

/-- A value accepted after 3 consecutive equal frames: the accepted value, the candidate and its run. -/
structure Accepted where
  val  : Option Nat := none
  cand : Nat := 0
  run  : Nat := 0
  deriving DecidableEq, Repr

/-- Accumulation of the trail trace (R160): the bytes of the running cycle while complete, the last complete cycle, the run
of equal complete cycles, the accepted trace. -/
structure TraceRx where
  cycle    : Option (List Byte) := none
  last     : List Byte := []
  run      : Nat := 0
  accepted : Option (List Byte) := none
  mismatch : Bool := false
  deriving DecidableEq, Repr

/-- The counters of R177. -/
structure FrmCounts where
  badHeaders : Nat := 0
  lof        : Nat := 0
  lom        : Nat := 0
  calResync  : Nat := 0
  unitErr    : Nat := 0
  bip        : List Nat := List.replicate 8 0
  bei        : Nat := 0
  deriving DecidableEq, Repr

/-- CALRET of R163 as received (last SEQ taken, candidate and run) and as sent. -/
structure CalRet where
  taken : Option Nat := none
  cand  : List Byte := []
  run   : Nat := 0
  valid : Bool := false
  seq   : Nat := 0
  vals  : List Int := List.replicate 12 0
  deriving DecidableEq, Repr

/-- The framer of one carrier (R150 to R177). `set` are written settings and `use` those in effect; `hdrOut` and `ohOut` the header and
overhead block 0 of the last frame sent, `frameOut` all of its bits as sent, `sentPar` the BIP-8 of its units; `annPend` an accepted
announcement with the multiframe whose start it names, `modeNote` the mode that the last announced boundary brought; `words` the messages
that the outer decoder has delivered with their uncorrectable flags, `pos` the 64-bit position of the first of them at which the candidate or
the next header stands (R164, R165). -/
structure Frm where
  set      : FrmSet := {}
  use      : FrmSet := {}
  txTti    : List Byte := List.replicate 64 0
  txTtiUse : List Byte := List.replicate 64 0
  expTti   : List Byte := List.replicate 64 0
  align    : AlignState := .hunt
  goodRun  : Nat := 0
  rising   : Bool := false
  badRun   : Nat := 0
  expFc    : Nat := 0
  misRun   : Nat := 0
  matchRun : Nat := 0
  lom      : Bool := false
  los      : Bool := false
  belowNs  : Nat := 0
  aboveNs  : Nat := 0
  lastFc   : Nat := 0
  reported : Nat := 0
  rdi      : Indication := {}
  rdeg     : Indication := {}
  fdi      : Indication := {}
  swap     : Indication := {}
  farMode  : Accepted := {}
  leg      : Accepted := {}
  ssm      : Accepted := {}
  ann      : Accepted := {}
  annPend  : Option (Nat × Nat) := none
  resync   : Bool := false
  trace    : TraceRx := {}
  calret   : CalRet := {}
  prevBip  : Option (List Byte) := none
  bei      : Nat := 0
  hdrOut   : BitVec 64 := 0#64
  ohOut    : List Byte := []
  frameOut : Nat := 0
  sentPar  : List Byte := []
  modeNote : Option Nat := none
  words    : List (Nat × Bool) := []
  pos      : Nat := 0
  regenFc  : Nat := 0
  cnt      : FrmCounts := {}
  deriving DecidableEq, Repr

/-- FEC and framer of a carrier. -/
structure LineSt where
  fec : Fec := {}
  frm : Frm := {}
  deriving DecidableEq, Repr

end Sys2Proof.Machine
end

