-- ==== Sys2Proof/Machine/StHost.lean ====
section
/-! DEFINITION. The state of the host lanes, PHYs, FlexE groups and clients (spec/08_host_lanes.md). Each field's default is its reset
value. -/

namespace Sys2Proof.Machine

/-- The settings of a quad (R181, R200): masks of 4 lanes; receive in the low half of `polarity` and `precode`. -/
structure Quad where
  rate     : Nat := 0
  iface    : Nat := 0
  enable   : Nat := 0
  polarity : Nat := 0
  precode  : Nat := 0
  deriving DecidableEq, Repr

/-- The adaptation of a lane (R182): off, foreground, background. -/
inductive AdaptState where
  | off
  | foreground
  | background
  deriving DecidableEq, Repr

/-- A host lane (R181 to R183, R196, R207). Values are keyed by 16 x item + index, and kept ones by 1024 x (2 x rate + iface)
more; `next` is accepted and not yet applied, `old` what the update just applied replaced. `los` and `lol` are declared. -/
structure HostLane where
  taps      : List Int := [0, 0, 0, 0]
  swing     : Nat := 750
  adapt     : AdaptState := .off
  fgEnd     : Option Nat := none
  vals      : Tbl Int := []
  kept      : Tbl Int := []
  next      : Tbl (Option Int) := []
  old       : Tbl (Option Int) := []
  lastMse   : Option Int := none
  track     : Track := {}
  spoiled   : Bool := false
  los       : Bool := false
  cdrLol    : Bool := false
  accepted  : Nat := 0
  failed    : Nat := 0
  discarded : Nat := 0
  deriving DecidableEq, Repr

/-- The transmit side of a PHY (R187, R190): it sends local fault, blocks not yet in a codeword, codewords since the last markers, the PAM4 levels
last sent per lane, the last level of each lane's precoder, the offset of its clock from the system timing in 10^-12. -/
structure PhyTx where
  fault  : Bool := true
  blocks : List (List Bool) := []
  cw     : Nat := 0
  out    : List (List Nat) := []
  last   : List Nat := []
  offset : Int := 0
  deriving DecidableEq, Repr

/-- A PHY (R184 to R186, R196): kind 0 none, 1 Ethernet, 2 FlexE; declared defects of its own in the bit order of R208;
masks last posted; FEC counters; overhead state of a FlexE PHY; `marks` per received PCS lane the number of its marker and its delay in ps, `cwIn`
codewords received since the last markers, `rxLast` the last level of each lane, `ohOut` the overhead that a FlexE PHY sends. -/
structure Phy where
  kind     : Nat := 0
  type     : Nat := 0
  lanes    : Nat := 0
  declared : Nat := 0
  posted   : Nat := 0
  postedRep : Nat := 0
  cwCorr   : Nat := 0
  symCorr  : Nat := 0
  cwUncorr : Nat := 0
  idRun    : Nat := 0
  caRun    : Nat := 0
  rpf      : Bool := false
  marks    : List (Option (Nat × Nat)) := []
  cwIn     : Nat := 0
  rxLast   : List Nat := []
  ohOut    : Option FlexeOh := none
  tx       : PhyTx := {}
  deriving DecidableEq, Repr

/-- A calendar switch in progress (R193): its command, handshake, latest acceptance of CA, CA accepted. -/
structure FlexSwitch where
  ref       : Ref
  handshake : Bool
  deadline  : Nat
  accepted  : Bool
  deriving DecidableEq, Repr

/-- A FlexE group (R191 to R194): number (0 not defined), PHYs as first lane and first instance, both calendars, the one
in use (0 A, 1 B), FX_GROUP_LOA, what the peer sends and what is returned. -/
structure FlexGroup where
  number   : Nat := 0
  phys     : List (Nat × Nat) := []
  calA     : List Nat := []
  calB     : List Nat := []
  inUse    : Nat := 0
  switch   : Option FlexSwitch := none
  loa      : Bool := false
  peerC    : Bool := false
  peerCr   : Bool := false
  caOut    : Bool := false
  withheld : Nat := 0
  unbound  : Nat := 0
  ssm      : Option Nat := none
  ssmAt    : Option Nat := none
  deriving DecidableEq, Repr

/-- A client of a tenant (R195, R203, R208): kind 0 none, 1 Ethernet PHY, 2 FlexE client. -/
structure Client where
  kind     : Nat := 0
  place    : Nat := 0
  id       : Nat := 0
  rfInsert : Bool := false
  lfRx     : Bool := false
  rfRx     : Bool := false
  calMis   : Bool := false
  offset   : Int := 0
  deriving DecidableEq, Repr

/-- The host side: quads, lanes, PHYs by first lane, groups, clients by tenant, recovered-clock taps (quad, lane). -/
structure HostSide where
  quads   : List Quad := List.replicate 10 {}
  lanes   : List HostLane := List.replicate 40 {}
  phys    : Tbl Phy := []
  groups  : List FlexGroup := List.replicate 16 {}
  clients : Tbl Client := []
  rclk    : List (Option (Nat × Nat)) := List.replicate 4 none
  deriving DecidableEq, Repr

end Sys2Proof.Machine
end

