-- ==== Sys2Proof/Machine/StMem.lean ====
section
/-! DEFINITION. The state of the Dome and of the on-die SRAM protection (spec/13_stored_data_protection.md). Each field's default is its
reset value. -/

namespace Sys2Proof.Machine

/-- A remap entry (R336, R341). -/
structure RemapEntry where
  valid      : Bool := false
  poison     : Bool := false
  journalled : Bool := false
  addr       : Nat := 0
  deriving DecidableEq, Repr

/-- An entry of the correctable-error log (R333, R334): `since` a correction was logged since the scrubber's last visit. -/
structure CeEntry where
  addr     : Nat
  cw1      : Bool
  uncorr   : Bool
  remapped : Bool
  symbol   : Nat
  hits     : Nat
  count    : Nat
  first    : Nat
  last     : Nat
  since    : Bool
  deriving DecidableEq, Repr

/-- The scrubber and the counters of a target (R342, R346): start of the running pass, its period (ns), the next address,
whether it has finished. -/
structure Scrub where
  passAt    : Option Nat := none
  period    : Nat := 0
  pos       : Nat := 0
  finished  : Bool := true
  late      : Bool := false
  full      : Bool := false
  passes    : Nat := 0
  lastPass  : Nat := 0
  corrected : Nat := 0
  uncorr    : Nat := 0
  retiredCount : Nat := 0
  overflow  : Nat := 0
  deriving DecidableEq, Repr

/-- A Dome stack. `lines` holds ciphertext; an unlisted line holds the encrypted zeros of R332. -/
structure Dome where
  ready   : Bool := false
  lines   : Tbl (Option (List Byte)) := []
  remap   : List RemapEntry := List.replicate 16 {}
  log     : List CeEntry := []
  scrub   : Scrub := {}
  retired : List Nat := []
  hot     : Bool := false
  refreshAt : Nat := 0
  deriving DecidableEq, Repr

/-- An on-die region (R339, R341): its entries, and per word its hits. -/
structure Region where
  remap : List RemapEntry := List.replicate 8 {}
  hits  : Tbl Nat := []
  scrub : Scrub := {}
  deriving DecidableEq, Repr

/-- A running row repair (R338). -/
structure RowRepair where
  ref   : Ref
  stack : Nat
  pc    : Nat
  bank  : Nat
  row   : Nat
  deriving DecidableEq, Repr

/-- The sector that a consumer was last given (R329): number, data, uncorrectable flag. -/
structure SectorRead where
  sector : Nat
  data   : List Byte
  uncorr : Bool
  deriving DecidableEq, Repr

/-- Stored data. `spareUsed` counts repaired rows per bank, keyed by 1024 x stack + 32 x pc + bank; repairs are permanent. -/
structure Memory where
  domePeriod : Nat := 600
  sramPeriod : Nat := 100
  thr        : Nat := 2
  domeScrub  : Bool := true
  sramScrub  : Bool := true
  autoRemap  : Bool := true
  d0         : Dome := {}
  d1         : Dome := {}
  regions    : List Region := List.replicate 14 {}
  repair     : Option RowRepair := none
  spareUsed  : Tbl Nat := []
  given      : Option SectorRead := none
  histCount  : Tbl Nat := []
  deriving DecidableEq, Repr

end Sys2Proof.Machine
end

