-- ==== Sys2Proof/Machine/StPm.lean ====
section
/-! DEFINITION. The state of performance monitoring and link quality (spec/11_performance_monitoring.md). An entity is numbered 0 and 1
for the carriers, 2 + t for tenant t. Each field's default is its reset value. -/

namespace Sys2Proof.Machine

/-- What the running second has counted for an entity (R265 to R267, R273, R274). `whole`: active since its start;
`spoiled`: the carrier was not LOCKED and aligned throughout. -/
structure PmAcc where
  whole    : Bool := false
  blocks   : Nat := 0
  errs     : Nat := 0
  defect   : Bool := false
  farErrs  : Nat := 0
  farDef   : Bool := false
  csf      : Bool := false
  deg      : Bool := false
  spoiled  : Bool := true
  switches : Nat := 0
  replaced : Nat := 0
  authFail : Nat := 0
  justPos  : Nat := 0
  justNeg  : Nat := 0
  freqEv   : Nat := 0
  offMin   : Option Int := none
  offMax   : Option Int := none
  cwUncorr : Nat := 0
  deriving DecidableEq, Repr

/-- The decoder's figures of a valid second (R273, R280). -/
structure LqSecond where
  bits      : Nat
  errors    : Nat
  uncorr    : Nat
  corrected : Nat
  snr       : Nat
  blocks    : Nat
  iters     : Nat
  deriving DecidableEq, Repr

/-- A second that awaits its settling (R268): its number, its counts, unavailable near end and far end. -/
structure PmSecond where
  sec  : Nat
  acc  : PmAcc
  lq   : Option LqSecond
  neU  : Bool
  feU  : Bool
  deriving DecidableEq, Repr

/-- An open or closing bin (R269 to R274). `tca` masks the parameters posted in it. -/
structure PmBin where
  endAt    : Nat
  elapsed  : Nat := 0
  restored : Bool := false
  unset    : Bool := false
  feValid  : Bool := false
  unavail  : Bool := false
  neEs     : Nat := 0
  neSes    : Nat := 0
  neUas    : Nat := 0
  neBbe    : Nat := 0
  feEs     : Nat := 0
  feSes    : Nat := 0
  feUas    : Nat := 0
  feBbe    : Nat := 0
  csf      : Nat := 0
  berMin   : Option Nat := none
  berMax   : Nat := 0
  bits     : Nat := 0
  errors   : Nat := 0
  uncorr   : Nat := 0
  corrected : Nat := 0
  snrMin   : Option Nat := none
  snrSum   : Nat := 0
  snrN     : Nat := 0
  blocks   : Nat := 0
  iters    : Nat := 0
  iterMax  : Nat := 0
  degS     : Nat := 0
  failS    : Nat := 0
  switches : Nat := 0
  replaced : Nat := 0
  authFail : Nat := 0
  justPos  : Nat := 0
  justNeg  : Nat := 0
  freqEv   : Nat := 0
  offMin   : Option Int := none
  offMax   : Option Int := none
  cwUncorr : Nat := 0
  tca      : Nat := 0
  deriving DecidableEq, Repr

/-- One direction's availability (R268): unavailable, and the run of seconds that would change it. -/
structure Avail where
  down : Bool := false
  run  : Nat := 0
  deriving DecidableEq, Repr

/-- A monitored entity (R263): running second, pending seconds (oldest first), availability, 15-minute and 24-hour bins
(oldest first), and whether a bin of each period has opened since the restart of R278. -/
structure PmEntity where
  acc      : PmAcc := {}
  pend     : List PmSecond := []
  ne       : Avail := {}
  fe       : Avail := {}
  bins15   : List PmBin := []
  bins24   : List PmBin := []
  opened15 : Bool := false
  opened24 : Bool := false
  deriving DecidableEq, Repr

/-- The link quality of the last whole second (R280, R288). -/
structure LinkQuality where
  valid    : Bool := false
  ceiling  : Bool := false
  lower    : Bool := false
  iEff     : Nat := 0
  snrX     : Nat := 0
  snrY     : Nat := 0
  snr      : Nat := 0
  evm      : Nat := 0
  gsnr     : Nat := 0
  q        : Nat := 0
  margin   : Int := 0
  ber      : Nat := 0
  berThr   : Nat := 0
  iterMean : Nat := 0
  iterMax  : Nat := 0
  deriving DecidableEq, Repr

/-- Performance monitoring. Thresholds are keyed by 16 x profile + parameter; `buf` holds records with their place in the order of posting; `curSec` is the second that runs, `frozen` by PFAIL, `resumeAt` the whole second at which counting resumes. -/
structure Pm where
  dma      : Nat := 1
  delivery : Bool := true
  history  : Bool := true
  dayOff   : Nat := 0
  dayUse   : Nat := 0
  snrTrx   : Pair Nat := ⟨210, 210⟩
  thr      : Tbl Nat := []
  profile  : Tbl Nat := []
  ents     : Tbl PmEntity := []
  curSec   : Nat := 0
  buf      : List (Nat × List Byte) := []
  seq      : Nat := 0
  overrun  : Nat := 0
  gap      : Bool := false
  frozen   : Bool := false
  resumeAt : Option Nat := none
  todUnset : Bool := true
  lq       : Pair LinkQuality := ⟨{}, {}⟩
  deriving DecidableEq, Repr

end Sys2Proof.Machine
end

