-- ==== Sys2Proof/Machine/StRing.lean ====
section
/-! DEFINITION. The state of the Calond ring (spec/17_calond_ring.md). Each field's default is its reset value. -/

namespace Sys2Proof.Machine

/-- The states of a port link (R441). -/
inductive LinkState where
  | down
  | align
  | up
  | step
  deriving DecidableEq, Repr

/-- What a port last received in TIMING (R454): depth, SSM code, flags, offset of the receiver (ns), when. -/
structure TimingIn where
  depth  : Nat
  ssm    : Nat
  flags  : Nat
  offset : Int
  at_    : Nat
  deriving DecidableEq, Repr

/-- A character on a lane of a port (R440): a data byte, the comma of an idle column, the start and the end of a message. -/
inductive LaneChar where
  | data (b : Byte)
  | k28_5
  | k27_7
  | k29_7
  deriving DecidableEq, Repr

/-- One ring port: link, rate code, ceiling of the far end and of the link, end of its present phase, code errors of the
running millisecond, delays of the last 16 exchanges (0.1 ns), outstanding DELAY_REQ, counters, messages waiting in ALIGN
and STEP, the messages sent as they stand on the lanes (newest first), and per worker the hops and the time of its last STATUS. -/
structure RingPort where
  state      : LinkState := .down
  rate       : Nat := 0
  farCeil    : Option Nat := none
  linkCeil   : Nat := 3
  deadline   : Option Nat := none
  delays     : List Int := []
  t1         : Option Nat := none
  crcBad     : Nat := 0
  dropped    : Nat := 0
  codeErr    : Nat := 0
  downs      : Nat := 0
  waiting    : List RingMsg := []
  sent       : List (List LaneChar) := []
  hops       : Tbl Nat := []
  heard      : Tbl Nat := []
  timing     : Option TimingIn := none
  deriving DecidableEq, Repr

/-- A relay of the manager (R447, R448): worker, relay tag, the packet and its command, RELAY_ANY, copies sent, the
direction of the last copy, time of the next copy, RECEIPT had, the interim taken, and the pair of an internal relay of SET_RING_PROTECT. -/
structure Relay where
  worker  : Nat
  tag     : Nat
  ref     : Ref
  bytes   : List Byte
  anyDir  : Bool
  copies  : Nat
  lastDir : Port
  nextAt  : Option Nat
  receipt : Bool
  interim : Bool
  pair    : Option Nat
  deriving DecidableEq, Repr

/-- What the manager knows of a worker (R447, R451, R452, R461). `ended` holds the tags that the manager gave a final status of its
own. -/
structure WorkerSt where
  ready    : Bool := false
  dormant  : Bool := false
  joined   : Bool := false
  goneAt   : Option Nat := none
  nextTag  : Nat := 0
  unknown  : Nat := 0
  late     : Nat := 0
  ended    : List Nat := []
  evSeq    : Option Nat := none
  pmSeq    : Option Nat := none
  deriving DecidableEq, Repr

/-- An entry of the outcome log of a worker (R449): state 1 running, 2 done, 3 stale; its last response record, the port that
the REQUEST came in on. -/
structure OutEntry where
  epoch  : Nat
  tag    : Nat
  state  : Nat
  opcode : Nat
  swTag  : Nat
  status : Nat
  rlen   : Nat
  head   : List Byte
  last   : List Byte
  port   : Port
  deriving DecidableEq, Repr

/-- A response record that a worker sends until it is acknowledged (R450). -/
structure RespOut where
  epoch  : Nat
  tag    : Nat
  record : List Byte
  dir    : Port
  deriving DecidableEq, Repr

/-- A protection pair as a member or the manager holds it (R455 to R457). -/
structure PPair where
  held       : Bool := false
  revertive  : Bool := false
  wDev       : Nat := 0
  pDev       : Nat := 0
  wTenant    : Nat := 0
  pTenant    : Nat := 0
  wtr        : Nat := 0
  selP       : Bool := false
  force      : Nat := 0
  ownSf      : Bool := false
  partnerSf  : Bool := false
  lost       : Bool := false
  heardAt    : Option Nat := none
  wtrAt      : Option Nat := none
  switches   : Nat := 0
  deriving DecidableEq, Repr

/-- A SET_RING_PROTECT in progress (R463): its command, its pair, the members still to answer, the first status other than
OK. -/
structure PairJob where
  ref    : Ref
  pair   : Nat
  await  : List Nat
  status : Nat
  deriving DecidableEq, Repr

/-- The ring. `ceilE`, `ceilW`, `sleep`, `pmDma` and `role` are the settings of R458; `bind` holds the identities of R438;
`conflict` is the end of the second in which another manager was heard; `timePort`, `agree` and `newPort` choose the
time port (R454); `resendWest` the direction of the next resend. -/
structure Ring where
  role      : Nat := 2
  ceilE     : Nat := 3
  ceilW     : Nat := 3
  sleep     : Nat := 0
  pmDma     : Nat := 2
  number    : Option Nat := none
  epoch     : Nat := 0
  bind      : Tbl (List Byte) := []
  conflict  : Option Nat := none
  ports     : Pair RingPort := ⟨{}, {}⟩
  relays    : List Relay := []
  workers   : Tbl WorkerSt := []
  log       : List OutEntry := []
  resp      : List RespOut := []
  highest   : Option (Nat × Nat) := none
  stale     : Nat := 0
  dups      : Nat := 0
  evOut     : List EvRec := []
  pmOut     : List (Nat × List Byte) := []
  rseq      : Nat := 0
  resendWest : Bool := false
  timePort  : Option Port := none
  newPort   : Option Port := none
  agree     : Nat := 0
  heardTiming : Option Nat := none
  pairs     : Tbl PPair := []
  pairJobs  : List PairJob := []
  deriving DecidableEq, Repr

end Sys2Proof.Machine
end

