-- ==== Sys2Proof/Machine/Adc.lean ====
section
/-! DEFINITION. Samples of the receive front end: the sub-ADCs and their corrections, DC blocking, levels, the resampler's ratio and the stages
of a monitor chain (R64, R65, R67, R68, R73, R77). Samples are in 1/64 code once corrected. -/

namespace Sys2Proof.Machine

/-- The sample rate of an ADC in 0.25 GS/s (R64): 4.5 Rs, rounded up. -/
def fsQuarter (rs256 : Nat) : Nat := (9 * rs256 + 511) / 512

/-- The samples of an ADC in 256 ns. -/
def windowSamples (rs256 : Nat) : Nat := 64 * fsQuarter rs256

/-- The samples of an ADC in 1 ms. -/
def samplesPerMs (rs256 : Nat) : Nat := 250000 * fsQuarter rs256

/-- A sample at an end of the range (R71). -/
def clippedSample (x : Int) : Bool := decide (x = 127) || decide (x = -128)

/-! Sub-ADCs (R65, R84). -/

/-- The sub-ADC that takes sample `k` of a channel (R65). -/
def subAdc (k : Nat) : Nat := k % 128

/-- 10^(-1/5120), the amplitude ratio of 1/256 dB. -/
def fixSub : Nat := 9995503774595478911803908483824961277685

/-- The amplitude ratio of a gain in 1/256 dB, in fixed point. -/
def subRatio (g : Int) : Nat :=
  let r := fixPow 12 fixSub g.natAbs fixOne
  if g < 0 then r else fixOne * fixOne / max 1 r

/-- A correction of one sub-ADC: gain ratio, offset in 1/64 code, skew in 1/64 ps. -/
abbrev SubTerm := Nat × Int × Int

/-- The corrections of the 128 sub-ADCs of a channel (R84 items 0 to 2). -/
def subTerms (vals : Tbl Int) (ch : Nat) : List SubTerm :=
  (List.range 128).map fun k =>
    (subRatio (tget 0 vals (128 * ch + k)), tget 0 vals (1024 + 128 * ch + k), tget 0 vals (2048 + 128 * ch + k))

/-- One sample corrected before the merge (R65); how a skew moves it the manual leaves open. [log 206 DESIGN CHOICE] -/
def correctSample (t : SubTerm) (codes : List Int) (i : Nat) (x : Int) : Int :=
  let y := if t.2.2 = 0 then x else Config.delayedSample t.2.2 codes i
  roundDiv (y * 64 * t.1) fixOne + t.2.1

/-- The samples of a channel, corrected by their sub-ADCs, merged, and corrected as a channel (R65, R84 items 0 to 5). `phase` numbers the
first sample. [log 206 DESIGN CHOICE] -/
def adcChannel (vals : Tbl Int) (ch phase : Nat) (codes : List Int) : List Int :=
  let ts := subTerms vals ch
  let merged := codes.zipIdx.map fun e => correctSample (ts.getD (subAdc (phase + e.2)) (fixOne, 0, 0)) codes e.2 e.1
  let g := gainRatio (tget 0 vals (4096 + ch))
  (skewSamples (tget 0 vals (3072 + ch)) merged).map fun x => roundDiv (x * g) fixOne + tget 0 vals (5120 + ch)

/-! DC blocking (R67). The estimate is held in 2^-32 of 1/64 code. -/

/-- One step of the estimate of a first-order stage whose corner lies at 2^k kHz (R67). [log 206 DESIGN CHOICE] -/
def dcStep (k q : Nat) (est x : Int) : Int := est + (x * 2 ^ 32 - est) * (2 ^ k * 6283185 : Nat) / (250000 * 1000000 * max 1 q : Nat)

/-- The samples less the estimated mean, and the estimate after them; a frozen stage keeps subtracting (R67). -/
def dcBlock (runs : Bool) (k q : Nat) : Int → List Int → List Int × Int
  | est, [] => ([], est)
  | est, x :: r =>
    let e := if runs then dcStep k q est x else est
    let rest := dcBlock runs k q e r
    ((x - e / 2 ^ 32) :: rest.1, rest.2)

/-! Levels (R66, R68, R70). -/

/-- The sum of squares of samples. -/
def energyOf (l : List Int) : Nat := (l.map fun x => x.natAbs ^ 2).sum

/-- A power of `n` samples whose squares sum to `e`, over that of an RMS of 128 codes, in fixed point (R66). -/
def powerOf (e n : Nat) : Nat := e * fixOne / (max 1 n * 2 ^ 26)

/-- The level of a power in 0.1 dBFS; of no power at all the manual states none. [log 207 DESIGN CHOICE] -/
def levelOf (p : Nat) : Int :=
  if p = 0 then Config.freeInt 91 0 else -((leastFrom (fun k => decide (tenthPow (40 * k + 20) ≤ p)) 12 0 3000 : Nat) : Int)

/-- A level in 0.1 dBFS as an RMS over full scale, in fixed point. -/
def levelRms (l : Int) : Nat := tenthPow (20 * (-l).toNat)

/-- 10^(-1/640), the power ratio of 1/64 dB. -/
def fixGain : Nat := 9964086750810820380716521665768277622812

/-- A power under a gain in 1/64 dB (R68). -/
def gainPower (p : Nat) (g : Int) : Nat :=
  let r := fixPow 12 fixGain g.natAbs fixOne
  if g < 0 then p * r / fixOne else p * fixOne / max 1 r

/-- Two powers differ by more than `n` hundredths of a dB. -/
def powerFar (n p q : Nat) : Bool := decide (q * fixOne < p * powerRatio n) || decide (p * fixOne < q * powerRatio n)

/-- The output of the AGC lies within 0.5 dB of its target (R69): 0 dB maps full scale onto full scale. [log 208 DESIGN CHOICE] -/
def atTarget (target gain : Int) (p : Nat) : Bool := !powerFar 50 (gainPower p gain) (tenthPow (40 * (-target).toNat))

/-! The resampler (R73). -/

/-- The nominal ratio 9 Rs / (8 fs) as a word of 2^-40. -/
def nominalRatio (rs256 : Nat) : Nat := 9 * rs256 * 2 ^ 40 / (512 * max 1 (fsQuarter rs256))

/-- The ratio under a correction in 10^-9 (R73). -/
def ratioWord (rs256 : Nat) (correction : Int) : Nat :=
  (roundDiv ((nominalRatio rs256 : Int) * (10 ^ 9 + correction)) (10 ^ 9)).toNat

/-- The input position, in 2^-40 of a sample, at which output sample `k` after a position falls. -/
def resamplePlace (ratio pos k : Nat) : Nat := pos + k * 2 ^ 80 / max 1 ratio

/-- The phase of a position, 0 to 1,023, and its distance from it toward the next one, in 2^-30 (R73). -/
def resamplePhase (pos : Nat) : Nat × Nat := (pos / 2 ^ 30 % 1024, pos % 2 ^ 30)

/-- Linear interpolation between the outputs of adjacent phases (R73). -/
def betweenPhases (w : Nat) (y0 y1 : Int) : Int := ((2 ^ 30 - (w : Int)) * y0 + w * y1) / 2 ^ 30

/-! Monitor chains (R77). -/

/-- The state of the stages of a chain: samples short of a group of 16, the DC estimate in 2^-32, the last input-stage values, newest first, the
place between output samples, and the output samples with their times in 1/65,536 ns. -/
structure MonStages where
  part : List Int := []
  dc   : Int := 0
  win  : List Int := []
  acc  : Nat := 0
  buf  : List (Int × Nat) := []
  deriving DecidableEq, Repr

/-- Samples in groups of 16 and what is left. -/
def sixteens : Nat → List Int → List (List Int) × List Int
  | 0, l => ([], l)
  | n + 1, l =>
    let r := sixteens n (l.drop 16)
    (l.take 16 :: r.1, r.2)

/-- The input stage on one group (R77 stage 1): 16 samples summed in 1/1,024 code, or their squares in 1/65,536 code squared. -/
def inputStage (input : Nat) (g : List Int) : Int := if input = 0 then g.sum else (energyOf g : Int)

/-- One step of the DC block, whose corner lies at 1/1,024 of the telemetry rate (R77 stage 2). [log 209 DESIGN CHOICE] -/
def monDc (rate q : Nat) (est x : Int) : Int := est + (x * 2 ^ 32 - est) * (rate * 6283185 : Nat) / (16 * 10 ^ 15 * max 1 q : Nat)

/-- One input-stage value through stages 2 to 4 (R77), taken at time `t`; what the low-pass of stage 4 makes of the moving sums the manual leaves
open. [log 209 DESIGN CHOICE] -/
def monStep (input dcOn len rate q : Nat) (st : MonStages × Nat) (v : Int × Nat) : MonStages × Nat :=
  let m := st.1
  let on := dcOn = 1 && input = 0
  let dc := if on then monDc rate q m.dc v.1 else m.dc
  let win := ((if on then v.1 - dc / 2 ^ 32 else v.1) :: m.win).take len
  let acc := m.acc + rate
  let full := 15625000 * max 1 q
  if acc < full then ({ m with dc := dc, win := win, acc := acc }, st.2)
  else
    let y := Config.monitorSample st.2 win
    let s := if input = 0 then clampInt (-32768) 32767 y else clampInt 0 65535 y
    ({ m with dc := dc, win := win, acc := acc - full, buf := m.buf ++ [(s, v.2)] }, st.2 + 1)

/-- The samples of a window through a chain (R77); `now` is the time at its end in 1/65,536 ns and `free` the count of free values. The time of a
value is that of the centre of its moving average (R78). -/
def monWindow (input dcOn len rate q now : Nat) (l : List Int) (m : MonStages) (free : Nat) : MonStages × Nat :=
  let all := m.part ++ l
  let g := sixteens (all.length / 16) all
  let n := g.1.length
  let at_ (i : Nat) : Nat := now - (16 * (n - 1 - i) + g.2.length + 8 * len) * 4 * 65536 / max 1 q
  (g.1.zipIdx.map fun e => (inputStage input e.1, at_ e.2)).foldl (monStep input dcOn len rate q) ({ m with part := g.2 }, free)

end Sys2Proof.Machine
end

