-- ==== Sys2Proof/Machine/StSpire.lean ====
section
/-! DEFINITION. The state of the line plan, the transmitters, the receive front ends, calibration, monitors, equalisation and acquisition
(spec/02_line_signal.md to spec/05_equalisation.md). Each field's default is its reset value. -/

namespace Sys2Proof.Machine

/-- The plan of one carrier (R41): n, format, H x 64, Rs x 256. -/
structure CarrierPlan where
  n     : Nat := 0
  fmt   : Nat := 0
  h64   : Nat := 0
  rs256 : Nat := 0
  deriving DecidableEq, Repr

/-- The line plan (R41), the plans being applied with the latest end of the sequence, the measured spacing (R38); `shape` the matcher
tables and level distributions of the plan (R44, R130). -/
structure LinePlan where
  car       : Pair CarrierPlan := ⟨{}, {}⟩
  shape     : Pair Shape := ⟨{}, {}⟩
  spacing   : Int := 0
  fibre     : Nat := 0
  applying  : Pair (Option Nat) := ⟨none, none⟩
  spacingUse : Int := 0
  measured  : Int := 0
  measValid : Bool := false
  err       : Bool := false
  deriving DecidableEq, Repr

/-- The transmitter states of R53. -/
inductive TxState where
  | off
  | stopped
  | running
  | squelched
  deriving DecidableEq, Repr

/-- The correction of one transmit channel (R49, R50): pre-emphasis taps, host terms. -/
structure TxChan where
  pre  : List Int := [0, 0, 0, 0, 0, 0, 0, 8192, 0, 0, 0, 0, 0, 0, 0]
  skew : Int := 0
  gain : Int := 0
  dc   : Int := 0
  deriving DecidableEq, Repr

/-- The calibration terms of one transmit channel (R49, R84 items 6 to 8). -/
structure TxTerm where
  skew : Int := 0
  gain : Int := 0
  dc   : Int := 0
  deriving DecidableEq, Repr

/-- A transmitter (R43 to R63). `corr`, `rms`, `tone` are the written values and the names ending in `Use` those in effect;
`lost` is the state before its DAC domain was lost (R469); `released` it has left OFF or STOPPED since PORESET_N;
`mNow` and `mNext` are the fill counts of this superframe and of the next, whose word is sent now (R30). `coded` is the coded-bit
FIFO; `hist` the last 16 symbols of each dimension, newest first, and `phase` the eighths of a symbol at which the next sample falls
(R47); `fir` the last samples of each channel before its pre-emphasis (R49); `out` the codes that the DACs send (R51), none while the
output is off; `clipNow` the samples clipped in the running 1 ms interval; `clock` the carrier whose recovered clock timed the last superframe, none
for the system timing (R19). -/
structure Tx where
  beta100  : Nat := 5
  loaded   : Bool := false
  taps     : List Int := []
  corr     : List TxChan := List.replicate 4 {}
  corrUse  : List TxChan := List.replicate 4 {}
  term     : List TxTerm := List.replicate 4 {}
  swing    : Nat := 60
  swingRamp : Option (Nat × Nat) := none
  rms      : Int := -100
  rmsUse   : Int := -100
  settle   : Nat := 2
  latch    : Bool := false
  tone     : Bool := false
  toneUse  : Bool := false
  state    : TxState := .off
  latched  : Bool := false
  settleAt : Option Nat := none
  clips    : List Nat := [0, 0, 0, 0]
  clipAlarm : List (Option Nat) := [none, none, none, none]
  lost     : Option TxState := none
  mNow     : Nat := 0
  mNext    : Nat := 0
  coded    : BitFifo := {}
  hist     : List (List Int) := [[], [], [], []]
  phase    : Nat := 0
  fir      : List (List Int) := [[], [], [], []]
  out      : List (List Int) := []
  clipNow  : List Nat := [0, 0, 0, 0]
  clock    : Option Carrier := none
  deriving DecidableEq, Repr

/-- The AGC states of R69. -/
inductive AgcState where
  | off
  | fast
  | frozen
  | refast
  | hold
  deriving DecidableEq, Repr

/-- The timing states of R74. -/
inductive TimingState where
  | off
  | free
  | acquire
  | track
  | hold
  deriving DecidableEq, Repr

/-- The front-end settings of R76. -/
structure RxSet where
  dcK       : Nat := 7
  dcMode    : Nat := 0
  agcTarget : Int := -120
  stepThr   : Nat := 8
  stepUs    : Nat := 5
  clipThr   : Nat := 4
  timingBw  : Nat := 8
  deriving DecidableEq, Repr

/-- The symbols of a received shaping block with what surrounds them (R29, R108, R109): the sample before the first pass, the symbol after
it, the clip flag of its group, and what was sent where a pilot stands there. -/
structure HeldSym where
  sample : Sym
  first  : Sym
  flag   : Bool
  pilot  : Option Sym
  lost   : Bool := false
  deriving DecidableEq, Repr

/-- The receive front end (R64 to R76, R91). `set` are the written settings, `use` those in effect. Times of the AGC are in
ns: the step seen, the output settled, REFAST run, the gain at its limit and inside it. `dcHeld` is the estimate held when mode 2 was written, in
2^-32 of 1/64 code as `dcEst`; `phase` numbers the next sample among the sub-ADCs (R65); `powers` are the sums of squares of the four channels in the
last four windows with their samples, the newest first; `clipNow` the clipped samples of the running 1 ms. `clipAlarm` holds the clean intervals since
RX_CLIP was raised; `badFill` the superframe uses a replaced fill count (R110); `lofArose` LOF was declared within the AGC window. The
resampler: `ratio` its ratio word, `pos` the input position of its next output sample in 2^-40, `delay` its delay in 1/1,024 sample (R73, R101);
`loopBw` the bandwidth of the timing loop in force in 0.5 MHz. The superframe: `grp` the group that comes next, 256 while none is known,
`pilots` the pilot-position symbols received, `lost` samples of that group failed in the SRAM (R340), `lastFill` its fill count, `blk` the shaping blocks seen and `data` the symbols of the running one
(R29, R30); `pilotErr` the error powers of X and Y at the pilots of the last 1,024 superframes in LOCKED, the newest first (R130). -/
structure Rx where
  set       : RxSet := {}
  use       : RxSet := {}
  agc       : AgcState := .off
  gain      : Int := 0
  pRef      : Nat := 0
  stepNs    : Nat := 0
  settledNs : Nat := 0
  refastNs  : Nat := 0
  limitNs   : Nat := 0
  insideNs  : Nat := 0
  level     : List Int := [0, 0, 0, 0]
  dcEst     : List Int := [0, 0, 0, 0]
  dcHeld    : List Int := [0, 0, 0, 0]
  phase     : Nat := 0
  powers    : List (List Nat × Nat) := []
  clips     : List Nat := [0, 0, 0, 0]
  clipNow   : List Nat := [0, 0, 0, 0]
  clipAlarm : List (Option Nat) := [none, none, none, none]
  agcLimit  : Bool := false
  unfreezes : Nat := 0
  settleFails : Nat := 0
  timing    : TimingState := .off
  timingLimit : Bool := false
  correction : Int := 0
  clockOffset : Int := 0
  loopBw    : Nat := 0
  ratio     : Nat := 0
  pos       : Nat := 0
  delay     : Int := 0
  groupClip : Nat := 0
  groupFlag : Bool := false
  grp       : Nat := 256
  pilots    : List Sym := []
  lost      : Bool := false
  blk       : Nat := 0
  data      : List HeldSym := []
  pilotErr  : List (Nat × Nat) := []
  lastFill  : Nat := 0
  fillErr   : Nat := 0
  badFill   : Bool := false
  prePower  : Nat := 0
  lofArose  : Bool := false
  deriving DecidableEq, Repr

/-- The foreground calibration of a Spire (R89): its running end, or a repeat awaited, the end of the deferral time, the
time at which RAIL_WARN cleared, and the SET_CAL_CONTROL commands that wait for it. -/
structure FgCal where
  running : Option Nat := none
  spoiled : Bool := false
  waiting : Bool := false
  deferAt : Option Nat := none
  clearAt : Option Nat := none
  refs    : List Ref := []
  deriving DecidableEq, Repr

/-- Background calibration (R82 to R93). Values are keyed by 1024 x item + index; `vals` are in use, `kept` the accepted
copies in PD00, `next` accepted and not yet applied, `track` the record of R87 and R88; per-item counters are keyed by the item. `spoiled` masks the
items whose running window does not count, `age` the multiframes that each item's window has lasted (R84); `est` is the far end's last estimate of
items 6 to 8, `estOut` the results of the far end's transmitter, `txDue` the end of the 4 windows of R86. -/
structure Cal where
  enable    : Nat := 0x1FF
  enableUse : Nat := 0x1FF
  vals      : Tbl Int := []
  kept      : Tbl Int := []
  next      : Tbl (Option Int) := []
  track     : Track := {}
  accepted  : Tbl Nat := []
  failed    : Tbl Nat := []
  discarded : Tbl Nat := []
  spoiled   : Nat := 0x1FF
  age       : Tbl Nat := []
  txDue     : Option Nat := none
  est       : Option (List Int) := none
  estOut    : List Int := []
  fg        : FgCal := {}
  deriving DecidableEq, Repr

/-- A monitor chain (R77 to R79, R94) with the state of its stages. `closing`: it has stopped and its last record is still open. -/
structure Mon where
  input   : Nat := 0
  dc      : Nat := 1
  len     : Nat := 1
  rate    : Nat := 1000
  dma     : Nat := 0
  running : Bool := false
  closing : Bool := false
  seq     : Nat := 0
  first   : Bool := false
  gap     : Bool := false
  overrun : Nat := 0
  stages  : MonStages := {}
  deriving DecidableEq, Repr

/-- A sweep of the tone detector (R80, R81): the RUN_TONE_SEARCH that started it, or acquisition, and its end. -/
structure Sweep where
  ref   : Option Ref
  endAt : Nat
  deriving DecidableEq, Repr

/-- The receive DSP settings of R119. -/
structure DspSet where
  cdMode : Nat := 0
  centre : Int := 0
  half   : Nat := 2000
  mu     : Nat := 10
  cprN   : Nat := 32
  freqBw : Nat := 10
  i1     : Nat := 2
  i2     : Nat := 8
  bulk   : Bool := true
  cross  : Bool := true
  tone   : Bool := true
  turbo  : Bool := true
  deriving DecidableEq, Repr

/-- The acquisition states of R113, in the order of their codes. -/
inductive AcqState where
  | idle
  | waitSignal
  | cdScan
  | freqCoarse
  | timing
  | eqBlind
  | sfSync
  | freqFine
  | phase
  | locked
  | tone
  deriving DecidableEq, Repr

/-- A RESTART_ACQUISITION that awaits its completion (R121): its reference, its start, the times spent per state in ns,
the 1 s limit in WAIT_SIGNAL. -/
structure Restart where
  ref    : Ref
  start  : Nat
  times  : List Nat
  waitAt : Option Nat
  deriving DecidableEq, Repr

/-- The acquisition machine (R113 to R117): state and its times, attempt, CD candidates in ps/nm, full-range latch, warm path with
its start, whether LOC is declared, estimates in use, and counters. -/
structure Acq where
  state      : AcqState := .idle
  since      : Nat := 0
  deadline   : Option Nat := none
  attempt    : Nat := 1
  cands      : List Rat := []
  fullRange  : Bool := false
  warm       : Option Nat := none
  warmFine   : Bool := false
  lastLocked : Option Nat := none
  restart    : Option Restart := none
  toneWaits  : Bool := false
  loc        : Bool := false
  sweep      : Option Sweep := none
  cdStatic   : Int := 0
  coarseKhz  : Int := 0
  fineKhz    : Int := 0
  swapped    : Bool := false
  iqSwapped  : Bool := false
  locksLost  : Nat := 0
  cyclesFailed : Nat := 0
  cdClipped  : Nat := 0
  deriving DecidableEq, Repr

/-- The modes of the MIMO equaliser (R102). -/
inductive EqMode where
  | idle
  | blind
  | tracking
  deriving DecidableEq, Repr

/-- A turbo pass in flight (R109): block, pass, due time, and the refreshed LLRs of the block's bits. -/
structure TurboRun where
  block : Nat
  pass  : Nat
  due   : Nat
  fresh : List Int := []
  deriving DecidableEq, Repr

/-- A shaping block in the turbo buffer (R109): the place of its first coded bit in the coded stream, none for a fill block, the noise variances
of X and Y, when it arrived, and its symbols. -/
structure HeldBlock where
  place : Option Nat
  varX  : Nat
  varY  : Nat
  since : Nat
  syms  : List HeldSym
  deriving DecidableEq, Repr

/-- The estimates reported of a carrier (R118) in the units of R122. -/
structure Estimates where
  phaseErr : Nat := 0
  cdTotal  : Int := 0
  cdStatic : Int := 0
  dgd      : Nat := 0
  pdl      : Nat := 0
  sop      : Nat := 0
  freq     : Int := 0
  deriving DecidableEq, Repr

/-- The equaliser, phase recovery and estimates of a carrier (R101 to R112, R118, R122). The taps are named by the count of
their updates, as the adaptation that the analogue world drives; `step` is the exponent of the last one's step (R102), `norm` the mean output power
that the normaliser holds against Es, in units of 2^-16 of the pilot power (R101). `coded` is the place in the coded stream that the demapper
fills next, `held` the turbo buffer (R109). -/
structure Eq where
  set        : DspSet := {}
  use        : DspSet := {}
  tapGen     : Nat := 0
  step       : Nat := 0
  norm       : Int := 0
  crossGen   : Nat := 0
  coded      : Nat := 0
  held       : List HeldBlock := []
  crossOn    : Bool := false
  nbLockedAt : Option Nat := none
  parityMs   : Nat := 0
  tau16      : Nat := 0
  angle1     : Int := 0
  angle2     : Int := 0
  engaged    : Bool := false
  limit      : Bool := false
  limitFree  : Option Nat := none
  dgd16      : Nat := 0
  est        : Estimates := {}
  estValid   : Bool := false
  sopPeak    : Nat := 0
  turbo      : List TurboRun := []
  slips      : Nat := 0
  turboDone  : Nat := 0
  dropIter   : Nat := 0
  dropState  : Nat := 0
  turboSkip  : Nat := 0
  singular   : Nat := 0
  fallbacks  : Nat := 0
  parity     : Nat := 0
  deriving DecidableEq, Repr

/-- The state of one Spire's front ends and DSP. [log 186 DESIGN CHOICE] -/
structure Spire where
  tx  : Tx := {}
  rx  : Rx := {}
  cal : Cal := {}
  mon : List Mon := List.replicate 4 {}
  acq : Acq := {}
  eq  : Eq := {}
  deriving DecidableEq, Repr

end Sys2Proof.Machine
end

