-- ==== Sys2Proof/Machine/StTest.lean ====
section
/-! DEFINITION. The state of loops, patterns, capture, sub-assembly buses and JTAG (spec/20_test_diagnostics.md). Each field's default is its
reset value. -/

namespace Sys2Proof.Machine

/-- A checker (R528) with its counters: state 0 off, 1 HUNT, 2 LOCK; errors injected by the generator of its object. `reg` are the last 31 bits
of its PRBS31, `run` the correct bits in a row in HUNT, `win` which of the last 256 bits in LOCK were errored, the newest first. -/
structure Checker where
  state    : Nat := 0
  reg      : Nat := 0
  run      : Nat := 0
  win      : List Bool := []
  bits     : Nat := 0
  errors   : Nat := 0
  losses   : Nat := 0
  injected : Nat := 0
  deriving DecidableEq, Repr

/-- Generator and injection of a host lane or a Calond port (R527, R529); `cnt` are the bits sent since the last injection at the rate. -/
structure LanePat where
  pattern  : Nat := 0
  gen      : Bool := false
  single   : Bool := false
  cnt      : Nat := 0
  rateInj  : Bool := false
  k        : Nat := 31
  rate     : Nat := 0
  chk      : Checker := {}
  deriving DecidableEq, Repr

/-- Payload pattern with the register of its PRBS31, injection and timing source of a carrier (R526, R527, R529). `fallback`: its transmitter is timed from
the system timing instead. -/
structure LinePat where
  prbs     : Bool := false
  m        : Nat := 0
  single   : Bool := false
  timing   : Nat := 0
  seed     : Nat := 0x7FFFFFFF
  fallback : Bool := false
  fallbacks : Nat := 0
  loop     : Option Nat := none
  chk      : Checker := {}
  deriving DecidableEq, Repr

/-- Patterns of a tenant (R541): generator written and in use, checker, the register of its PRBS31 (R527). -/
structure TenPat where
  genSet : Bool := false
  gen    : Bool := false
  seed   : Nat := 0x7FFFFFFF
  chkSet : Bool := false
  chk    : Checker := {}
  deriving DecidableEq, Repr

/-- A sector of the capture area that was stored whole: its place, its capture, its number since the start, its bytes (R530). -/
structure CapSector where
  slot  : Nat
  gen   : Nat
  index : Nat
  bytes : List Byte
  deriving DecidableEq, Repr

/-- The capture engine (R530 to R534): state 0 IDLE, 1 ARMED, 2 RUNNING; settings of START_CAPTURE; source rate as bytes
`num` in `den` ns; start, position of the last trigger in stored sectors since then with its time, sectors before it; the number
of the capture; which captures the area holds: number and sectors reached, newest first; the source bytes that have come since the start, those
of the sector being stored, the sectors stored. -/
structure Capture where
  state    : Nat := 0
  ref      : Option Ref := none
  source   : Nat := 0
  carrier  : Nat := 0
  mask     : Nat := 0
  trig     : Nat := 0
  length   : Nat := 0
  pre      : Nat := 0
  keep     : Nat := 1
  retrig   : Bool := false
  falling  : Bool := false
  arg8     : Nat := 0
  arg64    : Nat := 0
  num      : Nat := 0
  den      : Nat := 1
  start    : Nat := 0
  trigPos  : Option Nat := none
  trigTod  : Nat := 0
  preHeld  : Nat := 0
  retrigs  : Nat := 0
  overruns : Nat := 0
  gen      : Nat := 0
  extents  : List (Nat × Nat) := []
  seen     : Nat := 0
  part     : List Byte := []
  held     : List CapSector := []
  deriving DecidableEq, Repr

/-- A transaction of a sub-assembly bus (R535): bus 0 MOD, 1 ICR. -/
structure BusJob where
  ref     : Ref
  bus     : Nat
  addr    : Nat
  write   : List Byte
  read    : Nat
  deriving DecidableEq, Repr

/-- Test and diagnostics. Loops of lanes: 3 HOST_LOCAL, 4 HOST_REMOTE; `tap` is the JTAG instruction register, IDCODE at TAP
reset (R536). [log 184 DESIGN CHOICE] -/
structure TestSt where
  lanes     : Tbl LanePat := []
  laneLoop  : Tbl Nat := []
  ports     : Pair LanePat := ⟨{}, {}⟩
  portLoop  : Pair Bool := ⟨false, false⟩
  line      : Pair LinePat := ⟨{}, {}⟩
  tens      : Tbl TenPat := []
  cap       : Capture := {}
  buses     : List BusJob := []
  tap       : Nat := 2
  deriving DecidableEq, Repr

end Sys2Proof.Machine
end

