-- ==== Sys2Proof/Machine/StTrib.lean ====
section
/-! DEFINITION. The state of calendars and tenants, of the skew buffers and of the merge (spec/09_tributary_mapping.md,
spec/10_bonding_and_merge.md). Each field's default is its reset value. -/

namespace Sys2Proof.Machine

/-- A calendar swap in progress (R230): its carriers, its command, the boundary that it waits for. -/
structure Swap where
  carA     : Bool
  carB     : Bool
  ref      : Ref
  boundary : Option Nat
  deriving DecidableEq, Repr

/-- The calendars (R227 to R230): buffers T0 and T1 of each carrier as sparse tables of 16-bit entries, the buffers that
transmitter and receiver use. -/
structure Calendars where
  t0    : Pair (Tbl Nat) := ⟨[], []⟩
  t1    : Pair (Tbl Nat) := ⟨[], []⟩
  tx    : Pair Nat := ⟨0, 0⟩
  rx    : Pair Nat := ⟨0, 0⟩
  swap  : Option Swap := none
  deriving DecidableEq, Repr

/-- The mapper of a tenant (R216 to R219, R231). `c` is the size in force, 0 when not in the transmit table; `store` the words of the
elastic store at the start of the period, the next to leave first, `inflow` those that have come since (R216); `since` periods
since the last justification; `resize` the larger of the old and new size until the level is re-centred; `fresh` a newly
entered container whose next T is zero; `stat` and `jc` as last sent; `clean` clean 10 ms windows under TC-FREQ; the H last
sent, and whether its period carries a T of zero; `words` are the 128 c words of the period as sent (R210), `tag` the T that the next
period carries, `missed` the Turret missed the deadline of the next period (R292); `bits` of the client stream not yet in a word; `shim` the
blocks of a FlexE client that wait, `credit` what it may still offer in 1/33 of a 257-bit block (R189). -/
structure TenTx where
  c      : Nat := 0
  store  : List Word64 := []
  inflow : List Word64 := []
  since  : Nat := 4
  ptr    : Nat := 0
  stat   : Nat := 3
  jc     : Nat := 0
  freq   : Bool := false
  clean  : Nat := 0
  resize : Nat := 0
  fresh  : Bool := false
  hOut   : BitVec 64 := 0#64
  tZero  : Bool := true
  words  : List Word64 := []
  tag    : Word64 := 0#64
  missed : Bool := false
  bits   : BitRun := {}
  shim   : List Block66 := []
  credit : Nat := 0
  deriving DecidableEq, Repr

/-- The store re-centred at 8 c words of local-fault blocks whose phase is that of the pointer (R218, R231). -/
def TenTx.refill (x : TenTx) (c : Nat) : TenTx :=
  { x with store := faultWords x.ptr (8 * c), inflow := [], bits := faultRest x.ptr (8 * c) }

/-- The level of the elastic store in words at the start of the period (R216). -/
def TenTx.level (x : TenTx) : Nat := x.store.length

/-- The states of the pointer interpreter (R221). -/
inductive PtrState where
  | none
  | acq
  | norm
  | lop
  deriving DecidableEq, Repr

/-- A received period: what is already counted of it, errored (R267) and replaced (R226); FC of its first frame, its H, W_RX at its start (R298),
the container size, its data words (R212) and PTR; and once the next period opens the words that its frames brought (R210). -/
structure PeriodMark where
  errored  : Bool := true
  replaced : Bool := true
  countOnly : Bool := false
  fc       : Nat := 0
  h        : Word64 := 0#64
  w        : Nat := 0
  size     : Nat := 0
  data     : Nat := 0
  ptr      : Nat := 0
  words    : List Word64 := []
  deriving DecidableEq, Repr

/-- A frame that waits in the skew buffer of its carrier (R239, R249): its FC, whether its header is good and its copy is good, ANN where its
overhead block 0 was accepted, its payload. -/
structure HeldFrame where
  fc     : Nat
  header : Bool
  good   : Bool
  ann    : Option Nat
  slots  : Payload
  deriving DecidableEq, Repr

/-- The frames that 2,002 us of delay hold (R240). -/
abbrev bufFrames : Nat := 10082

/-- What a frame that was read brings to a container (R209): its FC, whether the header of the frame that holds container word 0 is good, the
container words. -/
structure ConFrame where
  fc     : Nat
  header : Bool
  words  : List Word64
  deriving DecidableEq, Repr

/-- The recovered client clock (R223): its offset from the nominal rate and the loop's phase error, both in 10^-12 of a pointer period;
`slews` it moves toward the received rate after a replacement. -/
structure ClientClock where
  offset : Int := 0
  err    : Int := 0
  slews  : Bool := false
  deriving DecidableEq, Repr

/-- The demapper of a tenant (R220 to R226). `cand` is the value predicted for the next accepted H of a run of consistent
ones, `run` its length; `expected` the value that R215 predicts; `age` periods in ACQ, `noMatch` periods without a match;
`fresh` the container is new and its first T is not checked; `now` the period that arrives, `held` the one that awaits its T;
`replaceNext` the next period is replaced; `suppressed` a line-fail defect applies; `frames` what the last frames read brought, the newest first;
`base` FC of the first frame of the period that arrives; `egress` the words last given to the client; `clk` its clock; `part` the bits of
a block that has not wholly arrived, `shim` and `credit` toward the host as in TenTx, `toHost` the blocks last given to the calendar slots. -/
structure TenRx where
  state    : PtrState := .none
  c        : Nat := 0
  expected : Nat := 0
  cand     : Nat := 0
  run      : Nat := 0
  misRun   : Nat := 0
  age      : Nat := 0
  noMatch  : Nat := 0
  fresh    : Bool := false
  now      : PeriodMark := {}
  held     : Option PeriodMark := none
  replaceNext : Bool := false
  suppressed : Bool := false
  statRun  : Nat := 0
  statCand : Nat := 0
  ais      : Bool := false
  freq     : Bool := false
  csf      : Bool := false
  auth     : Bool := false
  authFails : Nat := 0
  authGood : Nat := 0
  reported : Nat := 0
  replacing : Bool := false
  frames   : List ConFrame := []
  base     : Option Nat := none
  egress   : List Word64 := []
  clk      : ClientClock := {}
  part     : List Bool := []
  shim     : List Block66 := []
  toHost   : List Block66 := []
  credit   : Nat := 0
  deriving DecidableEq, Repr

/-- The counters of R238. -/
structure TenCounts where
  justPos  : Nat := 0
  justNeg  : Nat := 0
  freqEv   : Nat := 0
  mismatch : Nat := 0
  realign  : Nat := 0
  lop      : Nat := 0
  authFail : Nat := 0
  replaced : Nat := 0
  jcErr    : Nat := 0
  deriving DecidableEq, Repr

/-- A tenant's mapping (R209 to R238). `forceAis` is the setting of R237. -/
structure Tenant where
  forceAis : Bool := false
  aisUse   : Bool := false
  tx       : TenTx := {}
  rx       : TenRx := {}
  cnt      : TenCounts := {}
  deriving DecidableEq, Repr

/-- The group states of R244. -/
inductive GroupState where
  | off
  | ramp
  | aligned
  | excess
  deriving DecidableEq, Repr

/-- The settings of R258. -/
structure SkewSet where
  guard  : Nat := 1000
  ramp   : Nat := 20
  jump   : Bool := true
  mode   : Nat := 0
  wtr    : Nat := 300
  deriving DecidableEq, Repr

/-- The skew buffers (R239 to R247). Schedules and delays are in units of 1 / 165,000,000 ns, in which a frame period is
32,768,000,000 and one ppm of it 32,768. `set` are written settings and `use` those in effect; `sched` the read time of the
last frame per carrier, `readFc` its FC, `stretch` the lengthening of its frame period; `bufs` the frames that wait to be read, the oldest
first. -/
structure Skew where
  set      : SkewSet := {}
  use      : SkewSet := {}
  value    : Int := 0
  valid    : Bool := false
  state    : GroupState := .off
  sched    : Pair (Option Int) := ⟨none, none⟩
  readFc   : Pair Nat := ⟨0, 0⟩
  stretch  : Pair Int := ⟨0, 0⟩
  bufs     : Pair (List HeldFrame) := ⟨[], []⟩
  delay    : Pair Int := ⟨0, 0⟩
  toTarget : Int := 0
  within   : Option Nat := none
  alarm    : Bool := false
  steps    : Nat := 0
  excess   : Nat := 0
  unaligned : Nat := 0
  domeUncorr : Nat := 0
  deriving DecidableEq, Repr

/-- A leg of the merge (R249 to R251): consecutive good copies, qualified, eligible, reason, end of the 900 s hold,
eligible since, the delay of its last frame behind the schedule, the last FC that arrived while it was eligible. -/
structure Leg where
  run       : Nat := 0
  qualified : Bool := false
  eligible  : Bool := false
  reason    : Nat := 2
  holdAt    : Option Nat := none
  eligSince : Option Nat := none
  delay     : Option Int := none
  usableTo  : Option Nat := none
  deriving DecidableEq, Repr

/-- The merge selector (R251 to R257, R262). -/
structure Merge where
  legs     : Pair Leg := ⟨{}, {}⟩
  selB     : Bool := false
  prefA    : Bool := false
  lastFc   : Option Nat := none
  absentRun : Nat := 0
  goodRun  : Nat := 0
  loss     : Bool := false
  switches : Nat := 0
  slips    : Nat := 0
  losses   : Nat := 0
  skipped  : Nat := 0
  absent   : Nat := 0
  badTaken : Nat := 0
  slipGap  : Nat := 0
  deriving DecidableEq, Repr

end Sys2Proof.Machine
end

