-- ==== Sys2Proof/Machine/StTurret.lean ====
section
/-! DEFINITION. The state of the Turret and its Keep (spec/12_turret_cipher.md). Each field's default is its reset value. -/

namespace Sys2Proof.Machine

/-- A key register (R294): state 0 EMPTY, 1 LOADED, 2 FAULT; `counts` its transmit wrap count runs (R297); `used` a phase
has used it (R301); `lifePosted` KEY_LIFE was posted for it (R300). -/
structure KeyReg where
  k1         : List Byte := []
  k2         : List Byte := []
  saltTx     : Nat := 0
  saltRx     : Nat := 0
  state      : Nat := 0
  keyId      : Nat := 0
  wTx        : Nat := 0
  wRx        : Nat := 0
  invoc      : Nat := 0
  counts     : Bool := false
  used       : Bool := false
  lifePosted : Bool := false
  deriving DecidableEq, Repr

/-- A slot of the Keep (R293, R301 to R304): phases, the register whose last tag is
still to be sent with the periods until then, the old receive register, the registers of the periods whose T is still to be
checked (oldest first), the counter hunt with its candidate offset and run, KP of the last accepted H, and counters. -/
structure KeySlot where
  r0       : KeyReg := {}
  r1       : KeyReg := {}
  pTx      : Nat := 0
  pRx      : Nat := 0
  txOld    : Option (Nat × Nat) := none
  rxOld    : Option Nat := none
  checks   : List Nat := []
  hunt     : Bool := false
  huntCand : Nat := 0
  huntRun  : Nat := 0
  lastKp   : Nat := 0
  hunts    : Nat := 0
  missing  : Nat := 0
  deriving DecidableEq, Repr

/-- The cipher settings of a tenant (R313). -/
structure TenCipher where
  action : Nat := 0
  life   : Nat := 32
  deriving DecidableEq, Repr

/-- A pending rotation (R302, R317). -/
structure Rotation where
  tenant : Nat
  at_    : Nat
  ref    : Ref
  deriving DecidableEq, Repr

/-- A command that waits for a reseed (R307, R311): ESTABLISH_KEK or GENERATE_KEY with its tenant, its parameters and its
latest completion. -/
structure KeyJob where
  ref      : Ref
  kek      : Bool
  tenant   : Nat
  params   : List Byte
  deadline : Nat
  deriving DecidableEq, Repr

/-- The running health tests: the last sample and the length of its run, the reference sample of the window, samples of the window and how many
of them equal the reference. -/
structure NoiseTest where
  last : Bool := false
  run  : Nat := 0
  ref  : Bool := false
  seen : Nat := 0
  hits : Nat := 0
  deriving DecidableEq, Repr

/-- The Turret. `rng` 0 healthy, 1 blocked and retesting, 2 TRNG_FAIL; `retests` failed retests since the failure at
`retestAt`; `blockIx` blocks modulo 16, `dummies` and `order` the dummy stages and the S-box order of the
last block, `orders` those of the fixed mode (R312); `calls` since the last good seed, `drbg` Key and V of the DRBG (no Key before the first seed); `domeDraw` the latest draw of I00 for the stacks that wait for it. -/
structure Turret where
  keep      : Tbl KeySlot := []
  cipher    : Tbl TenCipher := []
  rotations : List Rotation := []
  jobs      : List KeyJob := []
  fenced    : List Nat := []
  capacity  : Bool := false
  rng       : Nat := 0
  retests   : Nat := 0
  retestAt  : Option Nat := none
  calls     : Nat := 0
  degraded  : Bool := false
  noise     : NoiseTest := {}
  drbg      : List Byte × Nat := ([], 0)
  fixed     : Bool := false
  maskAt    : Nat := 0
  blockIx   : Nat := 0
  dummies   : List Nat := []
  order     : List Nat := []
  orders    : List (List Nat) := []
  domeDraw  : Option Nat := none
  healthFails : Nat := 0
  entropy   : Nat := 0
  miss      : Nat := 0
  keepCorr  : Nat := 0
  keepUncorr : Nat := 0
  deriving DecidableEq, Repr

end Sys2Proof.Machine
end

