-- ==== Sys2Proof/Machine/State.lean ====
section
/-! DEFINITION. The state of the block, as plain data, its reset value, and the reasons for which a step could stop. -/

namespace Sys2Proof.Machine

/-- The state of the KM6432. `now` counts ns since PORESET_N was last deasserted (or asserted, while it is asserted), `tod`
the time of day in ns and `subns` its fraction in 10^-8 ns (R366), `free` the free values drawn so far (the model's own field). -/
structure State where
  now     : Nat := 0
  tod     : Nat := 0
  subns   : Nat := 0
  free    : Nat := 0
  hostMem : Tbl Byte := []
  swiys   : Swiys := {}
  ev      : Events := {}
  pcie    : Pcie := {}
  dma     : List Channel := List.replicate 16 {}
  cnt     : Counters := {}
  page    : StatusPage := {}
  mode    : ModeSt := {}
  clk     : ClockSt := {}
  ctl     : CtlSt := {}
  eng     : EngSt := {}
  power   : PowerSt := {}
  pins    : Pins := {}
  therm   : Thermal := {}
  journal : Journal := {}
  fw      : Firmware := {}
  ring    : Ring := {}
  plan    : LinePlan := {}
  spire   : Pair Spire := ⟨{}, {}⟩
  line    : Pair LineSt := ⟨{}, {}⟩
  txFc    : Nat := 0
  cal     : Calendars := {}
  ten     : Tbl Tenant := []
  skew    : Skew := {}
  mrg     : Merge := {}
  host    : HostSide := {}
  pm      : Pm := {}
  turret  : Turret := {}
  mem     : Memory := {}
  bel     : Belfry := {}
  test    : TestSt := {}
  pending : List Instr := []
  deriving DecidableEq, Repr

/-- The machine right after reset: every field at the default that its structure states (R7, R485), PORESET_N asserted. [log 3 DESIGN CHOICE, 36 DESIGN CHOICE] -/
def State.reset : State := {}

/-- A fault would be an access that the manual forbids without an effect of its own. The manual answers every such access
with a status, an event or a count, so no command of this block faults (safe: nothing is lost). -/
inductive Fault where
  deriving DecidableEq, Repr

/-- A refusal by name. -/
inductive Refusal where
  /-- Raised by an arm of exec whose command has no meaning yet; safe. -/
  | notModelled (mnemonic : String)
  deriving DecidableEq, Repr

/-- One step's outcome. -/
abbrev Out := Host.Outcome State Fault Refusal

end Sys2Proof.Machine
end

