-- ==== Sys2Proof/Machine/Flags.lean ====
section
/-! DEFINITION. The status words and pins that follow from the state: DEV_STATUS, ALERT_CAUSE, ALERT_N, the STATUS byte of the two-wire
port, and the flags of domains and rails. -/

namespace Sys2Proof.Machine

/-- The mode code of R404. -/
def modeCode : Mode → Nat
  | .dormant => 0
  | .configure => 1
  | .independent => 2
  | .twin => 3
  | .bonded => 4
  | .merge => 5
  | .regenerate => 6
  | .maintain => 7

/-- The mode of a code. -/
def modeOf : Nat → Mode
  | 0 => .dormant
  | 1 => .configure
  | 2 => .independent
  | 3 => .twin
  | 4 => .bonded
  | 5 => .merge
  | 6 => .regenerate
  | _ => .maintain

/-- The modes that carry traffic (R22). -/
def trafficMode : Mode → Bool
  | .independent | .twin | .bonded | .merge | .regenerate => true
  | _ => false

/-- The record of a domain (R465); PD00 has none. -/
def domGet (s : State) (d : Nat) : Dom := tget {} s.power.doms d

/-- A domain is ON; PD00 is ON from the start of the Cupola (R465). -/
def domOn (s : State) (d : Nat) : Bool := d == 0 || (domGet s d).state == .on

/-- The domains from PD01 to PD31 in a given state, as a mask. -/
def domMask (s : State) (p : Dom → Bool) : Nat :=
  ((List.range 32).filter fun d => d != 0 && p (domGet s d)).foldl (fun m d => m + 2 ^ d) 0

/-- RAIL_WARN is raised on a rail (R471). -/
def railWarn (s : State) (r : Nat) : Bool := (s.power.rails.getD r {}).warn != 0

/-- RAIL_WARN is raised on some rail. -/
def anyRailWarn (s : State) : Bool := s.power.rails.any fun r => r.warn != 0

/-- CONTROLLER_FAIL (R17). -/
def controllerFail (s : State) : Bool := s.ctl.phase == .failed

/-- DEV_STATUS (R419). -/
def devStatus (s : State) : Nat :=
  b2n s.ctl.ready + 2 * b2n (controllerFail s) + 4 * b2n s.therm.warn + 8 * b2n (anyRailWarn s) + 16 * modeCode s.mode.cur

/-- A Q3 record is held (R386). -/
def q3Held (s : State) : Bool := !s.swiys.q3Buf.isEmpty

/-- ALERT_CAUSE (R419, R491). [log 24 DESIGN CHOICE] -/
def alertCause (s : State) : Nat :=
  b2n (controllerFail s) + 2 * b2n s.ev.since + 4 * b2n (q3Held s && s.swiys.alertQ3) + 8 * b2n s.therm.critical
    + 16 * b2n (anyRailWarn s) + 32 * b2n s.pins.pairFault

/-- ALERT_N asserts: a cause set in both words, a third mismatch (R17), a shutdown or RECOVERY (R419, R491). -/
def alertAsserted (s : State) : Bool :=
  (alertCause s &&& s.page.alertMask) != 0 || controllerFail s || s.therm.shutdown || s.fw.recovery

/-- THERMTRIP_N asserts from a shutdown until Tj < 100 C (R478, R479). -/
def thermtripAsserted (s : State) : Bool := s.therm.shutdown

/-- A queue by its name. -/
def qget (s : State) : QueueId → Queue
  | .q0 => s.swiys.q0
  | .q1 => s.swiys.q1
  | .q2 => s.swiys.q2
  | .q3 => s.swiys.q3
  | .relay => s.swiys.relay

/-- The state with a queue replaced. -/
def qset (s : State) (q : QueueId) (v : Queue) : State :=
  match q with
  | .q0 => { s with swiys := { s.swiys with q0 := v } }
  | .q1 => { s with swiys := { s.swiys with q1 := v } }
  | .q2 => { s with swiys := { s.swiys with q2 := v } }
  | .q3 => { s with swiys := { s.swiys with q3 := v } }
  | .relay => { s with swiys := { s.swiys with relay := v } }

/-- The state with a queue updated. -/
def qupd (s : State) (q : QueueId) (f : Queue → Queue) : State := qset s q (f (qget s q))

/-- The number of a queue (R387). -/
def queueNum : QueueId → Nat
  | .q0 => 0
  | .q1 => 1
  | .q2 => 2
  | .q3 => 3
  | .relay => 4

/-- The queue of a number 0 to 3. -/
def queueOf : Nat → QueueId
  | 0 => .q0
  | 1 => .q1
  | 2 => .q2
  | _ => .q3

/-- Lines of 32 bytes that a packet of `n` bytes needs (R388). -/
def linesFor (n : Nat) : Nat := (n + 31) / 32

/-- Lines of a queue in use: those of its waiting packets and of its open packet (R387). -/
def linesUsed (q : Queue) : Nat :=
  (q.waiting.map fun w => linesFor w.bytes.length).sum + linesFor (min q.openCount 4096)

/-- The relay FIFO of a worker takes 64 KiB (R448); a queue has 512 lines (R387). -/
def linesTotal : QueueId → Nat
  | .relay => 2048
  | _ => 512

/-- Free lines of a queue. -/
def linesFree (s : State) (q : QueueId) : Nat := linesTotal q - linesUsed (qget s q)

/-- QFREE (R388). -/
def qfree (s : State) (q : QueueId) : Nat := 32 * linesFree s q

/-- The 6-bit tag of each line of a packet of `n` bytes: END in bit 5, the valid bytes minus 1 in [4:0] (R387). -/
def lineTags (n : Nat) : List Nat :=
  (List.range (linesFor n)).map fun i => if i + 1 = linesFor n then 32 + (n - 32 * i - 1) else 31

/-- STATUS of the two-wire port (R386). -/
def twiStatus (s : State) : Nat :=
  b2n s.ctl.ready + 2 * b2n (q3Held s) + 4 * b2n (controllerFail s) + 8 * b2n (linesFree s .q3 == 0)

/-- RSPLEN (R386): bytes of the oldest held record not yet read. -/
def rspLen (s : State) : Nat := (s.swiys.q3Buf.headD []).length

end Sys2Proof.Machine
end

