-- ==== Sys2Proof/Machine/Ops.lean ====
section
/-! DEFINITION. The shared operations: time, free values, counters, vectors, host memory, events, ring messages, response records and
the completion of commands. -/

namespace Sys2Proof.Machine

/-! Statuses of R401. -/

/-- OK. -/
abbrev stOk : Nat := 0x0000
/-- ACCEPTED. -/
abbrev stAccepted : Nat := 0x0001
/-- BAD_OPCODE. -/
abbrev stBadOpcode : Nat := 0x0010
/-- BAD_PARAM. -/
abbrev stBadParam : Nat := 0x0011
/-- BAD_STATE. -/
abbrev stBadState : Nat := 0x0012
/-- BAD_CRC. -/
abbrev stBadCrc : Nat := 0x0013
/-- BUSY. -/
abbrev stBusy : Nat := 0x0020
/-- FLUSHED. -/
abbrev stFlushed : Nat := 0x0021
/-- ENTROPY. -/
abbrev stEntropy : Nat := 0x0030
/-- AUTH_FAIL. -/
abbrev stAuthFail : Nat := 0x0031
/-- UNREACHABLE. -/
abbrev stUnreachable : Nat := 0x0040
/-- OUTCOME_UNKNOWN. -/
abbrev stOutcomeUnknown : Nat := 0x0041
/-- THERMAL. -/
abbrev stThermal : Nat := 0x0050
/-- SUPPLY. -/
abbrev stSupply : Nat := 0x0051
/-- NOT_READY. -/
abbrev stNotReady : Nat := 0x0052

/-- One millisecond in ns. -/
abbrev msNs : Nat := 1000000
/-- One second in ns. -/
abbrev secNs : Nat := 1000000000

/-! Free values. -/

/-- A natural number below `n` that the manual leaves open at point `p`; the count of questions advances. -/
def drawNat (p n : Nat) (s : State) : Nat × State := (Config.freeNat p s.free % n, { s with free := s.free + 1 })

/-- A choice that the manual leaves open at point `p`. -/
def drawBool (p : Nat) (s : State) : Bool × State := (Config.freeBool p s.free, { s with free := s.free + 1 })

/-- `n` bytes that the manual leaves open at point `p`. -/
def drawBytes (p n : Nat) (s : State) : List Byte × State :=
  ((List.range n).map fun i => BitVec.ofNat 8 (Config.freeNat p (s.free + i)), { s with free := s.free + n })

/-! Counters (R427 to R429). -/

/-- The message of a vector can be sent (R414): enabled, neither the function nor the vector masked, Bus Master Enable set. [log 27 DEDUCED] -/
def vectorOpen (v : Nat) (s : State) : Bool :=
  s.pcie.msixEnable && s.pcie.busMaster && !s.pcie.msixMask && !(tget {} s.pcie.msix v).ctrl.testBit 0

/-- A message-signalled vector: sent when its path is open, else its pending bit is set (R414). -/
def signalVector (v : Nat) (s : State) : State :=
  if vectorOpen v s then
    { s with pcie := { s.pcie with sent := tupd 0 s.pcie.sent v (· + 1) } }
  else { s with pcie := { s.pcie with pba := setBit s.pcie.pba v true } }

/-- Counter `i` counts `n` more, without the chain: its value wraps at 2^48 and OVF and vector 20 follow (R429). -/
def countOwn (i n : Nat) (s : State) : State :=
  let v := tget 0 s.cnt.val i + n
  let s1 := { s with cnt := { s.cnt with val := tset 0 s.cnt.val i (v % 2 ^ 48) } }
  if v < 2 ^ 48 then s1
  else
    let s2 := { s1 with cnt := { s1.cnt with ovf := setBit s1.cnt.ovf i true } }
    if (tget {} s.cnt.cfg i).irq then signalVector 20 s2 else s2

/-- Counter `i` counts `n` more; a wrap of the low counter of a chained pair increments the high counter (R428, R429). -/
def countOne (i n : Nat) (s : State) : State :=
  let wraps := (tget 0 s.cnt.val i + n) / 2 ^ 48
  let s1 := countOwn i n s
  let h := tget {} s.cnt.cfg (i + 1)
  if wraps = 0 || i % 2 = 1 || !(h.chain && h.enable) then s1 else countOwn (i + 1) wraps s1

/-- The running window of a bandwidth port takes `n` bytes in or out (R430). -/
def countWindow (source port n : Nat) (s : State) : State :=
  if tget 0 s.cnt.bwWin port = 0 then s
  else if source = 0x09 then { s with cnt := { s.cnt with bwAccIn := tupd 0 s.cnt.bwAccIn port (· + n) } }
  else if source = 0x0A then { s with cnt := { s.cnt with bwAccOut := tupd 0 s.cnt.bwAccOut port (· + n) } }
  else s

/-- Every enabled counter of a source and an object counts `n` more (R427), and a port's window where the source is bytes (R430).
[log 31 DESIGN CHOICE, 33 DEDUCED] -/
def countSrc (source object n : Nat) (s : State) : State :=
  s.cnt.cfg.foldl (fun t e =>
    if e.2.enable && !e.2.chain && e.2.source == source && e.2.object == object && e.1 < 128 then countOne e.1 n t else t)
    (countWindow source object n s)

/-- A vector is raised (R414); the 4 bytes of its message count at bandwidth port 60 (R430). -/
def raiseVector (v : Nat) (s : State) : State :=
  if vectorOpen v s then countSrc 0x0A 60 4 (signalVector v s) else signalVector v s

/-! Time. -/

/-- Ticks of the 32.768 kHz slow clock in a time in ns. -/
def slowTicks (ns : Nat) : Nat := ns * 32768 / secNs

/-- The time of day moves by an amount in 10^-8 ns (R365 to R367, R375). [log 10 DESIGN CHOICE] -/
def addTod (d : Int) (s : State) : State :=
  let v := ((s.tod * 10 ^ 8 + s.subns : Nat) : Int) + d
  let w := (v % (2 ^ 48 * secNs * 10 ^ 8 : Nat)).toNat
  { s with tod := w / 10 ^ 8, subns := w % 10 ^ 8 }

/-- A slew moves the time of day within `n` ns by the slew rate (R365). -/
def slewTime (n : Nat) (s : State) : State :=
  if s.bel.slew = 0 then s
  else
    let m := min s.bel.slew.natAbs (n * s.bel.use.slew)
    let d : Int := if s.bel.slew < 0 then -(m : Int) else m
    addTod d { s with bel := { s.bel with slew := s.bel.slew - d } }

/-- Time passes to `t` when it lies ahead: the clock, the time of day (R366), and the counters of time (R427). [log 2 DESIGN CHOICE, 11 DESIGN CHOICE] -/
def advanceTo (t : Nat) (s : State) : State :=
  if t ≤ s.now then s
  else
    let n := t - s.now
    let s1 := slewTime n { s with now := t, tod := (s.tod + n) % (2 ^ 48 * secNs) }
    let s2 := if domOn s 1 then countSrc 0x0F 0 n s1 else s1
    countSrc 0x10 0 (slowTicks t - slowTicks s.now) s2

/-- Time passes until the time of day reaches `goal`, when that lies ahead. -/
def advanceTod (goal : Nat) (s : State) : State := if s.tod < goal then advanceTo (s.now + (goal - s.tod)) s else s

/-- With nothing to do the block's clock ticks: 1 ns passes (DESIGN CHOICE, log 2). [log 2 DESIGN CHOICE] -/
def idle (s : State) : State := advanceTo (s.now + 1) s

/-- Time passes to a deadline when it lies ahead; a deadline that is not set changes nothing. [log 11 DESIGN CHOICE] -/
def advanceOpt (t : Option Nat) (s : State) : State :=
  match t with
  | some d => advanceTo d s
  | none => s

/-- Seconds since PORESET_N, from the slow clock (R404, R412). -/
def uptime (s : State) : Nat := s.now / secNs

/-! Host memory and host rings (R385, R413, R414, R416, R417, R424). -/

/-- Bytes stored in host memory from an address on. [log 4 DESIGN CHOICE] -/
def memPut (m : Tbl Byte) : Nat → List Byte → Tbl Byte
  | _, [] => m
  | a, b :: r => memPut (tset 0 m (a % 2 ^ 64) b) (a + 1) r

/-- Bytes of host memory from an address on. [log 4 DESIGN CHOICE] -/
def memGet (m : Tbl Byte) (a n : Nat) : List Byte := (List.range n).map fun i => tget 0 m ((a + i) % 2 ^ 64)

/-- The device stores bytes in host memory; bandwidth port 60 counts them (R430). -/
def hostStore (a : Nat) (l : List Byte) (s : State) : State :=
  countSrc 0x0A 60 l.length { s with hostMem := memPut s.hostMem a l }

/-- What the host itself stored in its memory before it acted. [log 29 DEDUCED] -/
def hostCells (l : List (Nat × Byte)) (s : State) : State :=
  { s with hostMem := l.foldl (fun m c => tset 0 m (c.1 % 2 ^ 64) c.2) s.hostMem }

/-- The device may issue DMA: Bus Master Enable set and the endpoint not in reset (R408, R409). -/
def dmaAllowed (s : State) : Bool := s.pcie.busMaster && !s.pcie.perst

/-- Size of a ring in bytes; 0 unconfigured. -/
def ringSize (r : HostRing) : Nat := if r.sizeLog = 0 then 0 else 2 ^ r.sizeLog

/-- Bytes of a ring written and not yet consumed. -/
def ringUsed (r : HostRing) : Nat := (r.tail + ringSize r - r.head) % ringSize r

/-- A ring keeps at least `gap` free bytes after `n` more bytes (R385). -/
def ringFits (gap n : Nat) (r : HostRing) : Bool := r.sizeLog != 0 && ringUsed r + n + gap ≤ ringSize r

/-- The tail of a ring advances by `n` bytes. -/
def ringAdvance (r : HostRing) (n : Nat) : HostRing := { r with tail := (r.tail + n) % ringSize r }

/-- A written head is valid: a multiple of the unit, below the size, not beyond the records written (R413). -/
def headValid (unit v : Nat) (r : HostRing) : Bool :=
  r.sizeLog != 0 && v % unit == 0 && decide (v < ringSize r) &&
    decide ((v + ringSize r - r.head) % ringSize r ≤ ringUsed r)

/-- A write to a ring's head (R413). -/
def writeHead (unit v : Nat) (r : HostRing) : HostRing :=
  if headValid unit v r then { r with head := v, headErr := false } else { r with headErr := true }

/-- A write to a ring's size (R413): 0 unconfigures, a size in range configures an unconfigured ring. -/
def writeSize (lo hi v : Nat) (r : HostRing) : HostRing :=
  if v = 0 then { r with sizeLog := 0, head := 0, tail := 0 }
  else if r.sizeLog = 0 && lo ≤ v && v ≤ hi then { r with sizeLog := v } else r

/-! Events (R415, R416, R452). -/

/-- An event record as bytes (R415). -/
def eventBytes (e : EvRec) (gap : Bool) : List Byte :=
  le 2 e.code ++ le 1 (b2n e.set + 2 * b2n gap) ++ le 1 e.source ++ le 4 e.seq ++ le 4 e.ns ++ le 4 e.sec
    ++ ((e.args ++ [0, 0, 0, 0]).take 4).flatMap (le 4)

/-- The event ring can take a record now. -/
def eventRoom (s : State) : Bool := dmaAllowed s && ringFits 32 32 s.ev.ring

/-- An event record is written to the event ring and vector 3 is raised (R385, R416). -/
def writeEvent (e : EvRec) (s : State) : State :=
  let s1 := hostStore (s.ev.ring.base + s.ev.ring.tail) (eventBytes e s.ev.gap) s
  raiseVector 3 { s1 with ev := { s1.ev with ring := ringAdvance s1.ev.ring 32, gap := false } }

/-- An event finds the ring, the hold store of 1,024 records, or is discarded (R416). [log 34 DESIGN CHOICE] -/
def deliverEvent (e : EvRec) (s : State) : State :=
  if s.ev.hold.isEmpty && eventRoom s then writeEvent e s
  else if s.ev.hold.length < 1024 then { s with ev := { s.ev with hold := s.ev.hold ++ [e] } }
  else { s with ev := { s.ev with gap := true, lost := satAdd 32 s.ev.lost 1, since := true } }

/-- The oldest held event is written where room exists (R416). [log 34 DESIGN CHOICE] -/
def flushEvent (s : State) : State :=
  match s.ev.hold with
  | [] => s
  | e :: r => if eventRoom s then writeEvent e { s with ev := { s.ev with hold := r } } else s

/-- The slot of a ring port in the pair of ports. -/
def portGet (s : State) (p : Port) : RingPort := pget s.ring.ports (portSlot p)

/-- The state with a ring port updated. -/
def portUpd (p : Port) (f : RingPort → RingPort) (s : State) : State :=
  { s with ring := { s.ring with ports := pupd s.ring.ports (portSlot p) f } }

/-- Priority of a message type (R446): TIMING and DELAY, then PROTECT, then all others. -/
def msgPriority (t : Nat) : Nat := if t = 4 || t = 5 || t = 6 then 0 else if t = 0x30 then 1 else 2

/-- A message takes its place among the waiting ones: after those of its priority (R446). -/
def enqueueMsg (m : RingMsg) : List RingMsg → List RingMsg
  | [] => [m]
  | x :: r => if msgPriority x.type ≤ msgPriority m.type then x :: enqueueMsg m r else m :: x :: r

/-- Length of a ring message in bytes (R444). -/
def msgLength (m : RingMsg) : Nat := 20 + m.body.length

/-- The header and the body of a message as they are sent, most significant byte first (R3, R444). -/
def msgHead (m : RingMsg) : List Byte :=
  le 1 m.type ++ le 1 m.src ++ le 1 m.dst ++ le 1 m.hops ++ be 2 m.epoch ++ be 2 m.tag ++ be 2 m.body.length ++ le 6 0 ++ m.body

/-- A message as it is sent: header, body and the CRC-32C over both (R444). [log 237 DEDUCED] -/
def msgBytes (m : RingMsg) : List Byte := msgHead m ++ be 4 (crc32c (msgHead m)).toNat

/-- A message on the lanes of a port, character `i` on lane `i mod 4` (R440): K27.7, the bytes, K29.7, the rest of its column and the
idle column after it. -/
def portChars (l : List Byte) : List LaneChar :=
  let c := [.k27_7] ++ l.map .data ++ [.k29_7]
  c ++ List.replicate ((4 - c.length % 4) % 4 + 4) .k28_5

/-- The message that received bytes hold; none where their CRC fails or their length is not the one that the header states (R444, R446). [log 237 DEDUCED] -/
def parseMsg (l : List Byte) : Option RingMsg :=
  let n := l.length - 4
  if l.length < 20 || beNat (slice l 8 2) != l.length - 20 || beNat (l.drop n) != (crc32c (l.take n)).toNat then none
  else some {
    type := u8 l 0, src := u8 l 1, dst := u8 l 2, hops := u8 l 3, epoch := beNat (slice l 4 2), tag := beNat (slice l 6 2)
    body := (l.drop 16).take (n - 16) }

/-- A message goes out of a port: sent when the link is UP and its transmitter awake, waiting in ALIGN and STEP, lost in
DOWN (R441, R446); in RING_LOCAL the balls send idle columns (R523). -/
def sendMsg (p : Port) (m : RingMsg) (s : State) : State :=
  let r := portGet s p
  match r.state with
  | .up => portUpd p (fun r => { r with sent := if pget s.test.portLoop (portSlot p) then r.sent else portChars (msgBytes m) :: r.sent }) (countSrc 0x0A (58 + portNum p) (msgLength m) s)
  | .down => s
  | _ => portUpd p (fun r => { r with waiting := enqueueMsg m r.waiting }) s

/-- The sender number of this device in a message (R444). -/
def ringSelf (s : State) : Nat := if s.ring.role = 1 then 0 else s.ring.number.getD 0xFF

/-- A message of this device. -/
def mkMsg (s : State) (type dst tag : Nat) (body : List Byte) : RingMsg :=
  { type := type, src := ringSelf s, dst := dst, hops := 0, epoch := s.ring.epoch, tag := tag, body := body }

/-- The device is a numbered worker on the ring: its events and PM records also go to its manager (R452). -/
def ringWorker (s : State) : Bool := s.ring.role == 2 && s.ring.number.isSome && domOn s 31

/-- A worker sends an event to its manager and keeps it until it is acknowledged (R452). [log 175 DEDUCED] -/
def streamEvent (e : EvRec) (s : State) : State :=
  if !ringWorker s then s
  else if s.ring.evOut.length < 1024 then
    sendMsg .east (mkMsg s 0x20 0 0 (eventBytes e false)) { s with ring := { s.ring with evOut := s.ring.evOut ++ [e] } }
  else { s with ev := { s.ev with gap := true, lost := satAdd 32 s.ev.lost 1, since := true } }

/-- The device posts an event (R415): it takes the next event sequence number and the time of day. [log 34 DESIGN CHOICE] -/
def post (code : Nat) (set : Bool) (args : List Nat) (s : State) : State :=
  let e : EvRec := { code := code, set := set, source := 0, seq := s.ev.seq, ns := s.tod % secNs,
                     sec := s.tod / secNs % 2 ^ 32, args := args.map (· % 2 ^ 32) }
  streamEvent e (deliverEvent e { s with ev := { s.ev with seq := (s.ev.seq + 1) % 2 ^ 32 } })

/-- An event that is no alarm. -/
def postEv (code : Nat) (args : List Nat) (s : State) : State := post code false args s

/-- A signed argument, sign-extended to 32 bits (R415). -/
def sArg (x : Int) : Nat := (x % (2 ^ 32 : Nat)).toNat

/-- DEV_STATUS changed, or VIOLATION_COUNT left 0: vector 21 is raised (R414). -/
def noteStatus (old s : State) : State :=
  if devStatus old != devStatus s || (old.page.violations == 0 && s.page.violations != 0) then raiseVector 21 s else s

/-- A violation is recorded (R411, R419). -/
def violation (last : Nat) (s : State) : State :=
  noteStatus s { s with page := { s.page with violations := satAdd 32 s.page.violations 1, last := last } }

/-! Response records (R384 to R386, R398, R399, R413). -/

/-- A response record as bytes, padded to 32 (R384, R385). -/
def recordBytes (r : Rec) (seq epoch : Nat) : List Byte :=
  let body := le 2 r.opcode ++ le 2 r.tag ++ le 2 r.status ++ le 2 r.result.length ++ le 4 seq ++ le 2 epoch
    ++ le 1 r.kind ++ le 1 r.source ++ r.result
  padTo 32 (body ++ le 4 (crc32c body).toNat)

/-- Padded length of a record. -/
def recordLength (r : Rec) : Nat := (20 + r.result.length + 31) / 32 * 32

/-- A pad record that fills a ring from its tail to its end (R385). -/
def padBytes (n epoch : Nat) : List Byte :=
  let body := le 2 0xFFFF ++ le 2 0 ++ le 2 0 ++ le 2 (n - 20) ++ le 4 0 ++ le 2 epoch ++ le 1 2 ++ le 1 0
    ++ List.replicate (n - 20) 0
  body ++ le 4 (crc32c body).toNat

/-- After a record is written: the queue's next seq, and the command of a final record runs no more. -/
def wrote (r : Rec) (q : Queue) : Queue :=
  { q with seq := (q.seq + 1) % 2 ^ 32, running := if r.fin then q.running.filter (·.sub != r.sub) else q.running }

/-- The number of the vector of a PCIe queue is its own number (R414). -/
def writeRingRecord (qi : QueueId) (r : Rec) (s : State) : State :=
  let q := qget s qi
  let s1 := hostStore (q.ring.base + q.ring.tail) (recordBytes r q.seq q.epoch) s
  raiseVector (queueNum qi) (qset s1 qi { wrote r q with ring := ringAdvance q.ring (recordLength r) })

/-- The pad record that a crossing record needs is written where it has room (R385). [log 18 DEDUCED] -/
def writePad (qi : QueueId) (r : Rec) (s : State) : State :=
  let q := qget s qi
  let n := ringSize q.ring - q.ring.tail
  if dmaAllowed s && q.ring.sizeLog != 0 && q.ring.tail + recordLength r > ringSize q.ring && ringFits 32 n q.ring then
    qset (hostStore (q.ring.base + q.ring.tail) (padBytes n q.epoch) s) qi { q with ring := ringAdvance q.ring n }
  else s

/-- Bytes of held records in the response buffer of Q3 (R386). -/
def q3Bytes (s : State) : Nat := (s.swiys.q3Buf.map List.length).sum

/-- The outcome log takes a response record of a relayed command (R449): final records end the entry. -/
def logRecord (epoch tag : Nat) (r : Rec) (bytes : List Byte) (l : List OutEntry) : List OutEntry :=
  l.map fun e =>
    if e.epoch = epoch && e.tag = tag then
      { e with state := if r.fin then 2 else e.state, status := r.status, rlen := r.result.length, head := r.result.take 32, last := bytes }
    else e

/-- A RESPONSE of a worker leaves by a port, or by the other when that link is not UP (R450). -/
def sendResponse (o : RespOut) (s : State) : State :=
  let other : Port := match o.dir with | .east => .west | .west => .east
  sendMsg (if (portGet s o.dir).state = .up then o.dir else other) { (mkMsg s 0x12 0 o.tag o.record) with epoch := o.epoch } s

/-- A worker sends a response record to its manager (R450): at once when no earlier record of the tag is unacknowledged. -/
def writeRelayRecord (r : Rec) (s : State) : State :=
  let q := s.swiys.relay
  let bytes := recordBytes r q.seq q.epoch
  let epoch := r.sub / 2 ^ 16
  let tag := r.sub % 2 ^ 16
  let first := !(s.ring.resp.any fun o => o.epoch == epoch && o.tag == tag)
  let out : RespOut := ⟨epoch, tag, bytes, match s.ring.log.find? (fun e => e.epoch == epoch && e.tag == tag) with
    | some e => e.port
    | none => .east⟩
  let s1 := { qset s .relay (wrote r q) with
    ring := { s.ring with resp := s.ring.resp ++ [out], log := logRecord epoch tag r bytes s.ring.log } }
  if first then sendResponse out s1 else s1

/-- A record can be written now: room in its ring, in the Q3 buffer of 8 KiB, or toward the manager. -/
def recordRoom (qi : QueueId) (r : Rec) (s : State) : Bool :=
  match qi with
  | .q3 => q3Bytes s + recordLength r ≤ 8192
  | .relay => true
  | _ => dmaAllowed s && decide ((qget s qi).ring.tail + recordLength r ≤ ringSize (qget s qi).ring)
      && ringFits 32 (recordLength r) (qget s qi).ring

/-- A record is written to its place. -/
def writeRecord (qi : QueueId) (r : Rec) (s : State) : State :=
  match qi with
  | .q3 =>
    let q := s.swiys.q3
    { s with swiys := { s.swiys with q3 := wrote r q, q3Buf := s.swiys.q3Buf ++ [recordBytes r q.seq q.epoch] } }
  | .relay => writeRelayRecord r s
  | _ => writeRingRecord qi r s

/-- A record that became ready is written when it is first in order and has room, else it waits in the hold store. [log 18 DEDUCED] -/
def emit (qi : QueueId) (r : Rec) (s : State) : State :=
  if (qget s qi).hold.isEmpty then
    let s1 := writePad qi r s
    if recordRoom qi r s1 then writeRecord qi r s1 else qupd s1 qi fun q => { q with hold := q.hold ++ [r] }
  else qupd s qi fun q => { q with hold := q.hold ++ [r] }

/-- The oldest held record of a queue is written once room exists (R385, R386, R413). [log 18 DEDUCED] -/
def flushRecord (qi : QueueId) (s : State) : State :=
  match (qget s qi).hold with
  | [] => s
  | r :: rest =>
    let s1 := writePad qi r s
    if recordRoom qi r s1 then writeRecord qi r (qupd s1 qi fun q => { q with hold := rest }) else s1

/-- Capacity of the hold store of a queue (R386, R413). -/
def holdSize : QueueId → Nat
  | .q3 => 65536
  | _ => 262144

/-- Bytes of a hold store in use: held records outside reservations and the reservations of ACCEPTED commands. [log 15 DEDUCED] -/
def holdUsed (q : Queue) : Nat :=
  ((q.hold.filter fun r => !r.reserved).map recordLength).sum + 4128 * (q.running.filter (·.accepted)).length

/-- The hold store can reserve one more record of 4,128 bytes (R395, R413). [log 15 DEDUCED] -/
def canReserve (s : State) (qi : QueueId) : Bool := holdUsed (qget s qi) + 4128 ≤ holdSize qi

/-- The started command of a reference. -/
def runningOf (s : State) (r : Ref) : Option Running := (qget s r.queue).running.find? (·.sub == r.sub)

/-- The final record of a started command becomes ready (R384, R399), from source `src`. [log 185 DEDUCED] -/
def completeFrom (src : Nat) (r : Ref) (status : Nat) (result : List Byte) (s : State) : State :=
  match runningOf s r with
  | none => s
  | some c =>
    if c.flags.testBit 1 && status == stOk && r.queue != .relay then
      qupd s r.queue fun q => { q with running := q.running.filter (·.sub != r.sub) }
    else
      let s1 := if c.withheld then emit r.queue ⟨c.opcode, c.tag, stAccepted, 1, src, [], c.sub, false, c.accepted⟩ s else s
      emit r.queue ⟨c.opcode, c.tag, status, 0, src, result, c.sub, true, c.accepted⟩ s1

/-- The final record of a command that this device executed. -/
def complete (r : Ref) (status : Nat) (result : List Byte) (s : State) : State := completeFrom 0 r status result s

/-- The ACCEPTED of a started command (R384, R399): written, or withheld with NO_RESPONSE. -/
def acceptFrom (src : Nat) (r : Ref) (s : State) : State :=
  match runningOf s r with
  | none => s
  | some c =>
    let held := c.flags.testBit 1 && r.queue != .relay
    let s1 := qupd s r.queue fun q =>
      { q with running := q.running.map fun x => if x.sub = r.sub then { x with accepted := true, withheld := held } else x }
    if held then s1 else emit r.queue ⟨c.opcode, c.tag, stAccepted, 1, src, [], c.sub, false, true⟩ s1

/-- What a command's own effect answers: the state, ACCEPTED first, and the final status with its result where it is known
at once. -/
structure Res where
  s        : State
  accepted : Bool := false
  final    : Option (Nat × List Byte) := some (0, [])

/-- OK without a result. -/
def done (s : State) : Res := { s := s }

/-- OK with a result. -/
def doneWith (s : State) (result : List Byte) : Res := { s := s, final := some (0, result) }

/-- ACCEPTED; the completion follows. -/
def later (s : State) : Res := { s := s, accepted := true, final := none }

/-- The status of the first check that fails, OK when all pass. [log 14 DEDUCED] -/
def firstBad : List (Bool × Nat) → Nat
  | [] => stOk
  | (bad, st) :: r => if bad then st else firstBad r

end Sys2Proof.Machine
end

