-- ==== Sys2Proof/Machine/Operands.lean ====
section
/-! DEFINITION. The operand forms of the interface: the packet and its header checks (R380 to R383, R400), and the offsets of BAR0 and
BAR2 with what a read of each returns (R410 to R419, R431). -/

namespace Sys2Proof.Machine

/-- A packet as the bytes of R380, with its CRC of R381. -/
def packetBytes (op : Nat) (pk : Packet) : List Byte :=
  let h := le 2 op ++ le 2 pk.tag ++ le 1 pk.target ++ le 1 pk.flags ++ le 2 pk.params.length ++ le 4 pk.tenant
  h ++ le 4 (crc32c (h ++ pk.params)).toNat ++ pk.params

/-- The CRC of a packet checks (R381): bytes 0 to 11, then 16 to the end. -/
def packetCrcOk (l : List Byte) : Bool := u32 l 12 == (crc32c (l.take 12 ++ l.drop 16)).toNat

/-- The opcodes that the groups of R400 define. -/
def definedOpcode (op : Nat) : Bool :=
  let n := op % 256
  match op / 256 with
  | 0x00 => n ≤ 5
  | 0x01 => 1 ≤ n && n ≤ 5
  | 0x02 => n == 1 || n == 2 || (0x10 ≤ n && n ≤ 0x14) || (0x20 ≤ n && n ≤ 0x26) || (0x30 ≤ n && n ≤ 0x32)
  | 0x03 => 1 ≤ n && n ≤ 3
  | 0x04 => n == 1 || n == 2 || (0x10 ≤ n && n ≤ 0x14)
  | 0x05 => 1 ≤ n && n ≤ 4
  | 0x06 => 1 ≤ n && n ≤ 6
  | 0x07 => 1 ≤ n && n ≤ 8
  | 0x08 => 1 ≤ n && n ≤ 5
  | 0x09 => 1 ≤ n && n ≤ 9
  | 0x0A => 1 ≤ n && n ≤ 6
  | 0x0B => 1 ≤ n && n ≤ 5
  | 0x0C => 1 ≤ n && n ≤ 9
  | 0x0D => 1 ≤ n && n ≤ 6
  | 0x0E => 1 ≤ n && n ≤ 9
  | _ => false

/-- The manager holds a worker in its ring while its number is bound (R438). -/
def holdsWorker (s : State) (w : Nat) : Bool := s.ring.role == 1 && !(tget [] s.ring.bind w).isEmpty

/-- Steps 2 to 6 of R382 on a closed packet: the status of the first that fails, else OK. -/
def headerStatus (l : List Byte) (s : State) : Nat :=
  firstBad [
    (!packetCrcOk l, stBadCrc),
    (16 + u16 l 6 != l.length, stBadParam),
    (decide (8 ≤ u8 l 5) || decide (15 < u8 l 4), stBadParam),
    (!definedOpcode (u16 l 0), stBadOpcode),
    (u8 l 4 != 0 && !holdsWorker s (u8 l 4), stBadState)]

/-- The started command that a command's own part sees: its packet and its reference. -/
structure Ctx where
  pk  : Packet
  ref : Ref

/-- A command that names no tenant, with parameters of `n` bytes (R380). -/
def plainLen (n : Nat) (c : Ctx) : Bool := c.pk.params.length == n && c.pk.tenant == 0xFFFFFFFF

/-- A command that names a tenant, with parameters of `n` bytes (R380). -/
def tenantLen (n : Nat) (c : Ctx) : Bool := c.pk.params.length == n && decide (c.pk.tenant < 1024)

/-! BAR0 and BAR2. -/

/-- The block of a PCIe queue page that an offset lies in (R413), with the offset in it. -/
def queueBlock (off : Nat) : Option (QueueId × Nat) :=
  if 0x1000 ≤ off && off < 0x1120 then some (.q0, off - 0x1000)
  else if 0x1400 ≤ off && off < 0x1520 then some (.q1, off - 0x1400)
  else if 0x1800 ≤ off && off < 0x1920 then some (.q2, off - 0x1800)
  else none

/-- An offset of BAR0 that a table assigns, in units of 32 bits (R411 to R419). -/
def bar0Assigned (off : Nat) : Bool :=
  decide (off ≤ 0x01C)
  || (queueBlock off).isSome
  || (0x2000 ≤ off && off ≤ 0x2014) || (0x2800 ≤ off && off ≤ 0x295C) || off == 0x2C00
  || (0x3000 ≤ off && off < 0x4000 && off % 0x100 ≤ 0x34)
  || (0x4000 ≤ off && off ≤ 0x45FC) || (0x4600 ≤ off && off ≤ 0x4614) || (0x4620 ≤ off && off ≤ 0x462C)
  || (0x4700 ≤ off && off ≤ 0x47F8) || (0x4800 ≤ off && off ≤ 0x4FDC)
  || (0x5000 ≤ off && off ≤ 0x5014)

/-- An access that R411 lets pass: assigned, naturally aligned, 32 or 64 bits wide (QDATA: writes of 32-bit multiples,
no 64-bit rule); no write to BAR2; a BAR2 read only of a granted counter; queue windows only from READY on. -/
def accessOk (s : State) (a : Access) : Bool :=
  let sized := a.width == 32 || a.width == 64
  let aligned := a.offset % (a.width / 8) == 0
  let whole := (List.range (a.width / 32)).all fun i => bar0Assigned (a.offset + 4 * i)
  let qwin := match queueBlock a.offset with
    | some (_, o) => decide (o ≤ 0x100)
    | none => false
  let qdata := match queueBlock a.offset with
    | some (_, o) => decide (o < 0x100)
    | none => false
  if a.bar2 then
    !a.write && sized && aligned && decide (a.offset < 1024) && s.cnt.grant.testBit (a.offset / 8)
  else if qdata && a.write then
    a.width % 32 == 0 && a.width != 0 && a.offset % 4 == 0 && s.ctl.ready && !controllerFail s
  else sized && aligned && whole && !(qwin && a.write && (!s.ctl.ready || controllerFail s))

/-- VIOLATION_LAST of an access (R419). -/
def violationWord (a : Access) : Nat :=
  let badShape := !(a.width == 32 || a.width == 64) || a.offset % (a.width / 8) != 0
  a.offset % 65536 + 65536 * b2n a.bar2 + 131072 * b2n a.write + 262144 * b2n badShape

/-- The value of a counter as CNT_VAL shows it: live, or the snapshot while CNT_MODE is set (R418). -/
def counterValue (s : State) (i : Nat) : Nat := if s.cnt.mode then tget 0 s.cnt.snap i else tget 0 s.cnt.val i

/-- CNT_CFG of a counter (R418). -/
def counterCfg (s : State) (i : Nat) : Nat :=
  let c := tget {} s.cnt.cfg i
  c.source + 2 ^ 8 * c.object + 2 ^ 24 * b2n c.enable + 2 ^ 25 * b2n c.chain + 2 ^ 26 * b2n c.irq

/-- The 64-bit value that starts at an offset of the counter page, where the offset holds one (R410, R418). -/
def wideValue (s : State) (off : Nat) : Option Nat :=
  if 0x4000 ≤ off && off < 0x4400 && off % 8 == 0 then some (counterValue s ((off - 0x4000) / 8))
  else if 0x4800 ≤ off && off ≤ 0x4FD8 && off % 8 == 0 then
    let p := (off - 0x4800) / 32
    match (off - 0x4800) % 32 with
    | 0 => some (tget 0 s.cnt.bwIn p)
    | 8 => some (tget 0 s.cnt.bwOut p)
    | 16 => some (tget 0 s.cnt.bwPeakIn p)
    | _ => some (tget 0 s.cnt.bwPeakOut p)
  else none

/-- ID_FW (R412). -/
def idFw (s : State) : Nat :=
  if !s.ctl.ready then 0
  else match s.fw.image with
    | none => 0
    | some h => 256 * h.major + h.minor

/-- A register of a queue block (R413). -/
def readQueueReg (s : State) (q : QueueId) (o : Nat) : Nat :=
  let v := qget s q
  if o = 0x104 then qfree s q
  else if o = 0x108 then v.ring.base % 2 ^ 32
  else if o = 0x10C then v.ring.base / 2 ^ 32
  else if o = 0x110 then v.ring.sizeLog
  else if o = 0x114 then v.ring.head
  else if o = 0x118 then v.ring.tail
  else if o = 0x11C then b2n (!v.hold.isEmpty) + 2 * b2n (!canReserve s q) + 4 * b2n v.ring.headErr
  else 0

/-- A register of a DMA block (R417). -/
def readDmaReg (ch : Channel) (o : Nat) : Nat :=
  if o = 0x00 then ch.ctrl
  else if o = 0x0C then ch.state + 256 * ch.status
  else if o = 0x10 then ch.head % 2 ^ 32
  else if o = 0x14 then ch.head / 2 ^ 32
  else if o = 0x18 then ch.cur % 2 ^ 32
  else if o = 0x1C then ch.cur / 2 ^ 32
  else if o = 0x20 then ch.cpl.base % 2 ^ 32
  else if o = 0x24 then ch.cpl.base / 2 ^ 32
  else if o = 0x28 then ch.cpl.sizeLog
  else if o = 0x2C then ch.cpl.head
  else if o = 0x30 then ch.cpl.tail
  else if o = 0x34 then ch.count
  else 0

/-- A word of the MSI-X table (R414): address low, address high, data, control. -/
def readMsix (s : State) (o : Nat) : Nat :=
  let e := tget {} s.pcie.msix (o / 16)
  match o % 16 / 4 with
  | 0 => e.addr % 2 ^ 32
  | 1 => e.addr / 2 ^ 32
  | 2 => e.data
  | _ => e.ctrl

/-- What a 32-bit read of a BAR0 register returns, latches of R410 aside (R412 to R419); write-only registers and
unassigned offsets read zero. -/
def readReg (s : State) (off : Nat) : Nat :=
  if off = 0x000 then 0x1C5E
  else if off = 0x004 then 0x6432
  else if off = 0x008 then 0x4230
  else if off = 0x00C then idFw s
  else if off = 0x010 then leNat (slice (fusedIdentity s.fw.fuses) 0 4)
  else if off = 0x014 then leNat (slice (fusedIdentity s.fw.fuses) 4 4)
  else if off = 0x018 then leNat (slice (fusedIdentity s.fw.fuses) 8 3)
  else if off = 0x01C then uptime s % 2 ^ 32
  else match queueBlock off with
  | some (q, o) => readQueueReg s q o
  | none =>
    if off = 0x2000 then s.ev.ring.base % 2 ^ 32
    else if off = 0x2004 then s.ev.ring.base / 2 ^ 32
    else if off = 0x2008 then s.ev.ring.sizeLog
    else if off = 0x200C then s.ev.ring.head
    else if off = 0x2010 then s.ev.ring.tail
    else if off = 0x2014 then s.ev.lost
    else if 0x2800 ≤ off && off ≤ 0x295C then readMsix s (off - 0x2800)
    else if off = 0x2C00 then s.pcie.pba
    else if 0x3000 ≤ off && off < 0x4000 then readDmaReg (s.dma.getD ((off - 0x3000) / 256) {}) (off % 256)
    else if 0x4400 ≤ off && off < 0x4600 then counterCfg s ((off - 0x4400) / 4)
    else if 0x4600 ≤ off && off < 0x4610 then s.cnt.grant / 2 ^ (8 * (off - 0x4600)) % 2 ^ 32
    else if off = 0x4614 then b2n s.cnt.mode
    else if 0x4620 ≤ off && off < 0x4630 then s.cnt.ovf / 2 ^ (8 * (off - 0x4620)) % 2 ^ 32
    else if 0x4700 ≤ off && off ≤ 0x47F8 then tget 0 s.cnt.bwWin ((off - 0x4700) / 4)
    else if off = 0x5000 then devStatus s
    else if off = 0x5004 then s.page.violations
    else if off = 0x500C then s.page.last
    else if off = 0x5010 then alertCause s
    else if off = 0x5014 then s.page.alertMask
    else match wideValue s (off / 8 * 8) with
      | some v => if off % 8 = 0 then v % 2 ^ 32 else v / 2 ^ 32
      | none => 0

end Sys2Proof.Machine
end

