-- ==== Sys2Proof/Machine/Queue.lean ====
section
/-! DEFINITION. The submission queues: writes, closes, resets, scheduling, the start of a command and of a relay (R382, R387 to R397,
R447, R448). -/

namespace Sys2Proof.Machine

/-! Writes and closes. -/

/-- The pointer copies of a queue are compared now (R390). -/
def pointerWindow (s : State) (q : QueueId) : Bool :=
  (match (qget s q).window with
    | some t => decide (s.now ≤ t)
    | none => false) || s.mode.cur == .maintain || s.swiys.ptrAlways

/-- A queue reset (R391) with its cause; `own` is the RESET_QUEUE of the same queue, whose OK is the first record of the
new epoch (R406). [log 19 DESIGN CHOICE, 22 DESIGN CHOICE] -/
def resetQueue (q : QueueId) (cause : Nat) (own : Option Ref) (s : State) : State :=
  let v := qget s q
  let new := (v.epoch + 1) % 2 ^ 16
  let s1 := qset s q { v with
    epoch := new, waiting := [], openBytes := [], openCount := 0,
    unclosed := satAdd 32 v.unclosed (b2n (v.openCount != 0)),
    resets := satAdd 16 v.resets 1, mismatches := satAdd 16 v.mismatches (b2n (cause == 1)),
    window := some (s.now + secNs) }
  let s2 := match own with
    | some r => complete r stOk [] s1
    | none => s1
  let s3 := v.waiting.foldl (fun t w =>
    emit q ⟨u16 w.bytes 0, u16 w.bytes 2, stFlushed, 0, 0, [], w.sub, true, false⟩ t) s2
  postEv 0x0001 [queueNum q, cause + 2 ^ 16 * v.waiting.length, v.epoch + 2 ^ 16 * new, v.seq] s3

/-- What the check bits and pointer copies find at a line access (R389, R390). [log 21 DEDUCED] -/
def lineCheck (q : QueueId) (err : MemErr) (ok : State → State) (s : State) : State :=
  match err with
  | .clean => ok s
  | .corrected => ok (qupd s q fun v => { v with corrected := satAdd 32 v.corrected 1 })
  | .double => resetQueue q 2 none s
  | .pointer => if pointerWindow s q then resetQueue q 1 none s else ok s

/-- Bytes appended to the open packet; those beyond 4,096 are discarded (R387). -/
def appendOpen (q : QueueId) (l : List Byte) (s : State) : State :=
  qupd s q fun v => { v with openBytes := (v.openBytes ++ l).take 4096, openCount := v.openCount + l.length }

/-- A write of bytes that start a new line finds a free line (R387). -/
def lineRoom (s : State) (q : QueueId) : Bool :=
  let v := qget s q
  v.openCount % 32 != 0 || decide (4096 ≤ v.openCount) || decide (0 < linesFree s q)

/-- A closed packet of the bytes written and the close value L (R382 step 1, R387): submitted, or answered at once. -/
def closePacket (q : QueueId) (len unit : Nat) (s : State) : State :=
  let v := qget s q
  let whole := (len + unit - 1) / unit * unit
  let bytes := v.openBytes.take len
  let s1 := qset s q { v with openBytes := [], openCount := 0 }
  if v.openCount = whole && 16 ≤ len && len ≤ 4096 then
    let s2 := qupd s1 q fun v => { v with waiting := v.waiting ++ [⟨bytes, s.swiys.subCount⟩] }
    { s2 with swiys := { s2.swiys with subCount := (s.swiys.subCount + 1) % 2 ^ 32 } }
  else
    let short := decide (bytes.length < 16)
    let op := if short then 0xFFFF else u16 bytes 0
    let tag := if short then 0xFFFF else u16 bytes 2
    emit q ⟨op, tag, stBadParam, 0, 0, [], s.swiys.subCount, false, false⟩
      (qupd s1 q fun v => { v with framing := satAdd 32 v.framing 1 })

/-- The queues take writes: from READY until CONTROLLER_FAIL (R394). [log 60 DEDUCED] -/
def queuesOpen (s : State) : Bool := s.ctl.ready && !controllerFail s

/-- The offset of a PCIe queue's window in BAR0. -/
def queueBase : QueueId → Nat
  | .q0 => 0x1000
  | .q1 => 0x1400
  | _ => 0x1800

/-- A 32-bit word reaches QDATA of a PCIe queue with a free line or inside a line. -/
def takeWord (q : QueueId) (w : BitVec 32) (err : MemErr) (s : State) : State :=
  lineCheck q err (appendOpen q (le 4 w.toNat)) s

/-! Scheduling (R395 to R397). -/

/-- Submission counts in order, modulo 2^32. -/
def subBefore (a b : Nat) : Bool := decide (0 < (b + 2 ^ 32 - a) % 2 ^ 32) && decide ((b + 2 ^ 32 - a) % 2 ^ 32 < 2 ^ 31)

/-- Bytes of packets in the relay store (R447). -/
def relayStoreUsed (s : State) : Nat := (s.ring.relays.map fun r => r.bytes.length).sum

/-- The response path of a queue is configured (R385, R395). -/
def pathConfigured (s : State) (q : QueueId) : Bool :=
  match q with
  | .q3 | .relay => true
  | _ => (qget s q).ring.sizeLog != 0

/-- The head of a queue waits under ORDERED or FENCE (R396, R397). -/
def headHeld (s : State) (q : QueueId) : Bool :=
  let v := qget s q
  v.fence.isSome || match v.waiting with
    | [] => false
    | w :: _ => (u8 w.bytes 5).testBit 0 && !v.running.isEmpty

/-- The head of a queue is startable (R395). [log 15 DEDUCED] -/
def startable (s : State) (q : QueueId) : Bool :=
  match (qget s q).waiting with
  | [] => false
  | w :: _ => !headHeld s q && pathConfigured s q && canReserve s q
      && (q == .relay || u8 w.bytes 4 == 0 || decide (relayStoreUsed s + w.bytes.length ≤ 524288))

/-- The controller serves the queues (R17, R395). [log 16 DEDUCED] -/
def serving (s : State) : Bool := s.ctl.ready && s.ctl.phase == .running

/-- The queue whose head the controller starts next (R395); the relay FIFO counts as an own Q0 (R449). [log 16 DEDUCED] -/
def chosen (s : State) : Option QueueId :=
  if !serving s then none
  else if s.swiys.sinceQ2 ≥ 16 && startable s .q2 then some .q2
  else if startable s .q0 then some .q0
  else if startable s .relay then some .relay
  else if s.swiys.turnQ3 then
    if startable s .q3 then some .q3 else if startable s .q1 then some .q1 else if startable s .q2 then some .q2 else none
  else if startable s .q1 then some .q1
  else if startable s .q3 then some .q3
  else if startable s .q2 then some .q2
  else none

/-- The turn and the count of starts since the last start of Q2 (R395). -/
def countStart (q : QueueId) (w : Swiys) : Swiys :=
  let w1 := { w with sinceQ2 := if q = .q2 then 0 else min 16 (w.sinceQ2 + 1) }
  match q with
  | .q1 => { w1 with turnQ3 := true }
  | .q3 => { w1 with turnQ3 := false }
  | _ => w1

/-- The head of a queue starts: it leaves the waiting packets, frees its lines and runs. -/
def takeHead (q : QueueId) (w : WaitPk) (s : State) : State :=
  let s1 := qupd s q fun v => { v with
    waiting := v.waiting.drop 1,
    running := v.running ++ [⟨w.sub, u16 w.bytes 0, u16 w.bytes 2, u8 w.bytes 5, false, false⟩] }
  let s2 := { s1 with swiys := countStart q s1.swiys }
  if q = .relay then s2 else countSrc 0x0D (queueNum q) 1 s2

/-! Relays of the manager (R447, R448). -/

/-- A worker is reachable in a direction: the link is UP and its STATUS is at most 30 ms old (R447). [log 164 DEDUCED] -/
def reachable (s : State) (w : Nat) (p : Port) : Bool :=
  let r := portGet s p
  r.state == .up && (tget 0 r.heard w != 0) && decide (s.now + 1 ≤ tget 0 r.heard w + 30 * msNs)

/-- A worker is reachable in neither direction. [log 164 DEDUCED] -/
def unreachable (s : State) (w : Nat) : Bool := !reachable s w .east && !reachable s w .west

/-- The direction of the first copy of a relay (R447). [log 172 DEDUCED] -/
def firstDir (s : State) (w : Nat) (any : Bool) : Port :=
  let e := reachable s w .east
  let v := reachable s w .west
  if e && v then
    if any then (if (portGet s .west).waiting.length < (portGet s .east).waiting.length then .west else .east)
    else if tget 0 (portGet s .west).hops w < tget 0 (portGet s .east).hops w then .west else .east
  else if v then .west else .east

/-- The 8-byte result of UNREACHABLE and OUTCOME_UNKNOWN (R448). [log 163 DEDUCED] -/
def relayResult (s : State) (r : Relay) : List Byte := le 2 r.tag ++ le 2 s.ring.epoch ++ le 1 r.worker ++ le 1 r.copies ++ le 2 0

/-- A copy of a relay is sent in a direction (R447, R448). -/
def sendCopy (p : Port) (w tag : Nat) (s : State) : State :=
  match s.ring.relays.find? (fun r => r.worker == w && r.tag == tag) with
  | none => s
  | some r =>
    let s1 := { s with ring := { s.ring with relays := s.ring.relays.map fun x =>
      if x.worker = w && x.tag = tag then { x with copies := x.copies + 1, lastDir := p, nextAt := some (s.now + 2 * msNs) } else x } }
    sendMsg p (mkMsg s1 0x10 w tag r.bytes) s1

/-- The manager holds back a new REQUEST until the previous one of the worker has its RECEIPT (R447). -/
def relayHeld (s : State) (w : Nat) : Bool := s.ring.relays.any fun r => r.worker == w && !r.receipt

/-- A member of a protection pair has answered (R463): the command completes with its last answer, OK or the first other
status. -/
def pairAnswer (k w st : Nat) (s : State) : State :=
  match s.ring.pairJobs.find? (fun j => j.pair == k && j.await.contains w) with
  | none => s
  | some j =>
    let j1 := { j with await := j.await.filter (· != w), status := if j.status = stOk then st else j.status }
    let rest := s.ring.pairJobs.filter fun x => x.ref != j.ref
    if j1.await.isEmpty then complete j.ref j1.status [] { s with ring := { s.ring with pairJobs := rest } }
    else { s with ring := { s.ring with pairJobs := rest ++ [j1] } }

/-- A relay has its final status (R448): the record of the host's packet, or the answer of a member of a pair. -/
def relayAnswer (r : Relay) (st : Nat) (res : List Byte) (s : State) : State :=
  match r.pair with
  | some k => pairAnswer k r.worker st s
  | none => completeFrom r.worker r.ref st res s

/-- A packet for a worker starts (R383, R447, R448): it is answered at once, or stored with the next relay tag and its
first copy sent. [log 164 DEDUCED] -/
def relayStart (w : Nat) (bytes : List Byte) (ref : Ref) (pair : Option Nat) (s : State) : State :=
  let k := tget {} s.ring.workers w
  let heard := tget 0 (portGet s .east).heard w != 0 || tget 0 (portGet s .west).heard w != 0
  let any := (u8 bytes 5).testBit 2
  let r : Relay := { worker := w, tag := k.nextTag, ref := ref, bytes := bytes, anyDir := any, copies := 0, lastDir := .east,
                     nextAt := none, receipt := false, interim := false, pair := pair }
  let dead := match k.goneAt with
    | some t => unreachable s w && decide (t + 50 * msNs ≤ s.now)
    | none => false
  if s.ring.conflict.isSome || dead then relayAnswer r stUnreachable (relayResult s r) s
  else if heard && !k.ready then relayAnswer r stNotReady [] s
  else
    let heldBack := relayHeld s w
    let gone := unreachable s w
    let k1 := { k with nextTag := (k.nextTag + 1) % 2 ^ 16, goneAt := if gone then some (k.goneAt.getD s.now) else none }
    let r1 := { r with nextAt := if gone then some (s.now + 2 * msNs) else none }
    let s1 := { s with ring := { s.ring with workers := tset {} s.ring.workers w k1, relays := s.ring.relays ++ [r1] } }
    if heldBack || gone then s1 else sendCopy (firstDir s w any) w r.tag s1

/-! The start of a command. -/

/-- The commands that R488 answers NOT_READY while an activation runs. -/
def heldByActivation (op : Nat) : Bool :=
  op == 0x0101 || op == 0x0102 || op == 0x0411 || op == 0x0704 || op == 0x0A05 || (op / 256 == 0x0D && op != 0x0D05)

/-- What R486 and R488 answer before a command's own checks: in RECOVERY only groups 0x00 and 0x0D are served. -/
def gateStatus (op : Nat) (s : State) : Nat :=
  firstBad [
    (s.fw.recovery && op / 256 != 0 && op / 256 != 0x0D, stBadState),
    (s.fw.activation.isSome && heldByActivation op, stNotReady)]

/-- What a started command answers is written: its ACCEPTED first, then its final record where it is known. -/
def answer (ref : Ref) (r : Res) : State :=
  let s1 := if r.accepted then acceptFrom 0 ref r.s else r.s
  match r.final with
  | some (st, res) => complete ref st res s1
  | none => s1

/-- A started command of this device: the checks of step 7 of R382, then its effect (R17: one commit). [log 7 DESIGN CHOICE] -/
def runCommand (op : Nat) (check : Ctx → State → Nat) (run : Ctx → State → Res) (c : Ctx) (s : State) : State :=
  let st := firstBad [(gateStatus op s != stOk, gateStatus op s), (check c s != stOk, check c s)]
  if st = stOk then answer c.ref (run c s) else complete c.ref st [] s

/-- A started packet that fails a header check is answered with the status of the failing step (R382), and counted (R405). -/
def refuseHeader (ref : Ref) (w : WaitPk) (st : Nat) (s : State) : State :=
  complete ref st [] (qupd s ref.queue fun v => { v with
    badCrc := satAdd 32 v.badCrc (b2n (st == stBadCrc)),
    framing := satAdd 32 v.framing (b2n (st == stBadParam && 16 + u16 w.bytes 6 != w.bytes.length)) })

/-- The head packet of a queue starts as the command `op`; a packet of the relay FIFO made steps 1 to 6 at the manager (R383). [log 7 DESIGN CHOICE] -/
def startCommand (op : Nat) (check : Ctx → State → Nat) (run : Ctx → State → Res) (pk : Packet) (w : WaitPk) (s : State) : State :=
  let ref : Ref := ⟨pk.queue, w.sub⟩
  let s1 := takeHead pk.queue w s
  let st := if pk.queue = .relay then stOk else headerStatus w.bytes s1
  if st != stOk then refuseHeader ref w st s1
  else if pk.queue != .relay && pk.target != 0 then relayStart pk.target w.bytes ref none s1
  else runCommand op check run ⟨pk, ref⟩ s1

/-- The words that a folded submission writes to QDATA and QEND, for the count of R394. -/
def submitWrites (n : Nat) : Nat := (n + 3) / 4 + 1

/-- A packet that is not yet in its queue is submitted whole (R387): discarded where the queues are closed (R394), not
taken where no line is free (R388), answered at once where step 1 of R382 fails. -/
def submit (q : QueueId) (bytes : List Byte) (s : State) : State :=
  if !queuesOpen s then
    if q = .q3 || q = .relay then s
    else (List.range (submitWrites bytes.length)).foldl (fun t _ => violation (queueBase q + 0x100 + 131072) t) s
  else if (qget s q).openCount != 0 then s
  else if linesFor bytes.length ≤ linesFree s q then
    closePacket q bytes.length 1 (appendOpen q bytes s)
  else s

/-- A command packet reaches the front of the block's input: it is submitted unless it already waits, and it starts when
the controller chooses it (R395). [log 6 DEDUCED, 7 DESIGN CHOICE] -/
def serve (op : Nat) (check : Ctx → State → Nat) (run : Ctx → State → Res) (pk : Packet) (s : State) : State :=
  let bytes := packetBytes op pk
  let s1 := if (qget s pk.queue).waiting.any (fun w => w.bytes == bytes) || pk.queue = .relay then s else submit pk.queue bytes s
  match (qget s1 pk.queue).waiting with
  | [] => s1
  | w :: _ =>
    if chosen s1 = some pk.queue && w.bytes == bytes then startCommand op check run pk w s1 else s1

end Sys2Proof.Machine
end

