-- ==== Sys2Proof/Machine/Tables.lean ====
section
/-! DEFINITION. What many chapters read: the domains and rails of a carrier or quad, the line calendars and the container sizes, the
lookups of tenants and clients, and the common gate of commands (R21, R209, R227, R228, R470). -/

namespace Sys2Proof.Machine

/-- The common refusals of a command group: BAD_STATE in DORMANT, BUSY during a mode transition. -/
def modeGate (s : State) : List (Bool × Nat) := [(s.mode.cur == .dormant, stBadState), (s.mode.trans.isSome, stBusy)]

/-- A check of R382 step 7: shape, then the common gate, then the fields and the remaining state. [log 14 DEDUCED] -/
def gated (s : State) (bad : Bool) (l : List (Bool × Nat)) : Nat := firstBad ((bad, stBadParam) :: (modeGate s ++ l))

/-- The ADC domain of a carrier: PD03 or PD08; DAC, RXDSP, TXDSP and FEC follow it. -/
def adcDom (c : Carrier) : Nat := match c with | .a => 3 | .b => 8
/-- The DAC domain of a carrier. -/
def dacDom (c : Carrier) : Nat := adcDom c + 1
/-- The RXDSP domain of a carrier, where every stage of its receive DSP lies (R97). -/
def rxdspDom (c : Carrier) : Nat := adcDom c + 2
/-- The TXDSP domain of a carrier. -/
def txdspDom (c : Carrier) : Nat := adcDom c + 3
/-- The FEC domain of a carrier. -/
def fecDom (c : Carrier) : Nat := adcDom c + 4
/-- The five domains of a Spire. -/
def spireDoms (c : Carrier) : List Nat := (List.range 5).map (adcDom c + ·)
/-- The domain of a quad. -/
def quadDom (q : Nat) : Nat := 13 + q

/-- The rails that feed a domain (R470). -/
def railsOf (d : Nat) : List Nat :=
  if d = 0 then [0, 1, 2]
  else if d = 3 || d = 4 then [3, 4]
  else if d = 8 || d = 9 then [3, 5]
  else if (13 ≤ d && d ≤ 22) || d = 31 then [3, 6]
  else if d = 23 || d = 24 then [3, 7, 8]
  else [3]

/-- RAIL_WARN is raised on a rail that feeds a domain. -/
def domWarn (s : State) (d : Nat) : Bool := (railsOf d).any (railWarn s)

/-- RAIL_WARN is raised on a rail that feeds a Spire. -/
def spireWarn (s : State) (c : Carrier) : Bool := (spireDoms c).any (domWarn s)

/-- The Spire of a carrier. -/
def spireGet (s : State) (c : Carrier) : Spire := pget s.spire c

/-- The state with the Spire of a carrier updated. -/
def spireUpd (c : Carrier) (f : Spire → Spire) (s : State) : State := { s with spire := pupd s.spire c f }

/-- FEC and framer of a carrier. -/
def lineGet (s : State) (c : Carrier) : LineSt := pget s.line c

/-- The state with the FEC of a carrier updated. -/
def fecUpd (c : Carrier) (f : Fec → Fec) (s : State) : State :=
  { s with line := pupd s.line c fun l => { l with fec := f l.fec } }

/-- The state with the framer of a carrier updated. -/
def frmUpd (c : Carrier) (f : Frm → Frm) (s : State) : State :=
  { s with line := pupd s.line c fun l => { l with frm := f l.frm } }

/-- The plan of a carrier as written (R41). -/
def planOf (s : State) (c : Carrier) : CarrierPlan := pget s.plan.car c

/-! Line calendars (R209, R227, R228). -/

/-- USED of a calendar entry. -/
def entryUsed (e : Nat) : Bool := e.testBit 15

/-- TEN of a calendar entry. -/
def entryTen (e : Nat) : Nat := e % 1024

/-- A calendar buffer of a carrier. -/
def calBuf (s : State) (c : Carrier) (i : Nat) : Tbl Nat := if i = 0 then pget s.cal.t0 c else pget s.cal.t1 c

/-- The table that the transmitter of a carrier uses. -/
def txTable (s : State) (c : Carrier) : Tbl Nat := calBuf s c (pget s.cal.tx c)

/-- The table that the receiver of a carrier uses. -/
def rxTable (s : State) (c : Carrier) : Tbl Nat := calBuf s c (pget s.cal.rx c)

/-- An accepted swap names a carrier. -/
def swapNames (s : State) (c : Carrier) : Bool :=
  match s.cal.swap with
  | none => false
  | some w => match c with | .a => w.carA | .b => w.carB

/-- The transmit table of a carrier after the announced swap, or the one in use. -/
def nextTable (s : State) (c : Carrier) : Tbl Nat :=
  if swapNames s c then calBuf s c (1 - pget s.cal.tx c) else txTable s c

/-- The slots of a tenant in a table, in ascending index. -/
def slotsOf (t : Tbl Nat) (ten : Nat) : List Nat :=
  (t.filter fun e => entryUsed e.2 && entryTen e.2 == ten).map (·.1)

/-- The number of slots of a tenant in a table. -/
def slotCount (t : Tbl Nat) (ten : Nat) : Nat := (slotsOf t ten).length

/-- The carriers whose calendars are in use: in MERGE carrier B carries the copy, in REGENERATE containers pass unopened
(R228). -/
def calCarriers (s : State) : List Carrier :=
  match s.mode.cur with
  | .merge => [.a]
  | .regenerate => []
  | _ => [.a, .b]

/-- Container size of a tenant in the transmit tables in use (R209). -/
def sizeTx (s : State) (ten : Nat) : Nat := ((calCarriers s).map fun c => slotCount (txTable s c) ten).sum

/-- Container size of a tenant in the receive tables in use. -/
def sizeRx (s : State) (ten : Nat) : Nat := ((calCarriers s).map fun c => slotCount (rxTable s c) ten).sum

/-- Container size of a tenant after the announced swap. -/
def sizeNext (s : State) (ten : Nat) : Nat := ((calCarriers s).map fun c => slotCount (nextTable s c) ten).sum

/-- The tenant holds a slot in an active or an announced line calendar (R195, R204). [log 112 DEDUCED] -/
def holdsSlot (s : State) (ten : Nat) : Bool := sizeTx s ten != 0 || sizeRx s ten != 0 || sizeNext s ten != 0

/-- The tenants of a table. -/
def tenantsOf (t : Tbl Nat) : List Nat :=
  (t.filter fun e => entryUsed e.2).foldl (fun l e => if l.contains (entryTen e.2) then l else l ++ [entryTen e.2]) []

/-! Tenants and clients. -/

/-- The mapping of a tenant. -/
def tenGet (s : State) (t : Nat) : Tenant := tget {} s.ten t

/-- The state with a tenant's mapping updated. -/
def tenUpd (t : Nat) (f : Tenant → Tenant) (s : State) : State := { s with ten := tupd {} s.ten t f }

/-- The client of a tenant. -/
def clientOf (s : State) (t : Nat) : Client := tget {} s.host.clients t

/-- The tenants whose client satisfies a condition. -/
def clientsWhere (s : State) (p : Client → Bool) : List Nat := (s.host.clients.filter fun e => p e.2).map (·.1)

/-- A PHY by its first lane. -/
def phyOf (s : State) (l : Nat) : Phy := tget {} s.host.phys l

/-- A group. -/
def groupOf (s : State) (g : Nat) : FlexGroup := s.host.groups.getD g {}

/-- The state with a group updated. -/
def groupUpd (g : Nat) (f : FlexGroup → FlexGroup) (s : State) : State :=
  { s with host := { s.host with groups := lupd s.host.groups g f } }

/-- The calendar in use of a group. -/
def calInUse (g : FlexGroup) : List Nat := if g.inUse = 0 then g.calA else g.calB

/-- Slots of a client ID in a FlexE calendar. -/
def calSlots (cal : List Nat) (id : Nat) : Nat := (cal.filter (· == id)).length

/-- FlexE calendar slots that a tenant's client holds in the calendar in use; 0 for an Ethernet client. -/
def clientSlots (s : State) (t : Nat) : Nat :=
  let c := clientOf s t
  if c.kind = 2 then calSlots (calInUse (groupOf s c.place)) c.id else 0

/-- Tributary slots of an Ethernet client by PHY type (R214). -/
def ethernetSlots (type : Nat) : Nat := 20 * 2 ^ type

/-! Performance monitoring hooks (R263 to R274). -/

/-- The number of a tenant as a monitored entity. -/
def pmTen (t : Nat) : Nat := 2 + t

/-- The running second of an entity counts. Counting stands still while frozen (R277). -/
def pmCount (e : Nat) (f : PmAcc → PmAcc) (s : State) : State :=
  if s.pm.frozen then s
  else { s with pm := { s.pm with ents := tupd {} s.pm.ents e fun x => { x with acc := f x.acc } } }

/-- An entity stops being active within the running second (R263). -/
def pmDrop (e : Nat) (s : State) : State :=
  { s with pm := { s.pm with ents := tupd {} s.pm.ents e fun x => { x with acc := { x.acc with whole := false } } } }

/-- The carrier is not LOCKED and aligned throughout the running second (R280). -/
def pmSpoil (c : Carrier) (s : State) : State :=
  { s with pm := { s.pm with ents := tupd {} s.pm.ents (carrierNum c) fun x => { x with acc := { x.acc with spoiled := true } } } }

end Sys2Proof.Machine
end

