-- ==== Sys2Proof/Machine/HostOps.lean ====
section
/-! DEFINITION. The shared operations of the host side: lane adaptation, host-fail sets and their events (R182 to R199). -/

namespace Sys2Proof.Machine

/-! Lanes. -/

/-- A host lane. -/
def laneGet (s : State) (l : Nat) : HostLane := s.host.lanes.getD l {}

/-- The state with a lane updated. -/
def laneUpd (l : Nat) (f : HostLane → HostLane) (s : State) : State :=
  { s with host := { s.host with lanes := lupd s.host.lanes l f } }

/-- A quad. -/
def quadGet (s : State) (q : Nat) : Quad := s.host.quads.getD q {}

/-- The lane is enabled in its quad. -/
def laneEnabled (s : State) (l : Nat) : Bool := (quadGet s (l / 4)).enable.testBit (l % 4)

/-- The PHY that holds a lane, by its first lane. -/
def phyAt (s : State) (l : Nat) : Option Nat :=
  (s.host.phys.find? fun e => decide (e.1 ≤ l) && decide (l < e.1 + e.2.lanes)).map (·.1)

/-- HL_LOL of a lane: its CDR is unlocked or its foreground adaptation runs (R182, R196). -/
def laneLol (h : HostLane) : Bool := h.cdrLol || h.adapt == .foreground

/-- The group that a PHY belongs to. -/
def groupOfPhy (s : State) (p : Nat) : Option Nat :=
  (List.range 16).find? fun g => (groupOf s g).phys.any fun m => m.1 == p

/-- The defects declared on a PHY in the bit order of R208; lane defects count for the PHY (R197). [log 99 DEDUCED] -/
def phyDeclared (s : State) (p : Nat) : Nat :=
  let k := phyOf s p
  let ls := (List.range k.lanes).map fun i => laneGet s (p + i)
  b2n (ls.any (·.los)) + 2 * b2n (ls.any laneLol) + k.declared

/-- The lowest set bit of a mask, alone: the defect of highest rank (R197). -/
def topRank (m : Nat) : Nat :=
  match (List.range 7).find? (fun i => m.testBit i) with
  | some i => 2 ^ i
  | none => 0

/-- The defects reported on a PHY: its host-fail set (R197). -/
def phyReported (s : State) (p : Nat) : Nat := topRank (phyDeclared s p)

/-- A PHY is in host-fail. -/
def phyFail (s : State) (p : Nat) : Bool := phyReported s p != 0

/-- A group is in host-fail (R197). -/
def groupFail (s : State) (g : Nat) : Bool := (groupOf s g).loa || (groupOf s g).phys.any fun m => phyFail s m.1

/-- A client's PHY or group is in host-fail. -/
def clientFail (s : State) (t : Nat) : Bool :=
  let c := clientOf s t
  if c.kind = 1 then phyFail s c.place else if c.kind = 2 then groupFail s c.place else false

/-- The client stream toward the line is replaced by local fault, and CSF is signalled (R198). -/
def replacedToLine (s : State) (t : Nat) : Bool := clientFail s t || (clientOf s t).calMis

/-- A tenant is the member of a protection pair that is not selected (R455, R456). -/
def protectHeld (s : State) (t : Nat) : Bool :=
  s.ring.pairs.any fun e => e.2.held &&
    ((e.2.wDev == ringSelf s && e.2.wTenant == t && e.2.selP) || (e.2.pDev == ringSelf s && e.2.pTenant == t && !e.2.selP))

/-- The egress stream toward the host is replaced by local fault (R198, R226, R455). -/
def localFaultToHost (s : State) (t : Nat) : Bool := (tenGet s t).rx.replacing || protectHeld s t

/-- The egress stream toward the host is replaced by remote fault (R198). -/
def remoteFaultToHost (s : State) (t : Nat) : Bool :=
  clientFail s t && (clientOf s t).rfInsert && !localFaultToHost s t

/-- The state with a PHY updated. -/
def phyUpd (p : Nat) (f : Phy → Phy) (s : State) : State := { s with host := { s.host with phys := tupd {} s.host.phys p f } }

/-- One bit of a PAM4 symbol flipped, the manual leaves open which. [log 179 DESIGN CHOICE] -/
def flipLevel (second : Bool) (v : Nat) : Nat :=
  match levelBits v with
  | a :: b :: _ => grayLevel (a != !second) (b != second)
  | _ => v

/-- Levels of a lane with its injection (R529): one bit of the next symbol, and one bit in every 2^k. -/
def injectLane : List Nat → LanePat → List Nat × LanePat
  | [], p => ([], p)
  | v :: r, p =>
    let n := if p.rateInj then p.cnt + 2 else 0
    let hit := p.rateInj && decide (2 ^ p.k ≤ n)
    let t := injectLane r { p with single := false, cnt := if hit then n - 2 ^ p.k else n }
    ((if p.single || hit then flipLevel (Config.freeBool 529 p.cnt) v else v) :: t.1, t.2)

/-- An Ethernet PHY takes blocks of its client's stream, with the client's clock: codewords with their markers leave over its lanes (R187, R190), polarity and precoding
as set, the phase interpolators within 2,000 ppm (R180); a lane in HOST_REMOTE sends what it receives (R523). -/
def phySend (p : Nat) (blocks : List (List Bool)) (offset : Int) (s : State) : State :=
  let k := phyOf s p
  if k.kind != 1 || !domOn s (quadDom (p / 4)) then s
  else
    let all := k.tx.blocks ++ blocks
    let r := sendCodewords k.type all.length all k.tx.cw
    let sent := (overLanes k.type k.lanes r.1).zipIdx.map fun e =>
      let q := quadGet s ((p + e.2) / 4)
      sendLevels (q.precode.testBit (4 + (p + e.2) % 4)) (q.polarity.testBit (4 + (p + e.2) % 4)) (k.tx.last.getD e.2 0) e.1
    let inj := sent.zipIdx.map fun e => injectLane e.1.1 (tget {} s.test.lanes (p + e.2))
    let out (i : Nat) (l : List Nat) : List Nat := if tget 0 s.test.laneLoop (p + i) = 4 then k.tx.out.getD i [] else l
    let s1 := { s with test := { s.test with lanes := inj.zipIdx.foldl (fun m e => tset {} m (p + e.2) e.1.2) s.test.lanes } }
    phyUpd p (fun k => { k with tx := {
      fault := false, blocks := r.2.1, cw := r.2.2, offset := clampInt (-2000000000) 2000000000 offset
      out := if r.1.isEmpty then k.tx.out else inj.zipIdx.map fun e => out e.2 e.1.1
      last := if r.1.isEmpty then k.tx.last else sent.map (·.2) } }) s1

/-- The overhead that a FlexE PHY sends (R191, R193, R198): its calendar in use and the announced one, CR, CA, remote PHY fault while its own
receive is in host-fail; ESMC messages leave by rows of their own. [log 242 DEDUCED] -/
def flexeOut (s : State) (p : Nat) : Option FlexeOh :=
  (groupOfPhy s p).map fun i =>
    let g := groupOf s i
    { c := g.inUse == 1, cr := g.switch.isSome, ca := g.caOut, idOk := true, ok := true, rpf := phyFail s p, ssm := none
      cal := some (if (g.inUse == 0) == g.switch.isSome then g.calB else g.calA) }

/-- The PHYs of a group send the overhead that follows from its state. -/
def sendOverhead (g : Nat) (s : State) : State :=
  (groupOf s g).phys.foldl (fun t m => phyUpd m.1 (fun k => { k with ohOut := flexeOut s m.1 }) t) s

/-- The PHY of a tenant's Ethernet client carries no stream: markers and FEC around local fault (R187). -/
def phyIdle (t : Nat) (s : State) : State :=
  let c := clientOf s t
  if c.kind != 1 || (phyOf s c.place).kind = 0 then s else phyUpd c.place (fun k => { k with tx := {} }) s

/-- HOST_DEFECT is posted for a PHY whose masks changed (R197). [log 99 DEDUCED] -/
def notePhy (p : Nat) (s : State) : State :=
  let k := phyOf s p
  let d := phyDeclared s p
  let r := topRank d
  if k.kind = 0 || (d = k.posted && r = k.postedRep) then s
  else postEv 0x0E01 [p, d, r] { s with host := { s.host with phys := tset {} s.host.phys p { k with posted := d, postedRep := r } } }

/-- HOST_DEFECT is posted for the PHY of a lane whose masks changed. [log 99 DEDUCED] -/
def noteLane (l : Nat) (s : State) : State :=
  match phyAt s l with
  | some p => notePhy p s
  | none => s

/-- The recovered clock of a tap is valid: its lane has neither HL_LOS nor HL_LOL (R199). -/
def rclkValid (s : State) (i : Nat) : Bool :=
  match s.host.rclk.getD i none with
  | none => false
  | some (q, l) =>
    let h := laneGet s (4 * q + l)
    domOn s (quadDom q) && laneEnabled s (4 * q + l) && !h.los && !laneLol h

/-- The number of values of an adaptation item (R183). -/
def laneItemSize : Nat → Nat
  | 0 => 1
  | 1 => 12
  | 2 => 1
  | 3 => 1
  | 4 => 3
  | _ => 0

/-- The keys of the values of an item. -/
def laneKeys (item : Nat) : List Nat := (List.range (laneItemSize item)).map (16 * item + ·)

/-- A value lies within the absolute bound of its item (R183); the place of the main tap is open. [log 97 DEDUCED] -/
def laneInBound (item i : Nat) (v : Int) : Bool :=
  match item with
  | 0 => decide (0 ≤ v) && decide (v ≤ 48)
  | 1 => if i = Config.mainTap.val then decide (128 ≤ v) && decide (v ≤ 256) else decide (-128 ≤ v) && decide (v ≤ 128)
  | 2 => decide (0 ≤ v) && decide (5 * v ≤ 768)
  | 3 => decide (-32 ≤ v) && decide (v ≤ 32)
  | _ => decide (-100 ≤ v) && decide (v ≤ 100)

/-- The per-update limit of an item (R183). [log 97 DEDUCED] -/
def laneStep : Nat → Nat
  | 0 => 2
  | 1 => 2
  | 2 => 5
  | 3 => 2
  | _ => 5

/-- The key of the kept values of a quad's rate and interface. [log 98 DESIGN CHOICE] -/
def keptBase (q : Quad) : Nat := 1024 * (2 * q.rate + q.iface)

/-- HL_CAL_STUCK follows the stuck mask of a lane (R183): raised at a newly set bit, cleared when the mask empties. -/
def noteStuck (l old : Nat) (s : State) : State :=
  let m := (laneGet s l).track.stuck
  if m = old then s
  else if m = 0 then post 0x0E02 false [l, 0] s
  else if (List.range 5).any (fun i => m.testBit i && !old.testBit i) then post 0x0E02 true [l, m] s
  else s

/-- A lane may adapt: enabled, its quad powered and set to a rate (R182). -/
def laneRuns (s : State) (l : Nat) : Bool :=
  let q := quadGet s (l / 4)
  domOn s (quadDom (l / 4)) && q.rate != 0 && q.enable.testBit (l % 4)

/-- The foreground adaptation of a lane starts from the values kept for its rate and interface, else from defaults. -/
def startLane (l : Nat) (s : State) : State :=
  let q := quadGet s (l / 4)
  laneUpd l (fun h => { h with
    adapt := .foreground, fgEnd := some (s.now + 20 * msNs),
    vals := (h.kept.filter fun e => keptBase q ≤ e.1 && e.1 < keptBase q + 1024).map fun e => (e.1 - keptBase q, e.2),
    next := [], old := [], lastMse := none, spoiled := false }) s

/-- A lane that no longer runs stops its adaptation and declares nothing. -/
def stopLane (l : Nat) (s : State) : State :=
  laneUpd l (fun h => { h with adapt := .off, fgEnd := none, vals := [], next := [], old := [], lastMse := none,
                               los := false, cdrLol := false, spoiled := false }) s

/-- A lane starts or stops as its quad and its settings ask; `force` restarts it. -/
def settleLane (force : Bool) (s : State) (l : Nat) : State :=
  if laneRuns s l then (if (laneGet s l).adapt == .off || force then startLane l s else s)
  else if (laneGet s l).adapt == .off then s else stopLane l s

/-- The lanes of a quad start or stop, and the defects follow (R182, R468 step 5). -/
def settleQuad (q : Nat) (force : Bool) (s : State) : State :=
  let ls := (List.range 4).map (4 * q + ·)
  ls.foldl (fun t l => noteLane l t) (ls.foldl (settleLane force) s)

/-- Every running window of the lanes of a quad is spoiled (R182). -/
def spoilQuad (q : Nat) (s : State) : State :=
  ((List.range 4).map (4 * q + ·)).foldl (fun t l => laneUpd l (fun h => { h with spoiled := true }) t) s

/-- The lanes of a PHY are spoiled when a defect is declared on the lane or PHY_LOA on its PHY. -/
def spoilPhy (p : Nat) (s : State) : State :=
  (List.range (phyOf s p).lanes).foldl (fun t i => laneUpd (p + i) (fun h => { h with spoiled := true }) t) s

/-- A switch of a FlexE calendar ends without change (R193): its completion carries `st`. [log 102 DEDUCED] -/
def endSwitch (g st : Nat) (s : State) : State :=
  match (groupOf s g).switch with
  | none => s
  | some w => complete w.ref st [] (sendOverhead g (groupUpd g (fun x => { x with switch := none }) s))

end Sys2Proof.Machine
end

