-- ==== Sys2Proof/Machine/Defects.lean ====
section
/-! DEFINITION. The line defects of a carrier, declared and reported, and what many chapters ask of a carrier or a tenant (R167, R169,
R170, R222). -/

namespace Sys2Proof.Machine

/-- The receive domains of a carrier are ON (R167). -/
def rxPowered (s : State) (c : Carrier) : Bool := domOn s (adcDom c) && domOn s (rxdspDom c)

/-- The acquisition machine of a carrier is LOCKED. -/
def lockedOn (s : State) (c : Carrier) : Bool := (spireGet s c).acq.state == .locked

/-- The decoder of a carrier is aligned. -/
def alignedOn (s : State) (c : Carrier) : Bool := (lineGet s c).fec.aligned

/-- The declared defects of a carrier as a mask (R167, R177). -/
def declaredMask (s : State) (c : Carrier) : Nat :=
  if !rxPowered s c then 0
  else
    let l := lineGet s c
    b2n l.frm.los + 2 * b2n (spireGet s c).acq.loc + 4 * b2n (l.frm.align != .sync) + 8 * b2n l.frm.lom
      + 16 * b2n l.fec.fail + 32 * b2n l.fec.deg

/-- The reported set of a carrier, as last evaluated (R169). -/
def reportedMask (s : State) (c : Carrier) : Nat := (lineGet s c).frm.reported

/-- A line-fail defect is reported on a carrier (R169). -/
def lineFailOn (s : State) (c : Carrier) : Bool := reportedMask s c % 32 != 0

/-- FEC-DEG is reported on a carrier. -/
def fecDegOn (s : State) (c : Carrier) : Bool := reportedMask s c == 32

/-- RDI is raised on a carrier (R172). -/
def rdiOn (s : State) (c : Carrier) : Bool := (lineGet s c).frm.rdi.on

/-- FDI_RX is raised on a carrier (R171). -/
def fdiOn (s : State) (c : Carrier) : Bool := (lineGet s c).frm.fdi.on

/-- The framer of a carrier is in SYNC. -/
def syncOn (s : State) (c : Carrier) : Bool := (lineGet s c).frm.align == .sync

/-- The timing of a carrier is in TRACK (R75). -/
def trackOn (s : State) (c : Carrier) : Bool := (spireGet s c).rx.timing == .track && rxPowered s c

/-- A carrier counts as locked for its neighbour's cross taps (R112). -/
def soundNeighbour (s : State) (n : Carrier) : Bool :=
  lockedOn s n && !(lineGet s n).frm.los && !(spireGet s n).acq.loc && syncOn s n && domOn s (rxdspDom n) && !s.plan.err
    && decide ((spireGet s (otherCarrier n)).eq.parityMs < 16)

/-- Each Spire notes since when its neighbour has been locked without a break (R112). -/
def noteNeighbour (c : Carrier) (s : State) : State :=
  spireUpd c (fun x => { x with eq := { x.eq with
    nbLockedAt := if soundNeighbour s (otherCarrier c) then some (x.eq.nbLockedAt.getD s.now) else none } }) s

/-- Both Spires note their neighbours. -/
def noteNeighbours (s : State) : State := noteNeighbour .b (noteNeighbour .a s)

end Sys2Proof.Machine
end

