-- ==== Sys2Proof/Machine/JournalOps.lean ====
section
/-! DEFINITION. The queue of journal records that wait to be written (R482, R483). -/

namespace Sys2Proof.Machine

/-- Type BOOT. -/
abbrev jBoot : Nat := 1
/-- Type DOME_REMAP. -/
abbrev jDomeRemap : Nat := 2
/-- Type SRAM_REMAP. -/
abbrev jSramRemap : Nat := 3
/-- Type BELFRY. -/
abbrev jBelfry : Nat := 4
/-- Type RING. -/
abbrev jRing : Nat := 5

/-- A record joins the queue of 64; a newer record of the same type and key replaces the older one (R483). [log 55 DEDUCED] -/
def journalAdd (type key : Nat) (body : List Byte) (ref : Option Ref) (s : State) : State :=
  let keep := s.journal.pending.filter fun p => !(p.type == type && p.key == key)
  if keep.length < 64 || ref.isSome then { s with journal := { s.journal with pending := keep ++ [⟨type, key, body, ref⟩] } }
  else { s with journal := { s.journal with pending := keep } }

/-- The body that the journal holds for a type and key: the kept winner of R484. -/
def journalBody (s : State) (type key : Nat) : Option (List Byte) :=
  (s.journal.kept.find? fun r => r.type == type && r.key == key).map (·.body)

end Sys2Proof.Machine
end

