-- ==== Sys2Proof/Machine/Drbg.lean ====
section
/-! DEFINITION. The health tests of the TRNG (R309) and the AES-256 CTR_DRBG with derivation function (R310, SP 800-90A and SP 800-90B). -/

namespace Sys2Proof.Machine

/-! Health tests. -/

/-- One raw sample: the repetition count, and the window of the adaptive proportion test, which begins again after 1,024 samples (R309). [log 238 PRESUMED] -/
def noiseStep (b : Bool) (t : NoiseTest) : NoiseTest :=
  let run := if t.run != 0 && b == t.last then t.run + 1 else 1
  if t.seen = 0 || t.seen = 1024 then { last := b, run := run, ref := b, seen := 1, hits := 1 }
  else { t with last := b, run := run, seen := t.seen + 1, hits := if b == t.ref then t.hits + 1 else t.hits }

/-- A test has reached its cutoff: 41 repetitions, 795 equal samples of a window (R309). -/
def noiseBad (t : NoiseTest) : Bool := decide (41 ≤ t.run) || decide (795 ≤ t.hits)

/-- The tests over samples: where they stand, and whether one of them failed. -/
def noiseRun : List Bool → NoiseTest → NoiseTest × Bool
  | [], t => (t, false)
  | b :: r, t => if noiseBad (noiseStep b t) then ({}, true) else noiseRun r (noiseStep b t)

/-- The start-up tests pass: 1,024 samples fail neither test (R309). -/
def startupOk (l : List Bool) : Bool := decide (1024 ≤ l.length) && !(noiseRun (l.take 1024) {}).2

/-! Conditioning and the DRBG. -/

/-- One conditioned output of 128 bits from 512 raw samples, 64 bytes (R309). [log 238 PRESUMED] -/
def conditioned (raw : List Byte) : List Byte := cbcMac (aesKeys ((List.range 32).map Config.conditionKey)) (slice raw 0 64)

/-- The inputs of a seed (R310): 256 bits of entropy input and a nonce of 128 bits, from 1,536 raw samples. -/
def seedInput (raw : List Byte) : List Byte := conditioned raw ++ conditioned (raw.drop 64) ++ conditioned (raw.drop 128)

/-- The derivation function of SP 800-90A to 48 bytes. [log 238 PRESUMED] -/
def blockDf (input : List Byte) : List Byte :=
  let s := padTo 16 (be 4 input.length ++ be 4 48 ++ input ++ [0x80#8])
  let ks := aesKeys ((List.range 32).map (BitVec.ofNat 8))
  let t := ((List.range 3).map fun i => cbcMac ks (be 4 i ++ List.replicate 12 0#8 ++ s)).flatten
  let k2 := aesKeys (t.take 32)
  let x1 := aesBlock k2 (beNat (slice t 32 16))
  let x2 := aesBlock k2 x1
  be 16 x1 ++ be 16 x2 ++ be 16 (aesBlock k2 x2)

/-- Blocks of the counter stream after V. -/
def drbgBlocks (key : List Byte) (v n : Nat) : List Byte :=
  ((List.range n).map fun i => be 16 (aesBlock (aesKeys key) ((v + 1 + i) % 2 ^ 128))).flatten

/-- The update of the working state with 48 bytes. -/
def drbgUpdate (x : List Byte) (st : List Byte × Nat) : List Byte × Nat :=
  let t := xorBytes (drbgBlocks st.1 st.2 3) (slice x 0 48)
  (t.take 32, beNat (t.drop 32))

/-- The working state after a seed: of an instance without state from zero, else of the one there is (R310). [log 238 PRESUMED] -/
def drbgSeed (raw : List Byte) (st : List Byte × Nat) : List Byte × Nat :=
  drbgUpdate (blockDf (seedInput raw)) (if st.1.isEmpty then (List.replicate 32 0, 0) else st)

/-- A generate call: `n` bytes and the working state after it. -/
def drbgGenerate (n : Nat) (st : List Byte × Nat) : List Byte × (List Byte × Nat) :=
  let k := (n + 15) / 16
  (slice (drbgBlocks st.1 st.2 k) 0 n, drbgUpdate [] (st.1, (st.2 + k) % 2 ^ 128))

end Sys2Proof.Machine
end

