-- ==== Sys2Proof/Machine/TurretOps.lean ====
section
/-! DEFINITION. The shared operations of the Turret: the Keep, phases, wrap counts, tag checks, random numbers (R292 to R311). -/

namespace Sys2Proof.Machine

/-- The tenant slot or internal slot of the Keep. -/
def keySlot (s : State) (k : Nat) : KeySlot := tget {} s.turret.keep k

/-- The state with a slot updated. -/
def keyUpd (k : Nat) (f : KeySlot → KeySlot) (s : State) : State :=
  { s with turret := { s.turret with keep := tupd {} s.turret.keep k f } }

/-- A register of a slot. -/
def keyReg (k : KeySlot) (i : Nat) : KeyReg := if i = 0 then k.r0 else k.r1

/-- A slot with a register replaced. -/
def setReg (k : KeySlot) (i : Nat) (r : KeyReg) : KeySlot := if i = 0 then { k with r0 := r } else { k with r1 := r }

/-- A register is in use (R301): a phase, or a tag of a period under it still to be sent or checked. -/
def regInUse (k : KeySlot) (i : Nat) : Bool :=
  i == k.pTx || i == k.pRx || (match k.txOld with
    | some (j, _) => i == j
    | none => false) || k.rxOld == some i

/-- A register that is in use no more is zeroised (R301). -/
def releaseReg (k : KeySlot) (i : Nat) : KeySlot := if regInUse k i then k else setReg k i {}

/-- Internal slot I00, the Dome XTS key (R293). -/
abbrev slotDome : Nat := 1024
/-- Internal slot of KEK0 (R293). -/
abbrev slotKek : Nat := 1032
/-- Internal slots I16 and I17, the mask keys (R293). -/
abbrev slotMask : Nat := 1040

/-- Both Turret domains are ON. -/
def turretOn (s : State) : Bool := domOn s 25 && domOn s 26

/-- The tenant has an active key (R229): the register of P_TX is LOADED. -/
def activeKey (s : State) (t : Nat) : Bool := (keyReg (keySlot s t) (keySlot s t).pTx).state == 1

/-- The register other than P_TX is a ready next key (R301). -/
def readyNext (k : KeySlot) : Bool :=
  let i := 1 - k.pTx
  (keyReg k i).state == 1 && !(keyReg k i).used && !regInUse k i

/-- Pipelines that a mode needs (R291). -/
def pipesNeeded : Mode → Nat
  | .independent | .twin | .merge => 69
  | .bonded => 104
  | _ => 0

/-- TURRET_CAPACITY follows the pipelines that remain (R292). [log 137 DEDUCED] -/
def noteCapacity (s : State) : State :=
  let low := decide (128 - s.turret.fenced.length < pipesNeeded s.mode.cur)
  if low = s.turret.capacity then s else post 0x0702 low [] { s with turret := { s.turret with capacity := low } }

/-! Phases and wrap counts. -/

/-- A pointer period of a tenant is sent (R297, R302): the wrap count of a register that is the transmit phase starts, and a
register whose last tag has been sent leaves use. [log 135 DEDUCED] -/
def txPeriod (t : Nat) (s : State) : State :=
  keyUpd t (fun k =>
    let r := keyReg k k.pTx
    let k1 := if r.state = 1 && !r.counts then setReg k k.pTx { r with wTx := 0, counts := true, used := true } else k
    match k1.txOld with
    | some (j, 0) => releaseReg { k1 with txOld := none } j
    | some (j, n + 1) => { k1 with txOld := some (j, n) }
    | none => k1) s

/-- A slot with a change of both registers. -/
def mapRegs (f : KeyReg → KeyReg) (k : KeySlot) : KeySlot := { k with r0 := f k.r0, r1 := f k.r1 }

/-- Every slot of the Keep changes; slots that become empty leave the table. -/
def mapKeep (f : Nat → KeySlot → KeySlot) (s : State) : State :=
  let keep := s.turret.keep.filterMap fun e => if f e.1 e.2 = ({} : KeySlot) then none else some (e.1, f e.1 e.2)
  { s with turret := { s.turret with keep := keep } }

/-- FC[23:3] of the transmitting framer wraps: W_TX of every counting register rises (R297). -/
def wrapTx (s : State) : State :=
  mapKeep (fun _ k => mapRegs (fun r => if r.state = 1 && r.counts then { r with wTx := (r.wTx + 1) % 2 ^ 43 } else r) k) s

/-- PD02 powers up: W_TX of every LOADED register rises (R297). -/
def framerRestart (s : State) : State :=
  mapKeep (fun _ k => mapRegs (fun r => if r.state = 1 then { r with wTx := (r.wTx + 1) % 2 ^ 43 } else r) k) s

/-- FC[23:3] of a received carrier wraps: W_RX of the tenants that the carrier counts for rises (R298). -/
def wrapRx (counted : Nat → Bool) (s : State) : State :=
  mapKeep (fun t k => if t < 1024 && counted t then
    setReg k k.pRx { (keyReg k k.pRx) with wRx := ((keyReg k k.pRx).wRx + 1) % 2 ^ 43 } else k) s

/-- A counter hunt starts where none runs (R298). -/
def startHunt (t : Nat) (s : State) : State :=
  keyUpd t (fun k => if k.hunt then k else { k with hunt := true, huntCand := 0, huntRun := 0, hunts := satAdd 16 k.hunts 1 }) s

/-- A received period is decrypted with the register that KP names (R299, R303); `kp` none where H was not accepted. A KP of
the other phase switches P_RX where its register is LOADED. [log 93 DEDUCED] -/
def rxPeriod (t : Nat) (kp : Option Nat) (s : State) : State :=
  keyUpd t (fun k =>
    let p := kp.getD k.lastKp
    let k1 := { k with lastKp := p }
    let k2 := if p != k1.pRx && (keyReg k1 p).state = 1 && kp.isSome then
        setReg { k1 with rxOld := some k1.pRx, pRx := p } p { (keyReg k1 p) with wRx := 0, used := true }
      else k1
    let missing := (keyReg k2 p).state != 1
    { k2 with checks := (k2.checks ++ [p]).drop (k2.checks.length - 3), missing := satAdd 16 k2.missing (b2n missing) }) s

/-- The T of the oldest unchecked period is judged (R298, R299): `verifies` lists the candidates W_RX - 1 + c that verify.
The answer tells whether T passed and whether a hunt ran. -/
def tagVerdict (t : Nat) (verifies : List Nat) (s : State) : Bool × Bool × State :=
  let k := keySlot s t
  let reg := k.checks.headD k.pRx
  let k1 := { k with checks := k.checks.drop 1 }
  let put (v : KeySlot) : State := keyUpd t (fun _ => v) s
  if (keyReg k reg).state != 1 then (false, k.hunt, put { k1 with huntRun := 0 })
  else
    let w := (keyReg k reg).wRx
    let cands := [0, 1, 2, 3].filter fun c => verifies.contains c
    let pass := if k.hunt then !cands.isEmpty else cands.contains 1
    let k2 :=
      if !k.hunt then k1
      else if cands.contains k.huntCand && k.huntRun = 1 then
        setReg { k1 with hunt := false, huntRun := 0 } reg { (keyReg k1 reg) with wRx := w + k.huntCand - 1 }
      else match cands with
        | [] => { k1 with huntRun := 0 }
        | c :: _ => { k1 with huntCand := c, huntRun := 1 }
    let k3 := match k2.rxOld with
      | some j => if pass && reg = k2.pRx then releaseReg { k2 with rxOld := none } j else k2
      | none => k2
    (pass, k.hunt, put k3)

/-! Random numbers and jobs. -/

/-- The DRBG reseeds from 1,536 raw samples (R309, R310); the TRNG output is not blocked. [log 131 DESIGN CHOICE] -/
def reseed (s : State) : State :=
  let d := drawBytes 309 192 s
  { d.2 with turret := { s.turret with drbg := drbgSeed d.1 s.turret.drbg, calls := 0 } }

/-- One generate call of the DRBG: 4,096 calls after the last seed it reseeds first, where the TRNG is not blocked (R310). [log 132 DESIGN CHOICE] -/
def generate (n : Nat) (s : State) : List Byte × State :=
  let s1 := if s.turret.rng = 0 && (s.turret.drbg.1.isEmpty || 4096 ≤ s.turret.calls) then reseed s else s
  let g := drbgGenerate n s1.turret.drbg
  (g.1, { s1 with turret := { s1.turret with drbg := g.2, calls := s1.turret.calls + 1 } })

/-- `n` bytes that differ from given ones: drawn again while they are equal. [log 239 DESIGN CHOICE] -/
def generateOther (old : List Byte) : Nat → State → List Byte × State
  | 0, s => ((old.headD 0 + 1) :: old.tail, s)
  | f + 1, s =>
    let g := generate old.length s
    if g.1 = old then generateOther old f g.2 else g

/-- The Dome XTS key is drawn after a reseed, K2 again while it equals K1 (R308). [log 239 DESIGN CHOICE] -/
def drawDomeKey (s : State) : State :=
  let a := generate 32 (reseed s)
  let b := generateOther a.1 4 a.2
  keyUpd slotDome (fun k => { k with r0 := { k1 := a.1, k2 := b.1, state := 1 } }) { b.2 with turret := { b.2.turret with domeDraw := none } }

/-- The Dome XTS key is zeroised. -/
def zeroDomeKey (s : State) : State := keyUpd slotDome (fun _ => {}) s

/-- The commands that wait for a reseed or a rotation end with BAD_STATE: a Turret domain has left ON. [log 134 DEDUCED] -/
def endKeyJobs (s : State) : State :=
  let s1 := s.turret.jobs.foldl (fun t j => complete j.ref stBadState [] t) { s with turret := { s.turret with jobs := [] } }
  s1.turret.rotations.foldl (fun t r => complete r.ref stBadState [] t) { s1 with turret := { s1.turret with rotations := [] } }

/-- PD02 leaves ON: no rotation takes place (R302). -/
def endRotations (s : State) : State :=
  s.turret.rotations.foldl (fun t r => complete r.ref stBadState [] t) { s with turret := { s.turret with rotations := [] } }

/-- A Turret domain has left ON: its copy is zeroised; with both off the Keep is empty (R295). [log 134 DEDUCED] -/
def turretHalfOff (s : State) : State :=
  let s1 := endKeyJobs s
  if domOn s1 25 || domOn s1 26 then s1 else { s1 with turret := { s1.turret with keep := [] } }

/-! Countermeasures (R312). -/

/-- `n` elements drawn from a list, none twice. -/
def drawOf : Nat → List Nat → State → List Nat × State
  | 0, _, s => ([], s)
  | n + 1, l, s =>
    let d := drawNat 312 (max 1 l.length) s
    let q := drawOf n (l.eraseIdx d.1) d.2
    (l.getD d.1 0 :: q.1, q.2)

/-- The 16 S-box orders of the fixed mode are drawn (R312). [log 247 DESIGN CHOICE] -/
def drawOrders (s : State) : State :=
  (List.range 16).foldl (fun t _ =>
    let d := drawOf 16 (List.range 16) t
    { d.2 with turret := { d.2.turret with orders := (d.1 :: d.2.turret.orders).take 16 } }) s

/-- The last of `n` blocks takes its dummy rounds and its S-box order (R312). [log 247 DESIGN CHOICE] -/
def maskBlocks (n : Nat) (s : State) : State :=
  let ix := (s.turret.blockIx + n) % 16
  if s.turret.fixed then
    { s with turret := { s.turret with blockIx := ix, dummies := [4, 8, 12, 16], order := s.turret.orders.getD ix [] } }
  else
    let k := drawNat 3120 5 s
    let d := drawOf k.1 ((List.range 18).map (· + 1)) k.2
    let o := drawOf 16 (List.range 16) d.2
    { o.2 with turret := { o.2.turret with blockIx := ix, dummies := d.1, order := o.1 } }

/-- AES blocks processed on a half of the pipelines (R289) that the request queue chooses (R427). [log 138 DESIGN CHOICE] -/
def countBlocks (n : Nat) (s : State) : State :=
  let d := drawBool 289 s
  let half := if !domOn s 26 then 0 else if !domOn s 25 then 1 else b2n d.1
  countSrc 0x0B half n (maskBlocks n d.2)

end Sys2Proof.Machine
end

