-- ==== Sys2Proof/Machine/DomeOps.lean ====
section
/-! DEFINITION. The shared operations of stored data: the Dome's layout and code, lines and sectors, logs, remapping, and the PM history
(R276, R322 to R341). -/

namespace Sys2Proof.Machine

/-- The 4,096 zero bytes that a lost sector is given as. -/
def zeroBytes : List Byte := List.replicate 4096 0

/-! Layout. -/

/-- A Dome stack. -/
def domeGet (s : State) (d : Nat) : Dome := if d = 0 then s.mem.d0 else s.mem.d1

/-- The state with a stack updated. -/
def domeUpd (d : Nat) (f : Dome → Dome) (s : State) : State :=
  if d = 0 then { s with mem := { s.mem with d0 := f s.mem.d0 } } else { s with mem := { s.mem with d1 := f s.mem.d1 } }

/-- The domain of a stack. -/
def stackDom (d : Nat) : Nat := 23 + d

/-- The line address of line `j` of a sector within its stack (R323, R324). -/
def lineOf (sector j : Nat) : Nat :=
  let m := 2 * (sector / 2) + j / 32
  j % 32 * 2 ^ 21 + bits m 8 4 * 2 ^ 16 + bits m 20 9 * 2 ^ 4 + bits m 3 0

/-- The sector of a line address in a stack. -/
def sectorOf (stack addr : Nat) : Nat :=
  let m := bits addr 15 4 * 2 ^ 9 + bits addr 20 16 * 2 ^ 4 + bits addr 3 0
  m / 2 * 2 + stack

/-- The 64 line addresses of a sector. -/
def sectorLines (sector : Nat) : List Nat := (List.range 64).map (lineOf sector)

/-! The code of R327. -/

/-- Multiplication by x modulo x^8 + x^4 + x^3 + x^2 + 1. -/
def rsDouble (a : Byte) : Byte := if a.getLsbD 7 then (a <<< 1) ^^^ 0x1D#8 else a <<< 1

/-- Product in the field of the Dome code. -/
def rsMulFrom : Nat → Byte → Byte → Byte → Byte
  | 0, _, _, acc => acc
  | f + 1, a, b, acc => rsMulFrom f (rsDouble a) (b >>> 1) (if b.getLsbD 0 then acc ^^^ a else acc)

/-- Product in the field of the Dome code. -/
def rsMul (a b : Byte) : Byte := rsMulFrom 8 a b 0

/-- A power of the primitive element. -/
def rsAlpha : Nat → Byte
  | 0 => 1#8
  | n + 1 => rsDouble (rsAlpha n)

/-- Syndrome `i` of an error pattern: symbol `p` is the coefficient of degree 35 - p. [log 143 DEDUCED] -/
def rsSyndrome (i : Nat) (e : List (Nat × Byte)) : Byte :=
  e.foldl (fun a x => a ^^^ rsMul x.2 (rsAlpha (i * (35 - x.1)))) 0

/-- What the decoder makes of an error pattern of one codeword: nothing seen, one symbol corrected, or uncorrectable. -/
inductive RsVerdict where
  | clean
  | fixed (symbol : Nat) (value : Byte)
  | failed
  deriving DecidableEq, Repr

/-- The decoder: any one symbol is corrected (R327). [log 143 DEDUCED] -/
def rsDecode (e : List (Nat × Byte)) : RsVerdict :=
  let s0 := rsSyndrome 0 e
  let s1 := rsSyndrome 1 e
  let s2 := rsSyndrome 2 e
  let s3 := rsSyndrome 3 e
  if s0 = 0 && s1 = 0 && s2 = 0 && s3 = 0 then .clean
  else match (List.range 36).find? (fun p =>
      let a := rsAlpha (35 - p)
      s0 != 0 && rsMul s0 a == s1 && rsMul s1 a == s2 && rsMul s2 a == s3) with
    | some p => .fixed p s0
    | none => .failed

/-- Data symbols of a codeword that a decoder which sees no failure leaves wrong or makes wrong (R327). -/
def miscorrected (e : List (Nat × Byte)) (v : RsVerdict) : Bool :=
  v != .failed && (List.range 32).any fun p =>
    let made := match v with
      | .fixed q b => if q = p then b else 0#8
      | _ => 0#8
    (e.filter fun x => x.1 == p).foldl (fun a x => a ^^^ x.2) made != 0#8

/-- The flips of one codeword of a line: symbols 0 to 35 are codeword 0, 36 to 71 codeword 1. [log 143 DEDUCED] -/
def codewordFlips (cw : Nat) (flips : List (Nat × Byte)) : List (Nat × Byte) :=
  (flips.filter fun x => x.1 / 36 == cw && x.2 != 0).map fun x => (x.1 % 36, x.2)

/-! Lines and sectors. -/

/-- The Dome XTS key. -/
def domeKey (s : State) : KeyReg := (keySlot s slotDome).r0

/-- The capture that wrote a sector of the capture area. [log 181 DESIGN CHOICE] -/
def captureOf (s : State) (i : Nat) : Option Nat := (s.test.cap.extents.find? fun e => decide (i < e.2)).map (·.1)

/-- A byte of the capture area that no row has brought is what the source gave meanwhile (R530). [log 181 DESIGN CHOICE] -/
def captureByte (gen off : Nat) : Byte := BitVec.ofNat 8 (Config.freeNat 530 (2 ^ 40 * gen + off))

/-- The plain bytes of a sector of which no line is listed: what the capture that wrote it stored (R530), else the zeros of
initialisation (R332). -/
def unlistedPlain (s : State) (sector : Nat) : List Byte :=
  match if 524288 ≤ sector && sector < 2080768 then captureOf s (sector - 524288) else none with
  | some g => match s.test.cap.held.find? fun x => x.slot == sector - 524288 && x.gen == g with
    | some x => slice x.bytes 0 4096
    | none => (List.range 4096).map fun i => captureByte g (4096 * (sector - 524288) + i)
  | none => zeroBytes

/-- The ciphertext that the lines of such a sector hold: a capture too is stored under XTS (R11). [log 140 DEDUCED] -/
def unlistedSector (s : State) (sector : Nat) : List Byte :=
  xtsEncrypt (domeKey s).k1 (domeKey s).k2 sector (unlistedPlain s sector)

/-- The stored ciphertext of a line. [log 140 DEDUCED] -/
def lineRead (s : State) (stack addr : Nat) : List Byte :=
  match tget none (domeGet s stack).lines addr with
  | some b => b
  | none =>
    let sec := sectorOf stack addr
    let j := (sectorLines sec).findIdx (· == addr)
    slice (unlistedSector s sec) (64 * j) 64

/-- The remap entry that serves a line. -/
def domeEntry (s : State) (stack addr : Nat) : Option Nat :=
  (List.range 16).find? fun i =>
    let e := (domeGet s stack).remap.getD i {}
    e.valid && e.addr == addr

/-- A line is poisoned (R334). -/
def linePoisoned (s : State) (stack addr : Nat) : Bool :=
  (domeGet s stack).remap.any fun e => e.valid && e.poison && e.addr == addr

/-- A line takes 64 bytes; its spare is filled and POISON clears (R334). -/
def lineWrite (stack addr : Nat) (b : List Byte) (s : State) : State :=
  domeUpd stack (fun d => { d with
    lines := tset none d.lines addr (some (slice b 0 64)),
    remap := d.remap.map fun e => if e.valid && e.addr = addr then { e with poison := false } else e }) (countSrc 0x09 (61 + stack) 64 s)

/-- A sector reads uncorrectable because a line of it is poisoned (R329). -/
def sectorPoisoned (s : State) (sector : Nat) : Bool :=
  (domeGet s (sector % 2)).remap.any fun e => e.valid && e.poison && sectorOf (sector % 2) e.addr == sector

/-- A whole-sector write: encryption, then the lines (R308, R329). What unlisted lines hold already stays unlisted. -/
def sectorWrite (sector : Nat) (data : List Byte) (s : State) : State :=
  let d := slice data 0 4096
  let stack := sector % 2
  let ls := sectorLines sector
  let s1 := domeUpd stack (fun x => { x with
    remap := x.remap.map fun e => if e.valid && sectorOf stack e.addr = sector then { e with poison := false } else e })
    (countSrc 0x09 (61 + stack) 4096 s)
  if d == unlistedPlain s sector then domeUpd stack (fun x => { x with lines := ls.foldl terase x.lines }) s1
  else
    let c := xtsEncrypt (domeKey s).k1 (domeKey s).k2 sector d
    domeUpd stack (fun x => { x with
      lines := (List.range 64).foldl (fun t j => tput t (lineOf sector j) (some (slice c (64 * j) 64))) x.lines }) s1

/-- The plain bytes of a sector. -/
def sectorPlain (s : State) (sector : Nat) : List Byte :=
  let stack := sector % 2
  let ls := sectorLines sector
  if ls.all (fun a => (tget none (domeGet s stack).lines a).isNone) then unlistedPlain s sector
  else xtsDecrypt (domeKey s).k1 (domeKey s).k2 sector (ls.flatMap fun a => lineRead s stack a)

/-- A consumer can use a sector: its stack is ready and the sector not retired (R324, R332). -/
def sectorUsable (s : State) (sector : Nat) : Bool :=
  let d := domeGet s (sector % 2)
  domOn s (stackDom (sector % 2)) && d.ready && !d.retired.contains sector

/-- What a consumer receives of a sector (R329): its bytes, or zeros with the uncorrectable flag. -/
def sectorRead (s : State) (sector : Nat) : List Byte × Bool :=
  if !sectorUsable s sector || sectorPoisoned s sector then (zeroBytes, true) else (sectorPlain s sector, false)

/-! Remapping. -/

/-- Saturating 32-bit counters of a target's scrubber. -/
def domeCount (stack : Nat) (f : Scrub → Scrub) (s : State) : State := domeUpd stack (fun d => { d with scrub := f d.scrub }) s

/-- The register value of a remap entry (R336). -/
def entryWord (e : RemapEntry) : Nat := b2n e.valid * 2 ^ 31 + b2n e.poison * 2 ^ 30 + b2n e.journalled * 2 ^ 29 + e.addr

/-- MEM_REMAP_FULL is raised for a target where it is not yet (R335). [log 144 DEDUCED] -/
def raiseFull (target : Nat) (was : Bool) (s : State) : State := if was then s else post 0x0803 true [target] s

/-- A sector is retired (R332, R335). [log 142 DESIGN CHOICE] -/
def retireSector (stack addr : Nat) (s : State) : State :=
  let sec := sectorOf stack addr
  if (domeGet s stack).retired.contains sec then s
  else domeUpd stack (fun d => { d with
    retired := d.retired ++ [sec], scrub := { d.scrub with retiredCount := satAdd 32 d.scrub.retiredCount 1 } }) s

/-- A line is remapped into a free spare line, and the entry journalled (R334, R337); without a free entry R335 applies. [log 141 DEDUCED] -/
def remapLine (stack addr : Nat) (poison : Bool) (s : State) : State :=
  if (domeEntry s stack addr).isSome then
    domeUpd stack (fun d => { d with remap := d.remap.map fun e =>
      if e.valid && e.addr = addr then { e with poison := e.poison || poison } else e }) s
  else match (List.range 16).find? (fun i => !((domeGet s stack).remap.getD i {}).valid) with
    | some i =>
      let s1 := domeUpd stack (fun d => { d with
        remap := lupd d.remap i fun _ => { valid := true, poison := poison, journalled := false, addr := addr },
        log := d.log.map fun e => if e.addr = addr then { e with remapped := true } else e }) s
      postEv 0x0801 [stack, addr] (journalAdd jDomeRemap (16 * stack + i) (le 4 (2 ^ 31 + addr)) none s1)
    | none =>
      let was := (domeGet s stack).scrub.full
      let s1 := raiseFull stack was (domeCount stack (fun c => { c with full := true }) s)
      if poison then retireSector stack addr s1 else s1

/-- The remap entry of a stack is released and the change journalled (R348). [log 141 DEDUCED] -/
def releaseLine (stack i : Nat) (s : State) : State :=
  let addr := ((domeGet s stack).remap.getD i {}).addr
  let was := (domeGet s stack).scrub.full
  let s1 := domeUpd stack (fun d => { d with
    remap := lupd d.remap i fun _ => {}, scrub := { d.scrub with full := false },
    log := d.log.map fun e => if e.addr = addr then { e with remapped := false } else e }) s
  let s2 := journalAdd jDomeRemap (16 * stack + i) (le 4 0) none s1
  if was then post 0x0803 false [stack] s2 else s2

/-! The correctable-error log (R333). -/

/-- The place of the entry to replace in a full log: the lowest count, the oldest among equals. -/
def weakest (l : List CeEntry) : Nat :=
  ((List.range l.length).zip l).foldl (fun (b : Nat × Nat) e => if e.2.count < b.2 then (e.1, e.2.count) else b) (0, 2 ^ 17) |>.1

/-- A correction at a line is logged (R333); `value` says which symbol of which codeword. -/
def logCorrection (stack addr symbol : Nat) (cw1 : Bool) (s : State) : State :=
  let t := s.tod / secNs % 2 ^ 32
  let d := domeGet s stack
  if d.log.any (fun e => e.addr == addr) then
    domeUpd stack (fun d => { d with log := d.log.map fun e =>
      if e.addr = addr then { e with cw1 := cw1, symbol := symbol, count := satAdd 16 e.count 1, last := t, since := true } else e }) s
  else
    let e : CeEntry := ⟨addr, cw1, false, (domeEntry s stack addr).isSome, symbol, 0, 1, t, t, true⟩
    if d.log.length < 16 then domeUpd stack (fun d => { d with log := d.log ++ [e] }) s
    else domeUpd stack (fun d => { d with
      log := d.log.eraseIdx (weakest d.log) ++ [e], scrub := { d.scrub with overflow := satAdd 32 d.scrub.overflow 1 } }) s

/-- A codeword of a line was corrected (R333): counted, and logged unless RAIL_WARN is active on a rail of the stack. [log 144 DEDUCED] -/
def noteCorrected (stack addr symbol : Nat) (cw1 : Bool) (s : State) : State :=
  let s1 := domeCount stack (fun c => { c with corrected := satAdd 32 c.corrected 1 }) s
  if domWarn s (stackDom stack) then s1 else logCorrection stack addr symbol cw1 s1

/-- An uncorrectable read of a line (R334): logged, posted, and the line remapped with POISON set. [log 144 DEDUCED] -/
def noteUncorrectable (stack addr : Nat) (s : State) : State :=
  let s1 := domeCount stack (fun c => { c with uncorr := satAdd 32 c.uncorr 1 }) s
  let s2 :=
    if domWarn s (stackDom stack) then s1
    else
      let s3 := if (domeGet s1 stack).log.any (fun e => e.addr == addr) then s1 else logCorrection stack addr 0 false s1
      domeUpd stack (fun d => { d with log := d.log.map fun e => if e.addr = addr then { e with uncorr := true } else e }) s3
  remapLine stack addr true (postEv 0x0802 [stack, addr] s2)

/-- A line read finds flips: what each codeword's decoder makes of them. The answer tells whether the line is uncorrectable
and whether a correction was made. -/
def readLine (stack addr : Nat) (flips : List (Nat × Byte)) (s0 : State) : Bool × Bool × State :=
  let s := countSrc 0x0A (61 + stack) 64 s0
  if (domeEntry s stack addr).isSome then (linePoisoned s stack addr, false, s)
  else
    let v0 := rsDecode (codewordFlips 0 flips)
    let v1 := rsDecode (codewordFlips 1 flips)
    let fix (cw1 : Bool) (v : RsVerdict) (t : State) : State := match v with
      | .fixed p _ => noteCorrected stack addr p cw1 t
      | _ => t
    let s1 := fix true v1 (fix false v0 s)
    let bad := v0 == .failed || v1 == .failed
    let fixed := v0 != .clean && v0 != .failed || v1 != .clean && v1 != .failed
    (bad, fixed, if bad then noteUncorrectable stack addr s1 else s1)

/-- A scrub correction writes back what the decoder made of a line; of a miscorrected one the bytes are open, since the places of pins in a line
are (R327, R342). [log 245 DESIGN CHOICE] -/
def scrubBack (stack addr : Nat) (flips : List (Nat × Byte)) (s : State) : State :=
  let wrong (cw : Nat) : Bool := miscorrected (codewordFlips cw flips) (rsDecode (codewordFlips cw flips))
  if (domeEntry s stack addr).isSome || !(wrong 0 || wrong 1) then s
  else
    let b := drawBytes 327 64 s
    domeUpd stack (fun d => { d with lines := tset none d.lines addr (some b.1) }) b.2

/-! On-die regions. -/

/-- The domain of an on-die region (R339). -/
def regionDom (r : Nat) : Nat := [0, 1, 2, 5, 7, 10, 12, 23, 24, 27, 28, 29, 30, 31].getD r 0

/-- The words of an on-die region: its size in MiB times 131,072. -/
def regionWords (r : Nat) : Nat := [4, 1, 24, 12, 8, 12, 8, 1, 1, 6, 6, 6, 6, 1].getD r 0 * 131072

/-- An on-die region. -/
def regionGet (s : State) (r : Nat) : Region := s.mem.regions.getD r {}

/-- The state with a region updated. -/
def regionUpd (r : Nat) (f : Region → Region) (s : State) : State :=
  { s with mem := { s.mem with regions := lupd s.mem.regions r f } }

/-- A word of a region is remapped (R341); without a free entry MEM_REMAP_FULL is raised and it stays in place. [log 141 DEDUCED] -/
def remapWord (r word : Nat) (poison : Bool) (s : State) : State :=
  let g := regionGet s r
  if g.remap.any (fun e => e.valid && e.addr == word) then
    regionUpd r (fun g => { g with remap := g.remap.map fun e =>
      if e.valid && e.addr = word then { e with poison := e.poison || poison } else e }) s
  else match (List.range 8).find? (fun i => !(g.remap.getD i {}).valid) with
    | some i =>
      let s1 := regionUpd r (fun g => { g with
        remap := lupd g.remap i fun _ => { valid := true, poison := poison, journalled := false, addr := word } }) s
      postEv 0x0801 [16 + r, word] (journalAdd jSramRemap (8 * r + i) (le 4 (2 ^ 31 + word)) none s1)
    | none => raiseFull (16 + r) g.scrub.full (regionUpd r (fun g => { g with scrub := { g.scrub with full := true } }) s)

/-- A remap entry of a region is released and the change journalled. -/
def releaseWord (r i : Nat) (s : State) : State :=
  let was := (regionGet s r).scrub.full
  let s1 := regionUpd r (fun g => { g with remap := lupd g.remap i fun _ => {}, scrub := { g.scrub with full := false } }) s
  let s2 := journalAdd jSramRemap (8 * r + i) (le 4 0) none s1
  if was then post 0x0803 false [16 + r] s2 else s2

/-! Power. -/

/-- A stack loses its contents (R337): POISON, log, retired sectors and the pass go; VALID and ADDR stay in PD00. D0 discards the PM
history (R23, R276). -/
def stackOff (stack : Nat) (s : State) : State :=
  domeUpd stack (fun d => {
    remap := d.remap.map fun e => { e with poison := false },
    scrub := { d.scrub with passAt := none, finished := true, pos := 0, late := false } })
    (if stack = 0 then { s with mem := { s.mem with histCount := [] } } else s)

/-- A region loses its contents: a restored entry starts with POISON set until its owner writes the word (R337). -/
def regionOff (r : Nat) (s : State) : State :=
  regionUpd r (fun g => {
    remap := g.remap.map fun e => if e.valid then { e with poison := true } else e,
    scrub := { g.scrub with passAt := none, finished := true, pos := 0, late := false } }) s

/-! PM history in D0 (R276, R325, R330). -/

/-- The sector of a history slot of an entity: three sectors of 32 15-minute records, one of 7 24-hour records. -/
def historySector (e period slot : Nat) : Nat := 2080768 + 2 * (4 * e + if period = 0 then slot / 32 else 3)

/-- Records that the history holds per entity. [log 129 DEDUCED] -/
def historySize (period : Nat) : Nat := if period = 0 then 96 else 7

/-- A record with STORE_ERR set and all other fields zero (R330). -/
def storeErrRecord : List Byte := le 4 0 ++ le 2 256 ++ le 122 0

/-- The slot of the record at index `i`, 0 the most recent. [log 129 DEDUCED] -/
def historySlot (s : State) (e period i : Nat) : Nat :=
  (tget 0 s.mem.histCount (2 * e + period) + 2 * historySize period - 1 - i) % historySize period

/-- A record enters the history by a read-modify-write of its sector (R276, R330): the other records of the sector stand, or carry
STORE_ERR after an uncorrectable read. A stack that is not ready takes no record, a retired sector keeps none. [log 129 DEDUCED] -/
def historyWrite (e period : Nat) (bytes : List Byte) (s : State) : State :=
  if !(domeGet s 0).ready then s
  else
    let key := 2 * e + period
    let n := tget 0 s.mem.histCount key
    let slot := n % historySize period
    let sec := historySector e period slot
    let s1 := { s with mem := { s.mem with histCount := tset 0 s.mem.histCount key (n + 1) } }
    if !sectorUsable s sec then s1
    else
      let r := sectorRead s sec
      let old := if r.2 then (List.replicate 32 storeErrRecord).flatten else r.1
      let off := 128 * (slot % 32)
      sectorWrite sec (old.take off ++ slice bytes 0 128 ++ old.drop (off + 128)) (countBlocks 514 (countSrc 0x0A 61 4096 s1))

/-- A history read takes its sector (R291, R430). -/
def historyTaken (s : State) : State := countBlocks 257 (countSrc 0x0A 61 4096 s)

/-- The history record at an index, as a read finds it (R272, R287): STORE_ERR where its sector is uncorrectable. [log 129 DEDUCED] -/
def historyRead (s : State) (e period i : Nat) : Option (List Byte) :=
  if min (tget 0 s.mem.histCount (2 * e + period)) (historySize period) ≤ i then none
  else
    let slot := historySlot s e period i
    let r := sectorRead s (historySector e period slot)
    some (if r.2 then storeErrRecord else slice r.1 (128 * (slot % 32)) 128)

end Sys2Proof.Machine
end

