-- ==== Sys2Proof/Machine/PmOps.lean ====
section
/-! DEFINITION. The shared operations of performance monitoring: bins, settling, records and their posting (R265 to R278). -/

namespace Sys2Proof.Machine

/-- The state with an entity updated. -/
def pmUpd (e : Nat) (f : PmEntity → PmEntity) (s : State) : State :=
  { s with pm := { s.pm with ents := tupd {} s.pm.ents e f } }

/-- The nominal end of the 15-minute bin of a second (R269). -/
def end15 (t : Nat) : Nat := (t / 900 + 1) * 900

/-- The nominal end of the 24-hour bin of a second (R269); the day offset in use in units of 900 s. -/
def end24 (off t : Nat) : Nat := (t + 86400 - 900 * off) / 86400 * 86400 + 900 * off

/-- The bins of an entity with one for a second opened where none holds it (R269, R272). -/
def openBin (endAt t : Nat) (restored unset : Bool) (l : List PmBin) : List PmBin :=
  if l.any fun b => decide (t < b.endAt) then l else l ++ [{ endAt := endAt, restored := restored, unset := unset }]

/-- The first bin that ends after a second is updated. -/
def updBin (t : Nat) (f : PmBin → PmBin) : List PmBin → List PmBin
  | [] => []
  | b :: r => if t < b.endAt then f b :: r else b :: updBin t f r

/-- A second is severely errored at `errs` of `blocks` (R265). -/
def severe (blocks errs : Nat) (defect : Bool) : Bool := defect || (errs != 0 && decide (3 * blocks ≤ 10 * errs))

/-- Near-end SES of a second; a CSF second is neither ES nor SES (R267). -/
def neSevere (a : PmAcc) : Bool := !a.csf && severe a.blocks a.errs a.defect

/-- The far end of a line second is judged unless a near-end line-fail defect is reported (R266). [log 126 DEDUCED] -/
def feJudged (line : Bool) (a : PmAcc) : Bool := line && !a.defect

/-- Far-end SES. -/
def feSevere (a : PmAcc) : Bool := severe a.blocks a.farErrs a.farDef

/-- One direction's availability takes a second (R268): `none` a second that is not judged; the flag tells that the state
changed with the tenth second of its run. [log 126 DEDUCED] -/
def availStep (ses : Option Bool) (a : Avail) : Avail × Bool :=
  match ses with
  | none => ({ a with run := 0 }, false)
  | some b =>
    if b = a.down then ({ a with run := 0 }, false)
    else if a.run = 9 then ({ down := !a.down, run := 0 }, true)
    else ({ a with run := a.run + 1 }, false)

/-- The last 9 pending seconds take the new state of a direction. -/
def markBack (f : PmSecond → PmSecond) (l : List PmSecond) : List PmSecond :=
  l.take (l.length - 9) ++ (l.drop (l.length - 9)).map f

/-- A counted second of an entity becomes pending (R265 to R268). -/
def pendSecond (line : Bool) (t off : Nat) (unset : Bool) (lq : Option LqSecond) (x : PmEntity) : PmEntity :=
  let a := x.acc
  let ne := availStep (some (neSevere a)) x.ne
  let fe := if line then availStep (if feJudged line a then some (feSevere a) else none) x.fe else (x.fe, false)
  let l1 := if ne.2 then markBack (fun p => { p with neU := ne.1.down }) x.pend else x.pend
  let l2 := if fe.2 then markBack (fun p => { p with feU := fe.1.down }) l1 else l1
  { x with
    ne := ne.1, fe := fe.1, pend := l2 ++ [⟨t, a, lq, ne.1.down, fe.1.down⟩],
    bins15 := openBin (end15 t) t (!x.opened15) unset x.bins15,
    bins24 := openBin (end24 off t) t (!x.opened24) unset x.bins24,
    opened15 := true, opened24 := true }

/-- The smaller of a kept value and a new one. -/
def minOpt (o : Option Nat) (v : Nat) : Option Nat := some (match o with
  | some w => min w v
  | none => v)
/-- The lower offset. -/
def minOptI (o v : Option Int) : Option Int :=
  match o, v with
  | some a, some b => some (min a b)
  | none, b => b
  | a, none => a
/-- The higher offset. -/
def maxOptI (o v : Option Int) : Option Int :=
  match o, v with
  | some a, some b => some (max a b)
  | none, b => b
  | a, none => a

/-- A ratio of counts in 10^-9, to the nearest. -/
def perBillion (errs bits : Nat) : Nat := if bits = 0 then 0 else (2 * errs * 1000000000 + bits) / (2 * bits)

/-- Mean iterations per block in 1/256. -/
def meanIter (iters blocks : Nat) : Nat := if blocks = 0 then 0 else (512 * iters + blocks) / (2 * blocks)

/-- The decoder's figures of a second enter a bin (R273). -/
def addLq (q : LqSecond) (b : PmBin) : PmBin :=
  let ber := perBillion q.errors q.bits
  { b with berMin := minOpt b.berMin ber, berMax := max b.berMax ber, bits := b.bits + q.bits, errors := b.errors + q.errors,
           uncorr := b.uncorr + q.uncorr, corrected := b.corrected + q.corrected, snrMin := minOpt b.snrMin q.snr,
           snrSum := b.snrSum + q.snr, snrN := b.snrN + 1, blocks := b.blocks + q.blocks, iters := b.iters + q.iters,
           iterMax := max b.iterMax (meanIter q.iters q.blocks) }

/-- A settled second enters a bin (R265 to R269, R273, R274). -/
def addSecond (line : Bool) (p : PmSecond) (b : PmBin) : PmBin :=
  let a := p.acc
  let down := p.neU || (line && p.feU)
  let nes := neSevere a
  let judged := feJudged line a
  let fes := feSevere a
  let b1 := { b with
    elapsed := b.elapsed + 1, unavail := p.neU, feValid := b.feValid || judged,
    neUas := b.neUas + b2n p.neU, feUas := b.feUas + b2n (line && p.feU), csf := b.csf + b2n a.csf,
    neEs := b.neEs + b2n (!down && !a.csf && (a.errs != 0 || a.defect)),
    neSes := b.neSes + b2n (!down && nes),
    neBbe := b.neBbe + (if down || nes then 0 else a.errs),
    feEs := b.feEs + b2n (!down && judged && (a.farErrs != 0 || a.farDef)),
    feSes := b.feSes + b2n (!down && judged && fes),
    feBbe := b.feBbe + (if down || !judged || fes then 0 else a.farErrs),
    degS := b.degS + b2n a.deg, failS := b.failS + b2n a.defect, switches := b.switches + a.switches,
    replaced := b.replaced + a.replaced, authFail := b.authFail + a.authFail, justPos := b.justPos + a.justPos,
    justNeg := b.justNeg + a.justNeg, freqEv := b.freqEv + a.freqEv, offMin := minOptI b.offMin a.offMin,
    offMax := maxOptI b.offMax a.offMax, cwUncorr := b.cwUncorr + a.cwUncorr }
  match p.lq with
  | some q => addLq q b1
  | none => b1

/-- The eight judged counts of a bin in the order of R284. -/
def tcaCounts (b : PmBin) : List Nat := [b.neEs, b.neSes, b.neBbe, b.neUas, b.feEs, b.feSes, b.feBbe, b.feUas]

/-- Thresholds are judged on the bin of a settled second (R279); the event carries entity, period, parameter and count. [log 244 DEDUCED] -/
def judgeBin (e period t : Nat) (s : State) : State :=
  let x := tget {} s.pm.ents e
  let bins := if period = 0 then x.bins15 else x.bins24
  match bins.find? (fun b => decide (t < b.endAt)) with
  | none => s
  | some b =>
    let hit := ((List.range 8).zip (tcaCounts b)).filter fun i =>
      let thr := tget 0 s.pm.thr (16 * tget 0 s.pm.profile e + i.1 + 8 * period)
      thr != 0 && decide (thr ≤ i.2) && !b.tca.testBit i.1 && (e < 2 || i.1 < 4)
    let b1 := { b with tca := hit.foldl (fun m i => setBit m i.1 true) b.tca }
    let put (y : PmEntity) : PmEntity := if period = 0 then { y with bins15 := updBin t (fun _ => b1) y.bins15 }
      else { y with bins24 := updBin t (fun _ => b1) y.bins24 }
    hit.foldl (fun u i => postEv 0x0601 [if e < 2 then e else e - 2, period, i.1, i.2] u) (pmUpd e put s)

/-- The oldest pending second of an entity settles: it enters its bins, and thresholds are judged (R268, R279). -/
def settleOldest (judge : Bool) (e : Nat) (s : State) : State :=
  match (tget {} s.pm.ents e).pend with
  | [] => s
  | p :: r =>
    let add := addSecond (decide (e < 2)) p
    let s1 := pmUpd e (fun x => { x with pend := r, bins15 := updBin p.sec add x.bins15, bins24 := updBin p.sec add x.bins24 }) s
    if judge then judgeBin e 1 p.sec (judgeBin e 0 p.sec s1) else s1

/-- The entities on record. -/
def pmEntities (s : State) : List Nat := s.pm.ents.map (·.1)

/-- All pending seconds of an entity before a time settle. -/
def settleBefore (judge : Bool) (t : Nat) (s : State) (e : Nat) : State :=
  ((tget {} s.pm.ents e).pend.filter fun p => decide (p.sec < t)).foldl (fun u _ => settleOldest judge e u) s

/-- Bin flags of R272 for a bin that closes; `extra` adds PFAIL and TIME_STEP. -/
def binFlags (e period extra : Nat) (force : Bool) (b : PmBin) : Nat :=
  let len := if period = 0 then 900 else 86400
  b2n (force || decide (b.elapsed < len)) + 2 * b2n b.restored + extra + 16 * b2n b.unset + 32 * b2n (e < 2 && b.feValid)
    + 64 * b2n b.unavail

/-- A count field that saturates. -/
def satField (n v : Nat) : List Byte := le n (min v (256 ^ n - 1))

/-- The extra part of a record (R273, R274). -/
def binExtra (e : Nat) (b : PmBin) : List Byte :=
  if e < 2 then
    satField 4 (b.berMin.getD 0) ++ satField 4 (perBillion b.errors b.bits) ++ satField 4 b.berMax ++ satField 4 b.uncorr
      ++ satField 8 b.corrected ++ satField 2 (b.snrMin.getD 0)
      ++ satField 2 (if b.snrN = 0 then 0 else (2 * b.snrSum + b.snrN) / (2 * b.snrN)) ++ satField 2 (meanIter b.iters b.blocks)
      ++ satField 2 b.iterMax ++ satField 4 b.degS ++ satField 4 b.failS ++ satField 4 b.switches ++ le 12 0
  else
    satField 4 b.replaced ++ satField 4 b.authFail ++ satField 4 b.justPos ++ satField 4 b.justNeg ++ satField 4 b.freqEv
      ++ leS 4 (b.offMin.getD 0) ++ leS 4 (b.offMax.getD 0) ++ satField 4 b.cwUncorr ++ le 24 0

/-- A bin record of 128 bytes (R271). -/
def binRecord (e period flags seq : Nat) (b : PmBin) : List Byte :=
  le 1 (if e < 2 then 0 else 1) ++ le 1 period ++ le 2 (if e < 2 then e else e - 2) ++ le 2 flags ++ le 2 0 ++ le 8 b.endAt
    ++ satField 4 b.elapsed ++ le 4 seq ++ satField 4 b.neEs ++ satField 4 b.neSes ++ satField 4 b.neUas ++ satField 4 b.csf
    ++ satField 8 b.neBbe ++ satField 4 b.feEs ++ satField 4 b.feSes ++ satField 4 b.feUas ++ le 4 0 ++ satField 8 b.feBbe
    ++ binExtra e b

/-- A numbered worker keeps its PM records for its manager in place of its own channel (R452). -/
def pmStore (s : State) : Nat := if ringWorker s then s.ring.pmOut.length else s.pm.buf.length

/-- A record is posted (R275, R276): to the buffer of 4,104 records while delivery is enabled, toward the manager on a
numbered worker (R452), and to the history in D0. [log 127 DEDUCED] -/
def postBin (e period flags : Nat) (b : PmBin) (s : State) : State :=
  if b.elapsed = 0 then s
  else
    let room := decide (pmStore s < 4104)
    let take := s.pm.delivery && room
    let gap := take && s.pm.gap
    let seq := s.pm.seq
    let bytes := binRecord e period (flags + 128 * b2n gap) seq b
    let keep := s.pm.history && domOn s 23
    let worker := ringWorker s
    let s0 := if keep then historyWrite e period bytes s else s
    let s1 := { s0 with
      pcie := { s0.pcie with posted := s0.pcie.posted + 1 },
      ring := { s.ring with pmOut := if take && worker then s.ring.pmOut ++ [(seq, bytes)] else s.ring.pmOut },
      pm := { s0.pm with
        seq := (seq + 1) % 2 ^ 32,
        buf := if take && !worker then s.pm.buf ++ [(s.pcie.posted, bytes)] else s.pm.buf,
        overrun := if s.pm.delivery && !room then s.pm.overrun + 1 else s.pm.overrun,
        gap := if s.pm.delivery then !room else s.pm.gap } }
    if take && worker then sendMsg .east (mkMsg s1 0x21 0 0 bytes) s1 else s1

/-- A number in its place in a rising list without repeats. -/
def insNat (n : Nat) : List Nat → List Nat
  | [] => [n]
  | m :: r => if n < m then n :: m :: r else if n = m then m :: r else m :: insNat n r

/-- The bins of one period and one nominal end are posted, lines first, then tenants in rising order (R270), and leave. [log 127 DEDUCED] -/
def postEnd (period extra endAt : Nat) (force : Bool) (s : State) : State :=
  (pmEntities s).foldl (fun t e =>
    let x := tget {} t.pm.ents e
    let bins := if period = 0 then x.bins15 else x.bins24
    match bins.find? (fun b => b.endAt == endAt) with
    | none => t
    | some b =>
      let drop (l : List PmBin) : List PmBin := l.filter fun b => b.endAt != endAt
      pmUpd e (fun y => if period = 0 then { y with bins15 := drop y.bins15 } else { y with bins24 := drop y.bins24 })
        (postBin e period (binFlags e period extra force b) b t)) s

/-- The nominal ends of all bins, rising. -/
def binEnds (s : State) : List Nat :=
  s.pm.ents.foldl (fun l e => (e.2.bins15 ++ e.2.bins24).foldl (fun m b => insNat b.endAt m) l) []

/-- Every open bin closes at once (R264, R277, R278): pending seconds settle under the state in force, records in the order
of R270. -/
def closeAllBins (extra : Nat) (s : State) : State :=
  let s1 := (pmEntities s).foldl (fun t e =>
    (tget {} t.pm.ents e).pend.foldl (fun u _ => settleOldest false e u) t) s
  (binEnds s1).foldl (fun t d => postEnd 1 extra d true (postEnd 0 extra d true t)) s1

/-- The second in progress is not counted. -/
def dropSecond (s : State) : State := (pmEntities s).foldl (fun t e => pmUpd e (fun x => { x with acc := {} }) t) s

/-- A change of the time of day by 0.5 s or more (R264): bins close with TIME_STEP, counting goes on in the new time. -/
def pmTimeStep (s : State) : State :=
  let s1 := if domOn s 2 then dropSecond (closeAllBins 8 s) else s
  { s1 with pm := { s1.pm with curSec := s1.tod / secNs } }

/-- PFAIL_N asserts (R277): counting freezes, and every open bin closes with INCOMPLETE and PFAIL. -/
def pmFreeze (s : State) : State :=
  if s.pm.frozen then { s with pm := { s.pm with resumeAt := none } }
  else
    let s1 := if domOn s 2 then dropSecond (closeAllBins 4 s) else s
    { s1 with pm := { s1.pm with frozen := true, resumeAt := none } }

/-- PFAIL_N deasserts (R277, R278): counting resumes at the next whole second, and the next bins carry POWER_RESTORED. -/
def pmThaw (s : State) : State :=
  if !s.pm.frozen then s
  else
    { s with pm := { s.pm with
      resumeAt := some (s.tod / secNs + 1),
      ents := s.pm.ents.map fun e => (e.1, { e.2 with opened15 := false, opened24 := false }) } }

/-- PD02 powers down by command or by mode (R278): every open bin closes with INCOMPLETE. -/
def pmPowerDown (s : State) : State := dropSecond (closeAllBins 0 s)

/-- PD02 has lost its state (R263): per-second logic, open bins and buffer are gone; a reset by its rail also restarts the
flags of R278. -/
def pmLost (byRail : Bool) (s : State) : State :=
  { s with pm := { s.pm with
    ents := if byRail then [] else s.pm.ents.filterMap fun e =>
      let x : PmEntity := { opened15 := e.2.opened15, opened24 := e.2.opened24 }
      if x = {} then none else some (e.1, x),
    buf := [], seq := 0, overrun := 0, gap := false } }

end Sys2Proof.Machine
end

