-- ==== Sys2Proof/Machine/BelfryOps.lean ====
section
/-! DEFINITION. The shared operations of Belfry: quality levels, qualification, selection, DPLL states, the time of day (R350 to R369). -/

namespace Sys2Proof.Machine

/-- A signed number that the manual leaves open at point `p`. -/
def drawInt (p : Nat) (s : State) : Int × State := (Config.freeInt p s.free, { s with free := s.free + 1 })

/-- A reference. -/
def refGet (s : State) (r : Nat) : BelRef := s.bel.refs.getD r {}

/-- The state with Belfry updated. -/
def belUpd (f : Belfry → Belfry) (s : State) : State := { s with bel := f s.bel }

/-- The state with a reference updated. -/
def refUpd (r : Nat) (f : BelRef → BelRef) (s : State) : State :=
  belUpd (fun b => { b with refs := lupd b.refs r f }) s

/-- The never-code of both options (R351). -/
abbrev qlNever : Nat := 0xF

/-- The rank of an SSM code in an option (R351); none where it is not selectable. -/
def qlRank (option code : Nat) : Option Nat :=
  if option = 1 then
    match code with
    | 0x2 => some 1 | 0x4 => some 2 | 0x8 => some 3 | 0xB => some 4 | _ => none
  else
    match code with
    | 0x1 => some 1 | 0x0 => some 2 | 0x7 => some 3 | 0x4 => some 4 | 0xD => some 5 | 0xA => some 6 | 0xC => some 7
    | 0xE => some 8 | _ => none

/-- A code is listed for an option. -/
def qlListed (option code : Nat) : Bool := code == qlNever || (qlRank option code).isSome

/-- A received code: one that is not listed counts as QL_INVALID (R351). -/
def noteQlCode (code : Nat) (s : State) : State :=
  if qlListed s.bel.use.option code then s
  else belUpd (fun b => { b with qlInvalid := satAdd 16 b.qlInvalid 1 }) s

/-- The FlexE group whose PHY holds the lane of a recovered-clock tap (R350). -/
def tapGroup (s : State) (i : Nat) : Option Nat :=
  match s.host.rclk.getD i none with
  | none => none
  | some (q, l) =>
    match phyAt s (4 * q + l) with
    | none => none
    | some p => groupOfPhy s p

/-- The received SSM code of a reference (R350). -/
def receivedQl (s : State) (r : Nat) : Nat :=
  let code : Option Nat :=
    if r ≤ 1 then
      let c := carrierOf r
      if declaredMask s c % 16 != 0 then none else (lineGet s c).frm.ssm.val
    else if r ≤ 5 then
      match tapGroup s (r - 2) with
      | some g => (groupOf s g).ssm
      | none => none
    else if r ≤ 7 then none
    else (pget s.ring.ports (carrierOf (r - 8))).timing.map (·.ssm)
  let v := code.getD qlNever
  if qlListed s.bel.use.option v then v else qlNever

/-- The QL of a reference whether or not it is signal-valid. -/
def rawQl (s : State) (r : Nat) : Nat := if (refGet s r).use.written then (refGet s r).use.ql else receivedQl s r

/-- The effective QL of a reference (R351). -/
def refQl (s : State) (r : Nat) : Nat := if (refGet s r).valid then rawQl s r else qlNever

/-- The domain of a reference is ON, and its source gives a signal (R350). -/
def refSignal (s : State) (r : Nat) : Bool :=
  domOn s 1 && domOn s 2 &&
    (if r ≤ 1 then trackOn s (carrierOf r)
     else if r ≤ 5 then rclkValid s (r - 2)
     else if r ≤ 7 then (refGet s r).raw
     else domOn s 31 && (refGet s r).raw)

/-- A reference is signal-valid and passes its frequency check. [log 146 DEDUCED] -/
def refSound (s : State) (r : Nat) : Bool := (refGet s r).valid && (refGet s r).freqOk

/-- Hold-off runs on a reference (R356). [log 150 DEDUCED] -/
def inHoldOff (s : State) (r : Nat) : Bool := s.bel.selected == some r && s.bel.holdOffAt.isSome

/-- A reference is qualified (R355). [log 146 DEDUCED] -/
def refQualified (s : State) (r : Nat) : Bool :=
  let v := refGet s r
  v.use.enable && refSound s r && v.wtrAt.isNone && (!s.bel.use.qlOn || (qlRank s.bel.use.option (refQl s r)).isSome)

/-- A reference that the selection counts as qualified: hold-off disqualifies only at its end (R356). -/
def refCand (s : State) (r : Nat) : Bool :=
  refQualified s r ||
    (inHoldOff s r && (refGet s r).use.enable && (refGet s r).wtrAt.isNone
      && (!s.bel.use.qlOn || (qlRank s.bel.use.option (rawQl s r)).isSome))

/-- The QL rank that orders a candidate; all are equal in QL-disabled mode (R357). -/
def candRank (s : State) (r : Nat) : Nat :=
  if s.bel.use.qlOn then (qlRank s.bel.use.option (rawQl s r)).getD 99 else 0

/-- The order of R357: rank, then priority, then index. -/
def candBefore (s : State) (a b : Nat) : Bool :=
  let key (r : Nat) : Nat := 10000 * candRank s r + 100 * (refGet s r).use.priority + r
  decide (key a < key b)

/-- The best candidate of R357. -/
def bestCand (s : State) : Option Nat :=
  ((List.range 10).filter (refCand s)).foldl (fun o r => match o with
    | none => some r
    | some b => if candBefore s r b then some r else some b) none

/-- What the rules of R357 and R358 call for: a reference, a forced or unforced holdover, or free-run. -/
inductive BelTarget where
  | ref (r : Nat)
  | noRef
  | holdover (cause : Nat)
  | freeRun
  deriving DecidableEq, Repr

/-- Automatic selection (R357). -/
def autoTarget (s : State) : BelTarget :=
  match bestCand s with
  | none => .noRef
  | some b =>
    match s.bel.selected with
    | some c => if refCand s c && !s.bel.use.revert && candRank s c == candRank s b then .ref c else .ref b
    | none => .ref b

/-- The target under the selection mode (R358, R360). -/
def belTarget (s : State) : BelTarget :=
  if s.clk.absent then .holdover 4
  else match s.bel.selMode with
    | 1 => match s.bel.selRef with
      | some r => if refCand s r then .ref r else autoTarget s
      | none => autoTarget s
    | 2 => match s.bel.selRef with
      | some r => if (refGet s r).use.enable && refSound s r then .ref r else .holdover 3
      | none => .holdover 3
    | 3 => .holdover 3
    | 4 => .freeRun
    | _ => autoTarget s

/-! The fit of the oscillator model (R363). -/

/-- A learning sample as a row: 1, the time in s, T - 50 in 0.1 C, its square, and the frequency. -/
def fitRow (t : Nat) (freq temp : Int) : List Int := [1, t, temp - 500, (temp - 500) ^ 2, freq]

/-- The sums of products with one more row, in 2^-40; a sample forgets one second of the 30 days. [log 248 DEDUCED] -/
def fitAdd (row : List Int) (m : List (List Int)) : List (List Int) :=
  (row.take 4).zipIdx.map fun e => row.zipIdx.map fun f =>
    let old := (m.getD e.2 []).getD f.2 0
    old - roundDiv old 2592000 + e.1 * f.1 * 2 ^ 40

/-- The determinant of the first `n` columns of `n` rows. -/
def det : Nat → List (List Int) → Int
  | 0, _ => 1
  | n + 1, m => (m.zipIdx.map fun e => (if e.2 % 2 = 0 then 1 else -1) * e.1.headD 0 * det n ((m.eraseIdx e.2).map (·.drop 1))).sum

/-- The least-squares coefficients of the sums at a time in s; none where the samples do not fix them. a0 is the offset at that time. [log 248 DEDUCED] -/
def fitSolve (m : List (List Int)) (now : Nat) : Option ModelFit :=
  let d := det 4 m
  let num (i : Nat) : Int := d.sign * det 4 (m.map fun r => r.set i (r.getD 4 0))
  if d = 0 then none
  else some ⟨roundDiv (num 0 + now * num 1) d.natAbs, roundDiv (10 * num 2) d.natAbs, roundDiv (100 * num 3) d.natAbs,
    roundDiv (86400 * num 1) d.natAbs⟩

/-! Outgoing quality level (R352, R359). -/

/-- The outgoing QL (R359). -/
def qlOut (s : State) : Nat :=
  if s.bel.holdOffAt.isSome then s.bel.heldQl
  else match s.bel.selected with
    | some r => if s.bel.state = .locked && s.bel.use.qlOn then refQl s r else s.bel.use.own
    | none => s.bel.use.own

/-- The SSM code that the sender writes on a carrier (R161). -/
def carrierQl (s : State) (c : Carrier) : Nat := if s.bel.selected = some (carrierNum c) then qlNever else qlOut s

/-- The SSM code sent to a FlexE group. -/
def groupQl (s : State) (g : Nat) : Nat :=
  match s.bel.selected with
  | some r => if 2 ≤ r && r ≤ 5 && tapGroup s (r - 2) == some g then qlNever else qlOut s
  | none => qlOut s

/-- The SSM code sent on a ring port. -/
def portQl (s : State) (p : Port) : Nat := if s.bel.selected = some (8 + portNum p) then qlNever else qlOut s

/-- An ESMC PDU leaves toward a group (R352). [log 157 DEDUCED] -/
def sendEsmc (g : Nat) (s : State) : State :=
  belUpd (fun b => { b with esmc := tupd {} b.esmc g fun e => { last := some (groupQl s g), sent := e.sent + 1 } }) s

/-- An event PDU is sent to each group whose outgoing QL differs from the last one sent (R352). [log 157 DEDUCED] -/
def noteQlOut (s : State) : State :=
  if !domOn s 1 then s
  else (List.range 16).foldl (fun t g =>
    if (groupOf t g).number != 0 && (tget {} t.bel.esmc g).last != some (groupQl t g) && (tget {} t.bel.esmc g).last.isSome
    then sendEsmc g t else t) s

/-! DPLL states (R360 to R362). -/

/-- The code of a DPLL state (R377). [log 149 DEDUCED] -/
def dpllCode : DpllState → Nat
  | .freeRun => 0
  | .acquiring => 1
  | .locked => 2
  | .holdover => 3

/-- The temperature term of the model between two temperatures in 0.1 C (R362), in 10^-12. -/
def tempTerm (m : BelModel) (t t0 : Int) : Int :=
  roundDiv (m.c1 * 10 * (t - t0) + m.c2 * ((t - 500) ^ 2 - (t0 - 500) ^ 2)) 100

/-- The NCO in FREE_RUN (R363): a0 plus the temperature term; without a valid a0 LOCAL_OSC uncorrected. -/
def freeRunNco (b : Belfry) : Int :=
  if !b.model.a0Ok then 0 else b.model.a0 + if b.model.tempOk then tempTerm b.model b.temp 500 else 0

/-- The mean of the NCO frequency over the last 60 s of LOCKED time (R362). [log 152 DEDUCED] -/
def holdMean (b : Belfry) : Int :=
  let l := b.samples.take 60000
  if l.isEmpty then b.nco else roundDiv l.sum l.length

/-- The model as the record of R364. [log 152 DEDUCED] -/
def modelBytes (m : BelModel) : List Byte :=
  le 1 1 ++ le 1 (b2n m.tempOk + 2 * b2n m.ageOk + 4 * b2n m.a0Ok) ++ le 2 m.tSpan ++ le 4 m.samples ++ leS 4 m.a0
    ++ leS 4 m.c1 ++ leS 4 m.c2 ++ leS 4 m.a1 ++ le 4 m.hours ++ le 4 0

/-- The model that a record of R364 holds. -/
def modelOf (l : List Byte) : BelModel :=
  let f := u8 l 1
  { tempOk := f.testBit 0, ageOk := f.testBit 1, a0Ok := f.testBit 2, tSpan := u16 l 2, samples := u32 l 4, a0 := i32 l 8,
    c1 := i32 l 12, c2 := i32 l 16, a1 := i32 l 20, hours := u32 l 24 }

/-- The learned state is queued for the journal (R364). -/
def journalModel (s : State) : State := journalAdd jBelfry 0 (modelBytes s.bel.model) none s

/-- LOCKED ends: its time is added, and the samples of its last second are excluded (R360, R362). -/
def endLocked (s : State) : State :=
  match s.bel.lockedSince with
  | none => s
  | some t => belUpd (fun b => { b with lockedSince := none, lockedSum := b.lockedSum + (s.now - t), samples := b.samples.drop 1000 }) s

/-- The DPLL takes a state (R360): DPLL_STATE is posted on a change, HOLDOVER takes its frequency and journals the model. [log 149 DEDUCED] -/
def setDpll (st : DpllState) (cause : Nat) (s : State) : State :=
  if s.bel.state = st then belUpd (fun b => { b with cause := cause }) s
  else
    let s1 := if s.bel.state = .locked then endLocked s else s
    let s2 := belUpd (fun b => { b with state := st, cause := cause, holdCorr := 0 }) s1
    let s3 := match st with
      | .locked => belUpd (fun b => { b with lockedSince := some s.now }) s2
      | .freeRun => belUpd (fun b => { b with nco := freeRunNco b }) s2
      | .holdover =>
        journalModel (belUpd (fun b => { b with holdFreq := holdMean b, nco := holdMean b, entryTemp := b.temp, entryAt := s.now }) s2)
      | .acquiring => s2
    postEv 0x0903 [dpllCode st, cause, s.bel.selected.getD 0xFF] s3

/-- The reason of a REF_SWITCH, whose codes the manual does not give. [log 148 DEDUCED] -/
def switchReason (kind : Nat) : Nat := Config.freeNat 357 kind % 2 ^ 32

/-- A reference is selected (R357, R360). [log 148 DEDUCED] -/
def selectRef (r kind : Nat) (s : State) : State :=
  let old := s.bel.selected
  if old = some r && s.bel.holdOffAt.isNone && (s.bel.state == .acquiring || s.bel.state == .locked) then s
  else
    let s1 := belUpd (fun b => { b with selected := some r, selAt := s.now, holdOffAt := none, switches := satAdd 16 b.switches 1 }) s
    setDpll .acquiring 0 (postEv 0x0902 [old.getD 0xFF, r, switchReason kind] s1)

/-- No reference is selected: the DPLL holds or runs free. -/
def dropRef (st : DpllState) (cause : Nat) (s : State) : State :=
  setDpll st cause (belUpd (fun b => { b with selected := none, holdOffAt := none }) s)

/-- The written settings take effect (R370). [log 157 DEDUCED] -/
def applyBel (s : State) : State :=
  belUpd (fun b => { b with use := b.set, refs := b.refs.map fun r => { r with use := r.set } }) s

/-- WTR starts on a sound reference; a WTR of 0 runs no time (R355). -/
def startWtr (r : Nat) (s : State) : State :=
  if refSound s r then
    refUpd r (fun v => { v with wtrAt := if v.use.wtr = 0 then none else some (s.now + v.use.wtr * secNs) }) s
  else s

/-- A reference has failed: WTR stops; on the selected reference hold-off starts (R355, R356). -/
def refFail (r : Nat) (s : State) : State :=
  let s1 := refUpd r (fun v => { v with wtrAt := none, jumped := false }) s
  if s.bel.selected = some r && s.bel.holdOffAt.isNone && s.bel.use.holdOff != 0 && s.bel.selMode != 2
      && (s.bel.state == .acquiring || s.bel.state == .locked) then
    let q := qlOut (refUpd r (fun v => { v with valid := true }) s)
    let s2 := belUpd (fun b => { b with holdOffAt := some (s.now + b.use.holdOff * msNs), held := b.state, heldQl := q }) s1
    setDpll .holdover 2 s2
  else s1

/-- A reference is sound again: within hold-off the DPLL resumes on it, else WTR starts (R355, R356). -/
def refRecover (r : Nat) (s : State) : State :=
  if !refSound s r then s
  else if inHoldOff s r then setDpll s.bel.held 0 (belUpd (fun b => { b with holdOffAt := none }) s)
  else startWtr r s

/-- Signal validity of a reference follows its source (R350). -/
def syncRef (s : State) (r : Nat) : State :=
  let now := refSignal s r
  if now = (refGet s r).valid then s
  else if now then refRecover r (refUpd r (fun v => { v with valid := true, hist := [], out := false, outAt := s.now }) s)
  else refFail r (refUpd r (fun v => { v with valid := false, hist := [] }) s)

/-- A forced selection ends where its reference is no candidate (R357). [log 150 DEDUCED] -/
def endForced (s : State) : State :=
  match s.bel.selMode, s.bel.selRef with
  | 1, some r => if refCand s r || s.clk.absent then s else belUpd (fun b => { b with selMode := 0, selRef := none }) s
  | _, _ => s

/-- What the rules choose is taken (R358). -/
def takeTarget (kind : Nat) (s : State) : State :=
  match belTarget s with
  | .ref r => if inHoldOff s r then s else selectRef r kind s
  | .noRef => if s.bel.ready then dropRef .holdover 1 s else dropRef .freeRun 1 s
  | .holdover c => dropRef .holdover c s
  | .freeRun => dropRef .freeRun 3 s

/-- The selection rules apply (R357, R358). `kind` tells what called for the evaluation. [log 146 DEDUCED] -/
def evaluateRef (kind : Nat) (s : State) : State :=
  if !domOn s 1 then s
  else noteQlOut (takeTarget kind (endForced ((List.range 10).foldl syncRef s)))

/-- PD01 comes up (R363, R366, R370): settings and the journalled model are loaded, the time of day is reloaded within
100 us plus 50 ppm of the time off, and the DPLL starts in FREE_RUN. -/
def belfryUp (s : State) : State :=
  let off := s.now - s.bel.offAt
  let bound := 100000 + off / 20000
  let d := drawNat 366 (2 * bound + 1) s
  let m := match journalBody s jBelfry 0 with
    | some l => modelOf l
    | none => s.bel.model
  let s1 := addTod (((d.1 : Int) - bound) * 10 ^ 8) d.2
  let s2 := belUpd (fun b => { b with model := m, coarse := true, todUse := b.todSet, state := .freeRun, cause := 1 }) (applyBel s1)
  evaluateRef 0 (belUpd (fun b => { b with nco := freeRunNco b }) s2)

/-- PD01 has left ON: what it held is gone, its settings and the status of the time of day stay in PD00. [log 155 DEDUCED, 156 DEDUCED] -/
def belfryDown (s : State) : State :=
  let clear (v : BelRef) : BelRef := { set := v.set, use := v.set, raw := v.raw, jumps := v.jumps, lockFail := v.lockFail }
  let s1 := match s.bel.setTime with
    | some j => complete j.ref stBadState [] s
    | none => s
  belUpd (fun b => {
    refs := b.refs.map clear, set := b.set, use := b.set, selMode := b.selMode, selRef := b.selRef,
    temp := b.temp, model := b.model, switches := b.switches, rejects := b.rejects, qlInvalid := b.qlInvalid,
    esmcLost := b.esmcLost, todSet := b.todSet, todUse := b.todUse, coarse := b.coarse, outliers := b.outliers,
    ppsOffset := b.ppsOffset, offAt := s.now }) s1

/-! Time of day. -/

/-- The time of day moves by an amount in 10^-8 ns; 0.5 s or more closes the bins (R264). [log 154 DESIGN CHOICE] -/
def shiftTod (d : Int) (s : State) : State :=
  let s1 := addTod d s
  if 2 * d.natAbs ≥ secNs * 10 ^ 8 then pmTimeStep s1 else s1

/-- The time of day is aligned: TOD_COARSE clears (R366). -/
def todAligned (s : State) : State := belUpd (fun b => { b with coarse := false }) s

/-- A SET_TIME is applied: the time moves, both marks clear, and the command completes (R375). [log 154 DESIGN CHOICE] -/
def finishSetTime (j : TimeJob) (d : Int) (s : State) : State :=
  let s1 := shiftTod d s
  complete j.ref stOk [] { s1 with pm := { s1.pm with todUnset := false }, bel := { s1.bel with setTime := none, coarse := false } }

/-- The level of 1PPS_OUT (R368): high for its width from the shifted second boundary. -/
def ppsHigh (s : State) : Bool :=
  match s.bel.ppsRise with
  | some t =>
    let now : Int := (s.now : Int) * 1000
    let rise : Int := (t : Int) * 1000 + s.bel.todUse.outComp
    domOn s 1 && s.bel.todUse.out && decide (rise ≤ now) && decide (now < rise + s.bel.todUse.width * 1000000000)
  | none => false

/-- Whether 1PPS_IN alignment runs: source 1 with PD01 on (R367). -/
def ppsAligned (s : State) : Bool := domOn s 1 && s.bel.todUse.source == 1

end Sys2Proof.Machine
end

