-- ==== Sys2Proof/Machine/Belfry.lean ====
section
/-! DEFINITION. The commands and events of Belfry (spec/14_belfry_timing.md). -/

namespace Sys2Proof.Machine

/-! Settings (R370 to R373, R376). -/

/-- SET_REF_CONFIG (R370, R371). -/
def checkSetRefConfig (c : Ctx) (s : State) : Nat :=
  let p := c.pk.params
  let r := u8 p 0
  let pin := r == 6 || r == 7
  let f := u32 p 8
  gated s (!plainLen 16 c) [
    (decide (9 < r) || decide (3 < u8 p 1) || u8 p 2 == 0 || decide (15 < u8 p 2) || decide (15 < u8 p 3)
      || !qlListed s.bel.set.option (u8 p 3) || decide (720 < u16 p 4) || u16 p 6 == 0 || decide (1000 < u16 p 6)
      || (if pin then !(u8 p 1).testBit 1 || decide (f < 1000) || decide (200000000 < f) else f != 0)
      || !zeroAt p 12 4, stBadParam)]
/-- The settings are stored; they apply at the next evaluation. -/
def runSetRefConfig (c : Ctx) (s : State) : Res :=
  let p := c.pk.params
  let r := u8 p 0
  let v : RefSet := { enable := (u8 p 1).testBit 0, priority := u8 p 2, written := (u8 p 1).testBit 1, ql := u8 p 3,
                      wtr := u16 p 4, jump := u16 p 6, freq := if r = 6 || r = 7 then u32 p 8 else 10000000 }
  done (refUpd r (fun x => { x with set := v }) s)
/-- SET_REF_CONFIG. -/
def execSetRefConfig (pk : Packet) (s : State) : Out := .next (serve 0x0901 checkSetRefConfig runSetRefConfig pk s)

/-- SET_DPLL_CONFIG (R370, R372): a new option needs every written QL valid in it. -/
def checkSetDpllConfig (c : Ctx) (s : State) : Nat :=
  let p := c.pk.params
  let o := u8 p 0
  gated s (!plainLen 12 c) [
    (!(o == 1 || o == 2) || decide (31 < u8 p 1) || decide (6 < u8 p 2) || (qlRank o (u8 p 3)).isNone
      || decide (1800 < u16 p 4) || u16 p 4 % 100 != 0 || u16 p 6 == 0 || decide (250 < u16 p 6)
      || u16 p 8 == 0 || decide (1000 < u16 p 8) || !zeroAt p 10 2
      || (o != s.bel.set.option && s.bel.refs.any fun r => !qlListed o r.set.ql), stBadParam)]
/-- The settings are stored; they apply at the next evaluation. -/
def runSetDpllConfig (c : Ctx) (s : State) : Res :=
  let p := c.pk.params
  let f := u8 p 1
  let v : DpllSet := { option := u8 p 0, qlOn := f.testBit 0, revert := f.testBit 1, learn := f.testBit 2, tempCorr := f.testBit 3,
                       ageCorr := f.testBit 4, bw := u8 p 2, own := u8 p 3, holdOff := u16 p 4, fMon := u16 p 6, slew := u16 p 8 }
  done (belUpd (fun b => { b with set := v }) s)
/-- SET_DPLL_CONFIG. -/
def execSetDpllConfig (pk : Packet) (s : State) : Out := .next (serve 0x0902 checkSetDpllConfig runSetDpllConfig pk s)

/-- SET_SELECTION (R358, R373). -/
def checkSetSelection (c : Ctx) (s : State) : Nat :=
  let p := c.pk.params
  let m := u8 p 0
  let r := u8 p 1
  let named := m == 1 || m == 2
  gated s (!plainLen 4 c) [
    (decide (4 < m) || (if named then decide (9 < r) else r != 0xFF) || !zeroAt p 2 2, stBadParam),
    ((m == 1 && !refQualified s r) || (m == 2 && !(refGet s r).set.enable), stBadState)]
/-- The mode is stored; it applies at the next evaluation. -/
def runSetSelection (c : Ctx) (s : State) : Res :=
  let p := c.pk.params
  done (belUpd (fun b => { b with selMode := u8 p 0, selRef := if u8 p 1 = 0xFF then none else some (u8 p 1) }) s)
/-- SET_SELECTION. -/
def execSetSelection (pk : Packet) (s : State) : Out := .next (serve 0x0903 checkSetSelection runSetSelection pk s)

/-- SET_TOD_CONFIG (R370, R376). -/
def checkSetTodConfig (c : Ctx) (s : State) : Nat :=
  let p := c.pk.params
  let far (x : Int) : Bool := decide (10000000 < x.natAbs)
  gated s (!plainLen 16 c) [
    (decide (2 < u8 p 0) || decide (1 < u8 p 1) || u16 p 2 == 0 || decide (500 < u16 p 2) || far (i32 p 4) || far (i32 p 8)
      || !zeroAt p 12 4, stBadParam),
    (u8 p 0 == 2 && s.ring.role != 2, stBadState)]
/-- The settings are stored; they apply at the next second boundary. -/
def runSetTodConfig (c : Ctx) (s : State) : Res :=
  let p := c.pk.params
  done (belUpd (fun b => { b with
    todSet := { source := u8 p 0, out := (u8 p 1).testBit 0, width := u16 p 2, inComp := i32 p 4, outComp := i32 p 8 } }) s)
/-- SET_TOD_CONFIG. -/
def execSetTodConfig (pk : Packet) (s : State) : Out := .next (serve 0x0906 checkSetTodConfig runSetTodConfig pk s)

/-! Time (R365, R374, R375, R378). -/

/-- A step in ps in units of 10^-8 ns. -/
def psUnits (ps : Int) : Int := ps * 100000

/-- STEP_PHASE (R365, R374). -/
def checkStepPhase (c : Ctx) (s : State) : Nat :=
  let p := c.pk.params
  let a := i32 p 0
  gated s (!plainLen 8 c) [
    (decide (1000000 < a.natAbs) || decide (1 < u8 p 4) || !zeroAt p 5 3
      || (u8 p 4 == 1 && decide (1000000000000 < (s.bel.slew + psUnits a).natAbs)), stBadParam)]
/-- An immediate step moves the time of day; a slewed one joins the remainder. -/
def runStepPhase (c : Ctx) (s : State) : Res :=
  let a := psUnits (i32 c.pk.params 0)
  done (if u8 c.pk.params 4 = 0 then shiftTod a s else belUpd (fun b => { b with slew := b.slew + a }) s)
/-- STEP_PHASE. -/
def execStepPhase (pk : Packet) (s : State) : Out := .next (serve 0x0904 checkStepPhase runStepPhase pk s)

/-- SET_TIME (R375). [log 155 DEDUCED] -/
def checkSetTime (c : Ctx) (s : State) : Nat :=
  let p := c.pk.params
  gated s (!plainLen 12 c) [
    (decide (2 < u8 p 0) || !zeroAt p 1 1 || !zeroAt p 8 4, stBadParam),
    (s.bel.todUse.source == 2 || (u8 p 0 == 1 && s.bel.ppsLoss), stBadState),
    (s.bel.setTime.isSome, stBusy)]
/-- The change waits for its second boundary or its edge. -/
def runSetTime (c : Ctx) (s : State) : Res :=
  let p := c.pk.params
  later (belUpd (fun b => { b with setTime := some ⟨u8 p 0, uField p 2 6, c.ref, s.now + 2 * secNs⟩ }) s)
/-- SET_TIME. -/
def execSetTime (pk : Packet) (s : State) : Out := .next (serve 0x0905 checkSetTime runSetTime pk s)

/-- A command without parameters (R377, R378). -/
def checkBelPlain (c : Ctx) (s : State) : Nat := gated s (!plainLen 0 c) []

/-- GET_TIME (R378). -/
def runGetTime (_ : Ctx) (s : State) : Res :=
  let b := s.bel
  doneWith { s with bel := { b with outliers := 0 } }
    (le 6 (s.tod / secNs) ++ le 2 0 ++ le 4 (s.tod % secNs) ++ le 2 (s.subns * 65536 / 10 ^ 8) ++ le 1 b.todUse.source
      ++ le 1 (b2n s.pm.todUnset + 2 * b2n b.coarse + 4 * b2n b.ppsLoss) ++ leS 4 b.ppsOffset ++ le 4 b.outliers)
/-- GET_TIME. -/
def execGetTime (pk : Packet) (s : State) : Out := .next (serve 0x0908 checkBelPlain runGetTime pk s)

/-- One reference in the result of R377. -/
def refStatus (s : State) (r : Nat) : List Byte :=
  let v := refGet s r
  let left := match v.wtrAt with
    | some t => (t - s.now + secNs - 1) / secNs
    | none => 0
  le 1 (b2n v.use.enable + 2 * b2n v.valid + 4 * b2n v.freqOk + 8 * b2n v.wtrAt.isSome + 16 * b2n v.jumped
      + 32 * b2n (refQualified s r) + 64 * b2n (s.bel.selected == some r))
    ++ le 1 (refQl s r) ++ le 2 left ++ leS 4 v.offset ++ le 2 v.jumps ++ le 2 v.lockFail

/-- The NCO offset with the slew rate (R361, R365); while it acquires the manual leaves it open. [log 151 DESIGN CHOICE] -/
def ncoNow (s : State) : Int × State :=
  let slew : Int := if s.bel.slew = 0 then 0 else if s.bel.slew < 0 then -(s.bel.use.slew * 10000 : Int) else s.bel.use.slew * 10000
  if s.bel.state = .acquiring then drawInt 360 s else (s.bel.nco + slew, s)

/-- GET_TIMING_STATUS (R377). -/
def runGetTimingStatus (_ : Ctx) (s : State) : Res :=
  let b := s.bel
  let n := ncoNow s
  let flags := b2n b.ready + 2 * b2n b.model.tempOk + 4 * b2n b.model.ageOk + 8 * b2n s.pm.todUnset + 16 * b2n b.coarse
    + 32 * b2n b.ppsLoss + 64 * b2n (b.slew != 0)
  let clear (v : BelRef) : BelRef := { v with jumps := 0, lockFail := 0 }
  doneWith (belUpd (fun b => { b with switches := 0, rejects := 0, refs := b.refs.map clear }) n.2)
    (le 1 (dpllCode b.state) ++ le 1 b.cause ++ le 1 (b.selected.getD 0xFF) ++ le 1 (qlOut s) ++ le 1 flags ++ le 1 0
      ++ leS 2 b.temp ++ leS 4 n.1 ++ leS 4 b.phaseErr ++ leS 4 b.holdCorr ++ le 2 b.switches ++ le 2 b.rejects
      ++ (List.range 10).flatMap (refStatus s))
/-- GET_TIMING_STATUS. -/
def execGetTimingStatus (pk : Packet) (s : State) : Out := .next (serve 0x0907 checkBelPlain runGetTimingStatus pk s)

/-- SET_LEARNING (R379). -/
def checkSetLearning (c : Ctx) (s : State) : Nat :=
  let p := c.pk.params
  gated s (!plainLen 4 c) [
    (decide (1 < u8 p 0) || !zeroAt p 1 3, stBadParam),
    (u8 p 0 == 0 && (s.bel.state == .holdover || s.bel.state == .freeRun), stBadState)]
/-- Action 0 clears the model; both journal the state. -/
def runSetLearning (c : Ctx) (s : State) : Res :=
  let s1 := if u8 c.pk.params 0 = 0 then
    belUpd (fun b => { b with model := {}, tMin := none, tMax := none, modelAt := none, fit := [] }) s else s
  done (journalModel s1)
/-- SET_LEARNING. -/
def execSetLearning (pk : Packet) (s : State) : Out := .next (serve 0x0909 checkSetLearning runSetLearning pk s)

/-! References (R350 to R356). -/

/-- The phase extrapolated from the phases of the last 100 ms (R354). [log 147 DEDUCED] -/
def extrapolate (h : List Int) : Option Int :=
  match h with
  | [] => none
  | [x] => some x
  | x :: r => some (x + roundDiv (x - r.getLastD x) r.length)

/-- The DPLL follows the measured reference within its range (R360 to R362). [log 148 DEDUCED] -/
def followRef (r : Nat) (phase ppb : Int) (s : State) : State :=
  if s.bel.selected != some r then s
  else match s.bel.state with
    | .locked =>
      let f := clampInt (-250000000) 250000000 (ppb * 1000)
      belUpd (fun b => { b with phaseErr := phase, nco := f, samples := (f :: b.samples).take 61000 }) s
    | .acquiring => belUpd (fun b => { b with phaseErr := phase }) s
    | _ => s

/-- REF_PHASE_MEASURE (R353, R354). -/
def execRefPhaseMeasure (ref : Nat) (phasePs ppb : Int) (s : State) : Out :=
  .next (
    let v := refGet s ref
    if 10 ≤ ref || !domOn s 1 || !v.valid then s
    else
      let far := decide (1000 * s.bel.use.fMon < ppb.natAbs)
      let s1 := refUpd ref (fun v => { v with
        offset := ppb, hist := (phasePs :: v.hist).take 100, out := far, outAt := if far = v.out then v.outAt else s.now }) s
      let size : Int := match extrapolate v.hist with
        | some e => phasePs - e
        | none => 0
      if (v.use.jump * 1000 : Nat) < size.natAbs then
        let s2 := refUpd ref (fun v => { v with hist := [phasePs], jumps := satAdd 16 v.jumps 1, jumped := true }) s1
        evaluateRef 2 (startWtr ref (postEv 0x0901 [ref, sArg size] s2))
      else followRef ref phasePs ppb s1)

/-- REF_FREQ_CHECK (R353): the check fails after 100 ms beyond f_mon, and passes after 1 s within it. -/
def execRefFreqCheck (ref : Nat) (s : State) : Out :=
  .next (
    let v := refGet s ref
    if 10 ≤ ref || !domOn s 1 || !v.valid || v.freqOk == !v.out then s
    else
      let s1 := refUpd ref (fun v => { v with freqOk := !v.out }) (advanceTo (v.outAt + if v.out then 100 * msNs else secNs) s)
      evaluateRef 3 (if v.out then refFail ref s1 else refRecover ref s1))

/-- REF_SIGNAL_CHANGE (R350, R355, R356): the level of a pin or ring port changes, and the validity of every reference
follows its source. -/
def execRefSignalChange (ref : Nat) (valid : Bool) (s : State) : Out :=
  .next (evaluateRef 4 (if 6 ≤ ref && ref ≤ 9 then refUpd ref (fun v => { v with raw := valid }) s else s))

/-- REF_WTR_EXPIRY (R355). -/
def execRefWtrExpiry (ref : Nat) (s : State) : Out :=
  .next (match (refGet s ref).wtrAt with
    | none => s
    | some t => evaluateRef 5 (refUpd ref (fun v => { v with wtrAt := none, jumped := false }) (advanceTo t s)))

/-- HOLD_OFF_EXPIRY (R356). [log 150 DEDUCED] -/
def execHoldOffExpiry (s : State) : Out :=
  .next (match s.bel.holdOffAt with
    | none => s
    | some t => evaluateRef 6 (belUpd (fun b => { b with holdOffAt := none }) (advanceTo t s)))

/-- SELECTION_EVALUATION (R357, R370): the written settings take effect, and the rules apply. -/
def execSelectionEvaluation (s : State) : Out := .next (if domOn s 1 then evaluateRef 0 (applyBel s) else s)

/-! The DPLL and its model (R360 to R364). -/

/-- DPLL_LOCK (R360): no sooner than 2 s after the selection. -/
def execDpllLock (s : State) : Out :=
  .next (
    if !domOn s 1 || s.bel.state != .acquiring then s
    else noteQlOut (setDpll .locked 0 (advanceTo (s.bel.selAt + 2 * secNs) s)))

/-- LOCK_FAIL (R360): a reference not LOCKED within 60 s of its selection is disqualified. -/
def execLockFail (s : State) : Out :=
  .next (match s.bel.selected with
    | none => s
    | some r =>
      if !domOn s 1 || s.bel.state != .acquiring then s
      else
        let s1 := refUpd r (fun v => { v with lockFail := satAdd 16 v.lockFail 1 }) (advanceTo (s.bel.selAt + 60 * secNs) s)
        let s2 := evaluateRef 7 (startWtr r s1)
        if s2.bel.selected = some r then belUpd (fun b => { b with selAt := s2.now }) s2 else s2)

/-- HOLDOVER_READY (R360): the DPLL has been LOCKED for 10 s in total. -/
def execHoldoverReady (s : State) : Out :=
  .next (
    if !domOn s 1 || s.bel.ready then s
    else match s.bel.lockedSince with
      | some t => belUpd (fun b => { b with ready := true }) (advanceTo (t + (10 * secNs - s.bel.lockedSum)) s)
      | none => if 10 * secNs ≤ s.bel.lockedSum then belUpd (fun b => { b with ready := true }) s else s)

/-- The predicted change of LOCAL_OSC since the entry to HOLDOVER (R362). [log 152 DEDUCED] -/
def predicted (b : Belfry) (now : Nat) : Int :=
  (if b.use.tempCorr && b.model.tempOk then tempTerm b.model b.temp b.entryTemp else 0)
    + (if b.use.ageCorr && b.model.ageOk then roundDiv (b.model.a1 * (now - b.entryAt : Nat)) (86400 * secNs) else 0)

/-- HOLDOVER_CORRECTION_UPDATE (R362, R363): each second the predicted change is removed from the NCO. [log 153 DESIGN CHOICE] -/
def execHoldoverCorrectionUpdate (temp : Int) (s : State) : Out :=
  .next (
    if !domOn s 1 then s
    else
      let s1 := belUpd (fun b => { b with temp := temp }) s
      match s1.bel.state with
      | .holdover => belUpd (fun b => { b with holdCorr := predicted b s1.now, nco := b.holdFreq - predicted b s1.now }) s1
      | .freeRun => belUpd (fun b => { b with nco := freeRunNco b }) s1
      | _ => s1)

/-- A learning sample may be taken (R363). -/
def learns (s : State) : Bool :=
  let b := s.bel
  let long := match b.lockedSince with
    | some t => decide (t + 60 * secNs ≤ s.now)
    | none => false
  let better := match b.selected with
    | some r => decide ((qlRank b.use.option (refQl s r)).getD 99 < (qlRank b.use.option b.use.own).getD 99)
    | none => false
  domOn s 1 && b.use.learn && b.state == .locked && long && better && b.slew == 0 && !domWarn s 1

/-- The model takes a sample: its count, its span and the validity of both models (R363). -/
def takeSample (temp : Int) (b : Belfry) : Belfry :=
  let lo := match b.tMin with
    | some t => min t temp
    | none => temp
  let hi := match b.tMax with
    | some t => max t temp
    | none => temp
  let n := min (b.model.samples + 1) (2 ^ 32 - 1)
  let span := max b.model.tSpan (hi - lo).toNat
  { b with
    tMin := some lo, tMax := some hi,
    model := { b.model with samples := n, hours := n / 3600, tSpan := span, tempOk := b.model.tempOk || decide (50 ≤ span),
                            ageOk := b.model.ageOk || decide (259200 ≤ n) } }

/-- LEARNING_SAMPLE (R363): the NCO frequency and the temperature of one second. [log 153 DESIGN CHOICE] -/
def execLearningSample (freq temp : Int) (s : State) : Out :=
  .next (
    if !domOn s 1 then s
    else
      let s1 := belUpd (fun b => { b with temp := temp, nco := if b.state = .locked then freq else b.nco }) s
      if !learns s1 then s1
      else belUpd (fun b => { takeSample temp b with
        fit := fitAdd (fitRow (s1.now / secNs) freq temp) b.fit, modelAt := some (b.modelAt.getD (s1.now + 3600 * secNs)) }) s1)

/-- The coefficients of the samples; where they fix none the manual leaves them open (R363). [log 248 DEDUCED] -/
def fitNow (s : State) : ModelFit × State :=
  match fitSolve s.bel.fit (s.now / secNs) with
  | some f => (f, s)
  | none =>
    let a := drawInt 3630 s
    let b := drawInt 3631 a.2
    let c := drawInt 3632 b.2
    let d := drawInt 3633 c.2
    (⟨a.1, b.1, c.1, d.1⟩, d.2)

/-- Each coefficient is taken, or refused outside its bound (R363). -/
def takeFit (fit : ModelFit) (b : Belfry) : Belfry :=
  let ok1 := decide (fit.c1.natAbs ≤ 50000)
  let ok2 := decide (fit.c2.natAbs ≤ 2000)
  let ok3 := decide (fit.a1.natAbs ≤ 10000)
  { b with
    rejects := satAdd 16 b.rejects (b2n (!ok1) + b2n (!ok2) + b2n (!ok3)),
    model := { b.model with
      a0 := fit.a0, a0Ok := true, c1 := if ok1 then fit.c1 else b.model.c1, c2 := if ok2 then fit.c2 else b.model.c2,
      a1 := if ok3 then fit.a1 else b.model.a1 } }

/-- MODEL_UPDATE (R363): the samples' least-squares coefficients. -/
def execModelUpdate (s : State) : Out :=
  .next (
    if !domOn s 1 || !s.bel.use.learn || s.bel.model.samples = 0 then s
    else
      let f := fitNow s
      belUpd (takeFit f.1) f.2)

/-- MODEL_JOURNAL (R364): every 3,600 s of learning. -/
def execModelJournal (s : State) : Out :=
  .next (match s.bel.modelAt with
    | none => s
    | some t =>
      if !domOn s 1 || !s.bel.use.learn then s
      else
        let s1 := advanceTo t s
        journalModel (belUpd (fun b => { b with modelAt := some (s1.now + 3600 * secNs) }) s1))

/-! Time of day (R365 to R369). -/

/-- SLEW_DONE (R365): the remainder has been moved. -/
def execSlewDone (s : State) : Out :=
  .next (
    if !domOn s 1 || s.bel.slew = 0 then s
    else advanceTo (s.now + (s.bel.slew.natAbs + s.bel.use.slew - 1) / s.bel.use.slew) s)

/-- What a second boundary applies (R367, R368, R370, R375): time-of-day settings, 1PPS_OUT, a SET_TIME of mode 0 or 2. -/
def atSecond (s : State) : State :=
  let s1 := belUpd (fun b => { b with
    todUse := b.todSet, ppsRise := if b.todSet.out then some s.now else none, lastSec := s.tod / secNs,
    ppsLast := if b.todSet.source = 1 && b.todUse.source != 1 then some s.now else b.ppsLast,
    cands := if b.todSet.source = b.todUse.source then b.cands else [] }) s
  match s1.bel.setTime with
  | none => s1
  | some j =>
    let unit : Int := (secNs * 10 ^ 8 : Nat)
    if j.mode = 0 then finishSetTime j (((j.secs : Int) - (s.tod / secNs : Nat)) * unit) s1
    else if j.mode = 2 then finishSetTime j (signed 48 j.secs * unit) s1
    else s1

/-- TOD_SECOND (R366): the next second boundary of the time of day. -/
def execTodSecond (s : State) : Out :=
  .next (
    if !domOn s 1 then s
    else
      let at_ := s.tod % secNs = 0 && s.tod / secNs != s.bel.lastSec
      let s1 := if at_ then s else advanceTo (s.now + (secNs - s.tod % secNs)) s
      atSecond s1)

/-- SET_TIME_EDGE_TIMEOUT (R375): mode 1 found no edge within 2 s. -/
def execSetTimeEdgeTimeout (s : State) : Out :=
  .next (match s.bel.setTime with
    | none => s
    | some j =>
      if j.mode != 1 then s
      else complete j.ref stBadState [] (belUpd (fun b => { b with setTime := none }) (advanceTo j.deadline s)))

/-- A pulse of 1PPS_IN counts toward the clearing of PPS_LOSS (R367). [log 156 DEDUCED] -/
def countPulse (s : State) : State :=
  let near := match s.bel.ppsPulse with
    | some t => decide (s.now < t + 2 * secNs)
    | none => false
  let n := if near then s.bel.ppsGood + 1 else 1
  let s1 := belUpd (fun b => { b with ppsPulse := some s.now, ppsGood := min n 3 }) s
  if s.bel.ppsLoss && 3 ≤ n then post 0x0904 false [] (belUpd (fun b => { b with ppsLoss := false }) s1) else s1

/-- The offset of an edge corrects the time of day, joins the candidates, or steps (R367). [log 156 DEDUCED] -/
def alignPps (off : Int) (s : State) : State :=
  if off.natAbs ≤ 1000000 then
    todAligned (addTod (-psUnits (clampInt (-100000) 100000 (roundDiv off 8)))
      (belUpd (fun b => { b with outliers := satAdd 32 b.outliers b.cands.length, cands := [] }) s))
  else if s.bel.cands.all fun c => decide ((c - off).natAbs ≤ 100000) then
    if s.bel.cands.length = 2 then todAligned (shiftTod (-psUnits off) (belUpd (fun b => { b with cands := [] }) s))
    else belUpd (fun b => { b with cands := b.cands ++ [off] }) s
  else belUpd (fun b => { b with outliers := satAdd 32 b.outliers b.cands.length, cands := [off] }) s

/-- PPS_IN_EDGE (R367, R375). -/
def execPpsInEdge (offsetPs : Int) (s : State) : Out :=
  .next (
    if !domOn s 1 then s
    else
      let half : Int := 500000000000
      let off := (offsetPs + s.bel.todUse.inComp + half) % (2 * half) - half
      let s1 := countPulse (belUpd (fun b => { b with
        ppsOffset := off, ppsLast := if off.natAbs ≤ 10000000 then some s.now else b.ppsLast }) s)
      let timed := match s1.bel.setTime with
        | some j => j.mode == 1
        | none => false
      if timed then
        match s1.bel.setTime with
        | some j =>
          finishSetTime j ((j.secs * secNs * 10 ^ 8 : Nat) + psUnits s.bel.todUse.inComp - (s1.tod * 10 ^ 8 + s1.subns : Nat)) s1
        | none => s1
      else if ppsAligned s1 then alignPps off s1 else s1)

/-- PPS_LOSS (R367): 3 seconds without an edge within 10 us of the expected time. -/
def execPpsLoss (s : State) : Out :=
  .next (
    if !ppsAligned s || s.bel.ppsLoss then belUpd (fun b => { b with ppsGood := 0 }) s
    else
      let s1 := advanceTo (s.bel.ppsLast.getD 0 + 3 * secNs) s
      post 0x0904 true [] (belUpd (fun b => { b with ppsLoss := true, ppsGood := 0 }) s1))

/-- RING_TIMING_TIMEOUT (R369): no timing message from either port for 10 s. -/
def execRingTimingTimeout (s : State) : Out :=
  .next (
    if !domOn s 1 || s.bel.todUse.source != 2 || s.ring.role != 2 then s
    else belUpd (fun b => { b with coarse := true }) (advanceTo (s.ring.heardTiming.getD 0 + 10 * secNs) s))

/-! ESMC (R352). -/

/-- ESMC_TIMEOUT: no PDU for 5 s takes the do-not-use code. -/
def execEsmcTimeout (group : Nat) (s : State) : Out :=
  .next (match (groupOf s group).ssmAt with
    | none => s
    | some t =>
      belUpd (fun b => { b with esmcLost := satAdd 16 b.esmcLost 1 })
        (groupUpd group (fun g => { g with ssm := none, ssmAt := none }) (advanceTo t s)))

/-- ESMC_INFO_PDU: the information PDU of each second is sent. -/
def execEsmcInfoPdu (group : Nat) (s : State) : Out :=
  .next (if 16 ≤ group || (groupOf s group).number = 0 || !domOn s 1 then s else sendEsmc group s)

end Sys2Proof.Machine
end

