-- ==== Sys2Proof/Machine/Regs.lean ====
section
/-! DEFINITION. Register writes and reads of the host over PCIe, stalls and the two-wire port (R386, R392, R393, R409 to R421). -/

namespace Sys2Proof.Machine

/-- A 64-bit register with its low word written; `m` low bits are reserved. -/
def withLow (m old v : Nat) : Nat := old / 2 ^ 32 * 2 ^ 32 + v % 2 ^ 32 / 2 ^ m * 2 ^ m

/-- A 64-bit register with its high word written. -/
def withHigh (old v : Nat) : Nat := old % 2 ^ 32 + v % 2 ^ 32 * 2 ^ 32

/-- Base and size registers of a ring (R413): the base is taken only while the ring is unconfigured. -/
def writeBase (hi : Bool) (v : Nat) (r : HostRing) : HostRing :=
  if r.sizeLog != 0 then r else { r with base := if hi then withHigh r.base v else withLow 12 r.base v }

/-- A write into a queue block outside QDATA and QEND (R413). -/
def writeQueueReg (q : QueueId) (o v : Nat) (s : State) : State :=
  if o = 0x108 then qupd s q fun x => { x with ring := writeBase false v x.ring }
  else if o = 0x10C then qupd s q fun x => { x with ring := writeBase true v x.ring }
  else if o = 0x110 then qupd s q fun x => { x with ring := writeSize 13 24 (v % 32) x.ring }
  else if o = 0x114 then
    let s1 := qupd s q fun x => { x with ring := writeHead 32 (v % 2 ^ 24) x.ring }
    match (qget s1 q).hold with
    | [] => s1
    | r :: _ => writePad q r s1
  else s

/-- A pending vector whose path is open is sent, and its pending bit cleared (R414). -/
def sendPending (v : Nat) (s : State) : State :=
  if s.pcie.pba.testBit v && vectorOpen v s then
    raiseVector v { s with pcie := { s.pcie with pba := setBit s.pcie.pba v false } }
  else s

/-- All pending vectors whose path is open are sent. [log 27 DEDUCED] -/
def sendAllPending (s : State) : State := (List.range 22).foldl (fun t v => sendPending v t) s

/-- A write to a word of the MSI-X table (R414). -/
def writeMsix (o v : Nat) (s : State) : State :=
  let i := o / 16
  let s1 := { s with pcie := { s.pcie with msix := tupd {} s.pcie.msix i fun e =>
    match o % 16 / 4 with
    | 0 => { e with addr := withLow 2 e.addr v }
    | 1 => { e with addr := withHigh e.addr v }
    | 2 => { e with data := v }
    | _ => { e with ctrl := v % 2 } } }
  sendPending i s1

/-- The state with a DMA channel updated. -/
def chanUpd (c : Nat) (f : Channel → Channel) (s : State) : State := { s with dma := lupd s.dma c f }

/-- A DMA channel. -/
def chanGet (s : State) (c : Nat) : Channel := s.dma.getD c {}

/-- A doorbell (R421): an IDLE or HALTED channel without a current descriptor starts at DMA_HEAD, a channel that waits at
its last descriptor reads its next field again, a busy channel sees no effect. [log 29 DEDUCED] -/
def doorbell (c : Nat) (err : Bool) (s : State) : State :=
  let ch := chanGet s c
  if ch.state = 1 || ch.state = 2 then s
  else if ch.waits then
    let next := leNat (memGet s.hostMem (ch.cur + 24) 8)
    let s1 := countSrc 0x09 60 8 s
    if err || next = 0 then s1 else chanUpd c (fun x => { x with fetch := some next, waits := false, state := 1 }) s1
  else if ch.needHead then s
  else chanUpd c (fun x => { x with fetch := some x.head, state := 1 }) s

/-- A completion record is written to the ring of a channel and the vector raised where R424 asks for it. -/
def writeCompletion (c status residue crc : Nat) (irq : Bool) (s : State) : State :=
  let ch := chanGet s c
  let n := (ch.count + 1) % 2 ^ 32
  let s1 := hostStore (ch.cpl.base + ch.cpl.tail) (le 1 status ++ le 1 c ++ le 2 0 ++ le 4 residue ++ le 4 crc ++ le 4 n) s
  let s2 := chanUpd c (fun x => { x with cpl := ringAdvance x.cpl 16, count := n, status := status }) s1
  if irq || status != 0 then raiseVector (4 + c) s2 else s2

/-- The CRC of a completion record (R424): of the bytes moved, 0 with CRC mode 0. -/
def recordCrc (d : Desc) (reg : BitVec 32) : Nat := if d.crc % 4 = 0 then 0 else (~~~ reg).toNat

/-- An abort of a channel (R425). -/
def abortChannel (c : Nat) (s : State) : State :=
  let ch := chanGet s c
  if ch.state = 0 || ch.state = 3 then s
  else
    let s1 := match ch.desc with
      | some d => writeCompletion c 1 (d.length - ch.moved) (recordCrc d ch.crcReg) true s
      | none => match ch.fetch with
        | some a => writeCompletion c 1 (u32 (memGet s.hostMem (a + 4) 4) 0 % 2 ^ 25) 0 true s
        | none => s
    chanUpd c (fun x => { x with state := 3, desc := none, fetch := none, staged := [], moved := 0, flushAt := none, waits := false }) s1

/-- A write into a DMA block (R417). -/
def writeDmaReg (c o v : Nat) (s : State) : State :=
  if o = 0x00 then chanUpd c (fun x => { x with ctrl := v % 16 + bits v 23 16 * 2 ^ 16 }) s
  else if o = 0x04 then doorbell c false s
  else if o = 0x08 then abortChannel c s
  else if o = 0x10 then chanUpd c (fun x => { x with head := withLow 5 x.head v, needHead := false }) s
  else if o = 0x14 then chanUpd c (fun x => { x with head := withHigh x.head v, needHead := false }) s
  else if o = 0x20 then chanUpd c (fun x => { x with cpl := writeBase false v x.cpl }) s
  else if o = 0x24 then chanUpd c (fun x => { x with cpl := writeBase true v x.cpl }) s
  else if o = 0x28 then chanUpd c (fun x => { x with cpl := writeSize 9 20 (v % 32) x.cpl }) s
  else if o = 0x2C then chanUpd c (fun x => { x with cpl := writeHead 16 (v % 2 ^ 20) x.cpl }) s
  else s

/-- All 128 counter values are latched at one instant (R418). -/
def takeSnapshot (s : State) : State := { s with cnt := { s.cnt with snap := s.cnt.val } }

/-- A write to a 32-bit register of BAR0 (R6, R411 to R419): its own behaviour, its RW fields set, or ignored. -/
def writeReg (off v : Nat) (s : State) : State :=
  match queueBlock off with
  | some (q, o) =>
    if off % 4 != 0 then violation (off + 131072 + 262144) s
    else if o < 0x100 then if queuesOpen s then takeWord q (BitVec.ofNat 32 v) .clean s else violation (off + 131072) s
    else if o = 0x100 then if queuesOpen s then closePacket q (v % 2 ^ 13) 4 s else violation (off + 131072) s
    else writeQueueReg q o v s
  | none =>
    if !bar0Assigned off || off % 4 != 0 then violation (off % 65536 + 131072 + 262144 * b2n (off % 4 != 0)) s
    else if off = 0x2000 then { s with ev := { s.ev with ring := writeBase false v s.ev.ring } }
    else if off = 0x2004 then { s with ev := { s.ev with ring := writeBase true v s.ev.ring } }
    else if off = 0x2008 then { s with ev := { s.ev with ring := writeSize 12 20 (v % 32) s.ev.ring } }
    else if off = 0x200C then { s with ev := { s.ev with ring := writeHead 32 (v % 2 ^ 20) s.ev.ring } }
    else if 0x2800 ≤ off && off ≤ 0x295C then writeMsix (off - 0x2800) v s
    else if 0x3000 ≤ off && off < 0x4000 then writeDmaReg ((off - 0x3000) / 256) (off % 256) v s
    else if off = 0x4610 then if v.testBit 0 then takeSnapshot s else s
    else if off = 0x4614 then { s with cnt := { s.cnt with mode := v.testBit 0 } }
    else if 0x4620 ≤ off && off < 0x4630 then
      { s with cnt := { s.cnt with ovf := s.cnt.ovf - (s.cnt.ovf &&& (v % 2 ^ 32 * 2 ^ (8 * (off - 0x4620)))) } }
    else if off = 0x5008 then
      if v.testBit 0 then { s with page := { s.page with violations := 0, last := 0 } } else s
    else if off = 0x5014 then
      { s with page := { s.page with alertMask := v % 64 } }
    else s

/-- A posted write takes effect, or stalls when it brings a byte of a new line and no line is free (R387, R392). -/
def takePosted (w : PostedWrite) (err : MemErr) (s : State) : State :=
  match w with
  | .qdata q word =>
    if !queuesOpen s then violation (queueBase q + 131072) s
    else if lineRoom s q then takeWord q word err s
    else { s with swiys := { s.swiys with stalled := [w] } }
  | .qend q len =>
    if !queuesOpen s then violation (queueBase q + 0x100 + 131072) s
    else lineCheck q err (closePacket q (len % 2 ^ 13) 4) s
  | .reg off v => writeReg off v s
  | .bell c host e => doorbell c e (hostCells host s)

/-- A posted write in its order: behind a stall it waits (R392). -/
def inOrder (w : PostedWrite) (err : MemErr) (s : State) : State :=
  if s.swiys.stalled.isEmpty then takePosted w err s
  else { s with swiys := { s.swiys with stalled := s.swiys.stalled ++ [w] } }

/-- A posted 32-bit write of the host; bandwidth port 60 counts its payload (R430). [log 20 DEDUCED] -/
def posted (w : PostedWrite) (err : MemErr) (s : State) : State := inOrder w err (countSrc 0x09 60 4 s)

/-- The stalled writes go on in order until one stalls again (R392). [log 20 DEDUCED] -/
def resumePosted (s : State) : State :=
  s.swiys.stalled.foldl (fun t w => inOrder w .clean t) { s with swiys := { s.swiys with stalled := [] } }

/-- The two-wire port holds a byte or a close by stretching SCL (R393). [log 23 DEDUCED] -/
def twiHold (h : TwiHeld) (s : State) : State :=
  { s with swiys := { s.swiys with
      twiHeld := some h, twiLimit := if s.swiys.stretch = 0 then none else some (s.now + s.swiys.stretch * msNs) } }

/-- A byte written to QDATA of the two-wire port (R386, R393, R394). -/
def twiByte (b : Byte) (err : MemErr) (s : State) : State :=
  let s1 := { s with swiys := { s.swiys with twiPtr := 1 } }
  if !queuesOpen s || s.swiys.twiHeld.isSome then s1
  else if lineRoom s .q3 then lineCheck .q3 err (appendOpen .q3 [b]) s1
  else twiHold (.byte b) s1

/-- The data bytes of a write transfer to QEND, at its end (R386, R394). [log 23 DEDUCED] -/
def twiClose (bytes : List Byte) (s : State) : State :=
  let s1 := { s with swiys := { s.swiys with twiPtr := 2 } }
  if !queuesOpen s || s.swiys.twiHeld.isSome then s1
  else if bytes.length = 2 then closePacket .q3 (leNat bytes) 1 s1
  else qupd s1 .q3 fun v => { v with framing := satAdd 32 v.framing 1 }

/-- What the two-wire port holds is taken once Q3 has room (R393). -/
def twiResume (s : State) : State :=
  match s.swiys.twiHeld with
  | none => s
  | some (.byte b) =>
    if lineRoom s .q3 then
      appendOpen .q3 [b] { s with swiys := { s.swiys with twiHeld := none, twiLimit := none } }
    else s
  | some (.close n) => closePacket .q3 n 1 { s with swiys := { s.swiys with twiHeld := none, twiLimit := none } }

/-- A byte read from RSP (R386): it is removed; past the record 0x00. -/
def twiRead (s : State) : State :=
  match s.swiys.q3Buf with
  | [] => { s with swiys := { s.swiys with twiPtr := 3 }, page := { s.page with readData := 0 } }
  | [] :: r => { s with swiys := { s.swiys with twiPtr := 3, q3Buf := r }, page := { s.page with readData := 0 } }
  | (b :: l) :: r =>
    { s with swiys := { s.swiys with twiPtr := 3, q3Buf := if l.isEmpty then r else l :: r },
             page := { s.page with readData := b.toNat } }

/-- What a read at a two-wire pointer returns, little-endian (R386). -/
def twiReadAt (s : State) (ptr : Nat) : List Byte :=
  match ptr with
  | 0 => le 2 (qfree s .q3)
  | 3 => ((s.swiys.q3Buf.headD []).take 1 ++ [0]).take 1
  | 4 => le 2 (rspLen s)
  | 5 => le 1 (twiStatus s)
  | _ => [0]

/-- A read of an RC register clears it (R6): EVT_LOST, and a peak as its value is taken. [log 233 DEDUCED] -/
def clearRead (off : Nat) (s : State) : State :=
  let p := (off - 0x4800) / 32
  if off = 0x2014 then { s with ev := { s.ev with lost := 0, since := false } }
  else if 0x4800 ≤ off && off ≤ 0x4FD8 && off % 32 = 16 then { s with cnt := { s.cnt with bwPeakIn := tset 0 s.cnt.bwPeakIn p 0 } }
  else if 0x4800 ≤ off && off ≤ 0x4FD8 && off % 32 = 24 then { s with cnt := { s.cnt with bwPeakOut := tset 0 s.cnt.bwPeakOut p 0 } }
  else s

/-- A 32-bit read of BAR0 with the latch of R410; one that R411 forbids reads zero and is recorded. Port 60 counts its completion (R430). -/
def readLatched (off : Nat) (s0 : State) : State :=
  let s := countSrc 0x0A 60 4 s0
  let keep (v : Nat) (t : State) : State := { t with page := { t.page with readData := v } }
  let a : Access := ⟨false, off, false, 32⟩
  if !accessOk s a then keep 0 (violation (violationWord a) s)
  else match wideValue s (off / 8 * 8) with
  | none => keep (readReg s off) (clearRead off s)
  | some v =>
    if off % 8 = 0 then keep (v % 2 ^ 32) (clearRead off { s with cnt := { s.cnt with latchKey := some off, latchVal := v / 2 ^ 32 } })
    else if s.cnt.latchKey = some (off - 4) then keep s.cnt.latchVal { s with cnt := { s.cnt with latchKey := none, latchVal := 0 } }
    else keep (v / 2 ^ 32) (clearRead (off - 4) s)

/-- A function-level reset, or PERST_N after READY (R409): DMA stops without records, BAR0 RW registers return to reset,
rings unconfigure, Q0 to Q2 are reset with cause 0. [log 26 PRESUMED] -/
def endpointReset (s : State) : State :=
  let ring0 (q : QueueId) (t : State) : State := qupd t q fun v => { v with ring := {} }
  let s1 := ring0 .q0 (ring0 .q1 (ring0 .q2 s))
  let stop (x : Channel) : Channel := { count := x.count, cur := x.cur, status := x.status, stream := x.stream }
  let s2 := { s1 with
    ev := { s1.ev with ring := {} },
    dma := s1.dma.map stop,
    cnt := { s1.cnt with mode := false },
    page := { s1.page with alertMask := 1 },
    swiys := { s1.swiys with stalled := [] },
    pcie := { s1.pcie with msix := [], pba := 0, busMaster := false, msixEnable := false, msixMask := false,
                           flr := satAdd 16 s1.pcie.flr 1 } }
  resetQueue .q2 0 none (resetQueue .q1 0 none (resetQueue .q0 0 none s2))

end Sys2Proof.Machine
end

