-- ==== Sys2Proof/Machine/Swiys.lean ====
section
/-! DEFINITION. The generic commands and the rows of the command interface (spec/15_swiys_commands.md). -/

namespace Sys2Proof.Machine

/-- The commands of a packet that may carry any parameters: only the tenant field is checked (R380). -/
def noTenant (c : Ctx) : Bool := c.pk.tenant == 0xFFFFFFFF

/-- NOP (R402). -/
def checkNop (c : Ctx) (_ : State) : Nat := firstBad [(!noTenant c, stBadParam)]
/-- NOP returns its parameters unchanged (R402). -/
def runNop (c : Ctx) (s : State) : Res := doneWith s c.pk.params
/-- NOP. -/
def execNop (pk : Packet) (s : State) : Out := .next (serve 0x0000 checkNop runNop pk s)

/-- FENCE (R403). -/
def checkFence (c : Ctx) (_ : State) : Nat :=
  firstBad [(!plainLen 4 c || decide (16 ≤ u8 c.pk.params 0) || !zeroAt c.pk.params 1 3, stBadParam)]
/-- FENCE waits outside the controller, its own queue included in its mask (R397). -/
def runFence (c : Ctx) (s : State) : Res :=
  let mask := setBit (u8 c.pk.params 0) (queueNum c.ref.queue) true
  { s := qupd s c.ref.queue fun v => { v with fence := some ⟨c.ref.sub, mask⟩ }, final := none }
/-- FENCE. -/
def execFence (pk : Packet) (s : State) : Out := .next (serve 0x0001 checkFence runFence pk s)

/-- GET_IDENTITY (R404). -/
def checkGetIdentity (c : Ctx) (_ : State) : Nat := firstBad [(!plainLen 0 c, stBadParam)]
/-- The 32-byte result of GET_IDENTITY. -/
def runGetIdentity (_ : Ctx) (s : State) : Res :=
  let v := idFw s
  doneWith s (le 2 0x1C5E ++ le 2 0x6432 ++ asciiOf [0x42, 0x30] ++ le 1 (v / 256) ++ le 1 v ++ fusedIdentity s.fw.fuses
    ++ le 1 (if s.ring.role = 0 then 0 else s.ring.role) ++ le 1 (if s.ring.role = 2 then s.ring.number.getD 0 else 0)
    ++ le 1 (modeCode s.mode.cur) ++ le 2 0 ++ le 4 (uptime s) ++ le 4 0)
/-- GET_IDENTITY. -/
def execGetIdentity (pk : Packet) (s : State) : Out := .next (serve 0x0002 checkGetIdentity runGetIdentity pk s)

/-- GET_QUEUE_STATUS (R405). -/
def checkGetQueueStatus (c : Ctx) (_ : State) : Nat :=
  firstBad [(!plainLen 4 c || decide (3 < u8 c.pk.params 0) || !zeroAt c.pk.params 1 3, stBadParam)]
/-- The 40-byte result of GET_QUEUE_STATUS; the counters clear. [log 17 DEDUCED] -/
def runGetQueueStatus (c : Ctx) (s : State) : Res :=
  let q := queueOf (u8 c.pk.params 0)
  let v := qget s q
  let flags := b2n (pointerWindow s q) + 2 * b2n (headHeld s q) + 4 * b2n (!canReserve s q || (pathConfigured s q && !v.hold.isEmpty))
    + 8 * b2n (!pathConfigured s q)
  doneWith (qset s q { v with corrected := 0, resets := 0, mismatches := 0, badCrc := 0, framing := 0, nacks := 0, unclosed := 0 })
    (le 1 (queueNum q) ++ le 1 flags ++ le 2 (qfree s q) ++ le 2 v.waiting.length ++ le 2 v.running.length ++ le 4 v.seq
      ++ le 2 v.epoch ++ le 2 0 ++ le 4 v.corrected ++ le 2 v.resets ++ le 2 v.mismatches ++ le 4 v.badCrc ++ le 4 v.framing
      ++ le 4 v.nacks ++ le 4 v.unclosed)
/-- GET_QUEUE_STATUS. -/
def execGetQueueStatus (pk : Packet) (s : State) : Out := .next (serve 0x0003 checkGetQueueStatus runGetQueueStatus pk s)

/-- RESET_QUEUE (R406). -/
def checkResetQueue (c : Ctx) (_ : State) : Nat :=
  firstBad [(!plainLen 4 c || decide (3 < u8 c.pk.params 0) || !zeroAt c.pk.params 1 3, stBadParam)]
/-- The named queue is reset under R391 with cause 0; of its own queue the OK is the first record of the new epoch. -/
def runResetQueue (c : Ctx) (s : State) : Res :=
  let q := queueOf (u8 c.pk.params 0)
  if q = c.ref.queue then { s := resetQueue q 0 (some c.ref) s, final := none } else done (resetQueue q 0 none s)
/-- RESET_QUEUE. -/
def execResetQueue (pk : Packet) (s : State) : Out := .next (serve 0x0004 checkResetQueue runResetQueue pk s)

/-- SET_QUEUE_CONFIG (R407). -/
def checkSetQueueConfig (c : Ctx) (_ : State) : Nat :=
  firstBad [(!plainLen 4 c || decide (4 ≤ u8 c.pk.params 1) || !zeroAt c.pk.params 2 2, stBadParam)]
/-- The settings of R407; the flag of Q3 records also sets or clears ALERT_MASK bit 2 (R419). [log 24 DESIGN CHOICE] -/
def runSetQueueConfig (c : Ctx) (s : State) : Res :=
  let f := u8 c.pk.params 1
  done { s with
    swiys := { s.swiys with stretch := u8 c.pk.params 0, alertQ3 := f.testBit 0, ptrAlways := f.testBit 1 },
    page := { s.page with alertMask := setBit s.page.alertMask 2 (f.testBit 0) } }
/-- SET_QUEUE_CONFIG. -/
def execSetQueueConfig (pk : Packet) (s : State) : Out := .next (serve 0x0005 checkSetQueueConfig runSetQueueConfig pk s)

/-- A raw packet as the head of its queue: submitted unless it waits; then `f` runs when the controller chooses it. [log 6 DEDUCED] -/
def serveRaw (q : QueueId) (bytes : List Byte) (f : WaitPk → State → State) (s : State) : State :=
  let s1 := if (qget s q).waiting.any (fun w => w.bytes == bytes) then s else submit q bytes s
  match (qget s1 q).waiting with
  | [] => s1
  | w :: _ => if chosen s1 = some q && w.bytes == bytes then f w s1 else s1

/-- INVALID_PACKET (R382): the head packet that fails a header check is answered with the status of the failing step. -/
def execInvalidPacket (q : QueueId) (bytes : List Byte) (s : State) : Out :=
  .next (serveRaw q bytes (fun w t =>
    let st := headerStatus w.bytes t
    if st = stOk then t else refuseHeader ⟨q, w.sub⟩ w st (takeHead q w t)) s)

/-- RELAY_REQUEST (R383, R447): a packet for a worker passes steps 1 to 6, takes a relay tag and its first copy is sent. -/
def execRelayRequest (q : QueueId) (bytes : List Byte) (s : State) : Out :=
  .next (serveRaw q bytes (fun w t =>
    if headerStatus w.bytes t = stOk && u8 w.bytes 4 != 0 && q != .relay then
      relayStart (u8 w.bytes 4) w.bytes ⟨q, w.sub⟩ none (takeHead q w t)
    else t) s)

/-- QDATA_WRITE (R387, R389, R390, R392, R394). -/
def execQdataWrite (q : QueueId) (word : BitVec 32) (err : MemErr) (s : State) : Out :=
  .next (match q with
    | .q3 | .relay => s
    | _ => posted (.qdata q word) err s)

/-- QUEUE_WRITE_RESUME (R392, R393). -/
def execQueueWriteResume (q : QueueId) (s : State) : Out :=
  .next (match q with
    | .q3 => twiResume s
    | .relay => s
    | _ => resumePosted s)

/-- QEND (R387). -/
def execQend (q : QueueId) (len : Nat) (err : MemErr) (s : State) : Out :=
  .next (match q with
    | .q3 | .relay => s
    | _ => posted (.qend q len) err s)

/-- TWI_QDATA_WRITE (R386). -/
def execTwiQdataWrite (byte : Byte) (err : MemErr) (s : State) : Out := .next (twiByte byte err s)

/-- TWI_QEND_WRITE (R386). -/
def execTwiQendWrite (bytes : List Byte) (s : State) : Out := .next (twiClose bytes s)

/-- TWI_RSP_READ (R386). -/
def execTwiRspRead (s : State) : Out := .next (twiRead s)

/-- TWI_STRETCH_EXPIRY (R393): the held byte is NACKed and counted. [log 23 DEDUCED] -/
def execTwiStretchExpiry (s : State) : Out :=
  .next (match s.swiys.twiHeld, s.swiys.twiLimit with
    | some _, some t =>
      let s1 := advanceTo t s
      qupd { s1 with swiys := { s1.swiys with twiHeld := none, twiLimit := none } } .q3
        fun v => { v with nacks := satAdd 32 v.nacks 1 }
    | _, _ => s)

/-- RESPONSE_WRITE (R385, R386, R413): the oldest held record of a queue is written once room exists. -/
def execResponseWrite (q : QueueId) (s : State) : Out := .next (flushRecord q s)

/-- POINTER_WINDOW_CLOSE (R390): the window of a queue closes, or its last comparison finds a mismatch. [log 21 DEDUCED] -/
def execPointerWindowClose (q : QueueId) (mismatch : Bool) (s : State) : Out :=
  .next (match (qget s q).window with
    | none => s
    | some t =>
      let s1 := advanceTo t s
      if mismatch then resetQueue q 1 none s1 else qupd s1 q fun v => { v with window := none })

/-- Every command of a queue submitted before the FENCE has written its final record (R397). -/
def fencePassed (f : FenceWait) (v : Queue) : Bool :=
  !(v.waiting.any fun w => subBefore w.sub f.sub) && !(v.running.any fun r => subBefore r.sub f.sub)
    && !(v.hold.any fun r => r.status != stAccepted && subBefore r.sub f.sub)

/-- FENCE_COMPLETE (R397): the FENCE that waits on a queue writes its final record when its condition holds. -/
def execFenceComplete (q : QueueId) (s : State) : Out :=
  .next (match (qget s q).fence with
    | none => s
    | some f =>
      if [QueueId.q0, .q1, .q2, .q3].all (fun p => !f.mask.testBit (queueNum p) || fencePassed f (qget s p))
          && (q != .relay || fencePassed f (qget s q)) then
        complete ⟨q, f.sub⟩ stOk [] (qupd s q fun v => { v with fence := none })
      else s)

end Sys2Proof.Machine
end

