-- ==== Sys2Proof/Machine/TxOps.lean ====
section
/-! DEFINITION. The shared operations of the line plan and of the transmitters: fill arithmetic, spacing rules, squelch and release (R27 to
R63). -/

namespace Sys2Proof.Machine

/-- A check in which DORMANT gives BAD_STATE and a mode transition gives no BUSY. [log 14 DEDUCED] -/
def gatedIdle (s : State) (bad : Bool) (l : List (Bool × Nat)) : Nat :=
  firstBad ((bad, stBadParam) :: (s.mode.cur == .dormant, stBadState) :: l)

/-! The line plan (R27 to R41). -/

/-- The range of H x 64 of a format (R27). -/
def hRange : Nat → Nat × Nat
  | 0 => (128, 128)
  | 1 => (256, 256)
  | 2 => (160, 248)
  | 3 => (224, 368)
  | _ => (320, 480)

/-- Coded bits of a carrier and its shaping capacity over a common time, as integers whose ratio is that of R34. -/
def codedNum (n : Nat) : Nat := n * 13365 * 9513 * 1048576

/-- The shaping capacity of R33 for H x 64 and Rs x 256 over the same time. -/
def shapingDen (h64 rs256 : Nat) : Nat := 33030144 * h64 * rs256

/-- The symbol rate is in range (R28). -/
def rsOk (rs256 : Nat) : Bool := decide (15360 ≤ rs256) && decide (rs256 ≤ 86016)

/-- A carrier is unused (R41). -/
def unused (p : CarrierPlan) : Bool := p == {}

/-- The fill arithmetic is possible (R41). -/
def fillPossible (p : CarrierPlan) : Bool := decide (1 ≤ p.n) && decide (p.n ≤ 8) && rsOk p.rs256 && p.h64 != 0

/-- The mean fill x 65,536, rounded toward minus infinity and kept in 32 bits (R34, R41); 0 where it is not possible. -/
def fillWord (p : CarrierPlan) : Int :=
  if !fillPossible p then 0
  else
    let d : Int := shapingDen p.h64 p.rs256
    clampInt (-2147483648) 2147483647 ((252 * 65536 * (d - codedNum p.n)).fdiv d)

/-- The mean fill lies below 0 (R34). -/
def fillLow (p : CarrierPlan) : Bool := fillPossible p && decide (shapingDen p.h64 p.rs256 < codedNum p.n)

/-- The mean fill lies above 3.5 (R34). -/
def fillHigh (p : CarrierPlan) : Bool :=
  fillPossible p && decide (7 * shapingDen p.h64 p.rs256 + 504 * codedNum p.n < 504 * shapingDen p.h64 p.rs256)

/-- The mean fill rounded down, for a plan that R34 accepts. -/
def fillFloor (p : CarrierPlan) : Nat :=
  let d := shapingDen p.h64 p.rs256
  if d = 0 then 0 else 252 * (d - codedNum p.n) / d

/-- The mean fill rounded up. -/
def fillCeil (p : CarrierPlan) : Nat :=
  let d := shapingDen p.h64 p.rs256
  if d = 0 then 0 else (252 * (d - codedNum p.n) + d - 1) / d

/-- The smallest H x 64 of a format that gives a fill of 0 or more (R41); 0xFFFF where none does. -/
def hMin (p : CarrierPlan) : Nat :=
  if !(decide (1 ≤ p.n) && decide (p.n ≤ 8) && rsOk p.rs256) then 0
  else
    let ok (h : Nat) : Bool := decide (codedNum p.n ≤ shapingDen h p.rs256)
    if ok 128 then 128 else ((List.range 321).map (· + 160)).find? ok |>.getD 0xFFFF

/-- The spacing rule of a traffic mode (R37) for both plans, spacing, fibre and roll-offs; a rule that involves an unused
carrier is skipped. Only a fibre value of 1 is a shared fibre, so another value is left to R36 in the modes without a rule for separate
fibres. -/
def spacingOk (m : Mode) (a b : CarrierPlan) (spacing : Int) (fibre betaA betaB : Nat) : Bool :=
  if unused a || unused b then true
  else match m with
    | .independent | .bonded | .merge | .regenerate =>
      fibre != 1 || decide ((103 + max betaA betaB) * (a.rs256 + b.rs256) ≤ 200 * spacing.natAbs)
    | .twin =>
      fibre == 1 && a.rs256 == b.rs256 && betaA == betaB && decide (102 * a.rs256 ≤ 100 * spacing.natAbs)
        && decide ((92 + betaA) * a.rs256 ≤ 100 * spacing.natAbs)
    | _ => true

/-- The held plan meets the spacing rule of a mode with given roll-offs. -/
def planMeets (s : State) (m : Mode) (betaA betaB : Nat) : Bool :=
  spacingOk m s.plan.car.a s.plan.car.b s.plan.spacing s.plan.fibre betaA betaB

/-- Spacing and fibre are consistent (R36, R41). With both carriers unused a non-zero spacing or fibre is refused as with one. [log 199 DESIGN CHOICE] -/
def fibreOk (a b : CarrierPlan) (spacing : Int) (fibre : Nat) : Bool :=
  if unused a || unused b then spacing == 0 && fibre == 0
  else (fibre == 0 && spacing == 0) || (fibre == 1 && decide (15360 ≤ spacing.natAbs) && decide (spacing.natAbs ≤ 512000))

/-- The checks of one carrier by reason code (R41): 1 n, 2 format, 3 H, 4 Rs, 5 and 6 fill. -/
def carrierFails (p : CarrierPlan) (reason : Nat) : Bool :=
  if unused p then false
  else match reason with
    | 1 => p.n == 0 || decide (8 < p.n)
    | 2 => decide (4 < p.fmt)
    | 3 => decide (p.fmt ≤ 4) && (decide (p.h64 < (hRange p.fmt).1) || decide ((hRange p.fmt).2 < p.h64))
    | 4 => !rsOk p.rs256
    | 5 => fillLow p
    | _ => fillHigh p

/-- Reason and carrier of a refused plan (R41): the lowest reason at which a check fails, carrier A first; (0, 0) when it is
accepted. -/
def planReason (s : State) (a b : CarrierPlan) (spacing : Int) (fibre : Nat) (reservedBad : Bool) : Nat × Nat :=
  match [1, 2, 3, 4, 5, 6].find? (fun r => carrierFails a r || carrierFails b r) with
  | some r => (r, if carrierFails a r then 0 else 1)
  | none =>
    if !spacingOk s.mode.cur a b spacing fibre s.spire.a.tx.beta100 s.spire.b.tx.beta100 then (7, 2)
    else if !fibreOk a b spacing fibre then (8, 2)
    else if reservedBad then (9, 2) else (0, 0)

/-- The 16-byte result of R41. -/
def planResult (a b : CarrierPlan) (r : Nat × Nat) : List Byte :=
  leS 4 (fillWord a) ++ leS 4 (fillWord b) ++ le 2 (hMin a) ++ le 2 (hMin b) ++ le 1 r.1 ++ le 1 r.2 ++ le 2 0

/-- A plan of a carrier from its parameter fields. -/
def planField (p : List Byte) (o : Nat) : CarrierPlan := ⟨u8 p o, u8 p (o + 1), u16 p (o + 2), u32 p (o + 4)⟩

/-- The fields of a plan of a carrier. -/
def planBytes (p : CarrierPlan) : List Byte := le 1 p.n ++ le 1 p.fmt ++ le 2 p.h64 ++ le 4 p.rs256

/-- Every Spire domain of a carrier is OFF. [log 61 DESIGN CHOICE, 83 DEDUCED] -/
def spireOff (s : State) (c : Carrier) : Bool := (spireDoms c).all fun d => (domGet s d).state == .off

/-- Some Spire domain of a carrier is ON. [log 61 DESIGN CHOICE] -/
def spireOn (s : State) (c : Carrier) : Bool := (spireDoms c).any (domOn s)

/-- The carrier byte names a carrier. -/
def carrierBad (p : List Byte) : Bool := decide (1 < u8 p 0)

/-- The clip alarm of a converter over one 1 ms interval (R51, R71): raised above `up` in 10^6 samples, cleared after 10
consecutive intervals below 1 in 10^6. The answer tells whether it was raised or cleared. [log 65 DEDUCED] -/
def clipStep (up clipped samples : Nat) (a : Option Nat) : Option Nat × Option Bool :=
  match a with
  | none => if up * samples < clipped * 1000000 then (some 0, some true) else (none, none)
  | some n =>
    if clipped * 1000000 < samples then (if n + 1 = 10 then (none, some false) else (some (n + 1), none)) else (some 0, none)

/-! Transmitters (R53 to R57). -/

/-- A transmitter. -/
def txGet (s : State) (c : Carrier) : Tx := (spireGet s c).tx

/-- The state with a transmitter updated. -/
def txUpd (c : Carrier) (f : Tx → Tx) (s : State) : State := spireUpd c (fun x => { x with tx := f x.tx }) s

/-- A safety squelch is on: an input asserted or PAIR_FAULT latched (R56). -/
def safetyCause (s : State) : Bool := s.pins.safeA || s.pins.safeB || s.pins.pairFault

/-- The cause field of a transmitter (R55); it is 0 until the Cupola has started. -/
def txCauses (s : State) (c : Carrier) : Nat :=
  if s.pins.poreset then 0
  else b2n s.pins.safeA + 2 * b2n s.pins.safeB + 4 * b2n s.pins.pairFault + 8 * b2n (txGet s c).latched
    + 16 * b2n (txGet s c).settleAt.isSome

/-- TXOFF of a carrier is asserted (R53, R54, R56 to R58). -/
def txOffAsserted (s : State) (c : Carrier) : Bool :=
  let t := txGet s c
  s.pins.poreset || s.therm.shutdown || safetyCause s ||
    match t.state with
    | .running => false
    | .squelched => t.latched || t.settleAt.isNone
    | _ => true

/-- A level of an output pin. -/
inductive PinLevel where
  | low
  | high
  | highZ
  deriving DecidableEq, Repr

/-- What the device drives on TXOFF of a carrier (R54): high impedance while PORESET_N is asserted or a Cupola rail holds the device in
reset, else high where TXOFF is asserted. -/
def txOffPin (s : State) (c : Carrier) : PinLevel :=
  if s.pins.poreset then .highZ else if txOffAsserted s c then .high else .low

/-- The code of a transmitter state (R63). -/
def txCode : TxState → Nat
  | .off => 0
  | .stopped => 1
  | .running => 2
  | .squelched => 3

/-- A transmitter starts its release (R57 steps 1 and 2): it waits under LATCH, or the settle delay runs. The causes are tracked in STOPPED
as well. The delay is the T_s read now; a T_s written while it runs applies to later releases. [log 200 DESIGN CHOICE] -/
def startRelease (c : Carrier) (s : State) : State :=
  txUpd c (fun t =>
    if t.state != .squelched && t.state != .stopped then t
    else if t.latch then { t with latched := true, settleAt := none }
    else { t with settleAt := some (s.now + t.settle * msNs) }) s

/-- A safety cause reaches a transmitter: it squelches, and a release in progress goes back to its start (R56, R57). -/
def squelchTx (c : Carrier) (s : State) : State :=
  txUpd c (fun t => { t with
    state := if t.state = .running then .squelched else t.state, latched := false, settleAt := none, out := [] }) s

/-- The safety causes have changed from `old`: both carriers squelch, TX_SQUELCH is posted once when the safety squelch
begins (R56), and a release starts when it ends (R57). [log 62 DEDUCED] -/
def noteSafety (old s : State) : State :=
  if safetyCause s then
    let s1 := squelchTx .b (squelchTx .a s)
    if safetyCause old then s1 else postEv 0x0201 [txCauses s1 .a] s1
  else if safetyCause old then startRelease .b (startRelease .a s)
  else s

/-- A transmitter whose domains are on enters RUNNING at a mode boundary, or SQUELCHED while a cause is set (R53); a LATCH goes on waiting
for SET_TX_STATE RUN (R57). -/
def boundaryTx (c : Carrier) (s : State) : State :=
  txUpd c (fun t =>
    if t.state = .off then t
    else if safetyCause s || t.latched || t.settleAt.isSome then { t with state := .squelched }
    else { t with state := .running }) s

/-- A transmitter is commanded to RUNNING (R53, R57, R62): any cause gives SQUELCHED, and LATCH alone starts the release. [log 62 DEDUCED] -/
def runTx (c : Carrier) (s : State) : State :=
  txUpd c (fun t =>
    if t.state = .off then t
    else if safetyCause s then { t with state := .squelched, latched := false, settleAt := none }
    else if t.latched then { t with state := .squelched, latched := false, settleAt := some (s.now + t.settle * msNs) }
    else if t.settleAt.isSome then { t with state := .squelched }
    else { t with state := .running }) s

/-- A transmitter is commanded to STOPPED (R53, R57); its causes go on being tracked. [log 62 DEDUCED] -/
def stopTx (c : Carrier) (s : State) : State :=
  txUpd c (fun t => if t.state = .off then t else { t with state := .stopped, out := [] }) s

/-- The TXDSP and DAC domains of a carrier are ON (R53). -/
def txPowered (s : State) (c : Carrier) : Bool := domOn s (dacDom c) && domOn s (txdspDom c)

/-- A transmitter follows its domains (R53): STOPPED once both are ON, OFF when one is not; calibration terms are not kept. A TX_CLIP
that is raised then ends without a clear event. [log 201 DESIGN CHOICE] -/
def settleTx (c : Carrier) (s : State) : State :=
  let t := txGet s c
  if txPowered s c then
    if t.state = .off then
      txUpd c (fun t => { t with
        state := .stopped, corrUse := t.corr, rmsUse := t.rms, toneUse := false, mNow := 0, mNext := 0,
        coded := {}, hist := [[], [], [], []], phase := 0, fir := [[], [], [], []], clipNow := [0, 0, 0, 0] }) s
    else s
  else if t.state = .off then s
  else
    txUpd c (fun t => { t with
      state := .off, settleAt := none, latched := false, term := List.replicate 4 {}, toneUse := false, swingRamp := none,
      clipAlarm := [none, none, none, none], out := [] }) s

/-- The full-scale swing now (R51): a change ramps linearly over 100 us. -/
def swingNow (s : State) (c : Carrier) : Int :=
  let t := txGet s c
  match t.swingRamp with
  | some (old, at_) =>
    if s.now < at_ + 100000 then (old : Int) + ((t.swing : Int) - old) * (s.now - at_ : Nat) / 100000 else t.swing
  | none => t.swing

/-! The transmit chain (R43 to R52). -/

/-- The taps of the pulse-shaping filter (R47). -/
def shapingTaps (t : Tx) : List Int := if t.loaded then mirroredTaps t.taps else computedTaps t.beta100

/-- What one channel yields in a superframe: its codes before clipping, and the memories of its filters. -/
structure ChanOut where
  codes : List Int
  hist  : List Int
  phase : Nat
  fir   : List Int

/-- Channel `i` of a transmitter over the symbols of a superframe (R47, R49, R51, R52): shaping, pre-emphasis, skew, level with gain,
DC offset, tone. -/
def chanRun (t : Tx) (taps : List Int) (i : Nat) (xs : List Int) : ChanOut :=
  let ch := t.corrUse.getD i {}
  let cal := t.term.getD i {}
  let sh := shapeSamples taps t.phase (t.hist.getD i []) xs
  let pre := firSamples ch.pre (t.fir.getD i []) sh.1
  { codes := scaleSamples t.rmsUse (ch.gain + cal.gain) (ch.dc + cal.dc) (if t.toneUse && t.state == .running then toneCodes t.rmsUse else 0)
      (skewSamples (ch.skew + cal.skew) pre)
    hist := sh.2.2, phase := sh.2.1, fir := (sh.1.reverse.take 14) }

/-- The four dimensions of symbols (R43). -/
def symDims (l : List Sym) : List (List Int) := [l.map (·.xi), l.map (·.xq), l.map (·.yi), l.map (·.yq)]

/-- The transmitter over the symbols of a superframe: what its DACs send, the samples clipped, the memories kept. -/
def txRun (syms : List Sym) (t : Tx) : Tx :=
  let taps := shapingTaps t
  let r := (symDims syms).zipIdx.map fun e => chanRun t taps e.2 e.1
  let clipped := r.map fun x => clippedCount x.codes
  { t with
    out := if t.state == .running then r.map fun x => x.codes.map clipCode else []
    clips := List.zipWith (satAdd 32) t.clips clipped
    clipNow := List.zipWith (· + ·) t.clipNow clipped
    hist := r.map (·.hist)
    fir := r.map (·.fir)
    phase := (r.head?.map (·.phase)).getD t.phase }

/-- The coded bits of a superframe leave the FIFO (R43); bits that it does not hold the manual leaves open. [log 202 DESIGN CHOICE] -/
def takeCoded (c : Carrier) (n : Nat) (s : State) : Nat × State :=
  let q := (txGet s c).coded
  let s1 := txUpd c (fun t => { t with coded := q.drop n }) s
  if n ≤ q.len then (q.bits % 2 ^ n, s1)
  else (q.bits + Config.freeNat 43 s1.free % 2 ^ (n - q.len) * 2 ^ q.len, { s1 with free := s1.free + 1 })

/-- The samples of a DAC in 1 ms (R47): fs = Rs x 8 / 7. -/
def dacSamples (p : CarrierPlan) : Nat := p.rs256 * 8000000 / (7 * 256)

end Sys2Proof.Machine
end

