-- ==== Sys2Proof/Machine/LineOps.lean ====
section
/-! DEFINITION. The shared operations of the decoder, of the framer's alignment and of the acquisition machine (R113 to R117, R136, R137,
R140, R145, R165, R166). -/

namespace Sys2Proof.Machine

/-- The Spire parts updated one by one. -/
def rxUpd (c : Carrier) (f : Rx → Rx) (s : State) : State := spireUpd c (fun x => { x with rx := f x.rx }) s
/-- The calibration of a Spire updated. -/
def calUpd (c : Carrier) (f : Cal → Cal) (s : State) : State := spireUpd c (fun x => { x with cal := f x.cal }) s
/-- The acquisition machine of a Spire updated. -/
def acqUpd (c : Carrier) (f : Acq → Acq) (s : State) : State := spireUpd c (fun x => { x with acq := f x.acq }) s
/-- The equaliser of a Spire updated. -/
def eqUpd (c : Carrier) (f : Eq → Eq) (s : State) : State := spireUpd c (fun x => { x with eq := f x.eq }) s

/-! The decoder. -/

/-- The iteration limit in force (R140). -/
def iEff (f : Fec) : Nat := max (min f.set.iMax f.set.iFloor) (f.set.iMax - f.delta)

/-- The pre-FEC BER threshold of an iteration limit in 10^-9 (R140); the manual gives it for even limits from 4 on. [log 81 DEDUCED] -/
def berThreshold (i : Nat) : Nat :=
  match i with
  | 16 => 24000000
  | 14 => 23400000
  | 12 => 22500000
  | 10 => 21200000
  | 8 => 19500000
  | 6 => 17000000
  | 4 => 13000000
  | _ => Config.freeNat 140 i

/-- FEC_THROTTLE at each change of the iteration limit in force (R140). [log 82 DEDUCED] -/
def noteIEff (c : Carrier) (old : Nat) (s : State) : State :=
  let i := iEff (lineGet s c).fec
  if i = old then s else postEv 0x0301 [carrierNum c, i] s

/-- The reduction rises by 2 unless the limit in force is at its floor (R140). -/
def raiseDelta (f : Fec) : Fec :=
  if min f.set.iMax f.set.iFloor < iEff f then { f with delta := min 12 (f.delta + 2) } else f

/-- A throttle step that is due (R140): up while the warning stays active, down after it. [log 87 DEDUCED] -/
def throttleStep (c : Carrier) (s : State) : State :=
  let f := (lineGet s c).fec
  match f.throttleAt with
  | none => s
  | some t =>
    let s1 := advanceTo t s
    if s1.therm.warn then
      noteIEff c (iEff f) (fecUpd c (fun f => { (raiseDelta f) with throttleAt := some (s1.now + 10 * msNs) }) s1)
    else
      let d := f.delta - 2
      noteIEff c (iEff f) (fecUpd c (fun f => { f with
        delta := d,
        throttleAt := if d = 0 then none else some (s1.now + 100 * msNs) }) s1)

/-- The throttle warning is raised (R140). [log 87 DEDUCED] -/
def throttleRaise (c : Carrier) (s : State) : State :=
  let f := (lineGet s c).fec
  if !f.set.throttle || !domOn s (fecDom c) then s
  else noteIEff c (iEff f) (fecUpd c (fun f => { (raiseDelta f) with throttleAt := some (s.now + 10 * msNs) }) s)

/-- The throttle warning clears (R140). -/
def throttleClear (c : Carrier) (s : State) : State :=
  fecUpd c (fun f => { f with throttleAt := if f.delta = 0 then none else some (s.now + 100 * msNs) }) s

/-- The reduction takes the limit in force to its floor at once (R479). [log 83 DEDUCED] -/
def throttleFull (c : Carrier) (s : State) : State :=
  let f := (lineGet s c).fec
  if !f.set.throttle || !domOn s (fecDom c) then s
  else noteIEff c (iEff f) (fecUpd c (fun f => { f with delta := max f.delta (min 12 (f.set.iMax - f.set.iFloor)) }) s)

/-- The running windows of FEC-DEG and FEC-FAIL are neutral (R145). [log 84 DEDUCED] -/
def neutralize (c : Carrier) (s : State) : State :=
  fecUpd c (fun f => { f with degW := { f.degW with neutral := true }, failW := { f.failW with neutral := true } }) s

/-- Every running calibration window of a carrier no longer counts (R85). [log 70 DEDUCED] -/
def spoilCal (c : Carrier) (s : State) : State := calUpd c (fun k => { k with spoiled := 0x1FF }) s

/-- The received stream ends: what was received of it is gone (R137). -/
def endStream (f : Fec) : Fec := { f with inp := {}, skip := 0, raw := 0, rawLen := 0 }

/-- The decoder's work on the received stream starts anew (R136, R137): the blocks it holds are given up, the stream goes on. -/
def emptyDecoder (f : Fec) : Fec := { f with window := [], chan := [], mem := {}, chPast := [] }

/-! The framer. -/

/-- The loop set on a carrier. -/
def lineLoop (s : State) (c : Carrier) : Option Nat := (pget s.test.line c).loop

/-- The receive framer of a carrier takes its own transmit frames (R523, loop 2). -/
def framerLooped (s : State) (c : Carrier) : Bool := lineLoop s c == some 2

/-- The framer of a carrier may align (R164): PD02 is on, and the decoder is aligned or the frames come from its own
transmitter. -/
def framerFed (s : State) (c : Carrier) : Bool := domOn s 2 && (alignedOn s c || framerLooped s c)

/-- Messages with their uncorrectable flags reach the framer (R135, R164); a framer that may not align passes them by. -/
def deliver (c : Carrier) (ws : List (Nat × Bool)) (s : State) : State :=
  frmUpd c (fun f => { f with words := if framerFed s c then f.words ++ ws else [] }) s


/-- The alignment state goes to HUNT (R165): leaving SYNC declares LOF and ends LOM (R166). [log 85 DEDUCED] -/
def frmHunt (c : Carrier) (s : State) : State :=
  let was := syncOn s c
  let s1 := frmUpd c (fun f => { f with
    align := .hunt, goodRun := 0, rising := false, badRun := 0, misRun := 0, matchRun := 0, lom := false, prevBip := none, bei := 0,
    trace := { f.trace with cycle := none },
    cnt := { f.cnt with lof := if was then satAdd 16 f.cnt.lof 1 else f.cnt.lof } }) s
  if was then neutralize c (spoilCal c (rxUpd c (fun r => { r with lofArose := true }) s1)) else s1

/-- The decoder of a carrier is no longer aligned: the carrier left LOCKED (R137). -/
def unlockFec (c : Carrier) (s : State) : State :=
  frmHunt c (pmSpoil c (neutralize c (eqUpd c (fun e => { e with turbo := [] })
    (fecUpd c (fun f => { (emptyDecoder f) with aligned := false, hunting := false, badRun := 0 }) s))))

/-- A full hunt starts and is counted (R136, R137, R147). -/
def beginHunt (c : Carrier) (s : State) : State :=
  fecUpd c (fun f => { f with hunting := true, cnt := { f.cnt with hunts := satAdd 16 f.cnt.hunts 1 } }) (unlockFec c s)

/-! Acquisition (R113 to R117). -/

/-- The code of an acquisition state (R113). -/
def acqCode : AcqState → Nat
  | .idle => 0
  | .waitSignal => 1
  | .cdScan => 2
  | .freqCoarse => 3
  | .timing => 4
  | .eqBlind => 5
  | .sfSync => 6
  | .freqFine => 7
  | .phase => 8
  | .locked => 9
  | .tone => 10

/-- The timeout of a state in ns (R113). -/
def acqTimeout : AcqState → Option Nat
  | .cdScan => some (5 * msNs)
  | .freqCoarse => some 500000
  | .timing => some msNs
  | .eqBlind => some (2 * msNs)
  | .sfSync => some msNs
  | .freqFine => some 500000
  | .phase => some 500000
  | .tone => some msNs
  | _ => none

/-- The place of a state's time in the result of R121; TONE counts with FREQ_COARSE. -/
def acqSlot (st : AcqState) : Option Nat :=
  let k := acqCode st
  if k = 10 then some 2 else if 1 ≤ k && k ≤ 8 then some (k - 1) else none

/-- The time spent in the state that is left is noted for a pending RESTART_ACQUISITION. -/
def acqSpend (s : State) (a : Acq) : Acq :=
  match a.restart, acqSlot a.state with
  | some r, some k => { a with restart := some { r with times := lupd r.times k (· + (s.now - max a.since r.start)) } }
  | _, _ => a

/-- The machine enters a state. -/
def acqEnter (c : Carrier) (st : AcqState) (s : State) : State :=
  acqUpd c (fun a =>
    let b := acqSpend s a
    { b with
      state := st, since := s.now, toneWaits := false,
      deadline := (acqTimeout st).map (· + s.now),
      restart := b.restart.map fun r => { r with waitAt := if st = .waitSignal then some (s.now + secNs) else none } }) s

/-- The mode in which the equaliser adapts (R102): blind in EQ_BLIND, by tracking from PHASE on, else not at all: its taps hold while a warm path
goes through TIMING, and in SF_SYNC and FREQ_FINE. [log 227 DEDUCED] -/
def eqMode (s : State) (c : Carrier) : EqMode :=
  match (spireGet s c).acq.state with
  | .eqBlind => .blind
  | .phase | .locked => .tracking
  | _ => .idle

/-- A pending RESTART_ACQUISITION completes with the 40-byte result of R121. -/
def finishRestart (c : Carrier) (s : State) : State :=
  let a := acqSpend s (spireGet s c).acq
  match a.restart with
  | none => s
  | some r =>
    let res := le 1 (b2n (a.state == .locked)) ++ le 1 (acqCode a.state) ++ le 1 (min 4 a.attempt) ++ le 1 0
      ++ ((r.times ++ List.replicate 8 0).take 8).flatMap (fun t => le 4 (t / 1000)) ++ le 4 ((s.now - r.start) / 1000)
    complete r.ref stOk res (acqUpd c (fun a => { a with restart := none }) s)

/-- The timing loop of a carrier follows its conditions (R74); leaving TRACK ends the reference and spoils the windows of R85. -/
def setTiming (c : Carrier) (t : TimingState) (s : State) : State :=
  let was := (spireGet s c).rx.timing
  if was == t then s
  else
    let s1 := rxUpd c (fun r => { r with timing := t }) s
    if was == .track then evaluateRef 0 (spoilCal c s1) else s1

/-- LOS or LOC holds the timing correction (R74). -/
def holdTiming (c : Carrier) (s : State) : State :=
  let t := (spireGet s c).rx.timing
  if t == .acquire || t == .track then setTiming c .hold s else s

/-- LOC is declared (R114, R116). [log 77 DEDUCED] -/
def declareLoc (c : Carrier) (s : State) : State :=
  neutralize c (spoilCal c (holdTiming c (acqUpd c (fun a => { a with loc := true }) s)))

/-- What leaving LOCKED ends: the stream of soft values, the passes in flight (R110), alignment, validity of the estimates; the time is kept for
R115. -/
def leaveLocked (c : Carrier) (s : State) : State :=
  if !lockedOn s c then s
  else
    let s1 := unlockFec c (eqUpd c (fun e => { e with
      estValid := false, held := [], coded := 0, dropState := satAdd 32 e.dropState e.turbo.length }) (acqUpd c (fun a => { a with lastLocked := some s.now })
      { s with plan := { s.plan with measValid := false } }))
    rxUpd c (fun r => { r with pilotErr := [], data := [] }) (fecUpd c endStream s1)

/-- CD_SCAN is entered: the CD fields apply (R117). -/
def enterScan (c : Carrier) (s : State) : State :=
  acqEnter c .cdScan (eqUpd c (fun e => { e with
    use := { e.use with cdMode := e.set.cdMode, centre := e.set.centre, half := e.set.half } }) s)

/-- A cycle starts at CD_SCAN with attempt 1 (R114). -/
def fullCycle (c : Carrier) (s : State) : State :=
  enterScan c (acqUpd c (fun a => { a with attempt := 1, cands := [], warm := none, warmFine := false }) s)

/-- The warm path enters TIMING with everything held (R116). -/
def warmTiming (c : Carrier) (s : State) : State :=
  setTiming c .acquire (acqEnter c .timing (acqUpd c (fun a => { a with warmFine := false, attempt := 1 }) s))

/-- The warm path starts (R116). -/
def warmPath (c : Carrier) (s : State) : State :=
  warmTiming c (acqUpd c (fun a => { a with warm := some s.now }) s)

/-- WAIT_SIGNAL is left when LOS is not declared (R115): by the warm path with its fine CD stage, or by a full cycle. -/
def leaveWait (c : Carrier) (s : State) : State :=
  let a := (spireGet s c).acq
  let recent := match a.lastLocked with
    | some t => decide (s.now ≤ t + 60 * secNs)
    | none => false
  if recent && decide ((spireGet s c).eq.set.cdMode ≤ 1) then
    enterScan c (acqUpd c (fun a => { a with warm := some s.now, warmFine := true, attempt := 1, cands := [] }) s)
  else fullCycle c s

/-- The machine waits for the signal, and goes on at once where it is there (R113). [log 77 DEDUCED] -/
def enterWait (c : Carrier) (s : State) : State :=
  let s1 := acqEnter c .waitSignal (holdTiming c s)
  if (lineGet s1 c).frm.los then s1 else leaveWait c s1

/-- The machine starts once the domains are up and calibration has ended (R113). -/
def startAcq (c : Carrier) (s : State) : State :=
  if (spireGet s c).acq.state == .idle && rxPowered s c then enterWait c s else s

/-- The machine returns to IDLE (R117, R121); when LOCKED was last held is forgotten with it, so that WAIT_SIGNAL is then left by a full
cycle (R115). [log 220 DESIGN CHOICE] -/
def acqIdle (c : Carrier) (s : State) : State :=
  if (spireGet s c).acq.state == .idle then s
  else
    let s1 := finishRestart c (acqEnter c .idle (leaveLocked c s))
    acqUpd c (fun a => { a with attempt := 1, cands := [], warm := none, warmFine := false, fullRange := false, lastLocked := none }) s1

/-- A cycle has failed (R114): LOC, a count, the completion of a RESTART_ACQUISITION, and a new cycle with a full range. -/
def failCycle (c : Carrier) (s : State) : State :=
  let s1 := declareLoc c (acqUpd c (fun a => { a with cyclesFailed := satAdd 16 a.cyclesFailed 1, fullRange := true }) s)
  fullCycle c (finishRestart c s1)

/-- The attempts of a cycle (R114). -/
def attempts (s : State) (c : Carrier) : Nat := if (spireGet s c).eq.use.tone then 4 else 3

/-- The current attempt has failed (R114): the warm path gives way to a full cycle (R116), else the next candidate. -/
def failAttempt (c : Carrier) (s : State) : State :=
  let a := (spireGet s c).acq
  if a.warm.isSome then fullCycle c s
  else if a.state == .cdScan || a.state == .tone || attempts s c ≤ a.attempt then failCycle c s
  else enterScan c (acqUpd c (fun a => { a with attempt := a.attempt + 1 }) s)

/-- A cause takes the carrier out of LOCKED (R115, R116): LOS waits for the signal, any other cause declares LOC and takes
the warm path. -/
def loseLock (c : Carrier) (byLos : Bool) (s : State) : State :=
  if !lockedOn s c then s
  else
    let s1 := acqUpd c (fun a => { a with locksLost := satAdd 16 a.locksLost 1 }) (leaveLocked c s)
    if byLos then acqEnter c .waitSignal (holdTiming c s1) else warmPath c (declareLoc c s1)

/-- LOS is declared in a state from 2 to 10 (R115). -/
def acqLos (c : Carrier) (s : State) : State :=
  let a := (spireGet s c).acq
  if a.state == .locked then loseLock c true s
  else if a.state == .idle || a.state == .waitSignal then holdTiming c s
  else acqEnter c .waitSignal (holdTiming c (acqUpd c (fun a => { a with warm := none, warmFine := false }) s))

/-! Calibration (R84, R86, R89). -/

/-- The length of an item's window in multiframes (R84). -/
def calLength (item : Nat) : Nat := if item < 3 then 16 else if item < 6 then 64 else 256

/-- A received multiframe has passed: every running window is longer by one (R83, R84). -/
def ageWindows (k : Cal) : Cal :=
  { k with age := (List.range 9).foldl (fun t i => tupd 0 t i fun n => min (calLength i) (n + 1)) k.age }

/-- Four windows of the transmit items in ns (R86): 1,024 multiframes. -/
abbrev txCalSpan : Nat := 262144 * 32768 / 165

/-- The 4 windows of R86 start anew. [log 228 DESIGN CHOICE] -/
def armTxCal (c : Carrier) (s : State) : State := calUpd c (fun k => { k with txDue := some (s.now + txCalSpan) }) s

/-- A foreground calibration starts: acquisition returns to IDLE; RAIL_WARN found active starts the deferral time. -/
def startForeground (c : Carrier) (ref : Option Ref) (s : State) : State :=
  let warn := spireWarn s c
  let s1 := acqIdle c s
  calUpd c (fun k => { k with
    spoiled := 0x1FF,
    fg := { k.fg with
      running := some (s.now + 5 * msNs), waiting := false, spoiled := warn, clearAt := none,
      deferAt := if warn then some (k.fg.deferAt.getD (s.now + 100 * msNs)) else k.fg.deferAt,
      refs := k.fg.refs ++ ref.toList } }) s1

/-- RAIL_WARN has become active on a rail of a Spire (R85, R89). -/
def warnSpire (c : Carrier) (s : State) : State :=
  calUpd c (fun k => { k with
    spoiled := 0x1FF,
    fg := if k.fg.running.isSome then
        { k.fg with spoiled := true, clearAt := none, deferAt := some (k.fg.deferAt.getD (s.now + 100 * msNs)) }
      else { k.fg with clearAt := none } }) s

/-- RAIL_WARN has cleared on every rail of a Spire: a spoiled calibration repeats 1 ms later (R89). -/
def clearSpire (c : Carrier) (s : State) : State :=
  if spireWarn s c then s else calUpd c (fun k => { k with fg := { k.fg with clearAt := some s.now } }) s

/-- The calibration ends, and the commands that wait for it with it (R92, R467). [log 69 DEDUCED] -/
def endForeground (c : Carrier) (st : Nat) (s : State) : State :=
  (spireGet s c).cal.fg.refs.foldl (fun t r => complete r st [] t) (calUpd c (fun k => { k with fg := {} }) s)

end Sys2Proof.Machine
end

