-- ==== Sys2Proof/Machine/TestOps.lean ====
section
/-! DEFINITION. The shared operations of loops, patterns and the capture engine (R523 to R534). -/

namespace Sys2Proof.Machine

/-- The pattern settings of a carrier updated. -/
def linePatUpd (c : Carrier) (f : LinePat → LinePat) (s : State) : State :=
  { s with test := { s.test with line := pupd s.test.line c f } }

/-- The domains that a loop of a carrier needs (R523, R538). [log 183 DESIGN CHOICE] -/
def loopDoms (c : Carrier) (k : Nat) : List Nat :=
  match k with
  | 0 => [rxdspDom c, txdspDom c]
  | 1 => [rxdspDom c, txdspDom c, fecDom c, 2]
  | _ => [2]

/-- FRAMER_LOCAL starts and ends with the alignment of the framer (R164, R165, R523): without an aligned decoder it hunts, and what was
delivered before is passed by. -/
def switchFraming (c : Carrier) (on : Bool) (s : State) : State :=
  let s1 := frmUpd c (fun f => { f with words := [], pos := 0 }) s
  if on || alignedOn s1 c then s1 else frmHunt c s1

/-- The recovered clock that times a transmitter (R19, R75, R526): in REGENERATE that of the other carrier, in MAINTAIN the one that was named;
none where Belfry times it. -/
def timingClock (s : State) (c : Carrier) : Option Carrier :=
  match s.mode.cur with
  | .regenerate => some (otherCarrier c)
  | .maintain => match (pget s.test.line c).timing with
    | 1 => some c
    | 2 => some (otherCarrier c)
    | _ => none
  | _ => none

/-- The recovered clock by which a transmitter sends now: in MAINTAIN one that is not in TRACK gives way to the system timing (R526). -/
def sendClock (s : State) (c : Carrier) : Option Carrier :=
  match timingClock s c with
  | some x => if s.mode.cur == .maintain && !trackOn s x then none else some x
  | none => none

/-- The pattern of a carrier stops (R41, R539). -/
def stopLinePattern (c : Carrier) (s : State) : State :=
  linePatUpd c (fun p => { p with prbs := false, chk := { p.chk with state := 0 } }) s

/-! Checkers (R528). -/

/-- The checker of an object (R542). -/
def checkerGet (s : State) (kind idx : Nat) : Checker :=
  match kind with
  | 0 => (tget {} s.test.lanes idx).chk
  | 1 => (pget s.test.ports (carrierOf idx)).chk
  | 2 => (pget s.test.line (carrierOf idx)).chk
  | _ => (tget {} s.test.tens idx).chk

/-- The state with the checker of an object updated. -/
def checkerUpd (kind idx : Nat) (f : Checker → Checker) (s : State) : State :=
  match kind with
  | 0 => { s with test := { s.test with lanes := tupd {} s.test.lanes idx fun x => { x with chk := f x.chk } } }
  | 1 => { s with test := { s.test with ports := pupd s.test.ports (carrierOf idx) fun x => { x with chk := f x.chk } } }
  | 2 => linePatUpd (carrierOf idx) (fun x => { x with chk := f x.chk }) s
  | _ => { s with test := { s.test with tens := tupd {} s.test.tens idx fun x => { x with chk := f x.chk } } }

/-- A checker sees one bit, errored or not (R528): 1,024 correct bits in a row lock it, 64 errored ones among the last 256 end the lock. The
answer says whether it gained or lost its lock. -/
def checkerBit (e : Bool) (k : Checker) : Checker × Option Bool :=
  match k.state with
  | 1 => if e then ({ k with run := 0 }, none)
    else if 1024 ≤ k.run + 1 then ({ k with state := 2, run := 0, win := [] }, some true) else ({ k with run := k.run + 1 }, none)
  | 2 =>
    let w := (e :: k.win).take 256
    let k1 := { k with bits := satAdd 64 k.bits 1, errors := satAdd 64 k.errors (b2n e), win := w }
    if 64 ≤ w.countP id then ({ k1 with state := 1, run := 0, win := [], losses := satAdd 32 k.losses 1 }, some false) else (k1, none)
  | _ => (k, none)

/-- Bits seen one after another, and the changes of the lock in order. -/
def checkerBits : List Bool → Checker → Checker × List Bool
  | [], k => (k, [])
  | e :: r, k =>
    let a := checkerBit e k
    let b := checkerBits r a.1
    (b.1, a.2.toList ++ b.2)

/-- A PRBS31 checker sees received bits (R527, R528): it predicts each from the 31 before it, in HUNT as they were received, in LOCK as they
should have been. -/
def checkerPrbs : List Bool → Checker → Checker × List Bool
  | [], k => (k, [])
  | b :: r, k =>
    let p := k.reg.testBit 30 != k.reg.testBit 27
    let a := checkerBit (b != p) k
    let c := checkerPrbs r { a.1 with reg := (2 * k.reg + b2n (if k.state = 2 then p else b)) % 2 ^ 31 }
    (c.1, a.2.toList ++ c.2)

/-- What a checker made of its bits: its new state, and PATTERN_LOCK at each change of its lock (R528). -/
def takeChecker (kind idx : Nat) (r : Checker × List Bool) (s : State) : State :=
  r.2.foldl (fun t lock => postEv 0x0C03 [kind, idx, b2n lock] t) (checkerUpd kind idx (fun _ => r.1) s)

/-- The checker of a carrier's payload or of a tenant takes received words (R527). -/
def feedPrbs (kind idx : Nat) (l : List Word64) (s : State) : State :=
  if (checkerGet s kind idx).state = 0 then s else takeChecker kind idx (checkerPrbs (wordBits l) (checkerGet s kind idx)) s

/-- Errors that an injection has added. [log 179 DESIGN CHOICE] -/
def addInjected (n : Nat) (k : Checker) : Checker := { k with injected := satAdd 32 k.injected n }

/-- The sign bits of R43 that a carrier's injection inverts in a superframe (R529), as a mask over its blocks of `width` coded bits, of which the
first 256 are signs: each with probability m x 2^-24, and one more for a single injection. [log 179 DESIGN CHOICE] -/
def injectLine (c : Carrier) (blocks width : Nat) (s : State) : Nat × State :=
  let p := pget s.test.line c
  if p.m = 0 && !p.single then (0, s)
  else
    let hit (b i : Nat) : Bool := (p.single && b == 0 && i == 0) || decide (Config.freeNat 529 (s.free + 256 * b + i) % 2 ^ 24 < p.m)
    let v := packBits ((List.range blocks).flatMap fun b => (List.range 256).map (hit b) ++ List.replicate (width - 256) false)
    (v, linePatUpd c (fun x => { x with single := x.single && blocks == 0, chk := addInjected (popCount (blocks * width) v) x.chk })
      { s with free := s.free + 256 * blocks })

/-! Capture. -/

/-- A byte of the source: one sector in every `keep` is stored, in a circular buffer (R530, R531). -/
def captureStep (k : Capture) (b : Byte) : Capture :=
  let i := k.seen
  let k1 := { k with seen := i + 1 }
  if i / 4096 % max 1 k.keep != 0 then k1
  else if (k.part ++ [b]).length < 4096 then { k1 with part := k.part ++ [b] }
  else
    let j := i / 4096 / max 1 k.keep
    { k1 with
      part := []
      held := ⟨j % max 1 k.length, k.gen, j, k.part ++ [b]⟩ :: k.held.filter fun x => x.slot != j % max 1 k.length }

/-- The running capture takes bytes of its source (R530). -/
def captureFeed (source : Nat) (c : Carrier) (l : List Byte) (s : State) : State :=
  let k := s.test.cap
  if k.state = 0 || k.source != source || k.carrier != carrierNum c then s
  else { s with test := { s.test with cap := l.foldl captureStep k } }

/-- Samples of the channels that a capture names, interleaved in the order XI, XQ, YI, YQ (R530). -/
def adcBytes (mask : Nat) (codes : List (List Int)) : List Byte :=
  let l := ((List.range 4).filter mask.testBit).map fun i => codes.getD i []
  (List.range (codes.headD []).length).flatMap fun j => l.map fun x => BitVec.ofInt 8 (x.getD j 0)

/-- Output symbols of the equaliser as a capture stores them: X then Y, I then Q (R530). [log 255 DESIGN CHOICE] -/
def symBytes (l : List Sym) : List Byte := l.flatMap fun x => [x.xi, x.xq, x.yi, x.yq].map Config.symbolCode


/-- A capture is ARMED or RUNNING. -/
def captureRuns (s : State) : Bool := s.test.cap.state != 0

/-- Sectors stored since the start at the capture's rate (R530). -/
def capIndex (s : State) : Nat :=
  let c := s.test.cap
  (s.now - c.start) * c.num / (c.den * c.keep * 4096)

/-- The capture area holds what a capture wrote, newest first. -/
def addExtent (gen n : Nat) (l : List (Nat × Nat)) : List (Nat × Nat) :=
  (gen, n) :: l.filter fun e => decide (n < e.2)

/-- The 32-byte result of a capture that ends at index `n` (R543); what a trigger would have set is open without one. [log 181 DESIGN CHOICE] -/
def captureResult (reason n : Nat) (s : State) : List Byte × State :=
  let c := s.test.cap
  let head := le 1 reason ++ le 1 c.retrigs ++ le 2 (min c.overruns 65535) ++ le 4 (min n c.length)
    ++ le 4 (if n ≤ c.length then 0 else n % c.length)
  match c.trigPos with
  | some p => (head ++ le 4 (p % c.length) ++ le 8 (c.trigTod / secNs) ++ le 4 (c.trigTod % secNs) ++ le 4 c.preHeld, s)
  | none =>
    let d := drawBytes 543 16 s
    (head ++ le 4 0xFFFFFFFF ++ d.1, d.2)

/-- A capture ends with a reason (R531, R534); the area keeps what it stored. -/
def endCapture (reason : Nat) (s : State) : State :=
  if !captureRuns s then s
  else
    let n := match s.test.cap.state, s.test.cap.trigPos with
      | 2, some p => if reason = 0 then p + (s.test.cap.length - s.test.cap.pre) else capIndex s
      | _, _ => capIndex s
    let r := captureResult reason n s
    let c := s.test.cap
    let s1 := { r.2 with test := { r.2.test with
      cap := {
        extents := addExtent c.gen (min n c.length) c.extents, gen := c.gen
        held := c.held.filter fun x => x.gen != c.gen || (decide (x.index < n) && decide (n ≤ x.index + c.length)) } } }
    match c.ref with
    | some ref => complete ref stOk r.1 s1
    | none => s1

/-- A stack has left ON: the capture ends and its area is lost (R534). -/
def captureLost (s : State) : State :=
  let s1 := endCapture 3 s
  { s1 with test := { s1.test with cap := { s1.test.cap with extents := [], held := [] } } }

/-- The capture may run in a mode (R525). -/
def captureMode (m : Mode) : Bool := m == .maintain || m == .bonded || m == .merge

/-! What a domain that leaves ON takes with it (R524, R537). -/

/-- Loops of a carrier that need a domain are removed; its pattern goes with its TXDSP domain. -/
def testLineOff (d : Nat) (c : Carrier) (s : State) : State :=
  linePatUpd c (fun p =>
    let p1 := match p.loop with
      | some k => if (loopDoms c k).contains d then { p with loop := none, timing := 0 } else p
      | none => p
    if d = txdspDom c then { p1 with prbs := false, m := 0, timing := 0, fallback := false, chk := {} }
    else if d = 2 then { p1 with prbs := false, chk := {} } else p1) s

/-- The test functions of a domain end with it. [log 178 DEDUCED] -/
def testDomainOff (d : Nat) (s : State) : State :=
  let s1 := testLineOff d .b (testLineOff d .a s)
  if d = 2 then { s1 with test := { s1.test with tens := [] } }
  else if d = 31 then { s1 with test := { s1.test with ports := ⟨{}, {}⟩, portLoop := ⟨false, false⟩ } }
  else if d = 23 || d = 24 then captureLost s1
  else if 13 ≤ d && d ≤ 22 then
    { s1 with test := { s1.test with
      lanes := s1.test.lanes.filter fun e => e.1 / 4 != d - 13, laneLoop := s1.test.laneLoop.filter fun e => e.1 / 4 != d - 13 } }
  else s1

/-- MAINTAIN is left: loops 0 to 4 are removed (R524). -/
def leaveMaintain (s : State) : State :=
  let drop (c : Carrier) (t : State) : State :=
    let t1 := linePatUpd c (fun p => { p with loop := none, timing := 0, fallback := false }) (stopLinePattern c t)
    if framerLooped t c then switchFraming c false t1 else t1
  let s1 := drop .b (drop .a s)
  { s1 with test := { s1.test with laneLoop := [], tens := [] } }

end Sys2Proof.Machine
end

