-- ==== Sys2Proof/Machine/TribOps.lean ====
section
/-! DEFINITION. The shared operations of tenants: containers, defects and their consequences, table changes, and of the skew buffers'
group (R170, R209 to R231, R243 to R246). -/

namespace Sys2Proof.Machine

/-! Containers. -/

/-- W(c): data words over 256 pointer periods (R213). -/
def planWords (c : Nat) : Nat := (2 * 1052672 * c + 33) / 66

/-- D_p: the plan value of a period (R213). -/
def planData (c p : Nat) : Nat := (p + 1) * planWords c / 256 - p * planWords c / 256

/-- Data bits of a period (R212): justification 1 POS, 2 NEG, 0 none. -/
def dataBits (c p jc : Nat) : Nat :=
  let d := planData c p
  64 * (if jc = 1 then d - c else if jc = 2 then d + c else d)

/-- The next pointer (R215). -/
def nextPtr (ptr b : Nat) : Nat := (ptr + 257 - b % 257) % 257

/-- CRC-8 of H over its bits [63:8] (R211). -/
def crc8 (h : BitVec 64) : BitVec 8 := crcMsb 0x07#8 0#8 ((msbBits 64 h.toNat).take 56)

/-- The header word of a container (R211). -/
def headerWord (tid jc ptr stat kp nsl : Nat) : BitVec 64 :=
  let v := tid * 2 ^ 54 + jc * (2 ^ 52 + 2 ^ 50 + 2 ^ 48) + ptr * 2 ^ 39 + stat * 2 ^ 36 + kp * 2 ^ 35 + nsl * 2 ^ 23
  BitVec.ofNat 64 (v + (crc8 (BitVec.ofNat 64 v)).toNat)

/-- JC by majority of the three copies (R220): the value, and whether it is counted as an error. -/
def majorityJc (h : BitVec 64) : Nat × Bool :=
  let v := h.toNat
  let a := bits v 53 52
  let b := bits v 51 50
  let c := bits v 49 48
  let m := if a = b || a = c then some a else if b = c then some b else none
  match m with
  | some 0 => (0, false)
  | some 1 => (1, false)
  | some 2 => (2, false)
  | _ => (0, true)

/-! Receive defects. -/

/-- The receiver of a carrier is under a line-fail defect or FDI_RX (R170, R171). -/
def legDown (s : State) (c : Carrier) : Bool := lineFailOn s c || fdiOn s c

/-- A tenant holds slots on a carrier in the receive table in use. -/
def onCarrier (s : State) (c : Carrier) (t : Nat) : Bool :=
  (calCarriers s).contains c && slotCount (rxTable s c) t != 0

/-- A tenant is under a line-fail defect (R170, R171, R254). -/
def tenDown (s : State) (t : Nat) : Bool :=
  if s.mode.cur = .merge then s.mrg.loss else (onCarrier s .a t && legDown s .a) || (onCarrier s .b t && legDown s .b)

/-- A tenant holds slots on both carriers and the pair is not ALIGNED (R246). -/
def crossDown (s : State) (t : Nat) : Bool := onCarrier s .a t && onCarrier s .b t && s.skew.state != .aligned

/-- The declared tenant defects as a mask (R224, R238). -/
def tenDeclared (r : TenRx) : Nat :=
  if r.suppressed then 0
  else b2n (r.state == .lop) + 2 * b2n r.ais + 4 * b2n r.freq + 8 * b2n r.auth + 16 * b2n r.csf

/-- A tenant defect second (R267): the condition that holds now. -/
def tenDefectOn (s : State) (t : Nat) : Bool :=
  let r := (tenGet s t).rx
  r.reported % 16 != 0 || r.suppressed || (r.state != .none && crossDown s t)

/-- CSF is reported on a tenant. -/
def tenCsfOn (s : State) (t : Nat) : Bool := (tenGet s t).rx.reported == 16

/-- The reported set of a tenant follows its declared defects, and its replacement follows both (R225, R226). -/
def settleTen (t : Nat) (s : State) : State :=
  let r := (tenGet s t).rx
  let d := tenDeclared r
  let rep := topRank d
  let s1 := if rep = r.reported then s else postEv 0x0403 [t, d, rep] s
  let s2 := tenUpd t (fun x => { x with rx := { x.rx with
    reported := rep,
    replacing := r.state != .none && (r.suppressed || rep % 8 != 0 || rep == 16 || r.state == .acq || crossDown s t) } }) s1
  pmCount (pmTen t) (fun a => { a with defect := a.defect || tenDefectOn s2 t, csf := a.csf || tenCsfOn s2 t }) s2

/-- The interpreter of a tenant enters ACQ (R221); its counter hunt starts (R298). [log 117 DESIGN CHOICE] -/
def tenAcq (t : Nat) (fresh : Bool) (s : State) : State :=
  Machine.startHunt t (tenUpd t (fun x => { x with rx := {
    state := .acq, c := sizeRx s t, fresh := fresh, reported := x.rx.reported, replacing := true
    frames := x.rx.frames, base := x.rx.base, clk := x.rx.clk } }) s)

/-- A test command routes the payload of a tenant (R170, R541). -/
def routedByTest (s : State) (t : Nat) : Bool :=
  let g := tget {} s.test.tens t
  g.genSet || g.chkSet || g.gen || g.chk.state != 0

/-- Line-fail defects start or stop applying to a tenant (R170, R221, R225); in MAINTAIN only to one that a test command routes a payload to. -/
def lineEffect (s : State) (t : Nat) : State :=
  let r := (tenGet s t).rx
  if r.state == .none || (s.mode.cur == .maintain && !routedByTest s t) then s
  else
    let down := tenDown s t
    if down = r.suppressed then settleTen t s
    else if down then
      settleTen t (tenUpd t (fun x => { x with rx := {
        state := x.rx.state, c := x.rx.c, suppressed := true, reported := x.rx.reported, replacing := true
        frames := x.rx.frames, base := x.rx.base, clk := x.rx.clk } }) s)
    else settleTen t (tenAcq t false s)

/-- The tenants of the receive tables in use. -/
def rxTenants (s : State) : List Nat := ((calCarriers s).map fun c => tenantsOf (rxTable s c)).flatten.eraseDups

/-- The tenants with a state of mapping. -/
def knownTenants (s : State) : List Nat := s.ten.map (·.1)

/-- The line defects have changed: every tenant of the receive tables follows (R170). -/
def lineEffects (s : State) : State := (rxTenants s).foldl lineEffect s

/-! The reported set of a carrier. -/

/-- The framer evaluates the reported set of a carrier (R169): LINE_DEFECT at each change, the consequences follow. -/
def evalDefects (c : Carrier) (s : State) : State :=
  let d := declaredMask s c
  let r := topRank d
  let s1 :=
    if r = reportedMask s c then s
    else postEv 0x0401 [carrierNum c, d, r] (frmUpd c (fun f => { f with reported := r }) s)
  let s2 := pmCount (carrierNum c) (fun a => { a with defect := a.defect || r % 32 != 0, deg := a.deg || r == 32 }) s1
  noteNeighbours (if r = reportedMask s c then s2 else lineEffects s2)

/-! Table changes. -/

/-- A tenant of the receive side follows the receive tables (R221, R225, R231). [log 117 DESIGN CHOICE] -/
def settleRxTen (s : State) (t : Nat) : State :=
  let r := (tenGet s t).rx
  let c := sizeRx s t
  if c = 0 then
    if r.state == .none then s
    else
      let had := tenDeclared r != 0
      let s0 := phyIdle t (tenUpd t (fun x => { x with rx := {} }) s)
      let s1 := if (clientOf s t).kind = 0 then pmDrop (pmTen t) s0 else s0
      if had then postEv 0x0403 [t, 0, 0] s1 else s1
  else if r.state == .none then lineEffect (tenAcq t true s) t
  else tenUpd t (fun x => { x with rx := { x.rx with c := c } }) s

/-- The receive tables have changed. -/
def settleRx (s : State) : State := (knownTenants s ++ rxTenants s).eraseDups.foldl settleRxTen s

/-- A tenant of the transmit side follows the transmit tables (R231): a store that starts is filled with local-fault blocks from the first
bit of a block on. -/
def settleTxTen (s : State) (t : Nat) : State :=
  let x := (tenGet s t).tx
  let c := sizeTx s t
  if c = x.c then s
  else if c = 0 then tenUpd t (fun v => { v with tx := {} }) s
  else if x.c = 0 then tenUpd t (fun v => { v with tx := ({ c := c, fresh := true } : TenTx).refill c }) s
  else tenUpd t (fun v => { v with tx := { v.tx with c := c, resize := max v.tx.c c } }) s

/-- The tenants of the transmit tables in use. -/
def txTenants (s : State) : List Nat := ((calCarriers s).map fun c => tenantsOf (txTable s c)).flatten.eraseDups

/-- The transmit tables have changed. -/
def settleTxAll (s : State) : State := (knownTenants s ++ txTenants s).eraseDups.foldl settleTxTen s

/-- A calendar swap ends without change: PD02 has left ON (R230). -/
def dropSwap (s : State) : State :=
  match s.cal.swap with
  | none => s
  | some w => complete w.ref stBadState [] { s with cal := { s.cal with swap := none } }

/-! Client streams. -/

/-- The bandwidth port of a tenant's client (R430): its PHY or its FlexE group. -/
def clientPort (s : State) (t : Nat) : Option Nat :=
  let k := clientOf s t
  if k.kind = 1 then some k.place else if k.kind = 2 then some (40 + k.place) else none

/-- Bytes of a client stream are counted on its port: source 0x09 from the host, 0x0A toward it (R427, R430). [log 109 DESIGN CHOICE] -/
def countClient (source t bytes : Nat) (s : State) : State :=
  match clientPort s t with
  | some p => countSrc source p bytes s
  | none => s

/-- Blocks of 257 bits, by their values, enter the elastic store of a container in whole words (R215, R216). -/
def feedStore (t : Nat) (blocks : List Nat) (s : State) : State :=
  tenUpd t (fun x =>
    let w := wholeWords (addBlocks x.tx.bits blocks)
    { x with tx := { x.tx with inflow := x.tx.inflow ++ w.1, bits := w.2 } }) s

/-- The client stream does not reach the store: force AIS, no client, TC-FREQ or host-fail (R198, R218, R219). [log 243 DEDUCED] -/
def streamReplaced (s : State) (t : Nat) : Bool :=
  let x := tenGet s t
  x.forceAis || (clientOf s t).kind = 0 || x.tx.freq || replacedToLine s t

/-- Blocks of a client stream enter the store of its container (R216), and count on the client's port (R430). -/
def takeStream (t : Nat) (blocks : List (List Bool)) (s : State) : State :=
  if (tenGet s t).tx.c = 0 || streamReplaced s t then s
  else countClient 0x09 t (257 * blocks.length / 8) (feedStore t (blocks.map bitValue) s)

/-- A period's blocks at the nominal rate, 1,024 c / 33 of them: the local-fault stream of a replaced client, or what the shim of a FlexE client
offers, transcoded by fours; an Ethernet client's come from its PHY (R189, R213, R219). -/
def offerBlocks (t : Nat) (arrived : List Block66) (s : State) : State :=
  let v := (tenGet s t).tx
  let credit := v.credit + shimShare * v.c
  let keep (l : List Block66) : State := tenUpd t (fun x => { x with tx := { x.tx with shim := l, credit := credit % 33 } }) s
  if streamReplaced s t then feedStore t (List.replicate (credit / 33) (bitValue (faultBlock 1))) (keep [])
  else if (clientOf s t).kind != 2 then s
  else
    let f := shimFit (4 * (credit / 33)) (v.shim ++ arrived)
    takeStream t ((pieces 4 f.1).map transcode) (keep f.2)

/-! Transmitted frames. -/

/-- The boundary that an announcement of two multiframes names (R162, R230). [log 113 DEDUCED] -/
def boundaryAfter (fc : Nat) : Nat := ((fc / 256 + 1) * 256 + 512) % 2 ^ 24

/-- A carrier's encoder runs: its transmit DSP and FEC domains are ON. -/
def encoderOn (s : State) (c : Carrier) : Bool := domOn s (txdspDom c) && domOn s (fecDom c)

/-- Outer codewords in eights as LDPC blocks (R123, R129): `n` blocks to form. -/
def encodeBlocks : Nat → List Nat → Fec → List BlockBits × Fec
  | 0, ws, f => ([], { f with encWords := ws })
  | n + 1, ws, f =>
    let b := ldpcEncode (ws.take 8) f.enc1 f.enc2
    let r := encodeBlocks n (ws.drop 8) { f with encBlock := f.encBlock.map (· + 1), enc1 := b, enc2 := f.enc1 }
    (b :: r.1, r.2)

/-- The encoder starts its first block at the first bit of a frame whose counter is 0 modulo 8, with all-zero blocks before it (R124, R129). -/
def startEncoder (fc : Nat) (f : Fec) : Fec :=
  if f.encBlock.isSome || fc % 8 != 0 then f else { f with encBlock := some 0, encWords := [], enc1 := 0, enc2 := 0 }

/-- The messages of a frame are encoded where the FEC domain is on (R123, R129); the coded bits reach the FIFO of a transmitter whose domains
are on. -/
def encodeFrame (c : Carrier) (fc : Nat) (msgs : List Nat) (s : State) : State :=
  if !domOn s (fecDom c) then s
  else
    let f := startEncoder fc (lineGet s c).fec
    if f.encBlock.isNone then s
    else
      let ws := f.encWords ++ msgs.map bchEncode
      let r := encodeBlocks (ws.length / 8) ws f
      let s1 := fecUpd c (fun _ => r.2) s
      if (txGet s1 c).state == .off then s1
      else txUpd c (fun t => { t with coded := r.1.foldl (fun q b => q.push b 9513) t.coded }) s1

/-- The encoder over `n` frames that pass at once (R124): it keeps its place, and their content is not held. [log 205 DESIGN CHOICE] -/
def skipEncoder (n : Nat) (c : Carrier) (s : State) : State :=
  let k := 81 * (planOf s c).n * n
  fecUpd c (fun f => match f.encBlock with
    | none => f
    | some b =>
      let p := 8 * b + f.encWords.length + k
      if n = 0 then f else { f with encBlock := some (p / 8), encWords := List.replicate (p % 8) 0, enc1 := 0, enc2 := 0 }) s

/-- The frame counter and the byte counts follow `n` frames more (R153, R297, R430). -/
def sendFrames (n : Nat) (s : State) : State :=
  let fc := s.txFc + n
  let sent (c : Carrier) (t : State) : State :=
    if encoderOn t c then countSrc 0x0A (56 + carrierNum c) (n * 10368 * (planOf t c).n) t else t
  let s1 := sent .b (sent .a { s with txFc := fc % 2 ^ 24 })
  if 2 ^ 24 ≤ fc then wrapTx s1 else s1

/-- The framer has reached a frame ahead: its frames take 198.594 ns each. -/
def toFrame (fc : Nat) (s : State) : State :=
  let n := (fc % 2 ^ 24 + 2 ^ 24 - s.txFc) % 2 ^ 24
  if 2 ^ 23 ≤ n then s else sendFrames n (skipEncoder n .b (skipEncoder n .a (advanceTo (s.now + n * 32768 / 165) s)))

/-! The group of both carriers. -/

/-- The pair leaves ALIGNED (R244). -/
def leaveAligned (g : GroupState) (s : State) : State :=
  let was := s.skew.state
  let s1 := { s with skew := { s.skew with state := g } }
  if was == .aligned && g != .aligned then
    lineEffects (postEv 0x0502 [] { s1 with skew := { s1.skew with unaligned := satAdd 16 s1.skew.unaligned 1 } })
  else s1

/-- The pair enters EXCESS (R244, R245). [log 176 DEDUCED] -/
def enterExcess (s : State) : State :=
  if s.skew.state == .excess then s
  else
    let s1 := leaveAligned .excess s
    post 0x0503 true [] { s1 with skew := { s1.skew with alarm := true, excess := satAdd 16 s1.skew.excess 1, within := none } }

/-- SKEW_EXCESS clears with EXCESS. -/
def clearExcess (s : State) : State :=
  if s.skew.alarm then post 0x0503 false [] { s with skew := { s.skew with alarm := false, within := none } } else s

/-- The group follows the operating mode at its boundary (R244, R251); cross taps run in TWIN only (R111). -/
def groupMode (m : Mode) (s0 : State) : State :=
  let off (x : Spire) : Spire := { x with eq := { x.eq with crossOn := false } }
  let s := if m == .twin then s0 else { s0 with spire := ⟨off s0.spire.a, off s0.spire.b⟩ }
  if m == .twin || m == .bonded then
    if s.skew.state == .off then { s with skew := { s.skew with state := .ramp } } else s
  else clearExcess (leaveAligned .off s)

/-- The Dome holds a delay above 6.0 us (R240, R242). -/
def inDome (s : State) (c : Carrier) : Bool := decide (6000 * 165000000 < pget s.skew.delay c)

/-- MERGE is entered or left: the selector starts on leg A (R251, R252), or its leg states end. -/
def mergeMode (m : Mode) (s : State) : State :=
  let was := s.mode.cur == .merge
  if (m == .merge) = was then s
  else
    let s1 := if s.mrg.loss then post 0x0508 false [] s else s
    { s1 with mrg := { s1.mrg with
      legs := ⟨{}, {}⟩, selB := false, prefA := false, lastFc := none, absentRun := 0, goodRun := 0, loss := false } }

/-! The framer domain. -/

/-- PD02 powers up (R153, R165, R175, R258): the framers, the mappers and the demappers start. -/
def framerUp (s : State) : State :=
  let fresh (c : Carrier) (t : State) : State :=
    frmUpd c (fun f => { set := f.set, use := f.set, txTti := f.txTti, txTtiUse := f.txTti, expTti := f.expTti }) t
  let s1 := fresh .b (fresh .a (framerRestart s))
  let s2 := { s1 with
    txFc := 0,
    ten := s1.ten.filterMap fun e => if e.2.forceAis then some (e.1, { forceAis := true, aisUse := true }) else none,
    skew := { set := s1.skew.set, use := s1.skew.set, state := if s1.skew.state == .off then .off else .ramp },
    mrg := {} }
  settleRx (settleTxAll s2)

/-- PD02 leaves ON: a swap and the rotations end, and its state is lost (R230, R302, R467). -/
def framerDown (s : State) : State :=
  let s1 := endRotations (dropSwap s)
  let s2 := clearExcess (leaveAligned s1.skew.state s1)
  let fresh (c : Carrier) (t : State) : State :=
    frmUpd c (fun f => { set := f.set, use := f.set, txTti := f.txTti, txTtiUse := f.txTti, expTti := f.expTti }) t
  let s3 := fresh .b (fresh .a s2)
  { s3 with ten := s3.ten.filterMap fun e => if e.2.forceAis then some (e.1, { forceAis := true, aisUse := true }) else none }

end Sys2Proof.Machine
end

