-- ==== Sys2Proof/Machine/RingOps.lean ====
section
/-! DEFINITION. The shared operations of the Calond ring: links, reachability, relays and protection pairs (R437 to R457). -/

namespace Sys2Proof.Machine

/-! Links (R441 to R443). -/

/-- A sleep bit of a port is set (R443, R459). -/
def portSleeps (s : State) (p : Port) : Bool := bits s.ring.sleep (2 * portNum p + 1) (2 * portNum p) != 0

/-- The ceiling that a port offers (R443): 0 in DORMANT. [log 159 DEDUCED] -/
def portCeil (s : State) (p : Port) : Nat :=
  if s.mode.cur = .dormant then 0 else match p with | .east => s.ring.ceilE | .west => s.ring.ceilW

/-- The two ports. -/
def bothPorts : List Port := [.east, .west]

/-- The state with what the manager knows of a worker updated. -/
def workerUpd (w : Nat) (f : WorkerSt → WorkerSt) (s : State) : State :=
  { s with ring := { s.ring with workers := tupd {} s.ring.workers w f } }

/-- The numbers that are bound on the manager. [log 175 DEDUCED] -/
def boundWorkers (s : State) : List Nat := (s.ring.bind.filter fun e => !e.2.isEmpty).map (·.1)

/-- A worker that is reachable in neither direction is gone from now on; one that is reachable is not (R448, R451). -/
def noteGone (s : State) : State :=
  (boundWorkers s).foldl (fun t w =>
    workerUpd w (fun k => { k with goneAt := if unreachable t w then some (k.goneAt.getD t.now) else none }) t) s

/-- A port link goes DOWN (R441, R442): what waits and what is measured is lost, and RING_LINK is posted. [log 158 DEDUCED, 160 DEDUCED] -/
def linkDown (p : Port) (s : State) : State :=
  let r := portGet s p
  if r.state = .down then s
  else
    noteGone (postEv 0x0A01 [portNum p, 0, 0] (portUpd p (fun r => { r with
      state := .down, rate := 0, farCeil := none, linkCeil := 3, deadline := none, delays := [], t1 := none, waiting := [],
      timing := none, downs := satAdd 16 r.downs 1 }) s))

/-- A message to the neighbour. [log 159 DEDUCED] -/
def sendNear (p : Port) (type : Nat) (body : List Byte) (s : State) : State := sendMsg p (mkMsg s type 0xFF 0 body) s

/-- The rate that the link steps to next, where both ceilings and the link's own allow one (R441). -/
def stepsOn (s : State) (p : Port) : Bool :=
  let r := portGet s p
  match r.farCeil with
  | some f => decide (r.rate < min (min (portCeil s p) f) r.linkCeil)
  | none => false

/-- An UP link whose ceilings lie above its rate steps 1 ms from now (R441). [log 159 DEDUCED] -/
def planStep (p : Port) (s : State) : State :=
  portUpd p (fun r => { r with deadline := if stepsOn s p then some (s.now + msNs) else none }) s

/-- A message to every device leaves on every UP port. -/
def sendAll (type : Nat) (body : List Byte) (s : State) : State :=
  bothPorts.foldl (fun t p =>
    if (portGet t p).state = .up then sendMsg p { (mkMsg t type 0xFE 0 body) with epoch := t.ring.epoch } t else t) s

/-- A message to one device leaves by a port, or by the other when that link is not UP (R448). [log 172 DEDUCED] -/
def sendEither (p : Port) (m : RingMsg) (s : State) : State :=
  if (portGet s p).state = .up then sendMsg p m s else sendMsg (otherPort p) m s

/-- A port link comes UP at a rate (R441): RING_LINK, the messages that waited, NEG with its ceiling. [log 158 DEDUCED] -/
def linkUp (p : Port) (rate : Nat) (s : State) : State :=
  let held := (portGet s p).waiting
  let s1 := portUpd p (fun r => { r with
    state := .up, rate := rate, farCeil := none, deadline := none, delays := [], t1 := none, waiting := [] }) s
  let s2 := postEv 0x0A01 [portNum p, 1, rate] s1
  noteGone (sendNear p 0x03 [BitVec.ofNat 8 (portCeil s p)] (held.foldl (fun t m => sendMsg p m t) s2))

/-- DORMANT is entered or left (R443): NEG on each UP port; on entry a link above 1.25 Gb/s goes DOWN. -/
def ringDormant (entering : Bool) (s : State) : State :=
  if !domOn s 31 then s
  else bothPorts.foldl (fun t p =>
    if (portGet t p).state != .up then t
    else
      let t1 := planStep p (sendNear p 0x03 [BitVec.ofNat 8 (portCeil t p)] t)
      if entering && (portGet t p).rate != 0 then linkDown p t1 else t1) s

/-! Bindings and epoch (R438, R439). -/

/-- The 15 identities of a ROSTER and of the journal record. -/
def rosterBody (s : State) : List Byte :=
  ((List.range 15).map fun i =>
    let b := tget [] s.ring.bind (i + 1)
    if b.isEmpty then List.replicate 11 0xFF#8 else b).flatten

/-- The RING record joins the journal (R482). -/
def journalRing (s : State) : State := journalAdd jRing 0 (rosterBody s ++ le 2 s.ring.epoch) none s

/-- The manager broadcasts its bindings. -/
def sendRoster (s : State) : State := if s.ring.role = 1 then sendAll 0x02 (rosterBody s) s else s

/-- The ring epoch rises (R439). -/
def nextEpoch (s : State) : State :=
  journalRing { s with ring := { s.ring with
    epoch := (s.ring.epoch + 1) % 2 ^ 16
    rseq := 0
    workers := s.ring.workers.map fun e => (e.1, { e.2 with nextTag := 0, ended := [] }) } }

/-! Relays (R447, R448). -/

/-- The state with a relay updated. -/
def relayUpd (w tag : Nat) (f : Relay → Relay) (s : State) : State :=
  { s with ring := { s.ring with relays := s.ring.relays.map fun r => if r.worker = w && r.tag = tag then f r else r } }

/-- The next REQUEST of a worker goes out once the one before it no longer holds it back. -/
def nextRelay (w : Nat) (s : State) : State :=
  match s.ring.relays.filter (fun r => r.worker == w && !r.receipt) with
  | [] => s
  | r :: _ => if r.copies != 0 || unreachable s w || s.ring.conflict.isSome then s else sendCopy (firstDir s w r.anyDir) w r.tag s

/-- A relay leaves the store with its final status. -/
def endRelay (r : Relay) (st : Nat) (res : List Byte) (s : State) : State :=
  let s1 := { s with ring := { s.ring with relays := s.ring.relays.filter fun x => !(x.worker == r.worker && x.tag == r.tag) } }
  nextRelay r.worker (relayAnswer r st res s1)

/-- The manager gives up a relay (R448): UNREACHABLE where no copy was sent, else OUTCOME_UNKNOWN; a later RESPONSE is late. -/
def giveUp (s : State) (r : Relay) : State :=
  let st := if r.copies = 0 then stUnreachable else stOutcomeUnknown
  let s1 := workerUpd r.worker (fun k => { k with
    unknown := if st = stOutcomeUnknown then satAdd 16 k.unknown 1 else k.unknown, ended := k.ended ++ [r.tag] }) s
  endRelay r st (relayResult s r) s1

/-- Every relay to a worker ends with OUTCOME_UNKNOWN: its number is released (R460). -/
def dropRelays (w : Nat) (s : State) : State :=
  (s.ring.relays.filter fun r => r.worker == w).foldl (fun t r =>
    let t1 := workerUpd w (fun k => { k with unknown := satAdd 16 k.unknown 1, ended := k.ended ++ [r.tag] }) t
    let t2 := { t1 with ring := { t1.ring with relays := t1.ring.relays.filter fun x => !(x.worker == w && x.tag == r.tag) } }
    relayAnswer r stOutcomeUnknown (relayResult t r) t2) s

/-! PD31. -/

/-- PD31 powers up (R437 to R443): links DOWN, a worker without a number, a manager with a new epoch. -/
def calondUp (s : State) : State :=
  let s1 := { s with ring := { s.ring with
    ports := ⟨{}, {}⟩, number := none, log := [], resp := [], highest := none, timePort := none, newPort := none, agree := 0,
    workers := [], conflict := none } }
  if s.ring.role = 1 then nextEpoch s1 else s1

/-- PD31 leaves ON: both links are lost, and with them every relay in time (R448). -/
def calondDown (s : State) : State :=
  let s1 := bothPorts.foldl (fun t p => linkDown p t) s
  noteGone { s1 with ring := { s1.ring with log := [], resp := [], highest := none } }

/-! Protection pairs (R455 to R457). -/

/-- The state with a pair updated. -/
def pairUpd (k : Nat) (f : PPair → PPair) (s : State) : State := { s with ring := { s.ring with pairs := tupd {} s.ring.pairs k f } }

/-- This device holds the W member of a pair. [log 168 DEDUCED] -/
def pairIsW (s : State) (x : PPair) : Bool := x.wDev == ringSelf s

/-- The tenant of a pair on this device. -/
def pairTenant (s : State) (x : PPair) : Nat := if pairIsW s x then x.wTenant else x.pTenant

/-- The member's own SF (R456): its egress is replaced for another cause than the selection. [log 167 DEDUCED] -/
def pairSf (s : State) (x : PPair) : Bool :=
  let r := (tenGet s (pairTenant s x)).rx
  r.state == .none || r.replacing

/-- The protection state machine of a pair's tenant stands (R15, R16): its engine's takeover runs, or the tenant is suspended. -/
def pairHeld (s : State) (x : PPair) : Bool :=
  let t := pairTenant s x
  s.eng.suspended.contains t || s.eng.takeovers.any (·.tenants.contains t)

/-- The rule of R456 on a pair; with the partner lost the selection holds, also under a force (R457), and while the tenant's engine does
not run nothing is evaluated, a force neither (R15, R16). [log 167 DEDUCED] -/
def pairRule (k : Nat) (wtrDone : Bool) (s : State) : State :=
  let x := tget {} s.ring.pairs k
  if !x.held || pairHeld s x then s
  else
    let sf := pairSf s x
    let w := if pairIsW s x then sf else x.partnerSf
    let p := if pairIsW s x then x.partnerSf else sf
    let sel :=
      if x.lost then x.selP
      else if x.force = 2 then false
      else if x.force = 3 then true
      else if !x.selP then w && !p
      else !((p && !w) || (x.revertive && wtrDone && !w))
    let s1 := pairUpd k (fun y => { y with
      ownSf := sf, selP := sel, switches := if sel = y.selP then y.switches else satAdd 16 y.switches 1,
      wtrAt := if sel && y.revertive && !w then some (y.wtrAt.getD (s.now + y.wtr * secNs)) else none }) s
    if sel = x.selP then s1 else postEv 0x0A05 [k, b2n sel, b2n (x.force != 0)] s1

/-- PROTECT of a pair is sent to every device (R456). -/
def sendProtect (k : Nat) (s : State) : State :=
  let x := tget {} s.ring.pairs k
  if !x.held then s
  else sendAll 0x30 ((le 1 k) ++ le 1 (b2n (!pairIsW s x)) ++ le 1 (b2n x.ownSf) ++ le 1 (b2n x.selP) ++ le 1 x.force) s

/-- A member takes a SET_RING_PROTECT (R463). [log 169 DEDUCED, 176 DEDUCED] -/
def applyPair (p : List Byte) (s : State) : State :=
  let k := u8 p 0
  match u8 p 1 with
  | 0 => { s with ring := { s.ring with pairs := terase s.ring.pairs k } }
  | 1 =>
    pairUpd k (fun x => { x with
      held := true, revertive := u8 p 2 == 1, wDev := u8 p 4, pDev := u8 p 5, wTenant := u16 p 6, pTenant := u16 p 8, wtr := u16 p 10,
      heardAt := some s.now }) s
  | a => if (tget {} s.ring.pairs k).held then pairRule k false (pairUpd k (fun x => { x with force := if a = 4 then 0 else a }) s) else s

end Sys2Proof.Machine
end

