-- ==== Sys2Proof/Machine/CtlOps.lean ====
section
/-! DEFINITION. The shared operations of flash, journal, firmware, controller and engines (R14 to R17, R480 to R489). -/

namespace Sys2Proof.Machine

/-! The journal (R482 to R484). -/

/-- No program or erase of the flash begins (R475, R483). [log 30 DEDUCED] -/
def flashDeferred (s : State) : Bool := anyRailWarn s || s.pins.pfail || s.therm.shutdown || !s.ctl.ready

/-- The length of a record in flash: header, body and CRC, padded to 16 bytes (R482). -/
def jLength (r : JRec) : Nat := (16 + r.body.length + 15) / 16 * 16

/-- A record as it stands in flash: header, body, the CRC-32C over both, 0xFF to a multiple of 16 bytes (R482). -/
def jBytes (r : JRec) : List Byte :=
  let h := le 2 0x4A52 ++ le 1 r.type ++ le 1 r.key ++ le 4 r.seq ++ le 2 r.body.length ++ le 2 0 ++ r.body
  h ++ le 4 (crc32c h).toNat ++ List.replicate (jLength r - (16 + r.body.length)) 0xFF#8

/-- The record of a copy whose magic, length and CRC check (R482, R484). -/
def jParse (l : List Byte) : Option JRec :=
  let n := u16 l 8
  if u16 l 0 != 0x4A52 || 4064 < n || l.length < 16 + n || u32 l (12 + n) != (crc32c (l.take (12 + n))).toNat then none
  else some ⟨u8 l 2, u8 l 3, u32 l 4, slice l 12 n⟩

/-- A copy takes the next place of a bank. -/
def putCopy (l : List Byte) (b : JBank) : JBank :=
  { b with copies := b.copies ++ [⟨l, b.sector, b.off⟩], off := b.off + l.length }

/-- The next sector of a bank begins, and the sector after it is erased for reuse: its records that are still the newest are
first written again at the head (R483). -/
def nextSector (live : JRec → Bool) (b : JBank) : JBank :=
  let n := (b.sector + 1) % 8
  let m := (n + 1) % 8
  let keep := b.copies.filter fun c => c.sector == m && (jParse c.bytes).any live
  let b1 := keep.foldl (fun x c => putCopy c.bytes x) { b with sector := n, off := 0 }
  { b1 with copies := b1.copies.filter fun c => c.sector != m,
            erases := if b.copies.any (fun c => c.sector == m) then lupd b1.erases m (· + 1) else b1.erases }

/-- A copy is programmed in a bank: in its sector, or in the next one where it does not fit (R483). [log 54 DEDUCED] -/
def bankWrite (live : JRec → Bool) (l : List Byte) (b : JBank) : JBank :=
  if b.off + l.length ≤ 65536 then putCopy l b else putCopy l (nextSector live b)

/-- A record takes its place among the winners of R484: one per type and key, the highest seq. -/
def newestOf (l : List JRec) (r : JRec) : List JRec :=
  match l.find? fun x => x.type == r.type && x.key == r.key with
  | none => l ++ [r]
  | some x => if x.seq < r.seq then l.map fun y => if y = x then r else y else l

/-- The oldest pending record takes the next seq, and its copy 0 is programmed. -/
def startRecord (s : State) : State :=
  match s.journal.pending with
  | [] => s
  | p :: r => { s with journal := { s.journal with pending := r, writing := some (p, 0), nextSeq := s.journal.nextSeq + 1 } }

/-- The record that is being written. -/
def recordOf (s : State) (p : JPend) : JRec := ⟨p.type, p.key, s.journal.nextSeq - 1, p.body⟩

/-- A copy that is read back verifies: nothing differs, or only in bytes that are not the record's. -/
def copyVerified (r : JRec) (found : Option (List Byte)) : Bool :=
  match found with
  | none => true
  | some l => l.take (jBytes r).length == jBytes r

/-- A copy joins a bank of the flash. -/
def putBank (bank : Nat) (l : List Byte) (s : State) : State :=
  let live (x : JRec) : Bool := s.journal.kept.contains x
  if bank = 0 then { s with journal := { s.journal with bank0 := bankWrite live l s.journal.bank0 } }
  else { s with journal := { s.journal with bank1 := bankWrite live l s.journal.bank1 } }

/-- A copy of the record being written has been programmed and read back, with other bytes than were written where `found` gives
them: the winners follow a verified copy. [log 54 DEDUCED] -/
def copyWritten (bank : Nat) (p : JPend) (found : Option (List Byte)) (s : State) : State :=
  let r := recordOf s p
  let n := (jBytes r).length
  let l := (found.getD (jBytes r)).take n
  let s1 := putBank bank (l ++ List.replicate (n - l.length) 0xFF#8) s
  if copyVerified r found then { s1 with journal := { s1.journal with kept := newestOf s1.journal.kept r } } else s1

/-- A copy that a reset cut off while it was programmed: each byte holds some of the bits that were to be cleared (R482, R483).
[log 250 DESIGN CHOICE] -/
def tearCopy (s : State) : State :=
  match s.journal.writing with
  | some (p, k) =>
    let l := jBytes (recordOf s p)
    let d := drawBytes 482 l.length s
    if k < 2 then putBank k ((l.zip d.1).map fun e => e.1 ||| e.2) d.2 else s
  | none => s

/-- A remap entry is marked JOURNALLED where the record names what it still holds (R337). -/
def markEntry (body : List Byte) (e : RemapEntry) : RemapEntry :=
  if e.valid && u32 body 0 = 2 ^ 31 + e.addr then { e with journalled := true } else e

/-- FW_COMMIT is done (R501): the floor rises to the running image's security version where it asked for it. -/
def finishCommit (r : Ref) (s : State) : State :=
  let raise := s.fw.jobs.any fun j => j.ref == r && j.raise
  let sec := match s.fw.image with
    | some h => h.security
    | none => 0
  complete r stOk [] { s with fw := { s.fw with
    jobs := s.fw.jobs.filter fun j => j.ref != r, fuses := if raise then blowFloor sec s.fw.fuses else s.fw.fuses } }

/-- Both copies of a record are written: what waited for it follows. -/
def journalDone (p : JPend) (s : State) : State :=
  let s1 :=
    if p.type = jDomeRemap then
      domeUpd (p.key / 16) (fun d => { d with remap := lupd d.remap (p.key % 16) (markEntry p.body) }) s
    else if p.type = jSramRemap then
      regionUpd (p.key / 8) (fun g => { g with remap := lupd g.remap (p.key % 8) (markEntry p.body) }) s
    else if p.type = jBoot then { s with fw := { s.fw with committed := u8 p.body 0, old := none } }
    else s
  match p.ref with
  | some r => finishCommit r s1
  | none => s1

/-- The flash offset of a copy (R480). -/
def copyOffset (bank : Nat) (c : JCopy) : Nat := 0x400000 + 0x80000 * bank + 65536 * c.sector + c.off

/-- Each invalid copy of a bank counts and posts JOURNAL_ERR (R484); magic 0xFFFF is the unwritten end of a sector (R482). -/
def scanErrors (bank : Nat) (b : JBank) (s : State) : State :=
  (b.copies.filter fun c => u16 c.bytes 0 != 0xFFFF && (jParse c.bytes).isNone).foldl (fun t c =>
    postEv 0x0D04 [bank, copyOffset bank c] { t with journal := { t.journal with errors := satAdd 16 t.journal.errors 1 } }) s

/-- A remap entry as the journal restores it (R337). -/
def restoredEntry (poison : Bool) (body : List Byte) : RemapEntry :=
  let w := u32 body 0
  if w.testBit 31 then { valid := true, poison := poison, journalled := true, addr := w % 2 ^ 26 } else {}

/-- A winner of the scan is restored into PD00. -/
def restoreRecord (s : State) (r : JRec) : State :=
  if r.type = jBoot then { s with fw := { s.fw with committed := u8 r.body 0 } }
  else if r.type = jDomeRemap then
    domeUpd (r.key / 16) (fun d => { d with remap := lupd d.remap (r.key % 16) fun _ => restoredEntry false r.body }) s
  else if r.type = jSramRemap then
    regionUpd (r.key / 8) (fun g => { g with remap := lupd g.remap (r.key % 8) fun _ => restoredEntry true r.body }) s
  else if r.type = jRing then
    let ids := (List.range 15).map fun i => (i + 1, slice r.body (11 * i) 11)
    { s with ring := { s.ring with
      epoch := u16 r.body 165
      bind := ids.foldl (fun t e => tset [] t e.1 (if e.2.all (· == 0xFF#8) then [] else e.2)) [] } }
  else s

/-- The Cupola scans both banks and keeps the newest valid record of each type and key (R484). -/
def journalScan (s : State) : State :=
  let cs := s.journal.bank0.copies ++ s.journal.bank1.copies
  let kept := (cs.filterMap fun c => jParse c.bytes).foldl newestOf []
  let s1 := scanErrors 1 s.journal.bank1 (scanErrors 0 s.journal.bank0 s)
  let s2 := { s1 with journal := { s1.journal with
    kept := kept, nextSeq := kept.foldl (fun m r => max m (r.seq + 1)) 0 } }
  kept.foldl restoreRecord s2

/-! Firmware images (R480, R481, R487). -/

/-- Power modulo the order of the group. -/
def oPow : Nat → Nat → Nat → Nat → Nat
  | 0, _, _, acc => acc
  | f + 1, b, e, acc => oPow f (b * b % pOrder) (e / 2) (if e % 2 = 1 then acc * b % pOrder else acc)

/-- An ECDSA P-384 signature, r then s, of a SHA-384 digest under a public key (R481). [log 58 PRESUMED] -/
def ecdsaOk (key digest sig : List Byte) : Bool :=
  let r := beNat (slice sig 0 48)
  let t := beNat (slice sig 48 48)
  if !pointValid key || r = 0 || pOrder ≤ r || t = 0 || pOrder ≤ t then false
  else
    let w := oPow 384 t (pOrder - 2) 1
    let u1 := beNat digest * w % pOrder
    let u2 := r * w % pOrder
    let p := jAdd (jMul ⟨pBase.1, pBase.2, 1⟩ u1 384 ⟨1, 1, 0⟩) (jMul ⟨beNat (slice key 1 48), beNat (slice key 49 48), 1⟩ u2 384 ⟨1, 1, 0⟩)
    let i := pInv p.z
    p.z != 0 && p.x * (i * i % pMod) % pMod % pOrder == r

/-- Bytes of a slot; what no program wrote since the erase reads 0xFF, where that erase was cut off free bytes. [log 250 DESIGN CHOICE] -/
def slotBytes (v : Slot) (off n : Nat) : List Byte :=
  match v.torn with
  | none => (List.range n).map fun i => tget 0xFF#8 v.bytes (off + i)
  | some k => (List.range n).map fun i => BitVec.ofNat 8 (Config.freeNat 487 (2097152 * k + off + i))

/-- The header fields of an image (R481). -/
def imageHdr (h : List Byte) : ImageHdr := ⟨u8 h 4, u8 h 5, u16 h 6, u32 h 8, u32 h 12, u32 h 16⟩

/-- What the check of a slot finds (R481, R522): the reason of R490 at which it fails, 0 when it verifies, and its header. [log 56 DEDUCED, 58 PRESUMED] -/
def checkSlot (fuses : Fuses) (v : Slot) : Nat × ImageHdr :=
  let floor := fusedFloor fuses
  match v.fitted with
  | some h => (if (fusedKeyHash fuses).isNone then 2 else if h.security < floor then 5 else 0, h)
  | none =>
    let h := slotBytes v 0 512
    let f := imageHdr h
    let bad :=
      if u32 h 0 != 0x4B4D6432 || f.stepping != 0x3042 then 1
      else if fusedKeyHash fuses != some (sha384 (slice h 80 97)) then 2
      else if !ecdsaOk (slice h 80 97) (sha384 (slice h 0 177)) (slice h 177 96) then 3
      else if 1572864 < 512 + f.bodyLen || sha384 (slotBytes v 512 f.bodyLen) != slice h 32 48 then 4
      else if f.security < floor || 63 < f.security then 5 else 0
    (bad, f)

/-- A flash slot by its number. -/
def slotGet (s : State) (i : Nat) : Slot := if i = 0 then s.fw.slot0 else s.fw.slot1

/-- The inactive slot (R487). -/
def inactiveSlot (s : State) : Nat :=
  if s.fw.recovery then
    (match journalBody s jBoot 0 with
      | some b => 1 - min 1 (u8 b 0)
      | none => 1)
  else 1 - s.fw.running

/-- The state with the inactive slot updated. -/
def inactiveUpd (f : Slot → Slot) (s : State) : State :=
  if inactiveSlot s = 0 then { s with fw := { s.fw with slot0 := f s.fw.slot0 } } else { s with fw := { s.fw with slot1 := f s.fw.slot1 } }

/-- The erase of the inactive slot is cut off by a reset (R478, R487). [log 250 DESIGN CHOICE] -/
def tearSlot (s : State) : State :=
  if s.fw.jobs.any (·.opcode == 0x0D01) then
    let s1 := inactiveUpd (fun _ => { torn := some s.free }) s
    { s1 with free := s1.free + 1 }
  else s

/-- The device programs bytes in the inactive slot, where a program only clears bits (R487). -/
def programBytes (off : Nat) (l : List Byte) (s : State) : State :=
  let put (m : Tbl Byte) (e : Nat × Byte) : Tbl Byte := tset 0xFF#8 m e.1 (tget 0xFF#8 m e.1 &&& e.2)
  let s1 := inactiveUpd (fun v => { v with bytes := ((List.range l.length).zip l).foldl (fun m e => put m (off + e.1, e.2)) v.bytes }) s
  { s1 with fw := { s1.fw with written := s1.fw.written + l.length, verified := false } }

/-- A version as FW_SWITCH carries it (R490). -/
def versionArg (h : ImageHdr) : Nat := 256 * h.major + h.minor

/-! Engines (R14 to R16). -/

/-- The state of an engine. -/
def engGet (s : State) (e : Nat) : EngState := tget .active s.eng.state e

/-- The state with an engine's state set. -/
def engPut (e : Nat) (v : EngState) (s : State) : State := { s with eng := { s.eng with state := tset .active s.eng.state e v } }

/-- The domain of a cluster (R21). -/
def clusterDom (k : Nat) : Nat := 27 + k / 3

/-- The domain of an engine's cluster is ON. -/
def engPowered (s : State) (e : Nat) : Bool := domOn s (clusterDom (e / 16))

/-- The engine that runs what the firmware placed on an engine. [log 38 DESIGN CHOICE] -/
def engHost (s : State) (e : Nat) : Nat := match tget 0 s.eng.hosts e with
  | 0 => e
  | h + 1 => h

/-- The tenants whose contexts the engines hold: those with a container or a client. -/
def engTenants (s : State) : List Nat := (txTenants s ++ rxTenants s ++ clientsWhere s fun c => c.kind != 0).eraseDups

/-- The active engine that the firmware fills at place `i`: 15 to a cluster, from LC00 upward (R14). [log 38 DESIGN CHOICE] -/
def engAt (i : Nat) : Nat := 16 * (i / 15 % 12) + i % 15

/-- Each placed tenant with the engine that its context was placed on: six tenants to an engine, in rising order (R14). [log 38 DESIGN CHOICE] -/
def placement (s : State) : List (Nat × Nat) :=
  let ts := engTenants s
  ts.map fun t => (t, engAt ((ts.filter fun u => decide (u < t)).length / 6))

/-- The tenants that an engine runs. -/
def tenantsOn (s : State) (e : Nat) : List Nat := ((placement s).filter fun x => engHost s x.2 == e).map (·.1)

/-- All that an engine ran moves to another. [log 52 DEDUCED] -/
def rehost (a b : Nat) (s : State) : State :=
  { s with eng := { s.eng with hosts := (List.range 192).foldl (fun t e => if engHost s e = a then tset 0 t e (b + 1) else t) s.eng.hosts } }

/-- The spare for a failed engine (R15, R16): its cluster's own, else the first unused one of another powered cluster. -/
def spareFor (s : State) (e : Nat) : Option Nat :=
  let all := (List.range 192).filter fun x => engGet s x == .spare && engPowered s x
  (all.find? fun x => x / 16 == e / 16) <|> all.head?

/-- ENGINE_SHORTAGE lists the suspended tenants (R16): one record for each four of them. [log 234 DESIGN CHOICE] -/
def shortageAlarm (ts : List Nat) (s : State) : State :=
  (List.range (max 1 ((ts.length + 3) / 4))).foldl (fun t i => post 0x0004 true ((ts.drop (4 * i)).take 4) t) s

/-- An engine is declared failed (R15, R16): a spare starts the takeover, or ENGINE_SHORTAGE suspends its tenants. -/
def engineFails (e : Nat) (s : State) : State :=
  if 192 ≤ e || !engPowered s e || (engGet s e != .active && engGet s e != .taking) then s
  else
    let broken := (s.eng.takeovers.filter (·.spare == e)).flatMap (·.tenants)
    let ts := (tenantsOn s e ++ broken).eraseDups
    let s0 := (s.eng.takeovers.filter (·.spare == e)).foldl (fun t k => rehost k.failed e t) s
    let s1 := engPut e .fenced { s0 with eng := { s0.eng with takeovers := s0.eng.takeovers.filter (·.spare != e) } }
    match spareFor s1 e with
    | some x =>
      engPut x .taking { s1 with eng := { s1.eng with takeovers := s1.eng.takeovers ++ [⟨e, x, ts⟩] } }
    | none =>
      shortageAlarm ts { s1 with eng := { s1.eng with shortage := true, suspended := (s1.eng.suspended ++ ts).eraseDups } }

/-- A pair's tenant is one of a list. -/
def pairAmong (s : State) (ts : List Nat) (i : Nat) : Bool := ts.contains (pairTenant s (tget {} s.ring.pairs i))

/-- An engine's tenant state goes to its cluster's SRAM (R15): the restore timers of its tenants' pairs. [log 235 DEDUCED] -/
def checkpointEngine (e : Nat) (s : State) : State :=
  let ts := tenantsOn s e
  { s with eng := { s.eng with
    checkpoint := tset 0 s.eng.checkpoint e s.now
    saved := s.ring.pairs.foldl (fun m x => if pairAmong s ts x.1 then tset none m x.1 x.2.wtrAt else m) s.eng.saved } }

/-- An engine's last checkpoint is lost (R340). -/
def dropCheckpoint (e : Nat) (s : State) : State :=
  let ts := tenantsOn s e
  { s with eng := { s.eng with
    checkpoint := terase s.eng.checkpoint e
    saved := s.eng.saved.filter fun x => !pairAmong s ts x.1 } }

/-- A spare has taken a failed engine's tenants over (R15): it loads the last checkpoint, and their protection state machines
judge the present defects at once. [log 52 DEDUCED, 235 DEDUCED] -/
def takeOver (k : Takeover) (s : State) : State :=
  let s1 := engPut k.spare .active (rehost k.failed k.spare { s with eng := { s.eng with takeovers := s.eng.takeovers.filter (· != k) } })
  let s2 := postEv 0x0003 [k.failed, k.spare, k.tenants.length] s1
  (s2.ring.pairs.map (·.1)).foldl (fun t i =>
    if pairAmong t k.tenants i then pairRule i false (pairUpd i (fun x => { x with wtrAt := tget none t.eng.saved i }) t) else t) s2

/-! Clusters and the controller (R17, R488, R489). -/

/-- The powered clusters from a number on. -/
def poweredFrom (s : State) (k : Nat) : List Nat := (List.range 12).filter fun i => decide (k ≤ i) && domOn s (clusterDom i)

/-- The engines of a cluster in a state. -/
def clusterIn (s : State) (k : Nat) (v : EngState) : List Nat := ((List.range 16).map (16 * k + ·)).filter fun e => engGet s e == v

/-- The engines of a cluster take new code (R488): by rolling takeovers from its spare on, the last engine freed becoming the
spare, or in place where the spare is not available. The answer tells whether it rolled. -/
def rollCluster (k version : Nat) (s : State) : Bool × State :=
  let s0 := { s with eng := { s.eng with code := tset 0 s.eng.code k version } }
  match clusterIn s k .spare, clusterIn s k .active with
  | x :: _, a :: r =>
    let chain := a :: r
    let moved := (chain.zip (x :: chain)).foldl (fun t m => rehost m.1 m.2 t) s0
    let last := chain.getLastD a
    (true, engPut last .spare (engPut x .active moved))
  | _, _ => (false, s0)

/-- The controller runs another image (R488 step 2): FW_SWITCH phase 0. -/
def switchImage (slot : Nat) (h : ImageHdr) (s : State) : State :=
  postEv 0x0D02 [0, versionArg h] { s with fw := { s.fw with running := slot, image := some h } }

/-- A firmware command ends. -/
def endFwJob (opcode st : Nat) (res : List Byte) (s : State) : State :=
  match s.fw.jobs.find? (·.opcode == opcode) with
  | none => s
  | some j => complete j.ref st res { s with fw := { s.fw with jobs := s.fw.jobs.filter (· != j) } }

/-- The result of FW_ACTIVATE (R500). -/
def activateResult (s : State) (a : Activation) : List Byte :=
  le 1 a.switched ++ le 1 a.inPlace ++ le 2 (min 65535 ((s.now - a.start) / (10 * msNs)))

/-- The return to the old image (R489): the procedure of R488 on every powered cluster, then FW_REVERT. [log 57 DEDUCED] -/
def fwRevert (slot : Nat) (h : ImageHdr) (s : State) : State :=
  let s1 := match s.fw.activation with
    | some a => endFwJob 0x0D03 stBadState (activateResult s a) s
    | none => s
  let s2 := switchImage slot h { s1 with fw := { s1.fw with old := none, switchedAt := none, activation := none, verified := false } }
  let s3 := (poweredFrom s2 0).foldl (fun t k => postEv 0x0D02 [1 + k, versionArg h] (rollCluster k (versionArg h) t).2) s2
  postEv 0x0D03 [versionArg h] s3

/-- A lockstep mismatch (R17): the third within 60 s holds the cores in reset, any other restarts them; within 60 s of a
switch the old image returns (R489). [log 60 DEDUCED] -/
def controllerMismatchOp (s : State) : State :=
  if s.ctl.phase != .running && s.ctl.phase != .restarting then s
  else
    let ts := s.now :: s.ctl.mismatches.filter fun t => decide (s.now < t + 60 * secNs)
    if 3 ≤ ts.length then noteStatus s { s with ctl := { s.ctl with mismatches := ts, phase := .failed } }
    else
      let s1 := postEv 0x0002 [] { s with ctl := { s.ctl with mismatches := ts, phase := .restarting } }
      match s.fw.old, s.fw.switchedAt with
      | some (slot, h), some t => if s.now ≤ t + 60 * secNs then fwRevert slot h s1 else s1
      | _, _ => s1

end Sys2Proof.Machine
end

