-- ==== Sys2Proof/Machine/Domains.lean ====
section
/-! DEFINITION. Power domains: what a mode wants, power-up in groups, loss and return, mode transitions (R20 to R24, R465 to R469). -/

namespace Sys2Proof.Machine

/-! What a domain needs and who wants it (R21, R466). -/

/-- The order of R466. -/
def powerOrder : List Nat :=
  [1, 2, 25, 26, 27, 28, 29, 30, 3, 4, 5, 6, 7, 8, 9, 10, 11, 12, 13, 14, 15, 16, 17, 18, 19, 20, 21, 22, 23, 24, 31]

/-- The domains that a domain needs ON (R466). -/
def needsOf (d : Nat) : List Nat :=
  if d = 1 || d = 31 then []
  else if d = 2 || (25 ≤ d && d ≤ 30) then [1]
  else if d = 23 || d = 24 then [2, 25, 26]
  else [1, 2]

/-- The Spire of a domain. -/
def spireOf (d : Nat) : Option Carrier :=
  if 3 ≤ d && d ≤ 7 then some .a else if 8 ≤ d && d ≤ 12 then some .b else none

/-- LOCAL_OSC and the line plan allow a domain (R18, R466). -/
def sourceOk (s : State) (d : Nat) : Bool :=
  s.clk.qualified && match spireOf d with
    | some c => !unused (planOf s c)
    | none => true

/-- A domain may start to power up now. -/
def mayStart (s : State) (d : Nat) : Bool := sourceOk s d && (needsOf d).all (domOn s)

/-- The codes of R21. -/
inductive DomCode where
  | off
  | on
  | cmd
  | used
  | load
  | ring
  deriving DecidableEq, Repr

/-- The table of R21. -/
def domCode (m : Mode) (d : Nat) : DomCode :=
  if d = 31 then .ring
  else match m with
  | .dormant => .off
  | _ =>
    if d ≤ 2 then .on
    else if 27 ≤ d && d ≤ 30 then .load
    else match m with
    | .configure | .maintain => .cmd
    | _ =>
      if d ≤ 7 then .on
      else if d ≤ 12 then (if m == .independent then .used else .on)
      else if d ≤ 22 then (if m == .regenerate then .off else .used)
      else if d ≤ 24 then (if m == .bonded || m == .merge then .on else .off)
      else if m == .regenerate then .off else .on

/-- The configuration uses an element (R21): a planned carrier, a quad of which a lane is enabled and belongs to a PHY (R178). -/
def isUsed (s : State) (d : Nat) : Bool :=
  match spireOf d with
  | some c => !unused (planOf s c)
  | none => (List.range 4).any fun i => (quadGet s (d - 13)).enable.testBit i && (phyAt s (4 * (d - 13) + i)).isSome

/-- The load of the Lantern domains (R14): the first is always needed, the others while a tenant is placed on them. [log 39 DESIGN CHOICE] -/
def isLoaded (s : State) (d : Nat) : Bool :=
  d == 27 || (placement s).any fun x => clusterDom (engHost s x.2 / 16) == d

/-- The device is a configured ring member that may power PD31 (R21, R479, R486). [log 40 DEDUCED] -/
def ringPowered (s : State) : Bool := s.ring.role != 0 && s.ctl.ready && !s.therm.shutdown && !s.fw.recovery

/-- A mode wants a domain ON. [log 39 DESIGN CHOICE] -/
def modeWants (s : State) (m : Mode) (d : Nat) : Bool :=
  match domCode m d with
  | .on => true
  | .off => false
  | .cmd => (domGet s d).wanted
  | .used => isUsed s d
  | .load => isLoaded s d
  | .ring => ringPowered s

/-- The nominal voltages of the rails in mV (R470). [log 37 DESIGN CHOICE] -/
def railNominal (r : Nat) : Nat := [750, 900, 1800, 750, 900, 900, 900, 1100, 1800].getD r 0

/-- A rail lies below its warning level (R470). -/
def railLow (s : State) (r : Nat) : Bool :=
  let x := s.power.rails.getD r {}
  decide (x.mv * 1000 < railNominal r * (1000 - x.warnLvl))

/-- The supplies refuse the power-up of a domain (R25, R470, R471). -/
def supplyBad (s : State) (d : Nat) : Bool := domWarn s d || (railsOf d).any (railLow s)

/-- What refuses power-ups (R25). -/
def powerGate (s : State) (ds : List Nat) : List (Bool × Nat) :=
  [(!ds.isEmpty && s.therm.warn, stThermal), (ds.any (supplyBad s), stSupply)]

/-! Domain records. -/

/-- The record of a domain updated. -/
def domUpd (d : Nat) (f : Dom → Dom) (s : State) : State :=
  { s with power := { s.power with doms := tupd {} s.power.doms d f } }

/-- The state of a domain set. -/
def domPut (d : Nat) (v : DomState) (s : State) : State := domUpd d (fun x => { x with state := v }) s

/-- The domains that wait start, in groups of 4, each once the domains that it needs are ON (R20, R466). -/
def pumpQueue (s : State) : State :=
  if powerOrder.any fun d => (domGet s d).state == .powering then s
  else
    let go := (powerOrder.filter fun d => s.power.queue.contains d && mayStart s d).take 4
    go.foldl (fun t d => domPut d .powering t) { s with power := { s.power with queue := s.power.queue.filter fun d => !go.contains d } }

/-- The on mask with PD00 (R465). [log 41 DEDUCED] -/
def onMask (s : State) : Nat := 1 + domMask s fun x => x.state == .on

/-- A mask of domains. -/
def maskOf (ds : List Nat) : Nat := ds.foldl (fun m d => setBit m d true) 0

/-- Domains are to power up: those that are OFF or in RESET join the queue; a domain started in a traffic mode returns
(R468). -/
def requestUp (ds : List Nat) (s : State) : State :=
  let go := ds.filter fun d => ((domGet s d).state == .off || (domGet s d).state == .reset) && !s.power.queue.contains d
  let back := trafficMode s.mode.cur && s.mode.trans.isNone
  let s1 := go.foldl (fun t d => domUpd d (fun x => { x with returning := back, gaveUp := false, leftOff := false }) t) s
  let clear (r : Nat × Rail) : Rail := if go.any fun d => (railsOf d).contains r.1 then { r.2 with gaveUp := false } else r.2
  pumpQueue { s1 with power := { s1.power with
    queue := s1.power.queue ++ go, rails := ((List.range 9).zip s1.power.rails).map clear } }

/-! What leaves with a domain (R467). -/

/-- What the ADC domain holds of the receive front end (R65, R67 to R71), as it powers up: settings load, the rest starts anew. -/
def freshAdc (agc : AgcState) (r : Rx) : Rx :=
  { r with
    use := { r.set with timingBw := r.use.timingBw }
    agc := agc, gain := 0, pRef := 0, stepNs := 0, settledNs := 0, refastNs := 0, limitNs := 0, insideNs := 0, prePower := 0
    level := [0, 0, 0, 0], dcEst := [0, 0, 0, 0], dcHeld := [0, 0, 0, 0], phase := 0, powers := [], clips := [0, 0, 0, 0]
    clipNow := [0, 0, 0, 0], clipAlarm := [none, none, none, none], agcLimit := false, unfreezes := 0, settleFails := 0, lofArose := false }

/-- What the RXDSP domain holds of the receive front end (R72 to R74, R29 to R32), as it powers up. -/
def freshDsp (r : Rx) : Rx :=
  { r with
    use := { r.use with timingBw := r.set.timingBw }
    timingLimit := false, correction := 0, clockOffset := 0, loopBw := 0, ratio := 0, pos := 0, delay := 0, groupClip := 0, groupFlag := false
    grp := 256, pilots := [], blk := 0, data := [], pilotErr := [], lastFill := 0, fillErr := 0, badFill := false }

/-- The ADC domain of a carrier has left ON (R69, R77, R467). -/
def adcLost (c : Carrier) (s : State) : State :=
  spireUpd c (fun x => { x with
    rx := freshAdc .off x.rx
    cal := { x.cal with vals := [], next := [] }
    mon := x.mon.map fun m => { m with running := false, closing := m.closing || m.running } }) s

/-- The RXDSP domain of a carrier has left ON (R74, R467): the timing is OFF, and what the equaliser held is gone; of the counters of R122 the losses
of lock, failed cycles and CD clips stay. [log 218 DESIGN CHOICE] -/
def rxdspLost (c : Carrier) (s : State) : State :=
  spireUpd c (fun x => { x with
    rx := freshDsp x.rx
    acq := { locksLost := x.acq.locksLost, cyclesFailed := x.acq.cyclesFailed, cdClipped := x.acq.cdClipped }
    eq := { set := x.eq.set, use := x.eq.set } }) (setTiming c .off s)

/-- The receive side of a carrier has lost a domain (R89, R96, R113, R167). -/
def rxLost (c : Carrier) (s : State) : State :=
  let s1 := endForeground c stBadState (acqIdle c s)
  let s2 := match (spireGet s1 c).acq.sweep with
    | some { ref := some r, .. } => complete r stBadState [] s1
    | _ => s1
  let s3 := spireUpd c (fun x => { x with
    acq := { x.acq with sweep := none, toneWaits := false, loc := false }
    cal := { x.cal with
      enableUse := x.cal.enable, track := {}, accepted := [], failed := [], discarded := [], spoiled := 0x1FF, age := [], estOut := [] } }) s2
  evalDefects c (frmHunt c (frmUpd c (fun f => { f with los := false, belowNs := 0, aboveNs := 0 }) s3))

/-- The FEC domain of a carrier has left ON: what the decoder and the encoder held is gone (R137, R146); the reduction with it, which may change the
iteration limit (R140). -/
def fecLost (c : Carrier) (s : State) : State :=
  evalDefects c (noteIEff c (iEff (lineGet s c).fec)
    (fecUpd c (fun f => { set := f.set, clipWUse := f.set.clipW, degUse := f.set, failUse := f.set }) (unlockFec c s)))

/-- A row repair on a stack ends without a result (R338). -/
def endRepair (stack : Nat) (s : State) : State :=
  match s.mem.repair with
  | some r => if r.stack = stack then complete r.ref stBadState [] { s with mem := { s.mem with repair := none } } else s
  | none => s

/-- A Dome stack has left ON; with both stacks off their key is zeroised (R308, R337). -/
def stackLost (stack : Nat) (s : State) : State :=
  let s1 := endRepair stack (stackOff stack s)
  let gone (d : Nat) : Bool := (domGet s1 d).state == .off || (domGet s1 d).state == .reset
  if gone 23 && gone 24 then zeroDomeKey { s1 with turret := { s1.turret with domeDraw := none } } else s1

/-- The consequences of the loss of a domain whose record is no longer ON. -/
def afterLoss (d : Nat) (byRail : Bool) (s : State) : State :=
  let s1 := match spireOf d with
    | none => s
    | some c =>
      let keep := trafficMode s.mode.cur && (txGet s c).state != .off
      let t1 := if keep then txUpd c (fun t => { t with lost := some t.state }) s else s
      let t2 := settleTx c t1
      let t3 := if d = adcDom c then adcLost c (rxLost c t2) else if d = rxdspDom c then rxdspLost c (rxLost c t2) else t2
      if d = fecDom c then fecLost c t3 else t3
  let s2 :=
    if d = 1 then belfryDown s1
    else if d = 2 then
      let t := pmLost byRail (framerDown s1)
      evaluateRef 0 ((List.range 16).foldl (fun u g => endSwitch g stBadState u) t)
    else if 13 ≤ d && d ≤ 22 then evaluateRef 0 (settleQuad (d - 13) false s1)
    else if d = 23 || d = 24 then stackLost (d - 23) s1
    else if d = 25 || d = 26 then turretHalfOff s1
    else if d = 31 then evaluateRef 0 (calondDown s1)
    else s1
  let s3 := (List.range 14).foldl (fun t r => if regionDom r = d then regionOff r t else t) s2
  testDomainOff d s3

/-- A domain leaves ON, or its power-up ends, for OFF or RESET (R467); by command PD01 journals its model (R364), PD02 closes its bins (R278). -/
def loseDom (d : Nat) (byRail : Bool) (next : DomState) (s : State) : State :=
  let was := (domGet s d).state
  let s0 := { s with power := { s.power with queue := s.power.queue.filter (· != d) } }
  let s1 := if was != .on || byRail then s0 else if d = 1 then journalModel s0 else if d = 2 then pmPowerDown s0 else s0
  let s2 := domUpd d (fun x => { x with state := next, window := none, returning := false }) s1
  if was == .on then afterLoss d byRail s2
  else if (d = 23 || d = 24) && was == .init then stackLost (d - 23) s2 else s2

/-- Domains power down in the reverse order of R466. -/
def powerDown (ds : List Nat) (s : State) : State :=
  (powerOrder.reverse.filter ds.contains).foldl (fun t d => if (domGet t d).state == .off then
    { t with power := { t.power with queue := t.power.queue.filter (· != d) } } else loseDom d false .off t) s

/-! Transitions and SET_DOMAINS that wait (R24, R494). -/

/-- A transition fails at a step (R24): what was started for it goes down, and the completion carries the status. [log 43 DEDUCED] -/
def failTrans (step st : Nat) (s : State) : State :=
  match s.mode.trans with
  | none => s
  | some t =>
    let s1 := powerDown t.started { s with mode := { s.mode with trans := none } }
    complete t.ref st (le 1 (modeCode s1.mode.cur) ++ le 1 step ++ le 2 0) s1

/-- The target mode of a transition powers the Dome down, and a delay above 6.0 us is still held in it (R242). -/
def mustRamp (s : State) (m : Mode) : Bool := domCode m 23 == .off && domOn s 23 && trafficMode m && (inDome s .a || inDome s .b)

/-- A transition goes on where the step that it is in has ended (R24). -/
def progressTrans (s : State) : State :=
  match s.mode.trans with
  | none => s
  | some t =>
    let go (k : Nat) : State := { s with mode := { s.mode with trans := some { t with step := k } } }
    if t.step = 2 && t.started.all (domOn s) then
      if mustRamp s t.target then go 3 else if t.target == .configure || t.target == .dormant then go 5 else go 4
    else s

/-- A SET_DOMAINS completes once every named domain is ON, or OFF, or has failed (R494). [log 41 DEDUCED] -/
def progressJob (s : State) (j : DomJob) : State :=
  let ended := j.mask.all fun d => j.failed.contains d || (if j.up then domOn s d else (domGet s d).state == .off)
  if !ended then s
  else
    complete j.ref (if j.failed.isEmpty then stOk else j.status) (le 4 (onMask s) ++ le 4 (maskOf j.failed))
      { s with power := { s.power with jobs := s.power.jobs.filter (· != j) } }

/-- Every SET_DOMAINS that waits is looked at. -/
def progressJobs (s : State) : State := s.power.jobs.foldl progressJob s

/-- Domains fail for the commands that wait for them: they are off, and the first cause is the status. [log 49 DEDUCED] -/
def failDomains (ds : List Nat) (st : Nat) (s : State) : State :=
  let mark (j : DomJob) : DomJob :=
    let f := j.mask.filter fun d => ds.contains d && !j.failed.contains d
    if j.up && !f.isEmpty then { j with failed := j.failed ++ f, status := if j.failed.isEmpty then st else j.status } else j
  progressJobs { s with power := { s.power with jobs := s.power.jobs.map mark } }

/-- Stacks whose key cannot be drawn power down, and what asked for them fails with ENTROPY (R308). -/
def failDomeDraw (s : State) : State :=
  let ds := [23, 24].filter fun d => (domGet s d).state == .init
  let s1 := match s.mode.trans with
    | some t => if t.started.any ds.contains then failTrans 3 stEntropy s else s
    | none => s
  failDomains ds stEntropy (powerDown ds s1)

/-! Power-up (R465, R468, R469). -/

/-- The ADC domain of a carrier is up (R69, R76): the AGC is FAST, settings and accepted calibration values load. -/
def adcUp (c : Carrier) (s : State) : State :=
  spireUpd c (fun x => { x with
    rx := freshAdc .fast x.rx
    cal := { x.cal with vals := x.cal.kept.filter fun e => e.1 < 6144 } }) s

/-- The RXDSP domain of a carrier is up (R74, R76, R119): the timing runs free, settings load. -/
def rxdspUp (c : Carrier) (s : State) : State :=
  spireUpd c (fun x => { x with
    rx := { (freshDsp x.rx) with timing := .free }
    eq := { set := x.eq.set, use := x.eq.set } }) s

/-- Both receive domains of a carrier are up: the foreground calibration starts (R89), and LOF is declared (R167). [log 85 DEDUCED] -/
def rxUp (c : Carrier) (s : State) : State :=
  let s1 := calUpd c (fun k => { k with enableUse := k.enable }) s
  let s2 := frmUpd c (fun f => { f with cnt := { f.cnt with lof := satAdd 16 f.cnt.lof 1 } }) s1
  evalDefects c (startForeground c none s2)

/-- The FEC domain of a carrier is up (R146): under an active throttle warning the reduction rises at once (R140), and the first windows of FEC-DEG
and FEC-FAIL start (R143, R144). [log 225 DESIGN CHOICE, 226 DESIGN CHOICE] -/
def fecUp (c : Carrier) (s : State) : State :=
  let warn := s.therm.warn && (lineGet s c).fec.set.throttle
  let s1 := fecUpd c (fun f => {
    set := f.set, clipWUse := f.set.clipW, degUse := f.set, failUse := f.set
    throttleAt := if warn then some (s.now + 10 * msNs) else none
    degW := { endAt := some (s.now + 10 * msNs), neutral := true }
    failW := { endAt := some (s.now + msNs), neutral := true } }) s
  let s2 := if warn then
      noteIEff c (iEff (lineGet s1 c).fec)
        (fecUpd c (fun f => if s.therm.critical then { f with delta := min 12 (f.set.iMax - f.set.iFloor) } else raiseDelta f) s1)
    else s1
  if lockedOn s2 c then beginHunt c s2 else s2

/-- A transmitter whose domains return in a traffic mode goes back to where it was (R469). -/
def returnTx (c : Carrier) (s : State) : State :=
  let t := txGet s c
  if !trafficMode s.mode.cur || t.state != .stopped then txUpd c (fun t => { t with lost := none }) s
  else match t.lost with
  | some .running | some .squelched =>
    txUpd c (fun t => { t with
      lost := none, state := .squelched, latched := false,
      settleAt := if safetyCause s then none else some (s.now + t.settle * msNs) }) s
  | _ => txUpd c (fun t => { t with lost := none }) s

/-- The consequences of a domain that has reached ON. [log 45 DEDUCED] -/
def afterUp (d : Nat) (s : State) : State :=
  let s1 := match spireOf d with
    | none => s
    | some c =>
      let t1 := if d = dacDom c || d = txdspDom c then
          let u := settleTx c s
          if txPowered u c then armTxCal c (returnTx c u) else u
        else s
      let t2 := if d = adcDom c then adcUp c t1 else if d = rxdspDom c then rxdspUp c t1 else t1
      let t3 := if (d = adcDom c || d = rxdspDom c) && rxPowered t2 c then rxUp c t2 else t2
      if d = fecDom c then fecUp c t3 else t3
  if d = 1 then belfryUp s1
  else if d = 2 then evaluateRef 0 (framerUp s1)
  else if 13 ≤ d && d ≤ 22 then evaluateRef 0 (settleQuad (d - 13) false s1)
  else if 27 ≤ d && d ≤ 30 then
    let v := match s1.fw.image with
      | some h => versionArg h
      | none => 0
    { s1 with eng := { s1.eng with
      code := [0, 1, 2].foldl (fun t k => tset 0 t (3 * (d - 27) + k) v) s1.eng.code } }
  else if d = 31 then evaluateRef 0 (calondUp s1)
  else s1

/-- A domain reaches ON: a returning one posts DOMAIN_RETURN and its pointer window opens (R468 steps 2 and 3). -/
def domainUp (d : Nat) (s : State) : State :=
  if domOn s d then s
  else
    let back := (domGet s d).returning
    let s1 := domUpd d (fun x => { x with state := .on, window := if back then some (s.now + secNs) else none }) s
    let s2 := if back then
        postEv 0x0103 [2 ^ d, 0] { s1 with power := { s1.power with returns := satAdd 16 s1.power.returns 1 } }
      else s1
    progressJobs (progressTrans (pumpQueue (afterUp d s2)))

/-- A domain without an on-die region has nothing to initialise (R465). [log 48 DEDUCED] -/
def hasRegion (d : Nat) : Bool := (List.range 14).any fun r => regionDom r = d

/-- The PLL of a domain has locked: INIT, and where nothing is to be initialised ON; a Dome stack takes or draws its key
(R308, R332). [log 48 DEDUCED] -/
def pllLocked (d : Nat) (s : State) : State :=
  let s1 := pumpQueue (domPut d .init s)
  if d = 23 || d = 24 then
    if (domeKey s1).state = 1 || s1.turret.domeDraw.isSome then s1
    else if s1.turret.rng = 0 then drawDomeKey s1
    else { s1 with turret := { s1.turret with domeDraw := some (s1.now + 100 * msNs) } }
  else if hasRegion d then s1 else domainUp d s1

/-! Modes (R21 to R24). -/

/-- The domains that follow the configuration, the load and the ring role in the present mode (R21). [log 40 DEDUCED] -/
def applyUsed (s : State) : State :=
  if !s.ctl.ready || s.mode.trans.isSome then s
  else
    let ds := powerOrder.filter fun d => match domCode s.mode.cur d with
      | .used | .load | .ring => true
      | _ => false
    let off := ds.filter fun d => !modeWants s s.mode.cur d && (domGet s d).state != .off && (domGet s d).state != .reset
    let up := ds.filter fun d => modeWants s s.mode.cur d && (domGet s d).state == .off && !(domGet s d).gaveUp
      && !(domGet s d).leftOff && sourceOk s d && !s.therm.warn && !supplyBad s d && !s.fw.recovery
    let s1 := if off.isEmpty then s else powerDown off s
    if up.isEmpty then s1 else requestUp up s1

/-- A change of the configuration, from `s` to `t`, would start a domain while LOCAL_OSC is not qualified (R18). [log 236 DEDUCED] -/
def startsUnqualified (s t : State) : Bool :=
  !s.clk.qualified && s.mode.trans.isNone && powerOrder.any fun d =>
    (domCode s.mode.cur d == .used || domCode s.mode.cur d == .ring)
      && modeWants t s.mode.cur d && !modeWants s s.mode.cur d && (domGet s d).state == .off

/-- The transmitters at the boundary into a mode (R53). -/
def modeTx (m : Mode) (started : List Nat) (s : State) : State :=
  if !trafficMode m then stopTx .b (stopTx .a s)
  else
    let go (c : Carrier) (t : State) : State :=
      if t.mode.cur == .configure || started.contains (dacDom c) || started.contains (txdspDom c) then boundaryTx c t else t
    go .b (go .a s)

/-- The mode changes at its boundary (R24 steps 5 and 6): groups, merge, loops, capture and transmitters follow, and what the
mode marks off powers down. [log 47 DEDUCED] -/
def enterMode (m : Mode) (started : List Nat) (s : State) : State :=
  let old := s.mode.cur
  let s1 := modeTx m started (groupMode m (mergeMode m s))
  let s2 := if old == .maintain then leaveMaintain s1 else s1
  let s3 := if captureMode m then s2 else endCapture 4 s2
  let hold (t : State) (d : Nat) : State :=
    if domCode m d == .cmd then domUpd d (fun x => { x with wanted := x.state == .on || x.state == .reset }) t else t
  let s4 := powerOrder.foldl hold { s3 with mode := { cur := m, trans := none } }
  let s5 := if domOn s4 2 then lineEffects (settleRx (settleTxAll s4)) else s4
  let s6 := if (old == .dormant) != (m == .dormant) then ringDormant (m == .dormant) s5 else s5
  let s7 := powerDown (powerOrder.filter fun d => domCode m d == .off) s6
  noteStatus s (noteCapacity (applyUsed s7))

/-- Step 5 of R24 with the completion of SET_MODE (R493). -/
def finishTrans (t : Trans) (s : State) : State :=
  complete t.ref stOk (le 1 (modeCode t.target) ++ le 3 0) (enterMode t.target t.started s)

/-! Loss by a rail or by heat (R468, R471, R478). -/

/-- The domains that a rail feeds (R470). [log 46 DEDUCED] -/
def railDomains (r : Nat) : List Nat := powerOrder.filter fun d => (railsOf d).contains r

/-- The rail with its record updated. -/
def railUpd (r : Nat) (f : Rail → Rail) (s : State) : State :=
  { s with power := { s.power with rails := lupd s.power.rails r f } }

/-- A command waits for a domain: the transition started it, or a SET_DOMAINS names it (R24, R494). -/
def awaited (s : State) (d : Nat) : Bool :=
  (match s.mode.trans with
    | some t => t.started.contains d
    | none => false)
  || s.power.jobs.any fun j => j.up && j.mask.contains d && !j.failed.contains d

/-- A rail of domains warns, or takes them away (`lost`): a transition that has started one of them fails, one that is ON only where it is lost, and
so does a SET_DOMAINS; what a command waited for powers down, and a return goes on (R24, R468, R494). [log 43 DEDUCED, 49 DEDUCED] -/
def dropWaiting (ds : List Nat) (lost : Bool) (st : Nat) (s : State) : State :=
  let hit (d : Nat) : Bool := ds.contains d && (lost || !domOn s d)
  let s1 := match s.mode.trans with
    | some t => if t.started.any hit then failTrans 2 st s else s
    | none => s
  failDomains (ds.filter hit) st (powerDown (ds.filter fun d => awaited s d && !domOn s1 d) s1)

/-- The shutdown of R478 once both DACs are squelched: everything but PD00 powers down, the device is DORMANT. [log 44 DESIGN CHOICE] -/
def shutdownAll (s : State) : State :=
  let s1 := failTrans 2 stThermal { s with power := { s.power with queue := [] } }
  let s2 := powerDown powerOrder s1
  let s3 := failDomains powerOrder stThermal s2
  let old := s3.mode.cur
  if old == .dormant then s3
  else
    let s4 := groupMode .dormant (mergeMode .dormant s3)
    let s5 := if old == .maintain then leaveMaintain s4 else s4
    endCapture 4 { s5 with mode := { cur := .dormant, trans := none } }

end Sys2Proof.Machine
end

