-- ==== Sys2Proof/Machine/Cal.lean ====
section
/-! DEFINITION. Calibration of the converters: its commands, the foreground calibration, the background windows and the transmit terms that
the far end measures (R82 to R93, R163). -/

namespace Sys2Proof.Machine

/-! Items (R84). -/

/-- The number of values of an item. -/
def calSize (item : Nat) : Nat := if item ≤ 2 then 512 else 4

/-- The keys of the values of an item. -/
def calKeys (item : Nat) : List Nat := (List.range (calSize item)).map (1024 * item + ·)

/-- Per-update limit of an item, in its resolution. -/
def calStep (item : Nat) : Nat := [25, 32, 12, 12, 10, 32, 12, 10, 1].getD item 0

/-- Absolute bound of an item; of items 6 to 8 for the sum with the host term. [log 72 DESIGN CHOICE] -/
def calBound (item : Nat) : Nat := [256, 512, 128, 640, 150, 1024, 640, 150, 16].getD item 0

/-- The host term of a transmit item and channel (R49). -/
def hostTerm (t : Tx) (item i : Nat) : Int :=
  let c := t.corrUse.getD i {}
  if item = 6 then c.skew else if item = 7 then c.gain else c.dc

/-- The calibration term of a transmit item and channel. -/
def calTerm (t : Tx) (item i : Nat) : Int :=
  let c := t.term.getD i {}
  if item = 6 then c.skew else if item = 7 then c.gain else c.dc

/-- The calibration term set. -/
def setTerm (item i : Nat) (v : Int) (t : Tx) : Tx :=
  { t with term := lupd t.term i fun c =>
      if item = 6 then { c with skew := v } else if item = 7 then { c with gain := v } else { c with dc := v } }

/-- The transmit terms take their values kept in PD00 (R89). [log 61 DESIGN CHOICE] -/
def restoreTerms (kept : Tbl Int) (t : Tx) : Tx :=
  [6, 7, 8].foldl (fun a item => (List.range 4).foldl (fun b i => setTerm item i (tget 0 kept (1024 * item + i)) b) a) t

/-- CAL_STUCK follows the stuck mask (R88): raised at a newly set bit, cleared when the mask empties. -/
def noteCalStuck (c : Carrier) (old : Nat) (s : State) : State :=
  let m := (spireGet s c).cal.track.stuck
  if m = old then s
  else if m = 0 then post 0x0209 false [carrierNum c, 0] s
  else if (List.range 9).any (fun i => m.testBit i && !old.testBit i) then post 0x0209 true [carrierNum c, m] s
  else s

/-- One checked value (R87, R88): a value that passes is counted, a failing one extends its run. -/
def noteValue (item i : Nat) (pass : Bool) (k : Cal) : Cal :=
  { k with
    track := trackValue item (calKeys item) (1024 * item + i) pass k.track
    accepted := if pass then tupd 0 k.accepted item fun n => satAdd 32 n 1 else k.accepted
    failed := if pass then k.failed else tupd 0 k.failed item fun n => satAdd 32 n 1 }

/-- A result of an item is discarded and counted (R85, R86). [log 71 DEDUCED] -/
def discardItem (item : Nat) (k : Cal) : Cal := { k with discarded := tupd 0 k.discarded item fun n => satAdd 32 n 1 }

/-- The conditions of R85 hold now. -/
def calMeasures (s : State) (c : Carrier) : Bool :=
  let x := spireGet s c
  syncOn s c && x.rx.agc == .frozen && x.rx.timing == .track && !(lineGet s c).frm.los && !x.acq.loc && !spireWarn s c

/-! Commands (R92, R93). -/

/-- SET_CAL_CONTROL. -/
def checkSetCalControl (c : Ctx) (s : State) : Nat :=
  let p := c.pk.params
  gated s (!plainLen 8 c) [
    (carrierBad p || decide (1 < u8 p 1) || decide (0x1FF < u16 p 2) || !zeroAt p 4 4, stBadParam),
    (u8 p 1 == 1 && (trafficMode s.mode.cur || !rxPowered s (carrierOf (u8 p 0))), stBadState)]
/-- The mask is stored; action 1 restarts the foreground calibration and completes with it. [log 69 DEDUCED] -/
def runSetCalControl (c : Ctx) (s : State) : Res :=
  let p := c.pk.params
  let k := carrierOf (u8 p 0)
  let s1 := calUpd k (fun x => { x with enable := u16 p 2 }) s
  if u8 p 1 = 0 then done s1 else later (startForeground k (some c.ref) s1)
/-- SET_CAL_CONTROL. -/
def execSetCalControl (pk : Packet) (s : State) : Out := .next (serve 0x0222 checkSetCalControl runSetCalControl pk s)

/-- GET_CAL_STATUS (R93). -/
def checkGetCalStatus (c : Ctx) (s : State) : Nat :=
  gated s (!plainLen 4 c) [(carrierBad c.pk.params || !zeroAt c.pk.params 1 3, stBadParam)]
/-- The 116-byte result; the counters clear. -/
def runGetCalStatus (c : Ctx) (s : State) : Res :=
  let k := carrierOf (u8 c.pk.params 0)
  let x := (spireGet s k).cal
  doneWith (calUpd k (fun x => { x with accepted := [], failed := [], discarded := [] }) s)
    (le 2 x.track.stuck ++ le 2 x.enableUse ++ le 4 0
      ++ (List.range 9).flatMap fun i => le 4 (tget 0 x.accepted i) ++ le 4 (tget 0 x.failed i) ++ le 4 (tget 0 x.discarded i))
/-- GET_CAL_STATUS. -/
def execGetCalStatus (pk : Packet) (s : State) : Out := .next (serve 0x0223 checkGetCalStatus runGetCalStatus pk s)

/-! The foreground calibration (R89). -/

/-- The receive values take those kept in PD00. -/
def keptValues (k : Cal) : Cal := { k with vals := k.kept.filter fun e => e.1 < 6144, next := [] }

/-- One value that the foreground calibration found: within its bound it is taken and kept, else the kept one holds. [log 68 DEDUCED] -/
def foregroundValue (k : Cal) (e : Nat × Nat × Int) : Cal :=
  let key := 1024 * e.1 + e.2.1
  if e.2.2.natAbs ≤ calBound e.1 then
    { k with
      vals := tset 0 k.vals key e.2.2, kept := tset 0 k.kept key e.2.2
      accepted := tupd 0 k.accepted e.1 fun n => satAdd 32 n 1 }
  else { k with failed := tupd 0 k.failed e.1 fun n => satAdd 32 n 1 }

/-- The calibration has ended: transmit terms restart, waiting commands complete, acquisition starts (R89, R92). [log 68 DEDUCED] -/
def afterForeground (c : Carrier) (st : Nat) (s : State) : State :=
  let s1 := txUpd c (restoreTerms (spireGet s c).cal.kept) s
  startAcq c (endForeground c st s1)

/-- FOREGROUND_CAL_DONE (R89): the values of items 0 to 5, in the order of their items; a spoiled one repeats. -/
def execForegroundCalDone (c : Carrier) (values : List (List Int)) (s0 : State) : Out :=
  .next (match (spireGet s0 c).cal.fg.running with
    | none => s0
    | some t =>
      let s := advanceTo t s0
      if (spireGet s c).cal.fg.spoiled then
        calUpd c (fun k => { k with fg := { k.fg with
          running := none, waiting := true, spoiled := false
          clearAt := if spireWarn s c then none else some (k.fg.clearAt.getD s.now) } }) s
      else
        let flat := ((List.range 6).zip values).flatMap fun e =>
          ((List.range (calSize e.1)).zip e.2).map fun x => (e.1, x.1, x.2)
        afterForeground c stOk (calUpd c (fun k => flat.foldl foregroundValue (keptValues k)) s))

/-- FOREGROUND_CAL_REPEAT (R89): RAIL_WARN has been clear for 1 ms on every rail of the Spire. -/
def execForegroundCalRepeat (c : Carrier) (s : State) : Out :=
  .next (
    let fg := (spireGet s c).cal.fg
    match fg.clearAt with
    | none => s
    | some t => if !fg.waiting || spireWarn s c then s else startForeground c none (advanceTo (t + msNs) s))

/-- CAL_DEFERRED (R89, R92): 100 ms without a clean calibration; acquisition starts with the kept values. -/
def execCalDeferred (c : Carrier) (s0 : State) : Out :=
  .next (
    let fg := (spireGet s0 c).cal.fg
    match fg.deferAt with
    | none => s0
    | some t =>
      if fg.running.isNone && !fg.waiting then s0
      else
        let s := advanceTo t s0
        afterForeground c stSupply (postEv 0x020A [carrierNum c] (calUpd c keptValues s)))

/-! Background windows (R85 to R88). -/

/-- The results of an item in use are checked one by one; values that pass wait for the next multiframe boundary. -/
def checkCalValues (item : Nat) (values : List Int) (k : Cal) : Cal :=
  ((List.range (calSize item)).zip values).foldl (fun a e =>
    let key := 1024 * item + e.1
    let pass := decide ((e.2 - tget 0 k.vals key).natAbs ≤ calStep item) && decide (e.2.natAbs ≤ calBound item)
    let b := noteValue item e.1 pass a
    if pass then { b with next := tset none b.next key (some e.2) } else b) k

/-- The estimates of items 6 to 8 for the far end's transmitter are staged; with item 8 they go out in CALRET with the
next SEQ (R163). [log 71 DEDUCED, 72 DESIGN CHOICE] -/
def stageEstimate (c : Carrier) (item : Nat) (values : List Int) (s : State) : State :=
  let lim := if item = 8 then 127 else 32767
  let v := ((List.range 4).map fun i => clampInt (-lim) lim (values.getD i 0))
  let est := (spireGet s c).cal.estOut
  let all := if item = 6 then v else if est.length = 4 * (item - 6) then est ++ v else []
  if item = 8 && all.length = 12 then
    frmUpd c (fun f => { f with calret := { f.calret with valid := true, seq := (f.calret.seq + 1) % 256, vals := all } })
      (calUpd c (fun k => { k with estOut := [] }) s)
  else calUpd c (fun k => { k with estOut := all }) s

/-- CAL_WINDOW_CLOSE (R83 to R85, R87): a window closes when it has lasted the multiframes of its item. What it measured at the pilot positions is an
operand; the result of a window that does not count is discarded, and the next window is spoiled from its start where a condition of R85 does
not hold now. [log 70 DEDUCED, 210 DESIGN CHOICE] -/
def execCalWindowClose (c : Carrier) (item : Nat) (values : List Int) (s : State) : Out :=
  .next (
    let k := (spireGet s c).cal
    if !rxPowered s c || k.fg.running.isSome || k.fg.waiting || 8 < item || tget 0 k.age item < calLength item then s
    else
      let ok := calMeasures s c
      let s1 := calUpd c (fun x => { x with spoiled := setBit x.spoiled item (!ok), age := tset 0 x.age item 0 }) s
      if item < 6 && !k.enableUse.testBit item then s1
      else if k.spoiled.testBit item || !ok then calUpd c (discardItem item) s1
      else if item < 6 then noteCalStuck c k.track.stuck (calUpd c (checkCalValues item values) s1)
      else stageEstimate c item values s1)

/-- CAL_APPLY (R86, R89): the values of an item that passed change together and are copied to PD00. -/
def execCalApply (c : Carrier) (item : Nat) (s : State) : Out :=
  .next (if !rxPowered s c || !syncOn s c then s
    else
      calUpd c (fun k =>
        let mine := k.next.filter fun e => e.1 / 1024 == item
        mine.foldl (fun a e => { a with
          vals := tset 0 a.vals e.1 (e.2.getD 0), kept := tset 0 a.kept e.1 (e.2.getD 0)
          next := tset none a.next e.1 none }) k) s)

/-- One correction of the far end on a term (R87, R163): the term in use plus the correction, checked with the host term. -/
def applyTerm (c : Carrier) (est : List Int) (s : State) (e : Nat × Nat) : State :=
  let item := e.1
  let x := spireGet s c
  if !x.cal.enableUse.testBit item then s
  else
    let d := est.getD (4 * (item - 6) + e.2) 0
    let v := calTerm x.tx item e.2 + d
    let pass := decide (d.natAbs ≤ calStep item) && decide ((hostTerm x.tx item e.2 + v).natAbs ≤ calBound item)
    let s1 := calUpd c (fun k =>
      let k1 := noteValue item e.2 pass k
      if pass then { k1 with kept := tset 0 k1.kept (1024 * item + e.2) v } else k1) s
    if pass then txUpd c (setTerm item e.2 v) s1 else s1

/-- TX_CAL_APPLY (R86, R87): the corrections received change the transmit terms at a transmitted multiframe boundary. -/
def execTxCalApply (c : Carrier) (s : State) : Out :=
  .next (match (spireGet s c).cal.est with
    | none => s
    | some est =>
      if (txGet s c).state == .off then s
      else
        let pairs := [6, 7, 8].flatMap fun item => (List.range 4).map fun i => (item, i)
        let old := (spireGet s c).cal.track.stuck
        noteCalStuck c old (pairs.foldl (applyTerm c est) (calUpd c (fun k => { k with est := none }) s)))

/-- TX_CAL_TIMEOUT (R86): no valid estimate within 4 windows; one discard is counted for each transmit item. -/
def execTxCalTimeout (c : Carrier) (s0 : State) : Out :=
  .next (match (spireGet s0 c).cal.txDue with
    | none => s0
    | some t =>
      if (txGet s0 c).state == .off || (spireGet s0 c).cal.est.isSome then s0
      else
        let s := advanceTo t s0
        calUpd c (fun k => [6, 7, 8].foldl (fun a i => discardItem i a) { k with txDue := some (t + txCalSpan) }) s)

end Sys2Proof.Machine
end

