-- ==== Sys2Proof/Machine/Dma.lean ====
section
/-! DEFINITION. The bursts of the DMA engine (R420 to R426). A burst row moves one whole burst of the channel that the engine chooses. -/

namespace Sys2Proof.Machine

/-- Bytes of the capture area, region 0 (R325, R420). -/
def captureBytes : Nat := (2080767 - 524288 + 1) * 4096

/-- A descriptor as 32 bytes of host memory (R420). -/
def parseDesc (l : List Byte) : Desc := ⟨u16 l 0, u16 l 2, u32 l 4 % 2 ^ 25, u64 l 8, u64 l 16, u64 l 24⟩

/-- The kind of a descriptor: 0 RECEIVE, 1 READ_DEV, 2 WRITE_DEV. -/
def descKind (d : Desc) : Nat := d.flags % 4

/-- A descriptor field is invalid (R420, R423, R487). -/
def descBad (s : State) (ch : Channel) (d : Desc) : Bool :=
  let k := descKind d
  let region := bits d.flags 11 4
  let mode := d.crc % 4
  let stream := ch.ctrl.testBit 3
  k == 3 || d.length == 0 || decide (16777216 < d.length) || (stream != (k == 0))
    || (k == 0 && (decide (d.length < 512) || d.length % 32 != 0))
    || (k == 1 && (region != 0 || captureRuns s || decide (captureBytes < d.source + d.length)))
    || (k == 2 && (region != 1 || !s.fw.regionOpen || decide (2097152 < d.dest + d.length)))
    || (mode == 2 && k == 2) || (mode == 3 && k != 2)

/-- The PM records that a channel carries, in the form of a stream. -/
def pmStream (s : State) (c : Nat) : List StreamRec := if s.pm.dma = c then s.pm.buf.map fun x => ⟨x.1, 9, x.2⟩ else []

/-- The next record of a channel's stream, in the order the producers posted. -/
def nextRecord (s : State) (c : Nat) : Option StreamRec :=
  match (chanGet s c).stream, pmStream s c with
  | [], [] => none
  | r :: _, [] => some r
  | [], r :: _ => some r
  | a :: _, b :: _ => if a.order < b.order then some a else some b

/-- A record leaves the stream of a channel. -/
def dropRecord (c : Nat) (r : StreamRec) (s : State) : State :=
  if r.from_ = 9 then { s with pm := { s.pm with buf := s.pm.buf.drop 1 } }
  else chanUpd c (fun x => { x with stream := x.stream.drop 1 }) s

/-- The completion ring of a channel takes a record. -/
def cplRoom (ch : Channel) : Bool := ringFits 16 16 ch.cpl

/-- A channel has work (R421, R422): a descriptor to move, or one to fetch that it may start. -/
def chanWork (s : State) (c : Nat) : Bool :=
  let ch := chanGet s c
  dmaAllowed s && match ch.desc with
  | some d => if descKind d = 0 then (nextRecord s c).isSome else if descKind d = 2 then !flashDeferred s else true
  | none => ch.fetch.isSome && ch.ctrl.testBit 2 && cplRoom ch

/-- Priority of a channel. -/
def chanPrio (s : State) (c : Nat) : Nat := (chanGet s c).ctrl % 4

/-- The channel that the engine serves: the highest priority with work; equals take turns (R422). -/
def chanChosen (s : State) : Option Nat :=
  let ws := ((List.range 16).map fun i => (s.pcie.lastChan + 1 + i) % 16).filter (chanWork s)
  let top := ws.foldl (fun m c => max m (chanPrio s c)) 0
  ws.find? fun c => chanPrio s c == top

/-- Channels with work below the served priority are PRE-EMPTED; channels with work at its priority run (R422). -/
def markStates (served : Nat) (s : State) : State :=
  (List.range 16).foldl (fun t c =>
    let ch := chanGet t c
    if ch.state = 1 || ch.state = 2 then
      chanUpd c (fun x => { x with state := if ch.desc.isSome && chanWork t c && chanPrio t c < chanPrio t served then 2 else 1 }) t
    else t) s

/-- A channel halts with a status after its record (R424). -/
def haltChannel (c status : Nat) (s : State) : State :=
  postEv 0x0B01 [c, status] (chanUpd c (fun x => { x with
    state := 3, desc := none, fetch := none, moved := 0, staged := [], flushAt := none, needHead := true }) s)

/-- A descriptor ends with its record; the channel goes on to next, or waits at a next of 0 (R421, R424). -/
def endDesc (c status residue : Nat) (d : Desc) (s : State) : State :=
  let ch := chanGet s c
  let s1 := writeCompletion c status residue (recordCrc d ch.crcReg) (d.flags.testBit 2) s
  let next := leNat (memGet s1.hostMem (ch.cur + 24) 8)
  chanUpd c (fun x => { x with
    desc := none, moved := 0, dataErr := false, flushAt := none, staged := [],
    fetch := if next = 0 then none else some next, waits := next == 0, state := if next = 0 then 0 else 1 }) s1

/-- A host read has failed (R424, R436): by a completion timeout, or by an error or poisoned data, which the manual does not tell. [log 249 DESIGN CHOICE] -/
def hostReadFailed (s : State) : State :=
  let d := drawBool 436 s
  { d.2 with pcie := { d.2.pcie with timeouts := satAdd 16 s.pcie.timeouts (b2n d.1) } }

/-- The channel fetches its next descriptor and checks it (R420, R424). [log 29 DEDUCED] -/
def fetchDesc (c : Nat) (hostErr : Bool) (s : State) : State :=
  match (chanGet s c).fetch with
  | none => s
  | some a =>
    let s1 := chanUpd c (fun x => { x with cur := a, fetch := none }) s
    if hostErr then
      let r := drawNat 424 (2 ^ 25) (hostReadFailed s1)
      haltChannel c 3 (writeCompletion c 3 r.1 0 false r.2)
    else
      let d := parseDesc (memGet s1.hostMem a 32)
      let s1 := countSrc 0x09 60 32 s1
      if descBad s1 (chanGet s1 c) d then haltChannel c 2 (writeCompletion c 2 d.length 0 (d.flags.testBit 2) s1)
      else chanUpd c (fun x => { x with
        desc := some d, moved := 0, dataErr := false, state := 1,
        crcReg := if d.crc.testBit 2 then x.crcReg else 0xFFFFFFFF#32 }) s1

/-- Bytes move through a channel: CRC and counters (R423, R427). -/
def movedBytes (c : Nat) (l : List Byte) (s : State) : State :=
  countSrc 0x0C c l.length (chanUpd c (fun x => { x with moved := x.moved + l.length, crcReg := crc32cFrom x.crcReg l }) s)

/-- One burst of READ_DEV from the capture area; an uncorrectable sector moves zeros (R424). [log 28 DEDUCED] -/
def burstRead (c : Nat) (d : Desc) (domeErr : Bool) (s : State) : State :=
  let ch := chanGet s c
  let n := min 512 (d.length - ch.moved)
  let off := d.source + ch.moved
  let first := 524288 + off / 4096
  let a := sectorRead s first
  let b := if off % 4096 + n ≤ 4096 then (([], false) : List Byte × Bool) else sectorRead s (first + 1)
  let bad := domeErr || a.2 || b.2
  let bytes := if bad then List.replicate n 0 else slice (a.1 ++ b.1) (off % 4096) n
  let s1 := movedBytes c bytes (hostStore (d.dest + ch.moved) bytes (countSrc 0x0A (61 + first % 2) n s))
  let s2 := chanUpd c (fun x => { x with dataErr := x.dataErr || bad }) s1
  if (chanGet s2 c).moved < d.length then s2
  else
    let crc := (~~~ (chanGet s2 c).crcReg).toNat
    let s3 := if d.crc % 4 = 2 then hostStore (d.dest + d.length) (le 4 crc) s2 else s2
    endDesc c (if (chanGet s3 c).dataErr then 4 else 0) 0 d s3

/-- One burst of WRITE_DEV into the firmware staging area; the check mode compares at the end (R423, R487). [log 28 DEDUCED, 30 DEDUCED] -/
def burstWrite (c : Nat) (d : Desc) (hostErr : Bool) (s : State) : State :=
  let ch := chanGet s c
  if hostErr then haltChannel c 3 (writeCompletion c 3 (d.length - ch.moved) (recordCrc d ch.crcReg) (d.flags.testBit 2) (hostReadFailed s))
  else
    let n := min 512 (d.length - ch.moved)
    let bytes := memGet s.hostMem (d.source + ch.moved) n
    let s1 := movedBytes c bytes (programBytes (d.dest + ch.moved) bytes (countSrc 0x09 60 n s))
    if (chanGet s1 c).moved < d.length then s1
    else
      let want := leNat (memGet s1.hostMem (d.source + d.length) 4)
      let bad := d.crc % 4 = 3 && want != (~~~ (chanGet s1 c).crcReg).toNat
      endDesc c (if bad then 5 else 0) 0 d s1

/-- Whole records move into a RECEIVE descriptor, at least one, up to one burst (R422, R426). -/
def takeRecords : Nat → Nat → Desc → Nat → State → State
  | 0, _, _, _, s => s
  | f + 1, c, d, sum, s =>
    match nextRecord s c with
    | none => chanUpd c (fun x => { x with flushAt := some (s.now + max 1 (bits x.ctrl 23 16) * msNs) }) s
    | some r =>
      let ch := chanGet s c
      if d.length < ch.moved + r.bytes.length then
        let s1 := if d.crc % 4 = 2 then hostStore (d.dest + ch.moved) (le 4 (~~~ ch.crcReg).toNat) s else s
        endDesc c 0 (d.length - ch.moved) d s1
      else if sum != 0 && 512 < sum + r.bytes.length then s
      else
        let s1 := movedBytes c r.bytes (hostStore (d.dest + ch.moved) r.bytes (dropRecord c r s))
        takeRecords f c d (sum + r.bytes.length)
          (chanUpd c (fun x => { x with flushAt := some (s.now + max 1 (bits x.ctrl 23 16) * msNs) }) s1)

/-- DMA_BURST (R422): what the host stored in its memory is in place; the chosen channel fetches a descriptor where it has
none and moves one burst of it. [log 28 DEDUCED] -/
def execDmaBurst (host : List Host.Cell) (hostErr domeErr : Bool) (s : State) : Out :=
  .next (
    let s0 := hostCells host s
    match chanChosen s0 with
    | none => s0
    | some c =>
      let s1 := markStates c { s0 with pcie := { s0.pcie with lastChan := c } }
      let s2 := if (chanGet s1 c).desc.isNone then fetchDesc c hostErr s1 else s1
      match (chanGet s2 c).desc with
      | none => s2
      | some d =>
        let s3 := advanceTo (s2.now + 40) s2
        match descKind d with
        | 0 => takeRecords 5 c d 0 s3
        | 1 => burstRead c d domeErr s3
        | _ => burstWrite c d (hostErr && (chanGet s1 c).desc.isSome) s3)

/-- RECEIVE_FLUSH_TIMEOUT (R426): a RECEIVE descriptor with a record in it completes after the flush time. -/
def execReceiveFlushTimeout (ch : Nat) (s : State) : Out :=
  .next (match (chanGet s ch).desc, (chanGet s ch).flushAt with
    | some d, some t =>
      if (chanGet s ch).moved = 0 || (nextRecord s ch).isSome then s
      else
        let s1 := advanceTo t s
        let x := chanGet s1 ch
        let s2 := if d.crc % 4 = 2 then hostStore (d.dest + x.moved) (le 4 (~~~ x.crcReg).toNat) s1 else s1
        endDesc ch 0 (d.length - x.moved) d s2
    | _, _ => s)

end Sys2Proof.Machine
end

