-- ==== Sys2Proof/Machine/Decoder.lean ====
section
/-! DEFINITION. The shared operations of the decoder: the received coded stream, hunts, iterations, turbo refresh and blocks that leave (R126, R131 to
R138). -/

namespace Sys2Proof.Machine

/-! The coded stream as received. -/

/-- The bits that the hunts look back on: 8 blocks. -/
abbrev rawSpan : Nat := 76104

/-- The hard channel decisions of soft bits, packed. -/
def hardOf (l : List SoftBit) : Nat := packBits (l.map (·.hard))

/-- Soft bits join the stream, the first at a place of the coded stream; bits that alignment passes over leave its front. -/
def joinStream (place : Nat) (l : List SoftBit) (bad : Bool) (f : Fec) : Fec :=
  let all := f.inp.bits ++ l
  let k := min f.skip all.length
  { f with
    skip := f.skip - k
    inp := {
             start := (if f.inp.bits.isEmpty then place else f.inp.start) + k, bits := all.drop k
             bad := bad || (f.inp.bad && !f.inp.bits.isEmpty) }
    raw := f.raw / 2 ^ l.length + hardOf l * 2 ^ (rawSpan - l.length)
    rawLen := min rawSpan (f.rawLen + l.length) }

/-- A block that is whole leaves the front of the stream. -/
def cutBlock (bad : Bool) (f : Fec) : Fec × Option ChanBlock :=
  if f.inp.bits.length < 9513 then (f, none)
  else
    ({ f with inp := { start := f.inp.start + 9513, bits := f.inp.bits.drop 9513, bad := bad } },
      some { f.inp with bits := f.inp.bits.take 9513 })

/-- What the decoder passes on reaches the framer unless the framer takes the frames of its own transmitter (R135, R523). -/
def passOn (c : Carrier) (ws : List (Nat × Bool)) (s : State) : State :=
  if framerLooped s c then s else deliver c ws s

/-- The messages of the 8 outer codewords of a block as it was received, each flagged uncorrectable (R137). -/
def flaggedMessages (b : BlockBits) : List (Nat × Bool) := (List.range 8).map fun c => (blockPart b c % 2 ^ 1024, true)

/-- Soft bits reach the decoder (R130, R133): a whole block waits for its entry where the decoder is aligned, else its hard channel decisions
pass on flagged (R137). -/
def feedSoft (c : Carrier) (place : Nat) (l : List SoftBit) (bad : Bool) (s : State) : State :=
  let r := cutBlock bad (joinStream place l bad (lineGet s c).fec)
  let s1 := fecUpd c (fun _ => r.1) s
  match r.2 with
  | none => s1
  | some b =>
    if r.1.aligned then fecUpd c (fun f => { f with chan := f.chan ++ [b] }) s1
    else passOn c (flaggedMessages (hardOf b.bits)) s1

/-! Hunts (R136, R137). -/

/-- The k-th newest whole block of the stream, from 1 on, on the grid that lies `d` bits after the present one. -/
def rawBlock (f : Fec) (d k : Nat) : BlockBits := f.raw / 2 ^ (rawSpan + d - f.inp.bits.length - 9513 * (k + 1)) % 2 ^ 9513

/-- The score of a grid (R136): the unsatisfied checks over 4 consecutive blocks. [log 217 DESIGN CHOICE] -/
def scoreAt (f : Fec) (d : Nat) : Nat :=
  ((List.range 4).map fun k => unsatisfied (rawBlock f d (k + 1)) (rawBlock f d (k + 2)) (rawBlock f d (k + 3))).sum

/-- The best of the `n` offsets from `d` on and a best one before them; of equal scores the first. -/
def huntFrom (f : Fec) : Nat → Nat → Nat × Nat → Nat × Nat
  | 0, _, best => best
  | n + 1, d, best =>
    if best.2 = 0 then best
    else
      let v := scoreAt f d
      huntFrom f n (d + 1) (if v < best.2 then (d, v) else best)

/-- The best of the 9,513 candidates with its score (R136). -/
def huntBest (f : Fec) : Nat × Nat := huntFrom f 9512 1 (0, scoreAt f 0)

/-- The 8 offsets of a quick hunt from the old grid (R137). -/
def quickOffsets (h64 : Nat) : List Nat :=
  [1, 2, 3, 4].flatMap fun k => [2 * k * h64 % 9513, (9513 * 2 * h64 - 2 * k * h64) % 9513]

/-- The best of the quick-hunt offsets with its score; of equal scores the first. [log 86 DEDUCED] -/
def quickBest (f : Fec) (h64 : Nat) : Nat × Nat :=
  (quickOffsets h64).foldl (fun b d => let v := scoreAt f d; if v < b.2 then (d, v) else b) (0, 9513)

/-- The decoder takes the grid `d` bits after the present one. -/
def takeGrid (d : Nat) (f : Fec) : Fec := { (emptyDecoder f) with aligned := true, skip := d, offset := (f.inp.start + d) % 9513, badRun := 0 }

/-! Values of the decoder (R133). Soft values are LLRs. -/

/-- A block enters the values with its channel LLRs, once. -/
def loadBlock (num : Nat) (b : ChanBlock) (m : DecMem) : DecMem :=
  if (tget #[] m.soft num).size = 0 then
    { m with soft := tset #[] m.soft num (b.bits.map fun x => (x.llr : Rat) / 2).toArray }
  else m

/-- The final hard values of a block that has left. -/
def leftBits (m : DecMem) (num : Nat) : Option BlockBits := (m.past.find? fun e => e.1 == num).map (·.2)

/-- The value of a bit (R133): a block that has left stands with its hard values at full confidence; of a block that was never received nothing is
known. [log 203 DESIGN CHOICE] -/
def valueAt (m : DecMem) (num bit : Nat) : Rat :=
  match leftBits m num with
  | some b => if b.testBit bit then -1000 else 1000
  | none => (tget #[] m.soft num).getD bit 0

/-- The hard values of a block. -/
def hardValues (m : DecMem) (num : Nat) : BlockBits :=
  match leftBits m num with
  | some b => b
  | none => hardBits (tget #[] m.soft num).toList

/-- A block `k` before another. -/
def blockBefore (num k : Nat) : Option Nat := if k ≤ num then some (num - k) else none

/-- The value of a bit without the check's own last answer. -/
def withoutAnswer (m : DecMem) (u : Nat) (e : EdgeBit × Rat) : Rat :=
  match blockBefore u e.1.1 with
  | none => 0
  | some num => if (leftBits m num).isSome then valueAt m num e.1.2 else valueAt m num e.1.2 - e.2

/-- A new value of a bit, where its block is in the decoder. -/
def putValue (u : Nat) (m : DecMem) (e : EdgeBit × Rat) : DecMem :=
  match blockBefore u e.1.1 with
  | none => m
  | some num =>
    if (leftBits m num).isSome then m
    else { m with soft := tupd #[] m.soft num fun a => a.setIfInBounds e.1.2 e.2 }

/-- Check `j` of block `u` is updated (R133). -/
def updateCheck (u : Nat) (m : DecMem) (j : Nat) : DecMem :=
  let bits := checkBits j
  let rows := tget [] m.msgs u
  let old := rows.getD j []
  let vals := bits.zipIdx.map fun e => withoutAnswer m u (e.1, old.getD e.2 0)
  let ans := minSumAnswers vals
  let m1 := { m with msgs := tset [] m.msgs u (((rows ++ List.replicate (1057 - rows.length) []).set j ans)) }
  (bits.zip (List.zipWith (· + ·) vals ans)).foldl (putValue u) m1

/-- An iteration of block `t` (R133): the checks of blocks t, t + 1 and t + 2, layer by layer in their order. [log 217 DESIGN CHOICE] -/
def iterateValues (t : Nat) (m : DecMem) : DecMem :=
  [t, t + 1, t + 2].foldl (fun a u => (List.range 1057).foldl (updateCheck u) a) m

/-- The checks that are not satisfied of block `u` by the current hard values. -/
def openChecks (m : DecMem) (u : Nat) : Nat :=
  let at_ (k : Nat) : BlockBits := match blockBefore u k with
    | some n => hardValues m n
    | none => 0
  ldpcChecks (at_ 0) (at_ 1) (at_ 2)

/-- Every check of blocks t, t + 1 and t + 2 is satisfied (R134). -/
def allSatisfied (m : DecMem) (t : Nat) : Bool := [t, t + 1, t + 2].all fun u => openChecks m u == 0

/-- One period of a block in the window (R133, R134). -/
def iterateBlock (m : DecMem) (b : DecBlock) : DecMem × DecBlock :=
  let b1 := { b with age := b.age + 1 }
  if (b.early && b.convAt.isSome) || b.iEff ≤ b.iters then (m, b1)
  else
    let m1 := iterateValues b.num m
    (m1, { b1 with
      iters := b.iters + 1
      convAt := if b.convAt.isNone && allSatisfied m1 b.num then some (b.iters + 1) else b.convAt })

/-- One period of the window, the oldest block first. -/
def iterateWindow : DecMem → List DecBlock → DecMem × List DecBlock
  | m, [] => (m, [])
  | m, b :: rest =>
    let r := iterateBlock m b
    let q := iterateWindow r.1 rest
    (q.1, r.2 :: q.2)

/-! The turbo loop (R109, R138). -/

/-- An LLR in units of log-likelihood. -/
def logOf (x : Rat) : Int := (x * logUnit).floor

/-- The decoder's value of the coded bit at a place of the stream, seen from block `b`. -/
def placeValue (m : DecMem) (b : DecBlock) (p : Nat) : Int :=
  let q := p + 2 * 9513 - b.chan.start
  if b.num + q / 9513 < 2 then 0 else logOf (valueAt m (b.num + q / 9513 - 2) (q % 9513))

/-- The shaping blocks of the turbo buffer that carry bits of a block. -/
def heldOf (width : Nat) (b : DecBlock) (l : List HeldBlock) : List HeldBlock :=
  l.filter fun x => match x.place with
    | some p => decide (p < b.chan.start + 9513) && decide (b.chan.start < p + width)
    | none => false

/-- The weight of a symbol's log-likelihoods in 16ths under a clip weight (R132, R340). -/
def symWeight (w : Nat) (y : HeldSym) : Nat := if y.lost then 0 else if y.flag then w else 16

/-- The data symbols of a shaping block after the first pass, with their weights. -/
def heldData (w : Nat) (x : HeldBlock) : List (Sym × Nat) := (x.syms.filter fun y => y.pilot.isNone).map fun y => (y.first, symWeight w y)

/-- What the decoder expects of the symbols of a shaping block (R138). -/
def expectedSyms (fmt : Nat) (h : Shape) (m : DecMem) (b : DecBlock) (x : HeldBlock) : List Sym :=
  dimSyms (expectBlock fmt h (demapBlock h x.varX x.varY (heldData 16 x))
    ((List.range (256 + h.bits)).map fun i => placeValue m b (x.place.getD 0 + i)))

/-- Samples with what is known of them: pilots as they were sent, data as expected. -/
def withRefs : List HeldSym → List Sym → List (HeldSym × Sym)
  | [], _ => []
  | y :: r, es => match y.pilot with
    | some p => (y, p) :: withRefs r es
    | none => match es with
      | e :: q => (y, e) :: withRefs r q
      | [] => (y, {}) :: withRefs r []

/-- The sum of samples times the conjugates of their references, for one polarisation. -/
def corrSum (l : List ((Int × Int) × Int × Int)) : Int × Int :=
  l.foldl (fun a e => (a.1 + e.1.1 * e.2.1 + e.1.2 * e.2.2, a.2 + e.1.2 * e.2.1 - e.1.1 * e.2.2)) (0, 0)

/-- A sample turned back by a phase; one without a phase stays. -/
def turnBack (z r keep : Int × Int) : Int × Int :=
  let a := (z.1 ^ 2 + z.2 ^ 2).natAbs.sqrt
  if a = 0 then keep else ((r.1 * z.1 + r.2 * z.2) / a, (r.2 * z.1 - r.1 * z.2) / a)

/-- The samples turned back by the decision-aided average over 2 N + 1 symbols (R109 steps 2 and 3). [log 216 DESIGN CHOICE] -/
def turboTurn (n w : Nat) (l : List (HeldSym × Sym)) : List (Sym × Nat) :=
  l.zipIdx.map fun e =>
    let near := (l.drop (e.2 - n)).take (min e.2 n + n + 1)
    let zx := corrSum (near.map fun q => ((q.1.sample.xi, q.1.sample.xq), q.2.xi, q.2.xq))
    let zy := corrSum (near.map fun q => ((q.1.sample.yi, q.1.sample.yq), q.2.yi, q.2.yq))
    let y := e.1.1
    let x := turnBack zx (y.sample.xi, y.sample.xq) (y.first.xi, y.first.xq)
    let v := turnBack zy (y.sample.yi, y.sample.yq) (y.first.yi, y.first.yq)
    (⟨x.1, x.2, v.1, v.2⟩, symWeight w y)

/-- The refreshed channel LLRs of a block (R109, R138), demapped again with the same flags and the clip weight in effect (R132); bits that
the turbo buffer does not hold keep theirs. [log 216 DESIGN CHOICE] -/
def turboFresh (s : State) (c : Carrier) (b : DecBlock) : List Int :=
  let h := pget s.plan.shape c
  let fmt := (planOf s c).fmt
  let f := (lineGet s c).fec
  let eq := (spireGet s c).eq
  let hs := heldOf (256 + h.bits) b eq.held
  let refs := hs.flatMap fun x => withRefs x.syms (expectedSyms fmt h f.mem b x)
  let turned := (refs.zip (turboTurn eq.use.cprN f.clipWUse refs)).filter fun e => e.1.1.pilot.isNone
  let fresh := hs.zipIdx.flatMap fun x =>
    (blockLlrs fmt h (demapBlock h x.1.varX x.1.varY (((turned.drop (64 * x.2)).take 64).map (·.2)))).1.map (·.llr)
  let first := (hs.head?.bind (·.place)).getD 0
  let mine := fresh.drop (b.chan.start - first)
  (b.chan.bits.zipIdx).map fun e => if first ≤ b.chan.start then mine.getD e.2 e.1.llr else e.1.llr

/-- Refreshed channel LLRs replace those of a block in the window, not the decoder's messages (R109 step 4, R138); the hard channel decisions stay.
[log 216 DESIGN CHOICE] -/
def refreshBlock (num : Nat) (fresh : List Int) (f : Fec) : Fec :=
  match f.window.find? fun b => b.num == num with
  | none => f
  | some b =>
    let bits := (b.chan.bits.zip fresh).map fun e => { e.1 with llr := e.2 }
    let moved := ((tget #[] f.mem.soft num).toList.zip (b.chan.bits.zip fresh)).map fun e => e.1 + ((e.2.2 - e.2.1.llr : Int) : Rat) / 2
    { f with
      window := f.window.map fun x => if x.num == num then { x with chan := { x.chan with bits := bits } } else x
      mem := { f.mem with soft := tset #[] f.mem.soft num moved.toArray } }

/-! Blocks that leave (R126, R135, R137, R142). -/

/-- What a block shows when it leaves: unsatisfied checks from hard channel decisions, pre-FEC errors, the outcomes of its 8 outer codewords, and
their messages. -/
structure LeaveObs where
  unsatisfied : Nat
  errors      : Nat
  outer       : List OuterOutcome
  msgs        : List Nat
  deriving DecidableEq, Repr

/-- A block leaves with the hard values of the inner decoder (R126, R134, R135); the decoded bits are those after the outer decoder, with the parity
part of the inner one. Checks from hard channel decisions are judged once the two blocks before are known. [log 217 DESIGN CHOICE] -/
def leaveObs (f : Fec) (b : DecBlock) : LeaveObs :=
  let hard := hardValues f.mem b.num
  let ch := hardOf b.chan.bits
  let ws := (List.range 8).map fun c => bchDecode (blockPart hard c)
  let info := (ws.zipIdx.map fun e => e.1.1 % 2 ^ 1057 * 2 ^ (1057 * e.2)).sum
  { unsatisfied := match f.chPast with
      | [b1, b2] => unsatisfied ch b1 b2
      | _ => 0
    errors := popCount 9513 ((info + blockPart hard 8 * 2 ^ 8456) ^^^ ch)
    outer := ws.map (·.2), msgs := ws.map fun w => w.1 % 2 ^ 1024 }

/-- The decoder's values once a block has left: its final hard values stay for two blocks. -/
def forgetBlock (b : DecBlock) (f : Fec) : Fec :=
  { f with
    mem := {
             soft := terase f.mem.soft b.num, msgs := terase f.mem.msgs b.num
             past := (b.num, hardValues f.mem b.num) :: f.mem.past.take 1 }
    chPast := hardOf b.chan.bits :: f.chPast.take 1 }

end Sys2Proof.Machine
end

