-- ==== Sys2Proof/Machine/Dsp.lean ====
section
/-! DEFINITION. The commands and events of acquisition, tone search, equalisation and carrier recovery (spec/05_equalisation.md; R38, R80, R81,
R96). -/

namespace Sys2Proof.Machine

/-! Figures of a carrier. -/

/-- CD_max in ps/nm, rounded down (R98); none without a plan. -/
def cdMax (s : State) (c : Carrier) : Option Nat :=
  let p := planOf s c
  if unused p || p.rs256 = 0 then none
  else some (min 80000 (40000 * 86016 ^ 2 * 105 / (p.rs256 ^ 2 * (100 + (txGet s c).beta100))))

/-- The frequency clamp of 3.0 % of Rs in kHz (R107). -/
def freqMax (s : State) (c : Carrier) : Int := ((planOf s c).rs256 * 1875 / 16 : Nat)

/-- `k` symbol periods in 1/16 ps, as a ratio over Rs x 256. -/
def periods16 (k : Nat) : Nat := k * 16 * 256000

/-- The half width K of a tone sweep (R80). -/
def toneK (s : State) (c : Carrier) : Nat := (15 * (planOf s c).rs256 + 4095) / 4096

/-- The duration of a tone sweep in ns (R80). -/
def sweepNs (s : State) (c : Carrier) : Nat := 500 * (2 * toneK s c + 1)

/-! Settings and estimates (R119 to R122). -/

/-- The fields of SET_RX_DSP. -/
def dspField (p : List Byte) : DspSet :=
  { cdMode := u8 p 1, centre := i32 p 4, half := u32 p 8, mu := u8 p 3, cprN := u8 p 12, freqBw := u8 p 15
    i1 := u8 p 13, i2 := u8 p 14, bulk := (u8 p 2).testBit 0, cross := (u8 p 2).testBit 1, tone := (u8 p 2).testBit 2
    turbo := (u8 p 2).testBit 3 }

/-- The settings lie within R119. -/
def dspOk (s : State) (c : Carrier) (d : DspSet) : Bool :=
  let lim := match d.cdMode, cdMax s c with
    | 2, some m => m
    | _, _ => 80000
  decide (d.cdMode ≤ 2) && decide (d.centre.natAbs ≤ lim) && decide (100 ≤ d.half) && decide (d.half ≤ 80000)
    && decide (6 ≤ d.mu) && decide (d.mu ≤ 16) && decide (8 ≤ d.cprN) && decide (d.cprN ≤ 128) && decide (1 ≤ d.freqBw)
    && decide (d.freqBw ≤ 50) && decide (1 ≤ d.i1) && decide (d.i1 ≤ 10)
    && (d.i2 == 0 || (decide (d.i1 + 6 ≤ d.i2) && decide (d.i2 ≤ 10)))

/-- SET_RX_DSP (R120). -/
def checkSetRxDsp (c : Ctx) (s : State) : Nat :=
  let p := c.pk.params
  gated s (!plainLen 16 c) [
    (carrierBad p || decide (15 < u8 p 2) || !dspOk s (carrierOf (u8 p 0)) (dspField p), stBadParam)]
/-- The settings are stored and take effect under R117. -/
def runSetRxDsp (c : Ctx) (s : State) : Res :=
  let p := c.pk.params
  done (eqUpd (carrierOf (u8 p 0)) (fun e => { e with set := dspField p }) s)
/-- SET_RX_DSP. -/
def execSetRxDsp (pk : Packet) (s : State) : Out := .next (serve 0x0230 checkSetRxDsp runSetRxDsp pk s)

/-- The cross taps of a carrier act (R111, R112). -/
def crossActs (s : State) (c : Carrier) : Bool :=
  let e := (spireGet s c).eq
  s.mode.cur == .twin && e.crossOn && e.use.cross

/-- GET_CHANNEL_ESTIMATES (R122). -/
def checkGetChannelEstimates (c : Ctx) (s : State) : Nat :=
  gated s (!plainLen 4 c) [(carrierBad c.pk.params || !zeroAt c.pk.params 1 3, stBadParam)]
/-- The 68-byte result; the counters and sop_peak clear. The bulk stage counts as engaged also while it still ramps to 0. [log 219 DESIGN CHOICE] -/
def runGetChannelEstimates (c : Ctx) (s : State) : Res :=
  let k := carrierOf (u8 c.pk.params 0)
  let x := spireGet s k
  let e := x.eq
  let flags := b2n e.estValid + 2 * b2n x.acq.loc + 4 * b2n (e.engaged || e.tau16 != 0) + 8 * b2n (crossActs s k) + 16 * b2n e.limit
    + 32 * b2n s.plan.measValid
  let res := le 1 (acqCode x.acq.state) ++ le 1 flags ++ le 2 e.est.phaseErr ++ leS 4 e.est.cdTotal ++ leS 4 e.est.cdStatic
    ++ le 2 e.est.dgd ++ le 2 e.est.pdl ++ le 4 e.est.sop ++ le 4 e.sopPeak ++ leS 4 e.est.freq
    ++ leS 4 (if s.plan.fibre = 1 then s.plan.measured else 0) ++ le 4 e.slips ++ le 4 e.turboDone ++ le 4 e.dropIter
    ++ le 4 e.dropState ++ le 4 e.turboSkip ++ le 2 x.acq.locksLost ++ le 2 x.acq.cyclesFailed ++ le 2 e.singular
    ++ le 2 e.fallbacks ++ le 4 e.parity ++ le 2 x.acq.cdClipped ++ le 2 0
  doneWith (spireUpd k (fun x => { x with
    acq := { x.acq with locksLost := 0, cyclesFailed := 0, cdClipped := 0 }
    eq := { x.eq with
      sopPeak := 0, slips := 0, turboDone := 0, dropIter := 0, dropState := 0, turboSkip := 0, singular := 0, fallbacks := 0
      parity := 0 } }) s) res
/-- GET_CHANNEL_ESTIMATES. -/
def execGetChannelEstimates (pk : Packet) (s : State) : Out :=
  .next (serve 0x0232 checkGetChannelEstimates runGetChannelEstimates pk s)

/-! RESTART_ACQUISITION (R121). -/

/-- RESTART_ACQUISITION. -/
def checkRestartAcquisition (c : Ctx) (s : State) : Nat :=
  let p := c.pk.params
  let x := spireGet s (carrierOf (u8 p 0))
  gated s (!plainLen 4 c) [
    (carrierBad p || decide (1 < u8 p 1) || !zeroAt p 2 2, stBadParam),
    (!rxPowered s (carrierOf (u8 p 0)) || x.cal.fg.running.isSome || x.cal.fg.waiting, stBadState),
    (x.acq.restart.isSome, stBusy)]
/-- The current state is abandoned at once; the machine starts at the state its mode names, or waits under LOS. [log 77 DEDUCED] -/
def runRestartAcquisition (c : Ctx) (s : State) : Res :=
  let p := c.pk.params
  let k := carrierOf (u8 p 0)
  let s1 := acqUpd k (fun a => { a with
    restart := some { ref := c.ref, start := s.now, times := List.replicate 8 0, waitAt := none }
    warm := none, warmFine := false, fullRange := if u8 p 1 = 1 then false else a.fullRange }) (leaveLocked k s)
  later (if (lineGet s1 k).frm.los then acqEnter k .waitSignal (holdTiming k s1)
    else if u8 p 1 = 0 then warmPath k s1 else fullCycle k s1)
/-- RESTART_ACQUISITION. -/
def execRestartAcquisition (pk : Packet) (s : State) : Out :=
  .next (serve 0x0231 checkRestartAcquisition runRestartAcquisition pk s)

/-- WAIT_SIGNAL_TIMEOUT (R121): 1 s in WAIT_SIGNAL completes a RESTART_ACQUISITION. -/
def execWaitSignalTimeout (c : Carrier) (s : State) : Out :=
  .next (match (spireGet s c).acq.restart with
    | some { waitAt := some t, .. } => finishRestart c (advanceTo t s)
    | _ => s)

/-! Tone search (R80, R81, R96). -/

/-- RUN_TONE_SEARCH. -/
def checkRunToneSearch (c : Ctx) (s : State) : Nat :=
  let k := carrierOf (u8 c.pk.params 0)
  gated s (!plainLen 4 c) [
    (carrierBad c.pk.params || !zeroAt c.pk.params 1 3, stBadParam),
    (!rxPowered s k, stBadState), ((spireGet s k).acq.sweep.isSome, stBusy)]
/-- A sweep starts. -/
def runRunToneSearch (c : Ctx) (s : State) : Res :=
  let k := carrierOf (u8 c.pk.params 0)
  later (acqUpd k (fun a => { a with sweep := some ⟨some c.ref, s.now + sweepNs s k⟩ }) s)
/-- RUN_TONE_SEARCH. -/
def execRunToneSearch (pk : Packet) (s : State) : Out := .next (serve 0x0226 checkRunToneSearch runRunToneSearch pk s)

/-- TONE is entered (R113, R114): its sweep starts, or it waits for the one that runs, outside its timeout. [log 78 DEDUCED] -/
def enterTone (c : Carrier) (s : State) : State :=
  let s1 := acqEnter c .tone s
  if (spireGet s1 c).acq.sweep.isSome then acqUpd c (fun a => { a with toneWaits := true, deadline := none }) s1
  else acqUpd c (fun a => { a with sweep := some ⟨none, s1.now + sweepNs s1 c⟩ }) s1

/-- TIMING is entered: the loop acquires (R74, R113). -/
def enterTiming (c : Carrier) (s : State) : State := setTiming c .acquire (acqEnter c .timing s)

/-- The power of a bin (R80): 16 windows, X and Y. -/
def binPower (l : List (Nat × Nat)) : Nat := (l.map fun e => e.1 + e.2).sum

/-- The first of the highest of a list of powers. -/
def highest (l : List Nat) : Nat := (List.range l.length).foldl (fun b i => if l.getD b 0 < l.getD i 0 then i else b) 0

/-- The median of a list of powers. -/
def medianOf (l : List Nat) : Nat := (l.mergeSort (· ≤ ·)).getD (l.length / 2) 0

/-- The margin of a power over another in 0.1 dB (R81, R96); over none at all the manual states none. [log 213 DESIGN CHOICE] -/
def marginOf (p m : Nat) : Nat :=
  if m = 0 then Config.freeNat 81 0 % 65536
  else leastFrom (fun k => decide (tenthPow (40 * k + 20) * p ≤ m * fixOne)) 12 0 3000

/-- The place of the maximum among three bins in 1/16 MHz from the middle one, by the parabola through their powers (R81).
[log 213 DESIGN CHOICE] -/
def parabola (l m r : Nat) : Int :=
  let den : Int := 2 * m - l - r
  if den ≤ 0 then 0 else roundDiv (256 * ((r : Int) - l)) den.toNat

/-- What a sweep shows (R81): found, the offset in 1/16 MHz, the margin in 0.1 dB. -/
def toneResult (bins : List (List (Nat × Nat))) : Bool × Int × Nat :=
  let ps := bins.map binPower
  let i := highest ps
  let p := ps.getD i 0
  let m := medianOf ps
  let found := decide (0 < p) && decide (m * fixOne ≤ p * powerRatio 600)
  let fine := if i = 0 || ps.length ≤ i + 1 then 0 else parabola (ps.getD (i - 1) 0) p (ps.getD (i + 1) 0)
  (found, if found then 512 * ((i : Int) - (ps.length / 2 : Nat)) + fine else 0, marginOf p m)

/-- TONE_SWEEP_DONE (R80, R81): the windows of every bin. [log 78 DEDUCED] -/
def execToneSweepDone (c : Carrier) (bins : List (List (Nat × Nat))) (s0 : State) : Out :=
  .next (match (spireGet s0 c).acq.sweep with
    | none => s0
    | some w =>
      let s1 := acqUpd c (fun a => { a with sweep := none }) (advanceTo w.endAt s0)
      let t := toneResult bins
      let a := (spireGet s1 c).acq
      match w.ref with
      | some r =>
        let s2 := complete r stOk (le 1 (b2n t.1) ++ le 1 0 ++ le 2 (2 * toneK s1 c + 1) ++ leS 4 t.2.1 ++ le 2 t.2.2 ++ le 2 0) s1
        if a.state == .tone && a.toneWaits then enterTone c s2 else s2
      | none =>
        if a.state != .tone then s1
        else if a.toneWaits then enterTone c s1
        else if t.1 then
          enterTiming c (acqUpd c (fun a => { a with coarseKhz := clampInt (-(freqMax s1 c)) (freqMax s1 c) (roundDiv (t.2.1 * 1000) 16) }) s1)
        else failAttempt c s1)

/-! The states of acquisition (R100, R113 to R116). -/

/-- The state of a carrier's machine. -/
def acqState (s : State) (c : Carrier) : AcqState := (spireGet s c).acq.state

/-- `n` ps/nm scaled by s = (336 / Rs)^2 (R100). -/
def cdScaled (rs256 n : Nat) : Rat := (n * 86016 ^ 2 : Nat) / (max 1 rs256 ^ 2 : Nat)

/-- The coarse range of a scan (R100, R114): the full one, or the written window clipped to it. -/
def cdRange (s : State) (c : Carrier) : Rat × Rat :=
  let lim : Int := ((cdMax s c).getD 80000 : Nat)
  let x := spireGet s c
  let u := x.eq.use
  if u.cdMode = 1 && !x.acq.fullRange then ((max (-lim) (u.centre - u.half) : Int), (min lim (u.centre + u.half) : Int))
  else ((-lim : Int), lim)

/-- The candidates of the coarse stage. -/
def coarsePlaces (range : Rat × Rat) (step : Rat) : List Rat :=
  if range.2 < range.1 || step ≤ 0 then []
  else (List.range (((range.2 - range.1) / step).floor.toNat + 1)).map fun i => range.1 + i * step

/-- The candidates of a stage of `2 k + 1` around a value. -/
def aroundPlaces (k : Nat) (mid step : Rat) : List Rat := (List.range (2 * k + 1)).map fun i => mid + ((i : Rat) - k) * step

/-- The candidate of the highest power, the first of equal ones; the middle of the stage where none was measured. [log 212 DESIGN CHOICE] -/
def bestPlace (places : List Rat) (powers : List Nat) (mid : Rat) : Rat := places.getD (highest (powers.take places.length)) mid

/-- The highest peaks, at least `gap` apart, up to `n` of them (R100). [log 212 DESIGN CHOICE] -/
def scanPeaks (gap : Rat) : Nat → List (Rat × Nat) → List Rat
  | 0, _ => []
  | n + 1, l =>
    match l[highest (l.map (·.2))]? with
    | none => []
    | some e => e.1 :: scanPeaks gap n (l.filter fun x => decide (gap ≤ |x.1 - e.1|))

/-- The fine value of a scan around a candidate (R100): the medium stage, then the fine one. -/
def fineScan (rs256 : Nat) (obs : CdObs) (mid : Rat) : Rat :=
  let m := bestPlace (aroundPlaces 12 mid (cdScaled rs256 40)) obs.medium mid
  bestPlace (aroundPlaces 20 m (cdScaled rs256 2)) obs.fine m

/-- The candidates of a cycle after a scan (R100, R114): attempt 1 finds them. -/
def scanCands (s : State) (c : Carrier) (obs : CdObs) : List Rat :=
  let a := (spireGet s c).acq
  let rs := (planOf s c).rs256
  let step := cdScaled rs 500
  if a.attempt = 1 then scanPeaks (2 * step) 3 ((coarsePlaces (cdRange s c) step).zip obs.coarse) else a.cands

/-- The candidate of an attempt (R114): 1 to 3 in order, and the first again for the fourth. [log 212 DESIGN CHOICE] -/
def attemptCand (attempt : Nat) (l : List Rat) : Rat := l.getD (if attempt = 4 then 0 else attempt - 1) (l.headD 0)

/-- The value that a scan under cd_mode 0 or 1 loads, in ps/nm within CD_max (R98, R100); a warm path runs the fine stage only (R115, R116). -/
def scanValue (s : State) (c : Carrier) (obs : CdObs) : Int :=
  let a := (spireGet s c).acq
  let rs := (planOf s c).rs256
  let lim : Int := ((cdMax s c).getD 80000 : Nat)
  let v := if a.warmFine then bestPlace (aroundPlaces 20 a.cdStatic (cdScaled rs 2)) obs.fine a.cdStatic
    else fineScan rs obs (attemptCand a.attempt (scanCands s c obs))
  clampInt (-lim) lim (v + 1 / 2).floor

/-- CD_SCAN_DONE (R98 to R100, R119): the response is loaded; a warm path goes on with TIMING, attempt 4 with TONE. -/
def execCdScanDone (c : Carrier) (obs : CdObs) (s : State) : Out :=
  .next (if acqState s c != .cdScan then s
    else
      let x := spireGet s c
      let lim : Int := ((cdMax s c).getD 80000 : Nat)
      let fixed := x.eq.use.cdMode == 2
      let centre := x.eq.use.centre
      let s1 := acqUpd c (fun a => { a with
        cdStatic := if fixed then clampInt (-lim) lim centre else scanValue s c obs
        cdClipped := if fixed && decide (lim < centre.natAbs) then satAdd 16 a.cdClipped 1 else a.cdClipped
        cands := if fixed || x.acq.warmFine then a.cands else scanCands s c obs }) s
      if x.acq.warmFine then warmTiming c s1
      else if x.acq.attempt = 4 then enterTone c s1
      else acqEnter c .freqCoarse s1)

/-- FREQ_COARSE_DONE (R106). -/
def execFreqCoarseDone (c : Carrier) (khz : Int) (s : State) : Out :=
  .next (if acqState s c != .freqCoarse then s
    else enterTiming c (acqUpd c (fun a => { a with coarseKhz := clampInt (-(freqMax s c)) (freqMax s c) khz }) s))

/-- TIMING_ACQUIRED (R74, R113): the loop tracks; at its clamp, as with a far end whose Rs is not
the plan's (R40), the receiver cannot complete acquisition. -/
def execTimingAcquired (c : Carrier) (clockOffset : Int) (s : State) : Out :=
  .next (if acqState s c != .timing || (spireGet s c).rx.timingLimit then s
    else
      acqEnter c .eqBlind (setTiming c .track (rxUpd c (fun r => { r with clockOffset := clockOffset }) s)))

/-- Both outputs show one polarisation (R102): the Y paths start again, and EQ_SINGULAR is counted. -/
def singularEq (c : Carrier) (s : State) : State :=
  eqUpd c (fun e => { e with tapGen := e.tapGen + 1, singular := satAdd 16 e.singular 1 }) s

/-- The bulk stage engages above 24 T (R103). -/
def bulkEngages (s : State) (c : Carrier) (dgd16 : Nat) : Bool :=
  (spireGet s c).eq.use.bulk && decide (periods16 24 < dgd16 * (planOf s c).rs256)

/-- EQ_CONVERGED (R102, R103, R113): a singular equaliser restarts the state's timer, else SF_SYNC follows. -/
def execEqConverged (c : Carrier) (correlated : Bool) (dgd16 : Nat) (s : State) : Out :=
  .next (if acqState s c != .eqBlind then s
    else if correlated then acqEnter c .eqBlind (singularEq c s)
    else acqEnter c .sfSync (eqUpd c (fun e => { e with dgd16 := dgd16, engaged := e.engaged || bulkEngages s c dgd16 }) s))

/-- SF_SYNC_FOUND (R113): the outputs are reordered; the groups are numbered from the next superframe boundary on. -/
def execSfSyncFound (c : Carrier) (swapped iqSwapped : Bool) (s : State) : Out :=
  .next (if acqState s c != .sfSync then s
    else acqEnter c .freqFine (acqUpd c (fun a => { a with swapped := swapped, iqSwapped := iqSwapped })
      (rxUpd c (fun r => { r with grp := 256, pilots := [], data := [] }) s)))

/-- The loop's value with the total correction clamped at 3.0 % of Rs (R107). -/
def clampFine (s : State) (c : Carrier) (khz : Int) : Int :=
  let m := freqMax s c
  let k := (spireGet s c).acq.coarseKhz
  clampInt (-m - k) (m - k) khz

/-- FREQ_FINE_DONE (R39, R107): the loop takes over, and the equaliser switches to tracking; an offset beyond 3.0 % of Rs does not complete the
state, whose timeout then ends the attempt. [log 214 DEDUCED] -/
def execFreqFineDone (c : Carrier) (khz : Int) (s : State) : Out :=
  .next (if acqState s c != .freqFine || clampFine s c khz != khz then s
    else acqEnter c .phase (acqUpd c (fun a => { a with fineKhz := khz }) s))

/-- The measured spacing while both carriers are LOCKED (R38): SPACING_ERR beyond 1.0 % of Rs, cleared within 0.8 %. [log 75 DEDUCED] -/
def noteSpacing (s : State) : State :=
  if s.plan.fibre != 1 || !lockedOn s .a || !lockedOn s .b then s
  else
    let d := roundDiv (((spireGet s .b).eq.est.freq - (spireGet s .a).eq.est.freq) * 256) 1000000
    let rs := s.plan.car.a.rs256 + s.plan.car.b.rs256
    let m := s.plan.spacingUse + d
    let far := decide (rs < 200 * d.natAbs)
    let near := decide (250 * d.natAbs ≤ rs)
    let e := if s.plan.err then !near else far
    let s1 := noteNeighbours { s with plan := { s.plan with measured := m, measValid := true, err := e } }
    if e = s.plan.err then s1 else post 0x020B e [] s1

/-- The estimates of R118 within their ranges: the static response and the residual, the bulk delay and the residual, the coarse shift and the
loop's value (R107). -/
def estimatesOf (x : Spire) (o : EstObs) : Estimates :=
  { phaseErr := min 1000 o.phaseErr, cdTotal := clampInt (-80000) 80000 (x.acq.cdStatic + o.residual), cdStatic := x.acq.cdStatic
    dgd := min 6400 (x.eq.tau16 + o.dgd), pdl := min 1000 o.pdl, sop := max 1 (min 50000 o.sop), freq := x.acq.coarseKhz + x.acq.fineKhz }

/-- The estimates of R118. -/
def takeEstimates (c : Carrier) (o : EstObs) (s : State) : State :=
  let est := estimatesOf (spireGet s c) o
  eqUpd c (fun e => { e with est := est, estValid := true, sopPeak := max e.sopPeak est.sop }) s

/-- LOCKED (R113 to R115, R136), with a pilot phase error below 0.15 rad: LOC and the full-range latch end, a RESTART_ACQUISITION completes, the decoder hunts. -/
def execLocked (c : Carrier) (est : EstObs) (s : State) : Out :=
  .next (if acqState s c != .phase || (spireGet s c).rx.timingLimit || decide (150 ≤ est.phaseErr) then s
    else
      let s1 := acqEnter c .locked (acqUpd c (fun a => { a with loc := false, fullRange := false, warm := none, warmFine := false }) s)
      let s2 := finishRestart c (takeEstimates c est s1)
      let s3 := if domOn s2 (fecDom c) then beginHunt c s2 else s2
      noteSpacing (noteNeighbours s3))

/-- ACQUISITION_TIMEOUT (R114, R116). -/
def execAcquisitionTimeout (c : Carrier) (s : State) : Out :=
  .next (match (spireGet s c).acq.deadline with
    | none => s
    | some t => failAttempt c (advanceTo t s))

/-- WARM_PATH_TIMEOUT (R116): 5 ms after its start the warm path ends and a full cycle starts. -/
def execWarmPathTimeout (c : Carrier) (s : State) : Out :=
  .next (match (spireGet s c).acq.warm with
    | none => s
    | some t => if (acqTimeout (acqState s c)).isNone then s else fullCycle c (advanceTo (t + 5 * msNs) s))

/-- LOSS_OF_LOCK (R116). -/
def execLossOfLock (c : Carrier) (cause : LockLoss) (s : State) : Out :=
  .next (if !lockedOn s c then s
    else noteNeighbours (match cause with
      | .phase | .lag => loseLock c false s
      | .singular => loseLock c false (singularEq c s)
      | .timing => if (spireGet s c).rx.timingLimit then loseLock c false s else s
      | .los => if (lineGet s c).frm.los then loseLock c true s else s))

/-- The equaliser works: from EQ_BLIND to LOCKED. -/
def eqActive (s : State) (c : Carrier) : Bool :=
  match acqState s c with
  | .eqBlind | .sfSync | .freqFine | .phase | .locked => true
  | _ => false

/-- EQ_SINGULAR_CHECK (R102, R118): every 1 ms the outputs are compared and the estimates follow. -/
def execEqSingularCheck (c : Carrier) (correlated : Bool) (est : EstObs) (s : State) : Out :=
  .next (if !eqActive s c || !rxPowered s c then s
    else if correlated then
      let s1 := singularEq c s
      if acqState s1 c == .eqBlind then acqEnter c .eqBlind s1
      else noteNeighbours (loseLock c false s1)
    else if lockedOn s c then noteSpacing (takeEstimates c est s) else s)

/-- SPACING_ERR (R38): the measured spacing is formed and judged. [log 75 DEDUCED, 76 DEDUCED] -/
def execSpacingErr (s : State) : Out := .next (noteSpacing s)

/-! Equalisation (R72, R74, R99 to R112). -/

/-- The bulk stage after one block (R103): it engages above 24 T, disengages below 12 T, and moves by at most 1/16 ps and
0.025 rad. -/
def bulkStep (rs : Nat) (obs : OsaObs) (e : Eq) : Eq :=
  let on := e.use.bulk && ((e.engaged && decide (periods16 12 ≤ obs.dgd16 * rs)) || decide (periods16 24 < obs.dgd16 * rs))
  let target := if on then min 4096 (obs.dgd16 - periods16 16 / max 1 rs) else 0
  let turn (x t : Int) : Int := if on then x + clampInt (-25) 25 (t - x) else x
  { e with
    dgd16 := obs.dgd16, engaged := on
    tau16 := if e.tau16 < target then e.tau16 + 1 else if target < e.tau16 then e.tau16 - 1 else e.tau16
    angle1 := turn e.angle1 obs.angle1, angle2 := turn e.angle2 obs.angle2 }

/-- The bandwidth of the timing loop in 0.5 MHz (R74): the written one in TRACK, four times as much in ACQUIRE and at most 16 MHz. -/
def timingBandwidth (r : Rx) : Nat :=
  match r.timing with
  | .acquire => min 32 (4 * r.use.timingBw)
  | .track => r.use.timingBw
  | _ => 0

/-- The resampler over the 84,960 output samples of a block (R73, R99). [log 211 DESIGN CHOICE] -/
def resamplerStep (rs256 : Nat) (r : Rx) : Rx :=
  let w := ratioWord rs256 r.correction
  { r with ratio := w, pos := resamplePlace w r.pos 84960 % 2 ^ 64, loopBw := timingBandwidth r }

/-- OVERLAP_SAVE_BLOCK (R73, R74, R99, R103): the timing loop corrects within its clamp, whose reaching is TIMING_LIMIT, and the
bulk stage moves; while the equaliser does not work, its delay and angles stand still. [log 211 DESIGN CHOICE, 223 DESIGN CHOICE] -/
def execOverlapSaveBlock (c : Carrier) (obs : OsaObs) (s : State) : Out :=
  .next (if !rxPowered s c then s
    else
      let r := (spireGet s c).rx
      let runs := r.timing == .acquire || r.timing == .track
      let lim := runs && decide (400000 ≤ obs.correction.natAbs)
      let s1 := rxUpd c (fun r => resamplerStep (planOf s c).rs256 (if runs then { r with
          correction := clampInt (-400000) 400000 obs.correction
          clockOffset := if r.timing == .track then obs.clockOffset else r.clockOffset, timingLimit := lim }
        else { r with timingLimit := false, correction := if r.timing == .free then 0 else r.correction })) s
      let s2 := if lim = r.timingLimit then s1 else post 0x0208 lim [carrierNum c] s1
      if eqActive s2 c then eqUpd c (bulkStep (planOf s2 c).rs256 obs) s2 else s2)

/-! Symbol groups (R29, R30, R72, R101, R102, R107, R108, R130). -/

/-- The data symbols of a group all lie in one fill block of a superframe with fill count `m` (R30). -/
def fillGroup (m g : Nat) : Bool := (fillPlaces m).any fun b => decide (64 * b ≤ 63 * g) && decide (63 * g + 63 ≤ 64 * b + 64)

/-- The superframe is aligned (R32, R113). -/
def sfAligned (s : State) (c : Carrier) : Bool :=
  let a := acqState s c
  a == .freqFine || a == .phase || a == .locked

/-- The exponent of the step with which the taps adapt (R102): 8, and 10 after 100 us in EQ_BLIND, or the written one. -/
def stepExponent (s : State) (c : Carrier) : Nat :=
  let x := spireGet s c
  if x.acq.state == .eqBlind then (if s.now < x.acq.since + 100000 then 8 else 10) else x.eq.use.mu

/-- The normaliser over one group, with a time constant of 1 us (R101). [log 211 DESIGN CHOICE] -/
def normStep (rs256 power : Nat) (n : Int) : Int := n + ((power : Int) - n) * 16384 / (1000 * max 1 rs256 : Nat)

/-- The centre-of-gravity control (R101): a centroid more than 2 taps from tap 32 moves the resampler's delay by one step. [log 211 DESIGN CHOICE] -/
def centreStep (centroid : Nat) (d : Int) : Int := if 544 < centroid then d + 1 else if centroid < 480 then d - 1 else d

/-- The equaliser, the normaliser and the frequency loop after one group (R101, R102, R107, R108, R111). -/
def adaptGroup (c : Carrier) (flag : Bool) (obs : GroupObs) (s : State) : State :=
  let mode := eqMode s c
  let r := (spireGet s c).rx
  let adapts := mode != .idle && !flag && !(sfAligned s c && fillGroup r.lastFill r.grp)
  let cross := crossActs s c
  let mu := stepExponent s c
  let fine := clampFine s c obs.loopKhz
  let s1 := eqUpd c (fun e => { e with
    tapGen := if adapts then e.tapGen + 1 else e.tapGen
    step := if adapts then mu else e.step
    norm := normStep (planOf s c).rs256 obs.power e.norm
    crossGen := if adapts && mode == .tracking && cross then e.crossGen + 1 else e.crossGen
    slips := if mode == .tracking && obs.slip then satAdd 32 e.slips 1 else e.slips }) s
  let s2 := acqUpd c (fun a => { a with fineKhz := if mode == .tracking then fine else a.fineKhz }) s1
  rxUpd c (fun r => { r with delay := if mode == .idle then r.delay else centreStep obs.centroid r.delay }) s2

/-- The symbols of a group for the turbo buffer; what a fill-count word says is not known while it arrives (R29, R32). -/
def heldGroup (g : Nat) (flag lost : Bool) (obs : GroupObs) : List HeldSym :=
  (obs.samples.zip obs.first).zipIdx.map fun e =>
    ⟨e.1.1, e.1.2, flag, if e.2 = 0 then some (if 16 ≤ g && g < 32 then {} else pilotSym 0 g) else none, lost⟩

/-- The symbols up to the 64th data symbol, and the rest (R30). -/
def splitBlock : Nat → List HeldSym → List HeldSym × List HeldSym
  | _, [] => ([], [])
  | 0, l => ([], l)
  | n + 1, y :: r =>
    let k := if y.pilot.isNone then n else n + 1
    let q := splitBlock k r
    (y :: q.1, q.2)

/-- The noise variance per dimension of X and Y (R130): from the pilot positions of the last 1,024 superframes, until then the equaliser's error
power. -/
def noiseVars (r : Rx) (obs : GroupObs) : Nat × Nat :=
  if r.pilotErr.length < 1024 then (obs.errX, obs.errY)
  else ((r.pilotErr.map (·.1)).sum / 524288, (r.pilotErr.map (·.2)).sum / 524288)

/-- The soft values of a data block reach the decoder (R130 to R132), and DEMATCH_EMPTY is counted while it is aligned (R142). -/
def demapData (c : Carrier) (v : Nat × Nat) (l : List HeldSym) (s : State) : State :=
  let p := planOf s c
  let h := pget s.plan.shape c
  let f := (lineGet s c).fec
  let x : HeldBlock := ⟨some (spireGet s c).eq.coded, v.1, v.2, s.now, l⟩
  let q := blockLlrs p.fmt h (demapBlock h v.1 v.2 (heldData f.clipWUse x))
  let s1 := captureFeed 2 c (q.1.map fun b => BitVec.ofInt 8 b.llr) (eqUpd c (fun e => { e with coded := e.coded + q.1.length, held := e.held ++ [x] }) s)
  if !domOn s (fecDom c) then s1
  else
    let s2 := fecUpd c (fun f => if q.2 && f.aligned then { f with cnt := { f.cnt with empties := satAdd 32 f.cnt.empties 1 } } else f) s1
    feedSoft c (spireGet s c).eq.coded q.1 (spireGet s c).rx.badFill s2

/-- A shaping block is whole (R30): a fill block is discarded; in LOCKED the turbo buffer keeps what came within 3.0 us (R109), and a data block
is demapped. [log 215 DESIGN CHOICE] -/
def takeBlock (c : Carrier) (v : Nat × Nat) (l : List HeldSym) (s : State) : State :=
  let r := (spireGet s c).rx
  let s1 := rxUpd c (fun r => { r with blk := r.blk + 1 }) s
  if !lockedOn s c then s1
  else
    let s2 := eqUpd c (fun e => { e with held := e.held.filter fun x => decide (s.now ≤ x.since + 3000) }) s1
    if (fillPlaces r.lastFill).contains r.blk then eqUpd c (fun e => { e with held := e.held ++ [⟨none, v.1, v.2, s.now, l⟩] }) s2
    else demapData c v l s2

/-- The symbols of a group join the superframe (R29, R30). [log 215 DESIGN CHOICE] -/
def takeGroup (c : Carrier) (flag : Bool) (obs : GroupObs) (s : State) : State :=
  let r := (spireGet s c).rx
  if 256 ≤ r.grp || !sfAligned s c then rxUpd c (fun r => { r with lost := false }) s
  else
    let all := r.data ++ heldGroup r.grp flag r.lost obs
    let whole := decide (64 ≤ (all.filter fun y => y.pilot.isNone).length)
    let b := splitBlock 64 all
    let s1 := rxUpd c (fun r => { r with
      lost := false, grp := r.grp + 1, pilots := r.pilots ++ obs.first.take 1, data := if whole then b.2 else all }) s
    if whole then takeBlock c (noiseVars r obs) b.1 s1 else s1

/-- SYMBOL_GROUP_RECEIVE (R29, R72, R102, R108, R130): the group's clip count and flag, one update of the taps, a phase slip, and the
symbols. -/
def execSymbolGroupReceive (c : Carrier) (obs : GroupObs) (s : State) : Out :=
  .next (if !rxPowered s c then s
    else
      let n := min 15 obs.clipped
      let flag := decide ((spireGet s c).rx.use.clipThr ≤ n)
      let s1 := captureFeed 1 c (symBytes obs.samples) s
      takeGroup c flag obs (adaptGroup c flag obs (rxUpd c (fun r => { r with groupClip := n, groupFlag := flag }) s1)))

/-- EQ_LIMIT (R105): raised on either condition, a DGD estimate above 36 T or too much energy at the ends of the taps, cleared after 10 ms free of both. [log 76 DEDUCED] -/
def execEqLimit (c : Carrier) (energyOver : Bool) (s : State) : Out :=
  .next (
    let e := (spireGet s c).eq
    let dgdOver := decide (periods16 36 < e.dgd16 * (planOf s c).rs256)
    let bad := energyOver || (dgdOver && (4096 ≤ e.tau16 || !e.use.bulk))
    if !eqActive s c then s
    else if bad then
      let s1 := eqUpd c (fun e => { e with limit := true, limitFree := none }) s
      if e.limit then s1 else post 0x020C true [carrierNum c] s1
    else if !e.limit then s
    else match e.limitFree with
      | none => eqUpd c (fun e => { e with limitFree := some s.now }) s
      | some t =>
        post 0x020C false [carrierNum c] (eqUpd c (fun e => { e with limit := false, limitFree := none }) (advanceTo (t + 10 * msNs) s)))

/-- XTALK_FALLBACK (R112): the parity errors of one millisecond are counted; a neighbour that is not locked zeroes and
freezes the cross taps. [log 76 DEDUCED] -/
def execXtalkFallback (c : Carrier) (parity : Nat) (s : State) : Out :=
  .next (if s.mode.cur != .twin || !rxPowered s c then s
    else
      let s1 := noteNeighbour c (eqUpd c (fun e => { e with parity := satAdd 32 e.parity parity, parityMs := parity }) s)
      if !crossActs s1 c || soundNeighbour s1 (otherCarrier c) then s1
      else
        postEv 0x020D [carrierNum c] (eqUpd c (fun e => { e with
          crossOn := false, crossGen := 0, fallbacks := satAdd 16 e.fallbacks 1 }) s1))

/-- XTALK_RESUME (R112): the neighbour has been locked for 1 ms; the cross taps resume from zero. The time counts also while the flag is
cleared. [log 221 DESIGN CHOICE] -/
def execXtalkResume (c : Carrier) (s : State) : Out :=
  .next (
    let s1 := noteNeighbour c s
    let e := (spireGet s1 c).eq
    match e.nbLockedAt with
    | none => s1
    | some t =>
      if s.mode.cur != .twin || !rxPowered s c || e.crossOn || !e.use.cross then s1
      else postEv 0x020E [carrierNum c] (eqUpd c (fun e => { e with crossOn := true, crossGen := 0 }) (advanceTo (t + msNs) s1)))

/-! Superframes and turbo passes (R32, R76, R109, R110, R117). -/

/-- The settings that wait for a received superframe boundary take effect (R41, R76, R117, R146). [log 79 DEDUCED, 188 DEDUCED] -/
def superframeSettings (c : Carrier) (s : State) : State :=
  let s1 := spireUpd c (fun x => { x with
    rx := { x.rx with use := x.rx.set, dcEst := if x.rx.set.dcMode = 2 then x.rx.dcHeld else x.rx.dcEst }
    cal := { x.cal with enableUse := x.cal.enable }
    eq := { x.eq with
      use := { x.eq.set with cdMode := x.eq.use.cdMode, centre := x.eq.use.centre, half := x.eq.use.half }
      crossOn := x.eq.crossOn && x.eq.set.cross } }) s
  fecUpd c (fun f => { f with clipWUse := f.set.clipW }) { s1 with plan := { s1.plan with spacingUse := s1.plan.spacing } }

/-- The correlation of the received chips with a fill-count word (R31): X carries bits 31 to 16, Y bits 15 to 0. -/
def wordScore (pilots : List Sym) (m : Nat) : Int :=
  ((List.range 16).map fun i =>
    let y := pilots.getD (16 + i) {}
    let chip (k : Nat) (v : Int) : Int := if (fillWordOf m).testBit k then -v else v
    chip (31 - i) (y.xi + y.xq) + chip (15 - i) (y.yi + y.yq)).sum

/-- The decided fill count (R32), and whether its margin over the second best is at least 25 %. -/
def decideFill (pilots : List Sym) : Nat × Bool :=
  let l := (List.range 5).map (wordScore pilots)
  let b := (List.range 5).foldl (fun b i => if l.getD b 0 < l.getD i 0 then i else b) 0
  let best := l.getD b 0
  let second := (l.eraseIdx b).foldl max (l.getD (if b = 0 then 1 else 0) 0)
  (b, decide (0 < best) && decide (best ≤ 4 * (best - second)))

/-- The error powers of X and Y at the pilot positions of a superframe that announced a fill count (R83, R130). -/
def pilotErrors (m : Nat) (pilots : List Sym) : Nat × Nat :=
  pilots.zipIdx.foldl (fun a e =>
    let p := pilotSym m e.2
    let y := e.1
    (a.1 + ((y.xi - p.xi) ^ 2 + (y.xq - p.xq) ^ 2).natAbs, a.2 + ((y.yi - p.yi) ^ 2 + (y.yq - p.yq) ^ 2).natAbs)) (0, 0)

/-- A superframe begins: its groups and shaping blocks are counted anew. -/
def beginSuperframe (r : Rx) : Rx := { r with grp := 0, pilots := [], blk := 0, data := [] }

/-- The fill count of the superframe that begins is decided (R32): a count that the plan excludes, or with a margin below 25 %, gives way to the
previous one. -/
def takeFill (p : CarrierPlan) (locked : Bool) (r : Rx) : Rx :=
  let d := decideFill r.pilots
  let bad := !d.2 || (d.1 != fillFloor p && d.1 != fillCeil p)
  let m := if bad then r.lastFill else d.1
  beginSuperframe { r with
    lastFill := m, badFill := bad
    fillErr := if bad then r.fillErr + 1 else r.fillErr
    pilotErr := if locked then (pilotErrors m r.pilots :: r.pilotErr).take 1024 else r.pilotErr }

/-- SUPERFRAME_RECEIVE (R29, R32): settings take effect, and the fill-count word is decided; before a whole superframe has been received the count
stays. [log 79 DEDUCED, 215 DESIGN CHOICE] -/
def execSuperframeReceive (c : Carrier) (s : State) : Out :=
  .next (if !rxPowered s c then s
    else
      let s1 := superframeSettings c s
      if !sfAligned s1 c then s1
      else
        let p := planOf s1 c
        let locked := lockedOn s1 c
        rxUpd c (fun r => if r.pilots.length < 256 then { (beginSuperframe r) with badFill := true } else takeFill p locked r) s1)

/-- TURBO_PASS (R109, R110, R138): 4 periods after iteration i_p the refreshed values return and replace the channel LLRs, where the conditions
still hold. [log 80 DEDUCED] -/
def execTurboPass (c : Carrier) (block pass : Nat) (s0 : State) : Out :=
  .next (match (spireGet s0 c).eq.turbo.find? fun t => t.block == block && t.pass == pass with
    | none => s0
    | some run =>
      let s := advanceTo run.due s0
      let ok := lockedOn s c && !(lineGet s c).frm.los && !(spireGet s c).acq.loc
      let s1 := eqUpd c (fun e => { e with
        turbo := e.turbo.filter fun t => !(t.block == block && t.pass == pass)
        turboDone := if ok then satAdd 32 e.turboDone 1 else e.turboDone
        dropState := if ok then e.dropState else satAdd 32 e.dropState 1 }) s
      if ok then fecUpd c (refreshBlock block run.fresh) s1 else s1)

end Sys2Proof.Machine
end

