-- ==== Sys2Proof/Machine/Fec.lean ====
section
/-! DEFINITION. The commands and events of the concatenated code (spec/06_fec.md; the turbo passes of R109 and R110). -/

namespace Sys2Proof.Machine

/-! Commands (R146 to R149). -/

/-- SET_FEC (R147). -/
def checkSetFec (c : Ctx) (s : State) : Nat :=
  let p := c.pk.params
  let k := carrierOf (u8 p 0)
  let bad := carrierBad p || u8 p 1 == 0 || decide (16 < u8 p 1) || decide (u8 p 2 < 4) || decide (16 < u8 p 2) || decide (u8 p 2 < u8 p 1)
    || decide (u8 p 3 < 4) || decide (16 < u8 p 3) || decide (16 < u8 p 4) || decide (3 < u8 p 5) || !zeroAt p 6 2
  gated s (!plainLen 8 c) [
    (bad, stBadParam),
    (u8 p 2 != (lineGet s k).fec.set.lDec && domOn s (fecDom k) && trafficMode s.mode.cur, stBadState)]

/-- The throttle follows its flag (R140): cleared, the reduction is 0; set under the warning, it rises again. [log 82 DEDUCED] -/
def followThrottle (c : Carrier) (was : Bool) (s : State) : State :=
  fecUpd c (fun f =>
    if !f.set.throttle then { f with delta := 0, throttleAt := none }
    else if !was && s.therm.warn && domOn s (fecDom c) then { f with throttleAt := some (s.now + 10 * msNs) }
    else f) s

/-- The settings are stored; a changed L_dec starts a full hunt of a decoder that is aligned or hunts. [log 82 DEDUCED, 224 DESIGN CHOICE] -/
def runSetFec (c : Ctx) (s : State) : Res :=
  let p := c.pk.params
  let k := carrierOf (u8 p 0)
  let f := (lineGet s k).fec
  let s1 := fecUpd k (fun f => { f with set := { f.set with
    iMax := u8 p 1, lDec := u8 p 2, iFloor := u8 p 3, clipW := u8 p 4, early := (u8 p 5).testBit 0, throttle := (u8 p 5).testBit 1 } }) s
  let s2 := noteIEff k (iEff f) (followThrottle k f.set.throttle s1)
  done (if u8 p 2 != f.set.lDec && (f.aligned || f.hunting) then beginHunt k s2 else s2)
/-- SET_FEC. -/
def execSetFec (pk : Packet) (s : State) : Out := .next (serve 0x0301 checkSetFec runSetFec pk s)

/-- SET_FEC_DEFECTS (R148). -/
def checkSetFecDefects (c : Ctx) (s : State) : Nat :=
  let p := c.pk.params
  let bad := carrierBad p || !zeroAt p 1 3 || decide (u32 p 4 < 100) || decide (24000 < u32 p 4) || decide (u32 p 8 < 50)
    || decide (u32 p 4 ≤ u32 p 8) || u8 p 12 == 0 || decide (100 < u8 p 12) || u8 p 13 == 0 || decide (100 < u8 p 13)
    || u16 p 14 == 0 || decide (1000 < u16 p 14) || u16 p 16 == 0 || !zeroAt p 18 2
  gated s (!plainLen 20 c) [(bad, stBadParam)]
/-- The values apply from the next window; the runs restart. [log 84 DEDUCED] -/
def runSetFecDefects (c : Ctx) (s : State) : Res :=
  let p := c.pk.params
  done (fecUpd (carrierOf (u8 p 0)) (fun f => { f with
    set := { f.set with
      degSet := u32 p 4, degClr := u32 p 8, degWin := u8 p 12, failSet := u8 p 13, failClr := u16 p 14, failCount := u16 p 16 }
    degW := { f.degW with neutral := true, high := 0, low := 0 }
    failW := { f.failW with neutral := true, failing := 0, clean := 0 } }) s)
/-- SET_FEC_DEFECTS. -/
def execSetFecDefects (pk : Packet) (s : State) : Out := .next (serve 0x0302 checkSetFecDefects runSetFecDefects pk s)

/-- GET_FEC_STATUS (R149). -/
def checkGetFecStatus (c : Ctx) (s : State) : Nat :=
  gated s (!plainLen 4 c) [(carrierBad c.pk.params || !zeroAt c.pk.params 1 3, stBadParam)]
/-- The 124-byte result; the counters clear. -/
def runGetFecStatus (c : Ctx) (s : State) : Res :=
  let k := carrierOf (u8 c.pk.params 0)
  let f := (lineGet s k).fec
  let n := f.cnt
  doneWith (fecUpd k (fun f => { f with cnt := {} }) s)
    (le 1 (b2n f.aligned + 2 * b2n f.deg + 4 * b2n f.fail + 8 * b2n (f.delta != 0)) ++ le 1 (iEff f) ++ le 1 f.set.iMax ++ le 1 0
      ++ le 8 n.bits ++ le 8 n.errors ++ le 8 n.blocks ++ le 4 n.unconv ++ le 4 n.bchBits ++ le 4 n.bchUncorr ++ le 4 n.alignLoss
      ++ le 2 n.quick ++ le 2 n.hunts ++ le 4 n.empties ++ le 4 f.berLast ++ le 4 f.iterMean
      ++ (List.range 16).flatMap (fun i => le 4 (n.hist.getD i 0)))
/-- GET_FEC_STATUS. -/
def execGetFecStatus (pk : Packet) (s : State) : Out := .next (serve 0x0303 checkGetFecStatus runGetFecStatus pk s)

/-! The decoder window (R133 to R135, R109, R110). -/

/-- A block enters the window (R133, R140): it takes the limits in force; a configured pass whose position leaves fewer than
two iterations is dropped and counted. The turbo flag and positions written apply from here on (R117). [log 222 DESIGN CHOICE] -/
def enterBlock (s : State) (c : Carrier) (chan : ChanBlock) : DecBlock × Nat :=
  let f := (lineGet s c).fec
  let d := (spireGet s c).eq.set
  let i := iEff f
  let one (on : Bool) (k : Nat) : Nat × Nat := if !on || k = 0 then (0, 0) else if k + 6 ≤ i then (k, 0) else (0, 1)
  let a := one d.turbo d.i1
  let b := one d.turbo d.i2
  (⟨f.nextBlock, i, 0, none, 0, chan.bad, lockedOn s c, a.1, b.1, f.set.early, chan⟩, a.2 + b.2)

/-- The oldest block of those that wait enters the window, with the two after it known (R133). -/
def openWindow (c : Carrier) (x y z : ChanBlock) (s : State) : State :=
  let b := enterBlock s c x
  eqUpd c (fun e => { e with dropIter := satAdd 32 e.dropIter b.2 }) (fecUpd c (fun f => { f with
    window := f.window ++ [b.1], nextBlock := f.nextBlock + 1, chan := f.chan.drop 1
    mem := loadBlock (f.nextBlock + 2) z (loadBlock (f.nextBlock + 1) y (loadBlock f.nextBlock x f.mem)) }) s)

/-- LDPC_BLOCK_ENTER (R133): a block whose last bit and whose two successors have arrived enters the window. -/
def execLdpcBlockEnter (c : Carrier) (s : State) : Out :=
  .next (if !alignedOn s c then s
    else match (lineGet s c).fec.chan with
      | x :: y :: z :: _ => openWindow c x y z s
      | _ => s)

/-- Pass `p` of a block at the end of its period (R110): dropped, skipped, or in flight for 0.80 us with what it will bring. [log 80 DEDUCED] -/
def turboAt (c : Carrier) (p : Nat) (b : DecBlock) (s : State) : State :=
  let i := if p = 1 then b.i1 else b.i2
  let x := spireGet s c
  if i = 0 || b.age != i then s
  else if b.badFill || !b.locked || !lockedOn s c || (lineGet s c).frm.los || x.acq.loc then
    eqUpd c (fun e => { e with dropState := satAdd 32 e.dropState 1 }) s
  else if b.convAt.isSome then eqUpd c (fun e => { e with turboSkip := satAdd 32 e.turboSkip 1 }) s
  else eqUpd c (fun e => { e with turbo := e.turbo ++ [⟨b.num, p, s.now + 800, turboFresh s c b⟩] }) s

/-! Blocks that leave (R126, R135, R137, R142). -/

/-- Bits that an outer codeword corrected. -/
def correctedBits : OuterOutcome → Nat
  | .corrected n => n
  | _ => 0

/-- The counts of R142 for a block that leaves. -/
def countBlock (b : DecBlock) (obs : LeaveObs) (f : Fec) : Fec :=
  let unc := obs.outer.count .uncorrectable
  let fixed := (obs.outer.map correctedBits).sum
  let words := (obs.outer.filter fun o => correctedBits o != 0).length
  let good := b.convAt.isSome && unc == 0
  let bits := if good then 9513 else 0
  let errs := if good then obs.errors else 0
  let n := f.cnt
  { f with
    cnt := { n with
      bits := satAdd 64 n.bits bits, errors := satAdd 64 n.errors errs, blocks := satAdd 64 n.blocks 1
      unconv := satAdd 32 n.unconv (b2n b.convAt.isNone), bchBits := satAdd 32 n.bchBits fixed
      bchWords := satAdd 32 n.bchWords words, bchUncorr := satAdd 32 n.bchUncorr unc
      hist := match b.convAt with
        | some i => lupd n.hist (i - 1) fun k => satAdd 32 k 1
        | none => n.hist }
    sec := { f.sec with
      bits := f.sec.bits + bits, errors := f.sec.errors + errs, blocks := f.sec.blocks + 1
      iters := f.sec.iters + b.iters
      uncorr := f.sec.uncorr + unc, corrected := f.sec.corrected + fixed, unconv := f.sec.unconv + b2n b.convAt.isNone
      iMax := max f.sec.iMax b.iters }
    degW := { f.degW with
      bits := f.degW.bits + bits, errors := f.degW.errors + errs, blocks := f.degW.blocks + 1
      excluded := f.degW.excluded + b2n (!good) }
    failW := { f.failW with count := f.failW.count + unc } }

/-- The blocks that a lost grid takes with it pass on as they were received, flagged (R137). A grid that moves back gives a block's worth of
codewords more, which keeps the codeword count of the framer. [log 217 DESIGN CHOICE] -/
def passLost (c : Carrier) (back : Bool) (f : Fec) (s : State) : State :=
  let held := f.window.map (·.chan) ++ f.chan
  let extra := if back then flaggedMessages (rawBlock f 0 0) else []
  passOn c (held.flatMap (fun b => flaggedMessages (hardOf b.bits)) ++ extra) s

/-- FEC_ALIGN_LOSS (R137): the quick hunt restores alignment at the best of 8 offsets, else a full hunt starts. -/
def alignLoss (c : Carrier) (s : State) : State :=
  let s1 := pmSpoil c (neutralize c (fecUpd c (fun f => { f with
    badRun := 0, cnt := { f.cnt with alignLoss := satAdd 32 f.cnt.alignLoss 1 } }) s))
  let f := (lineGet s1 c).fec
  let h := (planOf s1 c).h64
  let q := quickBest f h
  if q.2 ≤ 1840 then
    fecUpd c (fun f => { (takeGrid q.1 f) with cnt := { f.cnt with quick := satAdd 16 f.cnt.quick 1 } })
      (passLost c (decide (4756 < q.1)) f s1)
  else beginHunt c s1

/-- The counts of link quality follow those of a block that has left (R265, R280). -/
def countSources (c : Carrier) (old new : Fec) (s : State) : State :=
  let n := carrierNum c
  countSrc 0x03 n (new.failW.count - old.failW.count)
    (countSrc 0x02 n (new.degW.errors - old.degW.errors) (countSrc 0x01 n (new.degW.bits - old.degW.bits) s))

/-- The oldest block leaves (R126, R135, R137, R142): it is counted, its outer codewords go to the framer with their flags, and 4 blocks in a row
with more than 460 unsatisfied checks lose the alignment. -/
def leaveWindow (c : Carrier) (b : DecBlock) (rest : List DecBlock) (s : State) : State :=
  let f := (lineGet s c).fec
  let obs := leaveObs f b
  let run := if 460 < obs.unsatisfied then f.badRun + 1 else 0
  let g := forgetBlock b (countBlock b obs f)
  let s1 := countSources c f g (fecUpd c (fun _ => { g with window := rest, badRun := run }) s)
  let s2 := passOn c (obs.msgs.zip (obs.outer.map fun o => o == .uncorrectable)) s1
  if 4 ≤ run then alignLoss c s2 else s2

/-- The oldest block leaves if it has been in the window for L_dec periods (R135). -/
def leaveDue (c : Carrier) (s : State) : State :=
  let f := (lineGet s c).fec
  match f.window with
  | [] => s
  | b :: rest => if !f.aligned || b.age < f.set.lDec then s else leaveWindow c b rest s

/-- BLOCK_LEAVE (R135). -/
def execBlockLeave (c : Carrier) (s : State) : Out := .next (leaveDue c s)

/-- Blocks that have been in the window for L_dec periods leave before the next one begins: no block stays longer (R135). -/
def leaveAll : Nat → Carrier → State → State
  | 0, _, s => s
  | n + 1, c, s => leaveAll n c (leaveDue c s)

/-- DECODER_ITERATION_PERIOD (R133, R134): each block in the window has its iteration, and the turbo passes that are due start. -/
def execDecoderIterationPeriod (c : Carrier) (s0 : State) : Out :=
  .next (
    let s := leaveAll (lineGet s0 c).fec.window.length c s0
    if !alignedOn s c then s
    else
      let f := (lineGet s c).fec
      let r := iterateWindow f.mem f.window
      r.2.foldl (fun t b => turboAt c 2 b (turboAt c 1 b t)) (fecUpd c (fun f => { f with mem := r.1, window := r.2 }) s))

/-- FULL_HUNT_DONE (R136): the best of 9,513 offsets is accepted at a score of at most 1,840, else the hunt starts again. The hunt ends once the
blocks that it scores have arrived. [log 86 DEDUCED] -/
def execFullHuntDone (c : Carrier) (s : State) : Out :=
  .next (
    let f := (lineGet s c).fec
    if !f.hunting || f.rawLen < rawSpan then s
    else
      let q := huntBest f
      fecUpd c (fun f => if q.2 ≤ 1840 then { (takeGrid q.1 f) with hunting := false }
        else { f with cnt := { f.cnt with hunts := satAdd 16 f.cnt.hunts 1 } }) s)

/-! Defects (R143 to R145). -/

/-- A window may count now (R145). -/
def fecSound (s : State) (c : Carrier) : Bool :=
  let l := lineGet s c
  alignedOn s c && !l.frm.los && !(spireGet s c).acq.loc && syncOn s c && !l.frm.lom

/-- A 10 ms window is judged (R143); a neutral one keeps the runs. -/
def judgeDeg (sound : Bool) (f : Fec) : Fec :=
  let w := f.degW
  let u := f.degUse
  if w.neutral || !sound then f
  else
    let high := decide (u.degSet * w.bits < w.errors * 1000000) || decide (w.blocks < 100 * w.excluded)
    let low := !high && decide (w.errors * 1000000 < u.degClr * w.bits)
    let h := if high then w.high + 1 else 0
    let l := if low then w.low + 1 else 0
    { f with degW := { w with high := h, low := l }, deg := if u.degWin ≤ h then true else if u.degWin ≤ l then false else f.deg }

/-- FEC_DEG_WINDOW. -/
def execFecDegWindow (c : Carrier) (s0 : State) : Out :=
  .next (match (lineGet s0 c).fec.degW.endAt with
    | none => s0
    | some t =>
      let s := advanceTo t s0
      let ok := fecSound s c
      fecUpd c (fun f =>
        let g := judgeDeg ok f
        { g with
          degUse := g.set
          degW := { high := g.degW.high, low := g.degW.low, endAt := some (t + 10 * msNs), neutral := !ok } }) s)

/-- A 1 ms window is judged (R144); a neutral one keeps the runs. -/
def judgeFail (sound : Bool) (f : Fec) : Fec :=
  let w := f.failW
  let u := f.failUse
  if w.neutral || !sound then f
  else
    let a := if u.failCount ≤ w.count then w.failing + 1 else 0
    let b := if w.count = 0 then w.clean + 1 else 0
    { f with failW := { w with failing := a, clean := b }, fail := if u.failSet ≤ a then true else if u.failClr ≤ b then false else f.fail }

/-- FEC_FAIL_WINDOW. -/
def execFecFailWindow (c : Carrier) (s0 : State) : Out :=
  .next (match (lineGet s0 c).fec.failW.endAt with
    | none => s0
    | some t =>
      let s := advanceTo t s0
      let ok := fecSound s c
      fecUpd c (fun f =>
        let g := judgeFail ok f
        { g with
          failUse := g.set
          failW := { failing := g.failW.failing, clean := g.failW.clean, endAt := some (t + msNs), neutral := !ok } }) s)

/-- FEC_THROTTLE (R140): the throttle step that is due. -/
def execFecThrottle (c : Carrier) (s : State) : Out := .next (throttleStep c s)

end Sys2Proof.Machine
end

