-- ==== Sys2Proof/Machine/Power.lean ====
section
/-! DEFINITION. The commands and events of modes, domains, supplies, pins and temperature (spec/01_architecture.md,
spec/18_power_and_recovery.md). -/

namespace Sys2Proof.Machine

/-! SET_MODE (R22 to R25, R493). -/

/-- No tenant spans both carriers in a pair of tables. -/
def noneSpans (a b : Tbl Nat) : Bool := (tenantsOf a).all fun t => slotCount b t = 0

/-- No group spans the carriers in the tables in use and announced. -/
def noGroupSpans (s : State) : Bool :=
  noneSpans (txTable s .a) (txTable s .b) && noneSpans (rxTable s .a) (rxTable s .b) && noneSpans (nextTable s .a) (nextTable s .b)

/-- A table has no used entry. -/
def tableEmpty (t : Tbl Nat) : Bool := (tenantsOf t).isEmpty

/-- Both carriers are planned with the same KLF-n. -/
def sameN (s : State) : Bool :=
  !unused s.plan.car.a && !unused s.plan.car.b && s.plan.car.a.n == s.plan.car.b.n

/-- The held plan and roll-offs meet the rule of a traffic mode (R37). -/
def spacingMet (s : State) (m : Mode) : Bool := planMeets s m s.spire.a.tx.beta100 s.spire.b.tx.beta100

/-- The table of R22 with the conditions of R23. -/
def transAllowed (s : State) (m : Mode) : Bool :=
  match s.mode.cur, m with
  | .dormant, .configure => true
  | .dormant, _ => false
  | .configure, .configure => false
  | .configure, .merge => sameN s && tableEmpty s.cal.t0.b && tableEmpty s.cal.t1.b
  | .configure, .regenerate => sameN s
  | .configure, _ => true
  | .maintain, .dormant | .maintain, .configure => true
  | .maintain, _ => false
  | _, .dormant | _, .configure | _, .maintain => true
  | .independent, .twin => !unused s.plan.car.a && !unused s.plan.car.b && s.plan.fibre == 1
  | .independent, .bonded => true
  | .independent, .merge | .bonded, .merge =>
    sameN s && tableEmpty (txTable s .b) && tableEmpty (nextTable s .b) && tableEmpty (rxTable s .b)
  | .twin, .independent => noGroupSpans s
  | .bonded, .independent => noGroupSpans s
  | .merge, .independent | .merge, .bonded => s.mrg.legs.a.eligible
  | _, _ => false

/-- The domains that a transition powers up (R21, R24). -/
def transStarts (s : State) (m : Mode) : List Nat :=
  powerOrder.filter fun d => (domCode m d == .on || (domCode m d == .used && isUsed s d)) && !domOn s d

/-- Every carrier whose Spire the mode marks on is planned, its domains ON or not (R41). -/
def modePlanned (s : State) (m : Mode) : Bool := powerOrder.all fun d => domCode m d != .on || match spireOf d with
  | some c => !unused (planOf s c)
  | none => true

/-- A return of R468 is running. [log 45 DEDUCED] -/
def returnRuns (s : State) : Bool := powerOrder.any fun d => (domGet s d).returning

/-- SET_MODE: BUSY before the rules of R22 and R23, then what refuses power-ups. [log 42 DEDUCED] -/
def checkSetMode (c : Ctx) (s : State) : Nat :=
  let p := c.pk.params
  let m := modeOf (u8 p 0)
  let ups := transStarts s m
  firstBad ([
    (!plainLen 4 c || decide (7 < u8 p 0) || !zeroAt p 1 3, stBadParam),
    (s.mode.trans.isSome || s.cal.swap.isSome || returnRuns s, stBusy),
    (!transAllowed s m || (trafficMode m && !spacingMet s m) || !modePlanned s m || !ups.all (sourceOk s), stBadState),
    (s.therm.shutdown, stThermal)] ++ powerGate s ups)
/-- The transition starts with step 2 of R24. -/
def runSetMode (c : Ctx) (s : State) : Res :=
  let m := modeOf (u8 c.pk.params 0)
  let ups := transStarts s m
  later (progressTrans (requestUp ups { s with mode := { s.mode with
    trans := some { target := m, ref := c.ref, step := 2, started := ups, boundary := none } } }))
/-- SET_MODE. -/
def execSetMode (pk : Packet) (s : State) : Out := .next (serve 0x0101 checkSetMode runSetMode pk s)

/-- MODE_ANNOUNCE (R24 step 4): the mode bits are announced two multiframes ahead. -/
def execModeAnnounce (s : State) : Out :=
  .next (match s.mode.trans with
    | some t =>
      if t.step = 4 then
        { s with mode := { s.mode with trans := some { t with step := 5, boundary := some (boundaryAfter s.txFc) } } }
      else s
    | none => s)

/-- MODE_BOUNDARY (R24 steps 5 and 6): the announced boundary, or the next one for a mode without a code; C5 of R23 is judged
again here. [log 43 DEDUCED] -/
def execModeBoundary (s : State) : Out :=
  .next (match s.mode.trans with
    | some t =>
      if t.step != 5 then s
      else
        let s1 := if domOn s 2 then toFrame (t.boundary.getD ((s.txFc / 256 + 1) * 256)) s else s
        if s1.mode.cur == .merge && (t.target == .independent || t.target == .bonded) && !s1.mrg.legs.a.eligible then
          failTrans 5 stBadState s1
        else finishTrans t s1
    | none => s)

/-- RAMP_DOWN_DONE (R242): every delay of the Dome lies at 6.0 us or less, and the announcement follows. -/
def execRampDownDone (s : State) : Out :=
  .next (match s.mode.trans with
    | some t =>
      if t.step = 3 && !inDome s .a && !inDome s .b then { s with mode := { s.mode with trans := some { t with step := 4 } } } else s
    | none => s)

/-! SET_DOMAINS (R466, R494). -/

/-- The domains of a mask. -/
def maskDoms (m : Nat) : List Nat := (List.range 32).filter fun d => m.testBit d

/-- A named domain is open to SET_DOMAINS in the present mode. -/
def domNamed (s : State) (up : Bool) (d : Nat) : Bool :=
  let v := domGet s d
  domCode s.mode.cur d == .cmd
    || (up && trafficMode s.mode.cur && domCode s.mode.cur d != .off && domCode s.mode.cur d != .ring
        && (((v.state == .off || v.state == .reset) && (v.gaveUp || v.leftOff)) || v.state == .reset))

/-- The dependencies of R466 with every named domain treated as ON, or as gone. -/
def domDeps (s : State) (up : Bool) (ds : List Nat) : Bool :=
  if up then ds.all fun d => sourceOk s d && (needsOf d).all fun n => domOn s n || ds.contains n
  else ds.all fun d => powerOrder.all fun e => !((needsOf e).contains d && (domGet s e).state != .off && !ds.contains e)

/-- SET_DOMAINS. -/
def checkSetDomains (c : Ctx) (s : State) : Nat :=
  let p := c.pk.params
  let m := u32 p 0
  let up := u8 p 4 == 1
  let ds := maskDoms m
  let ups := ds.filter fun d => up && !domOn s d
  let inReset := ds.filter fun d => (domGet s d).state == .reset
  firstBad ([
    (!plainLen 8 c || m == 0 || m.testBit 0 || decide (1 < u8 p 4) || !zeroAt p 5 3, stBadParam),
    (s.mode.trans.isSome, stBusy),
    (!ds.all (domNamed s up) || !domDeps s up ds
      || (!up && (ds.contains 23 || ds.contains 24) && (inDome s .a || inDome s .b)), stBadState),
    (inReset.any fun d => (railsOf d).any (railLow s), stSupply),
    (!inReset.isEmpty, stBusy)] ++ powerGate s ups)
/-- The named domains power up or down in the order of R466. [log 41 DEDUCED] -/
def runSetDomains (c : Ctx) (s : State) : Res :=
  let p := c.pk.params
  let up := u8 p 4 == 1
  let ds := maskDoms (u32 p 0)
  let s1 := ds.foldl (fun t d => domUpd d (fun x => { x with wanted := up }) t) s
  if !up || ds.all (domOn s1) then
    let s2 := if up then s1 else powerDown ds s1
    { s := s2, accepted := true, final := some (stOk, le 4 (onMask s2) ++ le 4 0) }
  else
    let j : DomJob := { ref := c.ref, mask := ds, up := true, failed := [], status := stOk }
    later (requestUp ds { s1 with power := { s1.power with jobs := s1.power.jobs ++ [j] } })
/-- SET_DOMAINS. -/
def execSetDomains (pk : Packet) (s : State) : Out := .next (serve 0x0102 checkSetDomains runSetDomains pk s)

/-- DOMAIN_PLL_LOCK (R465): a powering domain enters INIT. -/
def execDomainPllLock (dom : Nat) (s : State) : Out :=
  .next (if (domGet s dom).state == .powering then pllLocked dom s else s)

/-- DOMAIN_INIT_DONE (R465): the SRAM of a domain is written and scrubbed; a Dome stack follows R332. -/
def execDomainInitDone (dom : Nat) (s : State) : Out :=
  .next (if (domGet s dom).state == .init && dom != 23 && dom != 24 then domainUp dom s else s)

/-- The domain of a FIFO (R9, R10). -/
def fifoDom : FifoRef → Option Nat
  | .coded c => some (txdspDom c)
  | .store _ | .frames _ => some 2
  | .phyTx p => some (quadDom (p / 4))
  | .other => none

/-- A FIFO is flushed (R468): the rules of defects, pointers and merge handle what it held as any other lost data. [log 252 DEDUCED] -/
def flushFifo (f : FifoRef) (s : State) : State :=
  match f with
  | .coded c => txUpd c (fun t => { t with coded := {} }) s
  | .store t => tenUpd t (fun v => { v with tx := { v.tx with store := [], inflow := [] } }) s
  | .frames c => { s with skew := { s.skew with bufs := pupd s.skew.bufs c fun _ => [] } }
  | .phyTx p => phyUpd p (fun v => { v with tx := { v.tx with blocks := [] } }) s
  | .other => s

/-- FIFO_MISMATCH (R468): the pointer copies of a FIFO disagree within the window, which restarts; the FIFO is flushed. [log 252 DEDUCED] -/
def execFifoMismatch (dom : Nat) (fifo : FifoRef) (s : State) : Out :=
  .next (if (domGet s dom).window.isNone || ((fifoDom fifo).getD dom) != dom then s
    else
      let s1 := flushFifo fifo (domUpd dom (fun x => { x with window := some (s.now + secNs) }) s)
      postEv 0x010B [dom] { s1 with power := { s1.power with fifoMismatch := satAdd 16 s1.power.fifoMismatch 1 } })

/-- FIFO_WINDOW_CLOSE (R468): the pointer window of a returned domain ends, and with it its return. -/
def execFifoWindowClose (dom : Nat) (s : State) : Out :=
  .next (match (domGet s dom).window with
    | some t => domUpd dom (fun x => { x with window := none, returning := false }) (advanceTo t s)
    | none => s)

/-! Supervision. -/

/-- GET_POWER_STATUS (R495). -/
def checkGetPowerStatus (c : Ctx) (_ : State) : Nat := firstBad [(!plainLen 0 c, stBadParam)]
/-- The 64-byte result; the counters clear. -/
def runGetPowerStatus (c : Ctx) (s : State) : Res :=
  let _ := c
  let w := s.power
  let t := s.therm
  let rails (f : Rail → Bool) : Nat := maskOf ((List.range 9).filter fun r => f (w.rails.getD r {}))
  doneWith { s with power := { w with discrepancies := 0, railResets := 0, returns := 0, fifoMismatch := 0 } }
    (le 4 (onMask s) ++ le 4 (domMask s fun x => x.state == .reset || x.gaveUp || x.leftOff) ++ le 4 (domMask s (·.returning))
      ++ le 2 (rails fun r => r.warn != 0) ++ le 2 (rails (·.gaveUp)) ++ leS 2 t.tj ++ le 1 t.hottest
      ++ le 1 (b2n t.warn + 2 * b2n t.critical + 4 * b2n t.shutdown + 8 * b2n t.low)
      ++ le 1 (b2n s.pins.safeA + 2 * b2n s.pins.safeB + 4 * b2n s.pins.pairFault + 8 * b2n s.pins.pfail)
      ++ le 1 (t.sensors.filter (·.isSome)).length ++ le 2 0 ++ (List.range 9).flatMap (fun r => le 2 (w.rails.getD r {}).mv)
      ++ le 2 w.discrepancies ++ le 2 w.railResets ++ le 2 w.returns ++ le 2 w.fifoMismatch ++ le 14 0)
/-- GET_POWER_STATUS. -/
def execGetPowerStatus (pk : Packet) (s : State) : Out := .next (serve 0x0103 checkGetPowerStatus runGetPowerStatus pk s)

/-- SET_SUPERVISION (R492, R496). -/
def checkSetSupervision (c : Ctx) (_ : State) : Nat :=
  let p := c.pk.params
  firstBad [(!plainLen 8 c || (decide (8 < u8 p 0) && u8 p 0 != 0xFF) || decide (u8 p 1 < 10) || decide (60 < u8 p 1) || u8 p 1 % 5 != 0
    || decide (u8 p 2 < u8 p 1 + 10) || decide (120 < u8 p 2) || u8 p 2 % 5 != 0 || u8 p 3 == 0 || decide (20 < u8 p 3)
    || decide (1 < u8 p 4) || !zeroAt p 5 1 || u16 p 6 == 0 || decide (200 < u16 p 6), stBadParam)]
/-- The levels apply at once. -/
def runSetSupervision (c : Ctx) (s : State) : Res :=
  let p := c.pk.params
  let f (r : Rail) : Rail := { r with warnLvl := u8 p 1, resetLvl := u8 p 2, deglitch := u8 p 3 }
  done { s with
    power := { s.power with
      rails := if u8 p 0 = 0xFF then s.power.rails.map f else lupd s.power.rails (u8 p 0) f
      autoReturn := u8 p 4 == 1 }
    pins := { s.pins with td := u16 p 6 } }
/-- SET_SUPERVISION. -/
def execSetSupervision (pk : Packet) (s : State) : Out := .next (serve 0x0104 checkSetSupervision runSetSupervision pk s)

/-- CLEAR_PAIR_FAULT (R474, R497). -/
def checkClearPairFault (c : Ctx) (s : State) : Nat :=
  firstBad [(!plainLen 0 c, stBadParam), (s.pins.safeA || s.pins.safeB, stBadState)]
/-- The latch clears, and the release of R57 starts. [log 53 DEDUCED] -/
def runClearPairFault (c : Ctx) (s : State) : Res :=
  let _ := c
  if !s.pins.pairFault then done s
  else
    let s1 := { s with pins := { s.pins with pairFault := false } }
    done (noteSafety s (post 0x0109 false [s.pins.faultInput] s1))
/-- CLEAR_PAIR_FAULT. -/
def execClearPairFault (pk : Packet) (s : State) : Out := .next (serve 0x0105 checkClearPairFault runClearPairFault pk s)

/-! The laser-safety pair and PFAIL_N (R56, R57, R473 to R475). -/

/-- The discrepancy timer follows the inputs: it starts when they disagree, and an agreement before T_d counts (R473). -/
def noteDiscrepancy (s : State) : State :=
  if s.pins.safeA != s.pins.safeB then
    (if s.pins.discSince.isSome then s else { s with pins := { s.pins with discSince := some s.now } })
  else if s.pins.discSince.isSome then
    { s with
      pins := { s.pins with discSince := none }
      power := { s.power with discrepancies := satAdd 16 s.power.discrepancies 1 } }
  else s

/-- A level of a TXSAFE input is taken. -/
def takeSafe (inp : Carrier) (v : Bool) (s : State) : State :=
  if (match inp with | .a => s.pins.safeA | .b => s.pins.safeB) = v then s
  else
  let s1 := { s with pins := match inp with
    | .a => { s.pins with safeA := v }
    | .b => { s.pins with safeB := v } }
  if s.pins.poreset then s1 else noteDiscrepancy (noteSafety s s1)

/-- TXSAFE_ASSERT (R56). -/
def execTxsafeAssert (inp : Carrier) (s : State) : Out := .next (takeSafe inp true s)

/-- TXSAFE_DEASSERT (R57). -/
def execTxsafeDeassert (inp : Carrier) (s : State) : Out := .next (takeSafe inp false s)

/-- When a disagreement that began at `t` has lasted T_d, in whole ticks of the slow clock (R473). -/
def pairFaultAt (t td : Nat) : Nat := t + (td * 32768 + 999) / 1000 * secNs / 32768

/-- The disagreement of the safety inputs ends as a fault (R473): it latches and names the input found asserted. -/
def latchPairFault (s : State) : State :=
  let s1 := { s with pins := { s.pins with discSince := none } }
  if s.pins.pairFault then s1
  else
    let inp := b2n s.pins.safeB
    post 0x0109 true [inp] (noteSafety s { s1 with pins := { s1.pins with pairFault := true, faultInput := inp } })

/-- PAIR_FAULT (R473): the discrepancy timer reaches T_d in ticks of the slow clock. -/
def execPairFault (s : State) : Out :=
  .next (match s.pins.discSince with
    | none => s
    | some t => latchPairFault (advanceTo (pairFaultAt t s.pins.td) s))

/-- SETTLE_EXPIRY (R57): SETTLE clears; a SQUELCHED transmitter's DAC output resumes and TX_RESUME is posted. -/
def execSettleExpiry (c : Carrier) (s : State) : Out :=
  .next (match (txGet s c).settleAt with
    | none => s
    | some t =>
      if safetyCause s then s
      else if (txGet s c).state != .squelched then txUpd c (fun x => { x with settleAt := none }) (advanceTo t s)
      else postEv 0x0202 [carrierNum c] (txUpd c (fun x => { x with state := .running, settleAt := none }) (advanceTo t s)))

/-- PFAIL_N_ASSERT (R475). -/
def execPfailNAssert (s : State) : Out :=
  .next (
    let s1 := { s with pins := { s.pins with pfail := true } }
    if s.pins.pfail || s.pins.poreset then s1 else pmFreeze (post 0x010A true [] s1))

/-- PFAIL_N_DEASSERT (R475). -/
def execPfailNDeassert (s : State) : Out :=
  .next (
    let s1 := { s with pins := { s.pins with pfail := false } }
    if !s.pins.pfail || s.pins.poreset then s1 else pmThaw (post 0x010A false [] s1))

/-! Rails (R470, R471, R468). -/

/-- The carriers whose Spire a rail feeds. -/
def railCarriers (r : Nat) : List Carrier := [.a, .b].filter fun c => (spireDoms c).any fun d => (railsOf d).contains r

/-- The quads that a rail feeds. -/
def railQuads (r : Nat) : List Nat := (List.range 10).filter fun q => (railsOf (quadDom q)).contains r

/-- A rail's supply is found beyond its warning level (R471): RAIL_WARN is raised once, windows are spoiled, power-ups on it fail.
[log 49 DEDUCED] -/
def warnRail (rail mv : Nat) (s : State) : State :=
  let r := s.power.rails.getD rail {}
  let v := if mv * 1000 < railNominal rail * (1000 - r.warnLvl) then 1 else if railNominal rail * 1050 < mv * 1000 then 2 else 0
  if 8 < rail || v = 0 then s
  else
    let s1 := railUpd rail (fun x => { x with mv := mv, warn := v }) s
    if r.warn != 0 then s1
    else
      let s2 := post 0x0101 true [rail, v] s1
      let s3 := (railCarriers rail).foldl (fun t c => warnSpire c t) s2
      let s4 := (railQuads rail).foldl (fun t q => spoilQuad q t) s3
      noteStatus s (dropWaiting (railDomains rail) false stSupply s4)

/-- RAIL_WARN (R471). -/
def execRailWarn (rail mv : Nat) (s : State) : Out := .next (warnRail rail mv s)

/-- RAIL_WARN_CLEAR (R471): a rail back within its band for 1 ms. -/
def execRailWarnClear (rail mv : Nat) (s : State) : Out :=
  .next (
    let r := s.power.rails.getD rail {}
    let inBand := decide (railNominal rail * (1000 - r.warnLvl + 5) ≤ mv * 1000) && decide (mv * 1000 ≤ railNominal rail * 1045)
    if 8 < rail || r.warn = 0 || !inBand then s
    else
      let s1 := post 0x0101 false [rail, r.warn] (railUpd rail (fun x => { x with mv := mv, warn := 0 }) s)
      noteStatus s (applyUsed ((railCarriers rail).foldl (fun t c => clearSpire c t) s1)))

/-- PORESET_N asserts, or a Cupola rail resets (R470, R472): every register takes its reset value. The flash, the fuses, the
repairs of the package, the pins and the host's memory keep what they hold; what the flash was programming or erasing is cut off.
[log 35 DESIGN CHOICE, 250 DESIGN CHOICE] -/
def coldReset (s0 : State) : State :=
  let s := tearSlot (tearCopy s0)
  { hostMem := s.hostMem
    free := s.free
    pending := s.pending
    pcie := { perst := s.pcie.perst }
    pins := { safeA := s.pins.safeA, safeB := s.pins.safeB, pfail := s.pins.pfail }
    power := { rails := ((List.range 9).zip s.power.rails).map fun r => ({ mv := r.2.mv } : Rail) }
    journal := { bank0 := s.journal.bank0, bank1 := s.journal.bank1 }
    fw := { slot0 := s.fw.slot0, slot1 := s.fw.slot1, fuses := s.fw.fuses }
    mem := { spareUsed := s.mem.spareUsed } }

/-- The domains of a rail enter RESET (R471), or after the third reset within 60 s go OFF for good (R468). [log 46 DEDUCED] -/
def railDown (rail : Nat) (s : State) : State :=
  let gone := (railDomains rail).reverse.filter fun d => (domGet s d).state != .off && (domGet s d).state != .reset
  let all := (railDomains rail).filter fun d => (domGet s d).state != .off
  let times := s.now :: ((s.power.rails.getD rail {}).resets.filter fun t => decide (s.now < t + 60 * secNs))
  let s1 := railUpd rail (fun x => { x with resets := times }) s
  let s2 := postEv 0x0102 [rail, maskOf gone] { s1 with power := { s1.power with railResets := satAdd 16 s1.power.railResets 1 } }
  let s3 := gone.foldl (fun t d => if (domGet t d).state == .off then t else loseDom d true .reset t)
    (dropWaiting (railDomains rail) true stSupply s2)
  if times.length < 3 then s3
  else
    let s4 := all.foldl (fun t d => domUpd d (fun x => { x with state := .off, gaveUp := true, returning := false }) t) s3
    postEv 0x0103 [maskOf all, 1] (railUpd rail (fun x => { x with gaveUp := true }) s4)

/-- RAIL_RESET (R471): a rail below its reset level, which is below its warning level too. -/
def execRailReset (rail mv : Nat) (s : State) : Out :=
  .next (
    let r := s.power.rails.getD rail {}
    if 8 < rail || railNominal rail * (1000 - r.resetLvl) ≤ mv * 1000 then s
    else
      let s1 := warnRail rail mv (railUpd rail (fun x => { x with mv := mv }) s)
      if rail ≤ 2 then coldReset s1 else railDown rail s1)

/-- DOMAIN_RETURN_START (R465, R468): a rail has stayed above its warning level for 10 ms; its domains in RESET return or go
OFF. [log 45 DEDUCED] -/
def execDomainReturnStart (rail : Nat) (s : State) : Out :=
  .next (
    let ds := (railDomains rail).filter fun d => (domGet s d).state == .reset && !(railsOf d).any (railLow s)
    let wants (d : Nat) : Bool := s.power.autoReturn && (modeWants s s.mode.cur d || (domGet s d).wanted)
    let back := ds.filter wants
    let off := ds.filter fun d => !wants d
    let s1 := off.foldl (fun t d => domUpd d (fun x => { x with state := .off, leftOff := !s.power.autoReturn }) t) s
    let s2 := requestUp back s1
    back.foldl (fun t d => domUpd d (fun x => { x with returning := true }) t) s2)

/-! LOCAL_OSC (R18). -/

/-- LOCAL_OSC is lost: Belfry holds, PD31 goes down where it ran from LOCAL_OSC. -/
def oscLost (s : State) : State :=
  if !s.clk.qualified then s
  else
    let s1 := postEv 0x0005 [] { s with clk := { s.clk with qualified := false, absent := true } }
    evaluateRef 0 (if domOn s1 1 then s1 else powerDown [31] s1)

/-- LOCAL_OSC_WINDOW_END (R18): a window within 100 ppm qualifies LOCAL_OSC, any other loses it. [log 51 DEDUCED] -/
def execLocalOscWindowEnd (ppb : Option Int) (s : State) : Out :=
  .next (
    let ok := match ppb with
      | some v => decide (v.natAbs ≤ 100000)
      | none => false
    if s.pins.poreset then s
    else if !ok then oscLost s
    else if s.clk.qualified then s
    else applyUsed (evaluateRef 0 { s with clk := { s.clk with qualified := true, absent := false } }))

/-- LOCAL_OSC_EDGE_LOSS (R18). -/
def execLocalOscEdgeLoss (s : State) : Out := .next (oscLost s)

/-! Start-up (R485, R486). -/

/-- PORESET_N_ASSERT (R470, R472). [log 35 DESIGN CHOICE] -/
def execPoresetNAssert (s : State) : Out := .next (coldReset s)

/-- PORESET_N_DEASSERT (R485): the Cupola starts, scans the journal, and takes the pins as it finds them. -/
def execPoresetNDeassert (s : State) : Out :=
  .next (
    if !s.pins.poreset then s
    else
      let s1 := journalScan { s with now := 0, pins := { s.pins with poreset := false } }
      let s2 := noteDiscrepancy s1
      let s3 := if safetyCause s2 then postEv 0x0201 [txCauses s2 .a] s2 else s2
      if s3.pins.pfail then pmFreeze (post 0x010A true [] s3) else s3)

/-- The device enters RECOVERY (R486). -/
def enterRecovery (s : State) : State :=
  { s with fw := { s.fw with recovery := true, tryOther := false }, ctl := { s.ctl with phase := .running } }

/-- FIRMWARE_VERIFIED (R485, R486): the image of the boot slot starts the controller, else the other slot's, else RECOVERY; without a valid
SFDP RECOVERY at once; a slot that cannot be read fails. [log 251 DEDUCED] -/
def execFirmwareVerified (read : FlashRead) (s : State) : Out :=
  .next (
    if s.ctl.phase != .held || s.pins.poreset then s
    else if read = .noSfdp then enterRecovery s
    else
      let slot := if s.fw.tryOther then 1 - min 1 s.fw.committed else min 1 s.fw.committed
      let c := checkSlot s.fw.fuses (slotGet s slot)
      let r := if read = .failed then (6, c.2) else c
      let run (f : Firmware) : State := { s with fw := { f with tryOther := false }, ctl := { s.ctl with phase := .running } }
      if r.1 = 0 then run { s.fw with running := slot, image := some r.2 }
      else
        let s1 := postEv 0x0D01 [slot, r.1] s
        if s.fw.tryOther then enterRecovery s1
        else { s1 with fw := { s1.fw with tryOther := true } })

/-- READY (R485): LOCAL_OSC is qualified, or 350 ms have passed; the queues open with their pointer windows, PD31 follows. [log 51 DEDUCED] -/
def execReady (s : State) : Out :=
  .next (
    if s.ctl.ready || s.ctl.phase != .running || s.pins.poreset then s
    else
      let s1 := if s.clk.qualified then s
        else postEv 0x0005 [] { (advanceTo (350 * msNs) s) with clk := { s.clk with absent := true } }
      let win (q : QueueId) (t : State) : State := qupd t q fun v => { v with window := some (t.now + secNs) }
      let s2 := win .q0 (win .q1 (win .q2 (win .q3 { s1 with ctl := { s1.ctl with ready := true } })))
      noteStatus s (applyUsed s2))

/-! Temperature (R476 to R479). -/

/-- A run of samples that meet a condition. -/
def runOf (ok : Bool) (n : Nat) : Nat := if ok then n + 1 else 0

/-- The sensors take their readings: one out of range is invalid (R476). -/
def takeReadings (l : List Int) (s : State) : State :=
  let bad (v : Int) : Bool := decide (v < -400) || decide (1500 < v)
  ((List.range 24).zip l).foldl (fun t e =>
    let was := t.therm.sensors.getD e.1 none
    let t1 := { t with therm := { t.therm with sensors := lupd t.therm.sensors e.1 fun _ => if bad e.2 then none else some e.2 } }
    if bad e.2 && was.isSome then postEv 0x0108 [e.1] t1 else t1) s

/-- Tj and the hottest sensor (R476). [log 50 DEDUCED] -/
def hottestOf (l : List (Option Int)) : Option (Int × Nat) :=
  ((List.range 24).zip l).foldl (fun o e => match o, e.2 with
    | none, some v => some (v, e.1)
    | some b, some v => if b.1 < v then some (v, e.1) else o
    | o, none => o) none

/-- The decoders follow the throttle warning (R140, R477). -/
def warnChange (old : Bool) (s : State) : State :=
  if s.therm.warn = old then s
  else
    let s1 := post 0x0104 s.therm.warn [sArg s.therm.tj, s.therm.hottest] s
    if s.therm.warn then throttleRaise .b (throttleRaise .a s1) else applyUsed (throttleClear .b (throttleClear .a s1))

/-- The critical level (R477). -/
def criticalChange (old : Bool) (s : State) : State :=
  if s.therm.critical = old then s
  else
    let s1 := post 0x0105 s.therm.critical [sArg s.therm.tj, s.therm.hottest] s
    if s.therm.critical then throttleFull .b (throttleFull .a s1) else s1

/-- The low level (R477). -/
def lowChange (old : Bool) (s : State) : State :=
  if s.therm.low = old then s else post 0x0107 s.therm.low [sArg s.therm.tj, s.therm.hottest] s

/-- Shutdown at the second reading at or above 125 C (R478), and its end below 100 C (R479). A sector erase in progress is
suspended where the flash reports a suspend command. -/
def shutdownChange (s : State) : State :=
  if !s.therm.shutdown && s.therm.nShut = 2 then
    let d := drawBool 478 s
    let erasing := s.fw.jobs.any (·.opcode == 0x0D01)
    let s1 := { d.2 with therm := { s.therm with shutdown := true }, journal := { s.journal with suspended := erasing && d.1 } }
    postEv 0x0106 [sArg s.therm.tj, s.therm.hottest] (shutdownAll s1)
  else if s.therm.shutdown && decide (s.therm.tj < 1000) then
    applyUsed { s with therm := { s.therm with shutdown := false }, journal := { s.journal with suspended := false } }
  else s

/-- TEMP_SAMPLE (R476, R477): one 1 ms reading of the 24 sensors. [log 50 DEDUCED] -/
def execTempSample (readings : List Int) (s : State) : Out :=
  .next (
    let s1 := takeReadings readings s
    let t := s1.therm
    let h := (hottestOf t.sensors).getD (t.tj, t.hottest)
    let tj := h.1
    let few := decide ((t.sensors.filter (·.isSome)).length < 20)
    let nLow := runOf (decide (tj < -50)) t.nLow
    let nLowClr := runOf (decide (-30 ≤ tj)) t.nLowClr
    let nWarn := runOf (decide (1100 ≤ tj)) t.nWarn
    let nWarnClr := runOf (decide (tj < 1050) && !few) t.nWarnClr
    let nCrit := runOf (decide (1200 ≤ tj)) t.nCrit
    let nCritClr := runOf (decide (tj < 1150)) t.nCritClr
    let t1 : Thermal := { t with
      tj := tj, hottest := h.2
      nLow := min 3 nLow, nLowClr := min 1000 nLowClr, nWarn := min 3 nWarn, nWarnClr := min 1000 nWarnClr
      nCrit := min 2 nCrit, nCritClr := min 1000 nCritClr, nShut := min 2 (runOf (decide (1250 ≤ tj)) t.nShut)
      low := if t.low then !decide (1000 ≤ nLowClr) else decide (3 ≤ nLow)
      warn := if t.warn then !decide (1000 ≤ nWarnClr) else few || decide (3 ≤ nWarn)
      critical := if t.critical then !decide (1000 ≤ nCritClr) else decide (2 ≤ nCrit) }
    let s2 := { s1 with therm := t1 }
    let s3 := lowChange t.low (criticalChange t.critical (warnChange t.warn s2))
    noteStatus s (shutdownChange s3))

end Sys2Proof.Machine
end

