-- ==== Sys2Proof/Machine/Firmware.lean ====
section
/-! DEFINITION. The commands and events of flash, journal, firmware, controller and engines (R14 to R17, R480 to R503). -/

namespace Sys2Proof.Machine

/-! Firmware commands (R487 to R489, R498 to R502). -/

/-- Another command of the group awaits its completion (R498). -/
def fwBusy (s : State) : Bool := !s.fw.jobs.isEmpty

/-- A firmware command waits. -/
def fwJob (op : Nat) (raise : Bool) (c : Ctx) (s : State) : State :=
  { s with fw := { s.fw with jobs := s.fw.jobs ++ [⟨op, c.ref, raise⟩] } }

/-- FW_PREPARE (R498). -/
def checkFwPrepare (c : Ctx) (s : State) : Nat := firstBad [(!plainLen 0 c, stBadParam), (fwBusy s, stBusy)]
/-- The inactive slot is being erased. -/
def runFwPrepare (c : Ctx) (s : State) : Res :=
  later (fwJob 0x0D01 false c { s with fw := { s.fw with regionOpen := false, verified := false } })
/-- FW_PREPARE. -/
def execFwPrepare (pk : Packet) (s : State) : Out := .next (serve 0x0D01 checkFwPrepare runFwPrepare pk s)

/-- FW_SLOT_ERASED (R483, R487, R498): the slot reads 0xFF, region 1 opens, FW_PREPARE completes. [log 56 DEDUCED, 59 DESIGN CHOICE] -/
def execFwSlotErased (s : State) : Out :=
  .next (
    if !(s.fw.jobs.any (·.opcode == 0x0D01)) || s.journal.suspended || flashDeferred s then s
    else
      let s1 := inactiveUpd (fun _ => {}) s
      endFwJob 0x0D01 stOk [] { s1 with fw := { s1.fw with regionOpen := true, written := 0, verified := false } })

/-- FW_VERIFY (R499). -/
def checkFwVerify (c : Ctx) (s : State) : Nat := firstBad [(!plainLen 0 c, stBadParam), (fwBusy s, stBusy)]
/-- Region 1 closes (R487); the check of the slot runs. -/
def runFwVerify (c : Ctx) (s : State) : Res := later (fwJob 0x0D02 false c { s with fw := { s.fw with regionOpen := false } })
/-- FW_VERIFY. -/
def execFwVerify (pk : Packet) (s : State) : Out := .next (serve 0x0D02 checkFwVerify runFwVerify pk s)

/-- The settings format of the running image. -/
def settingsFormat (s : State) : Option Nat := s.fw.image.map (·.settings)

/-- FW_VERIFY_DONE (R481, R499): the 16-byte result. -/
def execFwVerifyDone (s : State) : Out :=
  .next (
    if !(s.fw.jobs.any (·.opcode == 0x0D02)) then s
    else
      let r := checkSlot s.fw.fuses (slotGet s (inactiveSlot s))
      let h := r.2
      let s1 := { s with fw := { s.fw with verified := r.1 = 0 } }
      if r.1 != 0 then endFwJob 0x0D02 stAuthFail (le 16 0) s1
      else
        endFwJob 0x0D02 stOk (le 1 h.major ++ le 1 h.minor ++ le 2 h.stepping ++ le 4 h.security ++ le 4 h.bodyLen
          ++ le 1 (b2n (settingsFormat s == some h.settings) + 2 * b2n (fusedFloor s.fw.fuses < h.security)) ++ le 3 0) s1)

/-- FW_ACTIVATE (R488, R500): a slot verified since its last write, in the settings format of the running image. -/
def checkFwActivate (c : Ctx) (s : State) : Nat :=
  let r := checkSlot s.fw.fuses (slotGet s (inactiveSlot s))
  firstBad [
    (!plainLen 0 c, stBadParam), (fwBusy s, stBusy),
    (!s.fw.verified, stBadState),
    (r.1 != 0, stAuthFail),
    (!s.fw.recovery && settingsFormat s != some r.2.settings, stBadState)]
/-- The image is loaded into the second buffer (R488 step 1). -/
def runFwActivate (c : Ctx) (s : State) : Res :=
  let a : Activation := { switched := 0, inPlace := 0, next := 0, start := s.now, ctlDone := false }
  later (fwJob 0x0D03 false c { s with fw := { s.fw with activation := some a } })
/-- FW_ACTIVATE. -/
def execFwActivate (pk : Packet) (s : State) : Out := .next (serve 0x0D03 checkFwActivate runFwActivate pk s)

/-- The activation ends once no powered cluster is left (R488, R500). -/
def endActivation (a : Activation) (s : State) : State :=
  if (poweredFrom s a.next).isEmpty then
    endFwJob 0x0D03 stOk (activateResult s a) { s with fw := { s.fw with activation := none } }
  else { s with fw := { s.fw with activation := some a } }

/-- FW_CONTROLLER_SWITCH (R486, R488 step 2): the controller runs the new image; in RECOVERY it starts as at boot. -/
def execFwControllerSwitch (s : State) : Out :=
  .next (match s.fw.activation with
    | none => s
    | some a =>
      if a.ctlDone then s
      else
        let slot := inactiveSlot s
        let h := (checkSlot s.fw.fuses (slotGet s slot)).2
        let a1 := { a with ctlDone := true }
        if s.fw.recovery then
          applyUsed (endActivation a1 (noteStatus s { s with fw := { s.fw with
            recovery := false, running := slot, image := some h, verified := false } }))
        else
          let old := s.fw.image.map fun h => (s.fw.running, h)
          let s1 := switchImage slot h { s with fw := { s.fw with old := old, switchedAt := some s.now, verified := false } }
          endActivation a1 s1)

/-- FW_CLUSTER_SWITCH (R488 step 3): the next powered cluster has taken the new code. -/
def execFwClusterSwitch (cluster : Nat) (s : State) : Out :=
  .next (match s.fw.activation with
    | none => s
    | some a =>
      if !a.ctlDone || (poweredFrom s a.next).head? != some cluster then s
      else
        let v := match s.fw.image with
          | some h => versionArg h
          | none => 0
        let r := rollCluster cluster v s
        let a1 := { a with
          next := cluster + 1
          switched := a.switched + b2n r.1
          inPlace := a.inPlace + b2n (!r.1) }
        endActivation a1 (postEv 0x0D02 [1 + cluster, v] r.2))

/-- FW_COMMIT (R489, R501). [log 57 DEDUCED] -/
def checkFwCommit (c : Ctx) (s : State) : Nat :=
  let p := c.pk.params
  firstBad [(!plainLen 4 c || decide (1 < u8 p 0) || !zeroAt p 1 3, stBadParam), (fwBusy s, stBusy), (s.fw.image.isNone, stBadState)]
/-- A BOOT record naming the running slot joins the journal; the committed image named again is done at once. -/
def runFwCommit (c : Ctx) (s : State) : Res :=
  let raise := u8 c.pk.params 0 == 1
  if s.fw.committed = s.fw.running && !raise then done s
  else
    let v := match s.fw.image with
      | some h => le 1 h.major ++ le 1 h.minor
      | none => le 2 0
    later (journalAdd jBoot 0 (le 1 s.fw.running ++ v ++ le 1 0) (some c.ref) (fwJob 0x0D04 raise c s))
/-- FW_COMMIT. -/
def execFwCommit (pk : Packet) (s : State) : Out := .next (serve 0x0D04 checkFwCommit runFwCommit pk s)

/-- GET_FW_STATUS (R502). -/
def checkGetFwStatus (c : Ctx) (_ : State) : Nat := firstBad [(!plainLen 0 c, stBadParam)]
/-- The 16-byte result. -/
def runGetFwStatus (c : Ctx) (s : State) : Res :=
  let _ := c
  let f := s.fw
  let v := match f.image with
    | some h => le 1 h.major ++ le 1 h.minor
    | none => le 2 0
  doneWith s (le 1 f.running ++ le 1 f.committed ++ v
    ++ le 1 (b2n f.recovery + 2 * b2n f.activation.isSome + 4 * b2n (f.running != f.committed) + 8 * b2n f.verified + 16 * b2n f.regionOpen)
    ++ le 1 (fusedFloor f.fuses) ++ le 2 0 ++ le 4 f.written ++ le 4 0)
/-- GET_FW_STATUS. -/
def execGetFwStatus (pk : Packet) (s : State) : Out := .next (serve 0x0D05 checkGetFwStatus runGetFwStatus pk s)

/-! The journal (R483, R503). -/

/-- GET_JOURNAL_STATUS (R503). -/
def checkGetJournalStatus (c : Ctx) (_ : State) : Nat := firstBad [(!plainLen 0 c, stBadParam)]
/-- The 16-byte result; the JOURNAL_ERR count clears. -/
def runGetJournalStatus (c : Ctx) (s : State) : Res :=
  let _ := c
  let j := s.journal
  doneWith { s with journal := { j with errors := 0 } }
    (le 4 j.nextSeq ++ le 1 (j.pending.length + b2n j.writing.isSome) ++ le 1 (b2n (flashDeferred s) + 2 * b2n j.suspended) ++ le 2 j.errors
      ++ le 4 ((j.bank0.erases ++ j.bank1.erases).foldl max 0) ++ le 4 0)
/-- GET_JOURNAL_STATUS. -/
def execGetJournalStatus (pk : Packet) (s : State) : Out := .next (serve 0x0D06 checkGetJournalStatus runGetJournalStatus pk s)

/-- The copy of the record being written that comes next, in progress or waiting for a deferral to end. [log 54 DEDUCED] -/
def nextCopy (p : JPend) (bank : Nat) (s : State) : State :=
  { s with journal := { s.journal with writing := some (p, if flashDeferred s then bank + 2 else bank) } }

/-- JOURNAL_WRITE (R483): with no deferral the oldest pending record, or a copy that waited, starts to be programmed. -/
def execJournalWrite (s : State) : Out :=
  .next (
    if flashDeferred s then s
    else match s.journal.writing with
      | none => startRecord s
      | some (p, k) => if 2 ≤ k then { s with journal := { s.journal with writing := some (p, k - 2) } } else s)

/-- FLASH_OPERATION_DONE (R483): the copy being programmed is read back, with the bytes found where they are not those written; only a
verified copy 0 is followed by copy 1. -/
def execFlashOperationDone (found : Option (List Byte)) (s : State) : Out :=
  .next (match s.journal.writing with
    | some (p, 0) =>
      let s1 := copyWritten 0 p found s
      nextCopy p (if copyVerified (recordOf s p) found then 1 else 0) s1
    | some (p, 1) =>
      let s1 := copyWritten 1 p found s
      if copyVerified (recordOf s p) found then journalDone p { s1 with journal := { s1.journal with writing := none } } else nextCopy p 1 s1
    | _ => s)

/-! Controller and engines (R15 to R17). -/

/-- CONTROLLER_MISMATCH (R17, R489). -/
def execControllerMismatch (s : State) : Out := .next (controllerMismatchOp s)

/-- CONTROLLER_RESTART_DONE (R17): the queues are served again. -/
def execControllerRestartDone (s : State) : Out :=
  .next (if s.ctl.phase == .restarting then { s with ctl := { s.ctl with phase := .running } } else s)

/-- ENGINE_FAILED (R15, R16). -/
def execEngineFailed (e : Nat) (s : State) : Out := .next (engineFails e s)

/-- ENGINE_FAILOVER (R15): the takeover of a failed engine's tenants ends within 10 ms of the declaration. -/
def execEngineFailover (e : Nat) (s : State) : Out :=
  .next (match s.eng.takeovers.find? fun k => k.failed == e with
    | some k => if engPowered s k.spare then takeOver k s else s
    | none => s)

/-- ENGINE_CHECKPOINT (R15): an active engine checkpoints its tenant state. -/
def execEngineCheckpoint (e : Nat) (s : State) : Out :=
  .next (if 192 ≤ e || !engPowered s e || engGet s e != .active then s
    else checkpointEngine e s)

end Sys2Proof.Machine
end

