-- ==== Sys2Proof/Machine/SkewOps.lean ====
section
/-! DEFINITION. The shared operations of the skew buffers and of the merge: units of time, legs and their eligibility, the received
announcement (R162, R239 to R255). -/

namespace Sys2Proof.Machine

/-- Units in one ns. -/
def unitNs : Int := 165000000

/-- A frame period in units. -/
def frameUnits : Int := 32768000000

/-- The change of a frame period per ppm. -/
def ppmUnits : Int := 32768

/-- A time in units as ns, to the nearest. -/
def unitsToNs (x : Int) : Int := roundDiv x 165000000

/-- FC values are compared by their signed distance (R249). -/
def fcDist (a b : Nat) : Int :=
  let d : Nat := (b + 2 ^ 24 - a) % 2 ^ 24
  if d < 2 ^ 23 then (d : Int) else (d : Int) - (2 ^ 24 : Nat)

/-- The skew limit of a mode in ns (R243). -/
def skewLimit (m : Mode) : Nat := if m == .twin then 4000 else 2000000

/-- The guard in units. -/
def guardUnits (s : State) : Int := s.skew.use.guard * unitNs

/-- The earliest that a copy may lie before the schedule: 2.0 ms + g (R250). -/
def windowUnits (s : State) : Int := 2000000 * unitNs + guardUnits s

/-- The copy of a frame that one leg holds at its read time (R249): present, good, and its ANN byte where accepted. -/
structure LegCopy where
  present : Bool
  good    : Bool
  ann     : Option Nat
  deriving DecidableEq, Repr

/-! Legs (R249 to R251). -/

/-- A leg. -/
def legGet (s : State) (c : Carrier) : Leg := pget s.mrg.legs c

/-- The state with a leg updated. -/
def legUpd (c : Carrier) (f : Leg → Leg) (s : State) : State := { s with mrg := { s.mrg with legs := pupd s.mrg.legs c f } }

/-- The reason code of a leg (R250). [log 118 DEDUCED] -/
def legReason (s : State) (c : Carrier) : Nat :=
  let l := legGet s c
  if legDown s c then 1
  else if l.run < 1024 then 2
  else if c = .b && (lineGet s c).frm.farMode.val != some (modeCode .merge) then 3
  else match l.delay with
    | none => 4
    | some d => if d < 0 then 4 else if windowUnits s < d then 5 else 0

/-- A reason of a qualified leg. -/
def reasonQualifies (r : Nat) : Bool := r == 0 || r == 4 || r == 5

/-- A leg follows its conditions: the hold of 900 s, the time since it is eligible, and the events (R250, R251, R253). [log 125 DEDUCED] -/
def noteLeg (c : Carrier) (s : State) : State :=
  let l := legGet s c
  let r := legReason s c
  let q := reasonQualifies r
  let e := r == 0
  let s1 := legUpd c (fun l => { l with
    reason := r, qualified := q, eligible := e
    holdAt := if q then none else if l.qualified then some (s.now + 900 * secNs) else l.holdAt
    eligSince := if e then some (l.eligSince.getD s.now) else none
    usableTo := if e then none else if l.eligible then some (lineGet s c).frm.lastFc else l.usableTo }) s
  let s2 := if c = .a && !e then { s1 with mrg := { s1.mrg with prefA := false } } else s1
  if e && !l.eligible then postEv 0x0505 [carrierNum c, 0] s2
  else if !e && (l.eligible || (q && !l.qualified)) then postEv 0x0506 [carrierNum c, r] s2
  else s2

/-- MERGE_LOSS clears once a leg is eligible and 4 consecutive frames were taken good (R254). [log 119 DEDUCED] -/
def noteLossEnd (s : State) : State :=
  if s.mrg.loss && (s.mrg.legs.a.eligible || s.mrg.legs.b.eligible) && decide (4 ≤ s.mrg.goodRun) then
    lineEffects (post 0x0508 false [] { s with mrg := { s.mrg with loss := false } })
  else s

/-- Both legs follow their conditions in MERGE. [log 125 DEDUCED] -/
def noteLegs (s : State) : State := if s.mode.cur == .merge then noteLossEnd (noteLeg .b (noteLeg .a s)) else s

/-- A copy on a leg counts or ends its run (R250). -/
def countCopy (c : Carrier) (good : Bool) (s : State) : State :=
  if s.mode.cur != .merge then s else legUpd c (fun l => { l with run := if good then min 1024 (l.run + 1) else 0 }) s

/-! Runs of three and announcements (R159, R162, R172). -/

/-- A value takes part in its run of 3; what was accepted stays until another value is. [log 94 DEDUCED] -/
def takeValue (v : Nat) (a : Accepted) : Accepted :=
  let run := if a.run != 0 && a.cand = v then min 3 (a.run + 1) else 1
  { val := if run = 3 then some v else a.val, cand := v, run := run }

/-- CD of an ANN byte. -/
def annCd (ann : Nat) : Nat := bits ann 7 6

/-- TBL of an ANN byte. -/
def annTbl (ann : Nat) : Nat := bits ann 5 5

/-- A received ANN byte (R162): accepted in 3 frames it names the boundary at which the table changes; a table that differs
without an announcement changes at the next boundary. [log 94 DEDUCED] -/
def takeAnn (c : Carrier) (ann : Nat) (s : State) : State :=
  let f := (lineGet s c).frm
  let a := takeValue ann f.ann
  let fresh := a.run = 3 && !(f.ann.run = 3 && f.ann.cand = ann)
  let cd := annCd ann
  frmUpd c (fun f =>
    if a.run != 3 then { f with ann := a }
    else if cd = 2 || cd = 1 then (if fresh then { f with ann := a, annPend := some (ann, cd), resync := false } else { f with ann := a })
    else if cd = 0 && f.annPend.isNone && annTbl ann != pget s.cal.rx c then { f with ann := a, annPend := some (ann, 1), resync := true }
    else { f with ann := a }) s

/-- A received multiframe boundary (R162): an announced table change takes place, and the mode that it brings is noted. -/
def annBoundary (c : Carrier) (s : State) : State :=
  let f := (lineGet s c).frm
  match f.annPend with
  | none => s
  | some (ann, k) =>
    if 1 < k then frmUpd c (fun f => { f with annPend := some (ann, k - 1) }) s
    else
      let s1 := frmUpd c (fun f => { f with
        annPend := none, resync := false
        modeNote := if ann.testBit 4 then some (ann % 16) else f.modeNote
        cnt := { f.cnt with calResync := if f.resync then satAdd 16 f.cnt.calResync 1 else f.cnt.calResync } }) s
      settleRx { s1 with cal := { s1.cal with rx := pset s1.cal.rx c (annTbl ann) } }

/-! The skew buffers (R239, R240) and the container words of what leaves them (R209). -/

/-- A received frame enters the skew buffer of its carrier (R239). -/
def holdFrame (c : Carrier) (x : HeldFrame) (s : State) : State :=
  { s with skew := { s.skew with bufs := pupd s.skew.bufs c fun l => (l ++ [x]).drop (l.length + 1 - bufFrames) } }

/-- The frame with a counter that the buffer of a carrier holds. -/
def heldFrame (s : State) (c : Carrier) (fc : Nat) : Option HeldFrame := (pget s.skew.bufs c).find? fun x => x.fc == fc

/-- The frames up to a counter leave the buffers. -/
def dropHeld (fc : Nat) (s : State) : State :=
  let keep (l : List HeldFrame) : List HeldFrame := l.filter fun x => decide (0 < fcDist fc x.fc)
  { s with skew := { s.skew with bufs := ⟨keep s.skew.bufs.a, keep s.skew.bufs.b⟩ } }

/-- The container words of a frame in the order of R209: word j of every slot, carrier A before carrier B; of a frame that is absent they are
zero. [log 230 DESIGN CHOICE] -/
def containerWords (s : State) (t : Nat) (a b : Option HeldFrame) : List Word64 :=
  let part (c : Carrier) (x : Option HeldFrame) (j : Nat) : List Word64 :=
    if (calCarriers s).contains c then (slotsOf (rxTable s c) t).map fun i => match x with
      | some f => slotWord (planOf s c).n f.slots i j
      | none => 0
    else []
  (List.range 16).flatMap fun j => part .a a j ++ part .b b j

/-- What a frame brings to a tenant; nothing where no carrier of the tenant brings it. -/
def conFrame (s : State) (fc : Nat) (a b : Option HeldFrame) (t : Nat) : Option ConFrame :=
  let inA := onCarrier s .a t
  let fa := if inA then a else none
  let fb := if onCarrier s .b t then b else none
  let first := if inA then fa else fb
  if fa.isNone && fb.isNone then none
  else some ⟨fc, match first with
    | some x => x.header
    | none => false, containerWords s t fa fb⟩

/-- A frame leaves the skew buffers: every tenant of the receive tables takes its container words (R209, R240). The table that a multiframe brings is
in use as its first frame leaves. [log 229 DESIGN CHOICE] -/
def extractFrame (fc : Nat) (a b : Option HeldFrame) (s : State) : State :=
  (rxTenants s).foldl (fun u t => match conFrame s fc a b t with
    | some f => tenUpd t (fun x => { x with rx := { x.rx with frames := (f :: x.rx.frames).take 24 } }) u
    | none => u) (dropHeld fc s)

end Sys2Proof.Machine
end

