-- ==== Sys2Proof/Machine/Frame.lean ====
section
/-! DEFINITION. The commands and events of the framer: headers, overhead, alignment, line defects and remote indications
(spec/07_line_frame.md). -/

namespace Sys2Proof.Machine

/-! Commands (R174 to R177). -/

/-- SET_FRAME_CONFIG (R175, R176). -/
def checkSetFrameConfig (c : Ctx) (s : State) : Nat :=
  let p := c.pk.params
  let bad := carrierBad p || decide (7 < u8 p 1) || decide (i16 p 2 < -500) || decide (-200 < i16 p 2) || decide (i16 p 4 < i16 p 2 + 10)
    || decide (-150 < i16 p 4) || u8 p 6 == 0 || decide (100 < u8 p 6) || !zeroAt p 7 1 || decide (u16 p 8 < 10) || decide (10000 < u16 p 8)
    || !zeroAt p 10 6
  gated s (!plainLen 144 c) [(bad, stBadParam)]

/-- TTI_MISMATCH follows the accepted and the expected trace while compare is enabled (R160, R175). [log 95 DESIGN CHOICE] -/
def noteTti (c : Carrier) (s : State) : State :=
  let f := (lineGet s c).frm
  let m := f.set.ttiCmp && match f.trace.accepted with
    | some t => t != f.expTti
    | none => false
  if m = f.trace.mismatch then s
  else post 0x0402 m [carrierNum c] (frmUpd c (fun f => { f with trace := { f.trace with mismatch := m } }) s)

/-- The settings are stored; a new expected trace is compared at once. -/
def runSetFrameConfig (c : Ctx) (s : State) : Res :=
  let p := c.pk.params
  let k := carrierOf (u8 p 0)
  done (noteTti k (frmUpd k (fun f => { f with
    set := {
             losSet := i16 p 2, losClr := i16 p 4, tSet := u8 p 6, tClr := u16 p 8
             bdiIns := (u8 p 1).testBit 0, ttiCmp := (u8 p 1).testBit 1, carCheck := (u8 p 1).testBit 2 }
    txTti := slice p 16 64, expTti := slice p 80 64 }) s))
/-- SET_FRAME_CONFIG. -/
def execSetFrameConfig (pk : Packet) (s : State) : Out := .next (serve 0x0401 checkSetFrameConfig runSetFrameConfig pk s)

/-- The code of an alignment state (R177). -/
def alignCode : AlignState → Nat
  | .hunt => 0
  | .presync => 1
  | .sync => 2

/-- The remote indications of a carrier (R177). -/
def remoteMask (s : State) (c : Carrier) : Nat :=
  let f := (lineGet s c).frm
  let hide := lineFailOn s c
  b2n (f.rdi.on && !hide) + 2 * b2n (f.rdeg.on && !hide) + 4 * b2n (f.fdi.on && !hide) + 8 * b2n f.trace.mismatch + 16 * b2n (f.swap.on && !hide)

/-- GET_FRAME_STATUS (R177). -/
def checkGetFrameStatus (c : Ctx) (s : State) : Nat :=
  gated s (!plainLen 4 c) [(carrierBad c.pk.params || !zeroAt c.pk.params 1 3, stBadParam)]
/-- The 128-byte result; the counters clear. -/
def runGetFrameStatus (c : Ctx) (s : State) : Res :=
  let k := carrierOf (u8 c.pk.params 0)
  let f := (lineGet s k).frm
  let n := f.cnt
  let cd := match f.annPend with
    | some (a, _) => if f.resync then 0 else annCd a
    | none => 0
  doneWith (frmUpd k (fun f => { f with cnt := {} }) s)
    (le 1 (alignCode f.align) ++ le 1 (declaredMask s k) ++ le 1 (reportedMask s k) ++ le 1 (remoteMask s k) ++ le 1 (f.farMode.val.getD 0)
      ++ le 1 (f.ssm.val.getD 0 % 16) ++ le 1 (pget s.cal.rx k + 2 * cd) ++ le 1 0 ++ le 4 f.lastFc ++ le 4 n.badHeaders
      ++ le 2 n.lof ++ le 2 n.lom ++ le 2 n.calResync ++ le 2 n.unitErr
      ++ (List.range 8).flatMap (fun u => le 4 (if u < (planOf s k).n then n.bip.getD u 0 else 0)) ++ le 4 n.bei
      ++ f.trace.accepted.getD (List.replicate 64 0) ++ le 4 0)
/-- GET_FRAME_STATUS. -/
def execGetFrameStatus (pk : Packet) (s : State) : Out := .next (serve 0x0402 checkGetFrameStatus runGetFrameStatus pk s)

/-! Headers (R154, R155). -/

/-- The CRC-16 of a header over its bits [63:16]. -/
def headerCrc (h : BitVec 64) : BitVec 16 := crcMsb 0x1021#16 0xFFFF#16 ((msbBits 64 h.toNat).take 48)

/-- A header is good when its CRC checks and its NM1 is that of the held plan. -/
def headerGood (n : Nat) (h : BitVec 64) : Bool := (headerCrc h).toNat == bits h.toNat 15 0 && bits h.toNat 39 37 + 1 == n

/-- FC of a header. -/
def headerFc (h : BitVec 64) : Nat := bits h.toNat 63 40

/-- A header with its CRC. -/
def mkHeader (fc n car mode : Nat) (bdi fdi bdeg : Bool) (bei leg : Nat) : BitVec 64 :=
  let v := fc * 2 ^ 40 + (n - 1) * 2 ^ 37 + car * 2 ^ 36 + mode * 2 ^ 32 + b2n bdi * 2 ^ 31 + b2n fdi * 2 ^ 30 + b2n bdeg * 2 ^ 29
    + bei * 2 ^ 25 + leg * 2 ^ 23
  BitVec.ofNat 64 (v + (headerCrc (BitVec.ofNat 64 v)).toNat)

/-! Transmission (R153 to R163, R171, R173). -/

/-- The header that a carrier sends with a frame counter (R154, R170, R173, R257). -/
def txHeader (s : State) (c : Carrier) (fc : Nat) (fdi : Bool) : BitVec 64 :=
  let f := (lineGet s c).frm
  let fail := lineFailOn s c
  let leg := if s.mode.cur != .merge then 0 else if (legGet s c).eligible then 1 else 2
  mkHeader fc (planOf s c).n (carrierNum c) (modeCode s.mode.cur) (f.use.bdiIns && fail) fdi (fecDegOn s c)
    (if fail then 0 else min 8 f.bei) leg

/-- Multiframes from a frame to an announced boundary. -/
def framesAhead (fc boundary : Nat) : Nat := (boundary / 256 + 65536 - fc / 256) % 65536

/-- CD of a boundary that is announced (R162): 2 two multiframes before it, 1 one before it. -/
def cdOf (fc : Nat) (b : Option Nat) : Nat :=
  match b with
  | some k => if framesAhead fc k = 2 then 2 else if framesAhead fc k = 1 then 1 else 0
  | none => 0

/-- The ANN byte of a carrier (R162): a calendar swap that names it, a mode change, or the table and mode in use; in MERGE
carrier B sends that of carrier A (R248). -/
def txAnn (s : State) (c0 : Carrier) (fc : Nat) : Nat :=
  let c := if s.mode.cur == .merge then .a else c0
  let swap := if swapNames s c then cdOf fc (s.cal.swap.bind (·.boundary)) else 0
  let mode := match s.mode.trans with
    | some t => if t.target == .configure || t.target == .dormant then 0 else cdOf fc t.boundary
    | none => 0
  let tbl := if swap != 0 then 1 - pget s.cal.tx c else pget s.cal.tx c
  let code := match s.mode.trans with
    | some t => if mode != 0 then modeCode t.target else modeCode s.mode.cur
    | none => modeCode s.mode.cur
  64 * max swap mode + 32 * tbl + 16 * b2n (mode != 0) + code

/-- CALRET as sent (R163). [log 72 DESIGN CHOICE] -/
def txCalret (k : CalRet) : List Byte :=
  let v (i n : Nat) : List Byte := (leS n (k.vals.getD i 0)).reverse
  le 1 (128 * b2n k.valid) ++ le 1 k.seq ++ (List.range 8).flatMap (fun i => v i 2) ++ (List.range 4).flatMap (fun i => v (8 + i) 1) ++ le 2 0

/-- Overhead block 0 of a frame (R156) with given BIP, ANN, SSM and TTI bytes. [log 64 DESIGN CHOICE] -/
def overhead (h : BitVec 64) (bip : Byte) (ann ssm : Nat) (tti : Byte) (k : CalRet) : List Byte :=
  be 8 h.toNat ++ [bip] ++ le 1 ann ++ le 1 ssm ++ le 1 0 ++ [tti] ++ le 3 0 ++ txCalret k ++ List.replicate 88 0

/-- The rank of a slot among the slots of a tenant in (carrier, index) order (R209). -/
def slotRank (s : State) (t : Nat) (c : Carrier) (slot : Nat) : Nat :=
  (match c with
    | .a => 0
    | .b => slotCount (txTable s .a) t) + ((slotsOf (txTable s c) t).filter fun i => decide (i < slot)).length

/-- The words of a slot in a frame (R209, R210): a used slot carries its tenant's container, a free one zeros (R227); in MERGE carrier B carries
what carrier A does (R248). -/
def slotContent (s : State) (c0 : Carrier) (fc slot : Nat) : List Word64 :=
  let c := if s.mode.cur == .merge then .a else c0
  let e := tget 0 (txTable s c) slot
  if !entryUsed e then []
  else
    let x := (tenGet s (entryTen e)).tx
    let r := slotRank s (entryTen e) c slot
    (List.range 16).map fun j => x.words.getD (containerPlace x.c (fc % 8) j r) 0

/-- The payload of a frame that a carrier sends of its own (R151, R527): the slots of its calendar, or PRBS31 in MAINTAIN; all zero under a
forward defect (R171). -/
def ownPayload (s : State) (c : Carrier) (fc : Nat) (fdi : Bool) : Payload :=
  let n := (planOf s c).n
  let pat := pget s.test.line c
  if fdi then layPayload n fun _ _ => 0
  else if s.mode.cur == .maintain && pat.prbs then (prbsWords (1280 * n) pat.seed).1
  else
    let slots := (List.range (80 * n)).map (slotContent s c fc)
    layPayload n fun i j => (slots.getD i []).getD j 0

/-- A frame of a carrier is formed, scrambled and encoded (R123, R150 to R158); the BIP-8 of its units are those of the frame before. The framer
of a carrier in FRAMER_LOCAL receives it (R523). -/
def emitFrame (c : Carrier) (fc : Nat) (h : BitVec 64) (ann ssm : Nat) (tti : Byte) (p : Payload) (s : State) : State :=
  let n := (planOf s c).n
  let f := (lineGet s c).frm
  let block := overhead h (f.sentPar.headD 0) ann ssm tti f.calret
  let frame := frameBits n (overheadArea n block f.sentPar) p
  let s1 := frmUpd c (fun f => { f with
    hdrOut := h, ohOut := block, frameOut := frame
    sentPar := frameParity n p }) s
  let s2 := encodeFrame c fc (frameMessages n frame) s1
  if framerLooped s2 c then deliver c ((frameMessages n frame).map fun m => (m, false)) s2 else s2

/-- A carrier sends a frame of its own (R153 to R163), whatever the state of its Spire domains. -/
def sendOwn (c : Carrier) (fc : Nat) (fdi : Bool) (s : State) : State :=
  if unused (planOf s c) || !(trafficMode s.mode.cur || s.mode.cur == .maintain) then s
  else
    let s1 := frmUpd c (fun f => if fc % 64 = 0 then { f with txTtiUse := f.txTti } else f) s
    let p := ownPayload s1 c fc fdi
    let s2 := { s1 with test := { s1.test with line := pupd s1.test.line c fun x =>
      if s1.mode.cur == .maintain && x.prbs then { x with seed := (prbsWords (1280 * (planOf s c).n) x.seed).2 } else x } }
    emitFrame c fc (txHeader s1 c fc fdi) (txAnn s1 c fc) (carrierQl s1 c) ((lineGet s1 c).frm.txTtiUse.getD (fc % 64) 0) p s2

/-- The carrier whose received frames a carrier sends again: the other one in REGENERATE (R171), its own under LINE_REMOTE
(R523). [log 90 DEDUCED] -/
def regenSource (s : State) (c : Carrier) : Option Carrier :=
  if s.mode.cur == .regenerate then some (otherCarrier c) else if lineLoop s c = some 1 then some c else none

/-- FRAME_TRANSMIT (R153): both carriers send the next frame; a transmitter of regenerated frames sends from its own flywheel
while its source carrier reports a line-fail defect (R171). [log 88 DEDUCED] -/
def execFrameTransmit (s : State) : Out :=
  .next (if !domOn s 2 then s
    else
      let one (c : Carrier) (t : State) : State := match regenSource t c with
        | none => sendOwn c t.txFc false t
        | some src =>
          if lineFailOn t src then
            let fc := ((lineGet t c).frm.regenFc + 1) % 2 ^ 24
            sendOwn c fc true (frmUpd c (fun f => { f with regenFc := fc }) t)
          else t
      let s1 := one .b (one .a s)
      if s.mode.cur == .regenerate then s1 else sendFrames 1 s1)

/-- A frame received on a carrier is regenerated (R171, R523): FC, slots, ANN, SSM and TTI pass, the rest is set afresh, the BIP-8 by
the frame that was sent before. [log 88 DEDUCED, 90 DEDUCED] -/
def regenerate (src : Carrier) (fr : RxFrame) (fc : Nat) (fdi : Bool) (s : State) : State :=
  let c := if s.mode.cur == .regenerate then otherCarrier src else src
  if regenSource s c != some src || lineFailOn s src then s
  else
    let oh := fr.oh.headD []
    emitFrame c fc (txHeader s c fc fdi) (u8 oh 9) (u8 oh 10) (oh.getD 12 0) fr.slots (frmUpd c (fun f => { f with regenFc := fc }) s)

/-! Accepted fields (R157 to R163, R172). -/

/-- A remote indication after one good header (R172). -/
def noteIndication (v : Bool) (i : Indication) : Indication :=
  if v = i.on then { i with run := 0 } else if i.run + 1 = 3 then { on := v, run := 0 } else { i with run := i.run + 1 }

/-- The header fields of a good header in SYNC (R171, R172, R257); under a line-fail defect the indications hold. [log 91 DEDUCED] -/
def takeHeader (c : Carrier) (h : BitVec 64) (s : State) : State :=
  let v := h.toNat
  let hold := lineFailOn s c
  let was := fdiOn s c
  let ind (b : Bool) (i : Indication) : Indication := if hold then i else noteIndication b i
  let bei := if 8 < bits v 28 25 then 0 else bits v 28 25
  let s1 := frmUpd c (fun f => { f with
    rdi := ind (v.testBit 31) f.rdi, fdi := ind (v.testBit 30) f.fdi, rdeg := ind (v.testBit 29) f.rdeg
    swap := if f.use.carCheck then ind (bits v 36 36 != carrierNum c) f.swap else {}
    farMode := takeValue (bits v 35 32) f.farMode, leg := takeValue (bits v 24 23) f.leg
    cnt := { f.cnt with bei := satAdd 32 f.cnt.bei bei } }) s
  let s2 := pmCount (carrierNum c) (fun a => { a with farErrs := a.farErrs + bei, farDef := a.farDef || rdiOn s1 c }) s1
  if fdiOn s2 c = was then s2 else lineEffects s2

/-- The trail trace byte of an accepted block 0 (R160); an incomplete cycle is skipped. [log 95 DESIGN CHOICE] -/
def takeTti (fc : Nat) (b : Byte) (t : TraceRx) : TraceRx :=
  let pos := fc % 64
  let cyc := if pos = 0 then some [b] else match t.cycle with
    | some l => if l.length = pos then some (l ++ [b]) else none
    | none => none
  match cyc with
  | some l =>
    if l.length != 64 then { t with cycle := cyc }
    else
      let run := if t.run != 0 && t.last = l then min 3 (t.run + 1) else 1
      { t with cycle := none, last := l, run := run, accepted := if run = 3 then some l else t.accepted }
  | none => { t with cycle := none }

/-- The corrections of an accepted CALRET field (R163). -/
def calretVals (l : List Byte) : List Int :=
  (List.range 8).map (fun i => signed 16 (beNat (slice l (2 + 2 * i) 2))) ++ (List.range 4).map fun i => signed 8 (u8 l (18 + i))

/-- CALRET of an accepted block 0 (R163): a valid result with a new SEQ, identical in 3 frames, is taken. -/
def takeCalret (c : Carrier) (l : List Byte) (s : State) : State :=
  let k := (lineGet s c).frm.calret
  let run := if k.run != 0 && k.cand = l then min 3 (k.run + 1) else 1
  let seq := u8 l 1
  let take := run = 3 && u8 l 0 == 128 && k.taken != some seq
  let s1 := frmUpd c (fun f => { f with calret := { f.calret with
    cand := l, run := run, taken := if take then some seq else f.calret.taken } }) s
  if take then armTxCal c (calUpd c (fun x => { x with est := some (calretVals l) }) s1) else s1

/-- The fields of an accepted overhead block 0 (R159 to R163). -/
def takeBlock0 (c : Carrier) (fc : Nat) (b : List Byte) (s : State) : State :=
  let old := (lineGet s c).frm.ssm.val
  let s1 := frmUpd c (fun f => { f with ssm := takeValue (u8 b 10 % 16) f.ssm, trace := takeTti fc (b.getD 12 0) f.trace }) s
  let s2 := noteTti c (takeCalret c (slice b 16 24) s1)
  let s3 := if s2.mode.cur == .merge then s2 else takeAnn c (u8 b 9) s2
  if (lineGet s3 c).frm.ssm.val = old then s3 else evaluateRef 0 s3

/-- The BIP-8 of the frame before (R157, R158): the units that fail, and the blocks that name another unit. -/
def unitResults (n : Nat) (fr : RxFrame) (prev : List Byte) : List Nat × Nat :=
  let ok (u : Nat) : Bool := !(fr.flags.getD u true)
  let byte (u : Nat) : Byte := (fr.oh.getD u []).getD (if u = 0 then 8 else 0) 0
  let us := (List.range n).filter ok
  (us.filter fun u => decide (byte u ≠ prev.getD u 0), (us.filter fun u => u != 0 && u8 (fr.oh.getD u []) 1 != u).length)

/-- The units of a frame in SYNC with a good header are checked and counted (R157, R158, R265). -/
def takeUnits (c : Carrier) (fr : RxFrame) (s : State) : State :=
  let n := (planOf s c).n
  let prev := (lineGet s c).frm.prevBip
  let r := unitResults n fr (prev.getD [])
  let bad := if prev.isSome then r.1 else []
  let s1 := frmUpd c (fun f => { f with
    bei := bad.length
    cnt := { f.cnt with
      unitErr := satAdd 16 f.cnt.unitErr r.2
      bip := bad.foldl (fun l u => lupd l u fun k => satAdd 32 k 1) f.cnt.bip } }) s
  pmCount (carrierNum c) (fun a => { a with blocks := a.blocks + n, errs := a.errs + bad.length }) s1

/-! Alignment (R165, R166). -/

/-- Threshold settings apply at a received frame boundary; LOS is judged afresh under new values (R175). [log 92 DEDUCED, 188 DEDUCED] -/
def applyFrmSettings (c : Carrier) (s : State) : State :=
  frmUpd c (fun f =>
    if f.set = f.use then f
    else if f.set.losSet = f.use.losSet && f.set.losClr = f.use.losClr && f.set.tSet = f.use.tSet && f.set.tClr = f.use.tClr then
      { f with use := f.set }
    else { f with use := f.set, belowNs := 0, aboveNs := 0 }) s

/-- LOM is declared (R166): windows are neutral, and the counter hunts of the carrier's tenants start (R145, R298). -/
def declareLom (c : Carrier) (s : State) : State :=
  let s1 := neutralize c (frmUpd c (fun f => { f with lom := true, cnt := { f.cnt with lom := satAdd 16 f.cnt.lom 1 } }) s)
  ((rxTenants s1).filter (onCarrier s1 c)).foldl (fun t x => Machine.startHunt x t) s1

/-- SYNC is entered with the 4th good header (R166). -/
def enterSync (c : Carrier) (fc : Nat) (rising : Bool) (s : State) : State :=
  let s1 := frmUpd c (fun f => { f with
    align := .sync, badRun := 0, expFc := fc, misRun := 0, matchRun := 0, lom := false, prevBip := none, bei := 0 }) s
  if rising then s1 else declareLom c s1

/-- Multiframe alignment after a header in SYNC (R166); `fc` none for a bad header. -/
def judgeMulti (c : Carrier) (fc : Option Nat) (s : State) : State :=
  let f := (lineGet s c).frm
  let e := (f.expFc + 1) % 2 ^ 24
  match fc with
  | none => frmUpd c (fun f => { f with expFc := e }) s
  | some k =>
    if k = e then
      let m := min 4 (f.matchRun + 1)
      frmUpd c (fun f => { f with expFc := e, misRun := 0, matchRun := m, lom := f.lom && m != 4 }) s
    else
      let m := f.misRun + 1
      let s1 := frmUpd c (fun f => { f with expFc := k, misRun := m, matchRun := 0 }) s
      if m = 3 && !f.lom then declareLom c s1 else s1

/-- The next header is examined in a state of R165. -/
def examine (c : Carrier) (good : Bool) (fc : Nat) (s : State) : State :=
  let f := (lineGet s c).frm
  let bad (t : State) : State :=
    countSrc 0x04 (carrierNum c) 1 (frmUpd c (fun f => { f with cnt := { f.cnt with badHeaders := satAdd 32 f.cnt.badHeaders 1 } }) t)
  let seen (t : State) : State := frmUpd c (fun f => { f with lastFc := fc }) t
  match f.align with
  | .hunt => if good then seen (frmUpd c (fun f => { f with align := .presync, goodRun := 1, rising := true }) s) else s
  | .presync =>
    if !good then bad (frmUpd c (fun f => { f with align := .hunt, goodRun := 0 }) s)
    else
      let up := f.rising && fc == (f.lastFc + 1) % 2 ^ 24
      let s1 := seen (frmUpd c (fun f => { f with goodRun := f.goodRun + 1, rising := up }) s)
      if f.goodRun + 1 = 4 then enterSync c fc up s1 else s1
  | .sync =>
    if good then seen (judgeMulti c (some fc) (frmUpd c (fun f => { f with badRun := 0 }) s))
    else
      let s1 := bad (judgeMulti c none s)
      if f.badRun + 1 = 5 then frmHunt c s1 else frmUpd c (fun f => { f with badRun := f.badRun + 1 }) s1

/-- The content of a frame that ends in SYNC is taken (R158, R159), and the frame enters the skew buffer (R239). -/
def takeFrame (c : Carrier) (fr : RxFrame) (good : Bool) (s : State) : State :=
  let fc := (lineGet s c).frm.expFc
  let s1 := if good then
      let t := takeUnits c fr (takeHeader c fr.header s)
      if fr.flags.headD true then frmUpd c (fun f => { f with trace := { f.trace with cycle := none } }) t
      else takeBlock0 c fc (fr.oh.headD []) t
    else
      pmCount (carrierNum c) (fun a => { a with blocks := a.blocks + (planOf s c).n })
        (frmUpd c (fun f => { f with bei := 0, trace := { f.trace with cycle := none } }) s)
  let n := (planOf s c).n
  let s1 := captureFeed 3 c (fr.oh.flatten ++ fr.slots.flatMap fun w => be 8 w.toNat) (feedPrbs 2 (carrierNum c) fr.slots s1)
  let s2 := countSrc 0x09 (56 + carrierNum c) (n * 10368) (frmUpd c (fun f => { f with prevBip := some fr.bip }) s1)
  let ann := if good && !fr.flags.headD true then some (u8 (fr.oh.headD []) 9) else none
  let s3 := if s2.mode.cur == .regenerate then s2 else holdFrame c ⟨fc, good, good && !fr.spoiled, ann, fr.slots⟩ s2
  regenerate c fr fc (good && fr.header.toNat.testBit 30) s3

/-- The 64-bit position of the delivered messages at which the next header to be examined stands (R164, R165): one frame after the last
one in PRESYNC for each header seen, else the position of the search or of the grid. -/
def nextPosition (s : State) (c : Carrier) : Nat :=
  let f := (lineGet s c).frm
  f.pos + (if f.align == .presync then 1296 * (planOf s c).n * f.goodRun else 0)

/-- The header at the position examined next. -/
def nextHeader (s : State) (c : Carrier) : BitVec 64 := headerAt (lineGet s c).frm.words (nextPosition s c)

/-- The frame whose header is examined next. -/
def nextFrame (s : State) (c : Carrier) : RxFrame :=
  let p := nextPosition s c
  frameAt (planOf s c).n ((lineGet s c).frm.words.drop (p / 16)) (p % 16)

/-- The header examined next has been delivered, and in SYNC, or where SYNC may begin with it, the whole of its frame. -/
def headerReady (s : State) (c : Carrier) : Bool :=
  let f := (lineGet s c).frm
  let p := nextPosition s c
  let whole := f.align == .sync || (f.align == .presync && f.goodRun == 3)
  decide (p / 16 + (if whole then frameSpan (planOf s c).n (p % 16) else 1) ≤ f.words.length)

/-- The grid moves to a position, and the messages before it are passed by. -/
def movePosition (c : Carrier) (p : Nat) (s : State) : State :=
  frmUpd c (fun f => { f with words := f.words.drop (p / 16), pos := p % 16 }) s

/-- Where the search or the grid goes on after a header (R165): a candidate keeps its place, a search resumes after it, a frame in SYNC is
passed. -/
def afterHeader (c : Carrier) (was : AlignState) (p n : Nat) (s : State) : State :=
  let f := (lineGet s c).frm
  match was, f.align with
  | .hunt, .hunt => movePosition c (p + 1) s
  | .presync, .hunt => movePosition c (f.pos + 1) s
  | .sync, .hunt => movePosition c (p + 1) s
  | _, .sync => movePosition c (p + 1296 * n) s
  | _, _ => s

/-- FRAME_RECEIVE (R165, R166, R169): the header at the position examined, with the rest of its frame in SYNC. -/
def execFrameReceive (c : Carrier) (s0 : State) : Out :=
  .next (if !framerFed s0 c || !headerReady s0 c then s0
    else
      let s := applyFrmSettings c s0
      let h := nextHeader s c
      let fr := nextFrame s c
      let good := headerGood (planOf s c).n h
      let was := syncOn s c
      let s1 := examine c good (headerFc h) s
      let s2 := countCopy c (syncOn s1 c && good && !fr.spoiled) s1
      let s3 := if syncOn s2 c then takeFrame c fr good s2 else s2
      let s4 := afterHeader c (lineGet s c).frm.align (nextPosition s c) (planOf s c).n s3
      let s5 := if was || syncOn s4 c then evalDefects c s4 else s4
      noteLegs s5)

/-- FLYWHEEL_TICK (R169, R298): while not in SYNC the reported set is evaluated every frame period, and the flywheel counter
goes on. [log 92 DEDUCED] -/
def execFlywheelTick (c : Carrier) (s0 : State) : Out :=
  .next (if !domOn s0 2 || syncOn s0 c then s0
    else
      let s := applyFrmSettings c s0
      let e := ((lineGet s c).frm.expFc + 1) % 2 ^ 24
      let s1 := frmUpd c (fun f => { f with expFc := e }) s
      noteLegs (countCopy c false (evalDefects c s1)))

/-- MULTIFRAME_BOUNDARY_RX (R83, R162): an accepted announcement takes effect, out of SYNC at the boundary of the flywheel; calibration windows have
lasted one multiframe more. -/
def execMultiframeBoundaryRx (c : Carrier) (s : State) : Out :=
  .next (if !domOn s 2 then s else calUpd c ageWindows (annBoundary c s))

end Sys2Proof.Machine
end

