-- ==== Sys2Proof/Machine/Host.lean ====
section
/-! DEFINITION. The commands and events of the host lanes, PHYs, FlexE groups and clients (spec/08_host_lanes.md). -/

namespace Sys2Proof.Machine

/-- The settings of SET_HOST_QUAD stored, and the tap moved (R181, R182, R199). -/
def storeQuad (p : List Byte) (s : State) : State :=
  let q := u8 p 0
  let r := u8 p 6
  let released := s.host.rclk.map fun t => match t with
    | some (h, l) => if h = q then none else some (h, l)
    | none => none
  let taps := if r.testBit 7 then lupd released (bits r 6 5) fun _ => some (q, bits r 1 0) else released
  { s with host := { s.host with
    quads := lupd s.host.quads q fun _ => { rate := u8 p 1, iface := u8 p 2, enable := u8 p 3, polarity := u8 p 4, precode := u8 p 5 }
    rclk := taps } }

/-- SET_HOST_QUAD (R200). -/
def checkSetHostQuad (c : Ctx) (s : State) : Nat :=
  let p := c.pk.params
  let q := u8 p 0
  let r := u8 p 6
  let old := quadGet s q
  let holder := s.host.rclk.getD (bits r 6 5) none
  let heldElsewhere := match holder with
    | some (h, _) => h != q
    | none => false
  let inPhy := (List.range 4).any fun i => (phyAt s (4 * q + i)).isSome
  gated s (!plainLen 16 c) [
    (decide (9 < q) || decide (3 < u8 p 1) || decide (1 < u8 p 2) || decide (15 < u8 p 3) || bits r 4 2 != 0
      || !zeroAt p 7 9, stBadParam),
    (r.testBit 7 && heldElsewhere, stBadParam),
    (inPhy && (u8 p 1 != old.rate || u8 p 2 != old.iface
      || (List.range 4).any fun i => old.enable.testBit i && !(u8 p 3).testBit i), stBadState),
    (startsUnqualified s (storeQuad p s), stBadState)]
/-- The settings are stored, and the lanes of a powered quad follow. -/
def runSetHostQuad (c : Ctx) (s : State) : Res :=
  let p := c.pk.params
  let q := u8 p 0
  let old := quadGet s q
  done (applyUsed (settleQuad q (u8 p 1 != old.rate || u8 p 2 != old.iface) (storeQuad p s)))
/-- SET_HOST_QUAD. -/
def execSetHostQuad (pk : Packet) (s : State) : Out := .next (serve 0x0E01 checkSetHostQuad runSetHostQuad pk s)

/-- The four written taps of SET_HOST_LANE_TX: c(-3), c(-2), c(-1), c(1). [log 96 DESIGN CHOICE, 98 DESIGN CHOICE] -/
def laneTaps (p : List Byte) : List Int := [i8 p 1, i8 p 2, i8 p 3, i8 p 4]

/-- SET_HOST_LANE_TX (R201): taps and swing within R181. -/
def checkSetHostLaneTx (c : Ctx) (s : State) : Nat :=
  let p := c.pk.params
  let t := laneTaps p
  gated s (!plainLen 8 c) [
    (decide (39 < u8 p 0) || !zeroAt p 5 1 || t.any (fun x => decide (32 < x.natAbs))
      || decide (32 < (t.map Int.natAbs).sum) || decide (u16 p 6 < 300) || decide (1100 < u16 p 6) || u16 p 6 % 10 != 0, stBadParam)]
/-- Taps and swing are stored and apply within 10 us. -/
def runSetHostLaneTx (c : Ctx) (s : State) : Res :=
  let p := c.pk.params
  done (laneUpd (u8 p 0) (fun h => { h with taps := laneTaps p, swing := u16 p 6 }) s)
/-- SET_HOST_LANE_TX. -/
def execSetHostLaneTx (pk : Packet) (s : State) : Out := .next (serve 0x0E02 checkSetHostLaneTx runSetHostLaneTx pk s)

/-- The rate code of a PHY type on a lane count, by the table of R184; 0 for no combination. -/
def phyRate (type lanes : Nat) : Nat :=
  if type ≤ 2 && lanes = 2 ^ (type + 1) then 1
  else if type ≤ 3 && lanes = 2 ^ type then 2
  else if 1 ≤ type && type ≤ 4 && 2 * lanes = 2 ^ type then 3
  else 0

/-- A PHY may stand at its lanes (R184): first lane aligned, lanes enabled in quads of the rate, no other PHY on them. -/
def phyFits (s : State) (first type lanes : Nat) : Bool :=
  phyRate type lanes != 0 && first % lanes == 0 && decide (first + lanes ≤ 40)
    && (List.range lanes).all fun i =>
      (quadGet s ((first + i) / 4)).rate == phyRate type lanes && laneEnabled s (first + i)
        && (match phyAt s (first + i) with
            | some p => p == first
            | none => true)

/-- The PHY at a first lane is bound to a client or a member of a group. -/
def phyBound (s : State) (p : Nat) : Bool :=
  !(clientsWhere s fun c => c.kind == 1 && c.place == p).isEmpty || (groupOfPhy s p).isSome

/-- The PHY that SET_HOST_PHY defines, or none. -/
def storePhy (p : List Byte) (s : State) : State :=
  let v : Phy := if u8 p 1 = 0 then {} else { kind := u8 p 1, type := u8 p 2, lanes := u8 p 3 }
  { s with host := { s.host with phys := tset {} s.host.phys (u8 p 0) v } }

/-- SET_HOST_PHY (R202). -/
def checkSetHostPhy (c : Ctx) (s : State) : Nat :=
  let p := c.pk.params
  let k := u8 p 1
  gated s (!plainLen 8 c) [
    (decide (39 < u8 p 0) || decide (2 < k) || !zeroAt p 4 4, stBadParam),
    (k != 0 && (decide (4 < u8 p 2) || (k == 2 && decide (2 < u8 p 2)) || !phyFits s (u8 p 0) (u8 p 2) (u8 p 3)), stBadParam),
    (phyBound s (u8 p 0) || startsUnqualified s (storePhy p s), stBadState)]
/-- The PHY is defined with fresh counters, or deleted. -/
def runSetHostPhy (c : Ctx) (s : State) : Res :=
  let p := c.pk.params
  done (applyUsed (notePhy (u8 p 0) (storePhy p s)))
/-- SET_HOST_PHY. -/
def execSetHostPhy (pk : Packet) (s : State) : Out := .next (serve 0x0E03 checkSetHostPhy runSetHostPhy pk s)

/-- The binding that SET_CLIENT asks for. -/
def askedClient (p : List Byte) : Client :=
  if u8 p 0 = 0 then {} else { kind := u8 p 0, place := u8 p 1, id := u16 p 2, rfInsert := (u8 p 4).testBit 0 }

/-- SET_CLIENT (R203). -/
def checkSetClient (c : Ctx) (s : State) : Nat :=
  let p := c.pk.params
  let t := c.pk.tenant
  let k := u8 p 0
  let a := askedClient p
  let o := clientOf s t
  let id := u16 p 2
  gated s (!tenantLen 8 c) [
    (decide (2 < k) || decide (2 ≤ u8 p 4) || !zeroAt p 5 3 || (k != 2 && id != 0) || (k == 2 && (id == 0 || id == 0xFFFF)), stBadParam),
    (k == 1 && (phyOf s (u8 p 1)).kind != 1, stBadParam),
    (k == 2 && (decide (15 < u8 p 1) || (groupOf s (u8 p 1)).number == 0), stBadParam),
    (k != 0 && (clientsWhere s fun x => x.kind == k && x.place == a.place && x.id == a.id).any (· != t), stBadParam),
    ((a.kind != o.kind || a.place != o.place || a.id != o.id) && holdsSlot s t, stBadState)]
/-- The binding is stored; a changed binding starts a client afresh (R195, R263). -/
def runSetClient (c : Ctx) (s : State) : Res :=
  let t := c.pk.tenant
  let a := askedClient c.pk.params
  let o := clientOf s t
  let same := a.kind = o.kind && a.place = o.place && a.id = o.id
  let v := if same then { o with rfInsert := a.rfInsert } else a
  let s1 := if same then s else phyIdle t s
  let s2 := { s1 with host := { s1.host with clients := tset {} s1.host.clients t v } }
  done (if same then s2 else pmDrop (pmTen t) (phyIdle t s2))
/-- SET_CLIENT. -/
def execSetClient (pk : Packet) (s : State) : Out := .next (serve 0x0E04 checkSetClient runSetClient pk s)

/-- FlexE instances of a PHY type (R191): 1, 2 or 4. -/
def flexInstances (type : Nat) : Nat := 2 ^ type

/-- The PHYs that SET_FLEXE_GROUP lists. -/
def listedPhys (p : List Byte) : List (Nat × Nat) := (List.range (u8 p 1)).map fun i => (u8 p (8 + 4 * i), u8 p (9 + 4 * i))

/-- The instance numbers of the listed PHYs. -/
def instanceNumbers (s : State) (l : List (Nat × Nat)) : List Nat :=
  l.flatMap fun m => (List.range (flexInstances (phyOf s m.1).type)).map (m.2 + ·)

/-- The listed PHYs meet R191: FlexE PHYs of one type outside other groups, distinct instance numbers 1 to 254, at most 32. -/
def groupFits (s : State) (g : Nat) (l : List (Nat × Nat)) : Bool :=
  let ns := instanceNumbers s l
  l.all (fun m => (phyOf s m.1).kind == 2 && (match groupOfPhy s m.1 with
    | some h => h == g
    | none => true))
    && l.all (fun m => (phyOf s m.1).type == (phyOf s (l.headD (0, 0)).1).type)
    && ns.all (fun n => decide (1 ≤ n) && decide (n ≤ 254)) && decide ns.Nodup && decide (l.map (·.1)).Nodup
    && decide (ns.length ≤ 32)

/-- SET_FLEXE_GROUP (R204). -/
def checkSetFlexeGroup (c : Ctx) (s : State) : Nat :=
  let p := c.pk.params
  let n := u8 p 1
  gated s (p.length != 8 + 4 * n || c.pk.tenant != 0xFFFFFFFF) [
    (decide (15 < u8 p 0) || decide (8 < n) || !zeroAt p 2 2 || (List.range n).any (fun i => !zeroAt p (10 + 4 * i) 2), stBadParam),
    (n != 0 && (u32 p 4 == 0 || decide (1048574 < u32 p 4) || !groupFits s (u8 p 0) (listedPhys p)), stBadParam),
    ((clientsWhere s fun x => x.kind == 2 && x.place == u8 p 0).any (holdsSlot s), stBadState)]
/-- The group is stored with both calendars at 0x0000, or deleted. [log 102 DEDUCED] -/
def runSetFlexeGroup (c : Ctx) (s : State) : Res :=
  let p := c.pk.params
  let l := listedPhys p
  let slots := 20 * (instanceNumbers s l).length
  let z := List.replicate slots 0
  done (groupUpd (u8 p 0) (fun g => if u8 p 1 = 0 then {} else
    { g with number := u32 p 4, phys := l, calA := z, calB := z }) ((groupOf s (u8 p 0)).phys.foldl (fun t m => phyUpd m.1 (fun k => { k with ohOut := none }) t)
      (endSwitch (u8 p 0) stBadState s)) |> sendOverhead (u8 p 0))
/-- SET_FLEXE_GROUP. -/
def execSetFlexeGroup (pk : Packet) (s : State) : Out := .next (serve 0x0E05 checkSetFlexeGroup runSetFlexeGroup pk s)

/-- The entries of SET_FLEXE_CALENDAR. -/
def writtenCal (p : List Byte) : List Nat := (List.range (u16 p 2)).map fun i => u16 p (4 + 2 * i)

/-- A client ID is bound in a group. -/
def idBound (s : State) (g id : Nat) : Bool := !(clientsWhere s fun x => x.kind == 2 && x.place == g && x.id == id).isEmpty

/-- SET_FLEXE_CALENDAR (R205). -/
def checkSetFlexeCalendar (c : Ctx) (s : State) : Nat :=
  let p := c.pk.params
  let g := u8 p 0
  gated s (p.length != 4 + 2 * u16 p 2 || decide (p.length < 4) || c.pk.tenant != 0xFFFFFFFF) [
    (decide (15 < g) || !zeroAt p 1 1 || u16 p 2 != (groupOf s g).calA.length, stBadParam),
    ((writtenCal p).any (fun e => e != 0 && e != 0xFFFF && !idBound s g e), stBadParam),
    ((groupOf s g).switch.isSome, stBadState)]
/-- The calendar that is not in use takes the entries. -/
def runSetFlexeCalendar (c : Ctx) (s : State) : Res :=
  let p := c.pk.params
  done (groupUpd (u8 p 0) (fun g => if g.inUse = 0 then { g with calB := writtenCal p } else { g with calA := writtenCal p }) s)
/-- SET_FLEXE_CALENDAR. -/
def execSetFlexeCalendar (pk : Packet) (s : State) : Out := .next (serve 0x0E06 checkSetFlexeCalendar runSetFlexeCalendar pk s)

/-- The calendar of a group that is not in use. [log 101 DEDUCED] -/
def otherCal (g : FlexGroup) : List Nat := if g.inUse = 0 then g.calB else g.calA

/-- No client would get more slots than its container holds, now and after an announced swap (R194). -/
def switchFits (s : State) (g : Nat) : Bool :=
  (clientsWhere s fun x => x.kind == 2 && x.place == g).all fun t =>
    let k := calSlots (otherCal (groupOf s g)) (clientOf s t).id
    decide (k ≤ sizeTx s t) && decide (k ≤ sizeNext s t)

/-- SWITCH_FLEXE_CALENDAR (R206). [log 102 DEDUCED] -/
def checkSwitchFlexeCalendar (c : Ctx) (s : State) : Nat :=
  let p := c.pk.params
  let g := u8 p 0
  gated s (!plainLen 4 c) [
    (decide (15 < g) || decide (2 ≤ u8 p 1) || decide (u16 p 2 < 10) || decide (10000 < u16 p 2), stBadParam),
    ((groupOf s g).switch.isSome, stBusy),
    ((groupOf s g).number == 0 || !switchFits s g || groupFail s g, stBadState)]
/-- CR is sent from the next overhead frame on; the completion follows R193. -/
def runSwitchFlexeCalendar (c : Ctx) (s : State) : Res :=
  let p := c.pk.params
  let g := u8 p 0
  let hs := !(u8 p 1).testBit 0
  let s1 := (groupOf s g).phys.foldl (fun t m =>
    { t with host := { t.host with phys := tupd {} t.host.phys m.1 fun k => { k with caRun := 0 } } }) s
  later (sendOverhead g (groupUpd g (fun x => { x with switch := some ⟨c.ref, hs, s.now + u16 p 2 * msNs, !hs⟩ }) s1))
/-- SWITCH_FLEXE_CALENDAR. -/
def execSwitchFlexeCalendar (pk : Packet) (s : State) : Out :=
  .next (serve 0x0E07 checkSwitchFlexeCalendar runSwitchFlexeCalendar pk s)

/-- GET_HOST_STATUS (R207). -/
def checkGetHostStatus (c : Ctx) (s : State) : Nat :=
  gated s (!plainLen 4 c) [(decide (9 < u8 c.pk.params 0) || !zeroAt c.pk.params 1 3, stBadParam)]
/-- One lane of the result: SNR and clock offset are measurements that the manual leaves open. [log 96 DESIGN CHOICE] -/
def laneStatus (l : Nat) (s : State) : List Byte × State :=
  let h := laneGet s l
  let d := drawBytes 207 4 s
  (d.1 ++ le 1 h.track.stuck ++ le 1 0 ++ le 2 h.accepted ++ le 2 h.failed ++ le 2 h.discarded ++ le 4 0,
    laneUpd l (fun h => { h with accepted := 0, failed := 0, discarded := 0 }) d.2)
/-- The status of several lanes, one after the other. -/
def lanesStatus : List Nat → State → List Byte × State
  | [], s => ([], s)
  | l :: r, s =>
    let a := laneStatus l s
    let b := lanesStatus r a.2
    (a.1 ++ b.1, b.2)

/-- The 72-byte result of GET_HOST_STATUS; the counters clear. -/
def runGetHostStatus (c : Ctx) (s : State) : Res :=
  let q := u8 c.pk.params 0
  let ls := (List.range 4).map (4 * q + ·)
  let mask (f : HostLane → Bool) : Nat := ((List.range 4).map fun i => 2 ^ i * b2n (f (laneGet s (4 * q + i)))).sum
  let r := lanesStatus ls s
  doneWith r.2 (le 1 (b2n (domOn s (quadDom q))) ++ le 1 (quadGet s q).rate ++ le 1 (mask (·.los) + 16 * mask laneLol)
    ++ le 1 (mask fun h => h.track.stuck != 0) ++ le 4 0 ++ r.1)
/-- GET_HOST_STATUS. -/
def execGetHostStatus (pk : Packet) (s : State) : Out := .next (serve 0x0E08 checkGetHostStatus runGetHostStatus pk s)

/-- The PHYs of a client: its own, or all of its group. -/
def clientPhys (s : State) (t : Nat) : List Nat :=
  let c := clientOf s t
  if c.kind = 1 then [c.place] else if c.kind = 2 then (groupOf s c.place).phys.map (·.1) else []

/-- The defects reported for a client: of its PHYs, with FX_GROUP_LOA in bit 7 (R208). -/
def clientReported (s : State) (t : Nat) : Nat :=
  let m := (clientPhys s t).foldl (fun a p => a ||| phyReported s p) 0
  let c := clientOf s t
  m + 128 * b2n (c.kind == 2 && (groupOf s c.place).loa)

/-- GET_CLIENT_STATUS (R208). -/
def checkGetClientStatus (c : Ctx) (s : State) : Nat := gated s (!tenantLen 0 c) []
/-- The 32-byte result of GET_CLIENT_STATUS; the counters clear. -/
def runGetClientStatus (c : Ctx) (s : State) : Res :=
  let t := c.pk.tenant
  let v := clientOf s t
  let ps := clientPhys s t
  let sum (w : Nat) (f : Phy → Nat) : Nat := satAdd w 0 (ps.map fun p => f (phyOf s p)).sum
  let ind := b2n v.lfRx + 2 * b2n v.rfRx + 4 * b2n (ps.any fun p => (phyOf s p).rpf) + 8 * b2n v.calMis
    + 16 * b2n (replacedToLine s t) + 32 * b2n (localFaultToHost s t) + 64 * b2n (remoteFaultToHost s t)
  let s1 := ps.foldl (fun x p => { x with host := { x.host with
    phys := tupd {} x.host.phys p fun k => { k with cwCorr := 0, symCorr := 0, cwUncorr := 0 } } }) s
  let s2 := if v.kind = 2 then groupUpd v.place (fun g => { g with unbound := 0 }) s1 else s1
  doneWith s2 (le 1 v.kind ++ le 1 (clientReported s t) ++ le 1 ind ++ le 1 (clientSlots s t) ++ le 8 (sum 64 (·.cwCorr))
    ++ le 8 (sum 64 (·.symCorr)) ++ le 4 (sum 32 (·.cwUncorr)) ++ le 4 (if v.kind = 2 then (groupOf s v.place).unbound else 0)
    ++ leS 4 v.offset)
/-- GET_CLIENT_STATUS. -/
def execGetClientStatus (pk : Packet) (s : State) : Out :=
  .next (serve 0x0E09 checkGetClientStatus runGetClientStatus pk s)

/-! Lane adaptation. -/

/-- The checked values of an item enter the lane (R87, R183): what passes waits for its application, what fails counts. -/
def checkLaneValues (item : Nat) (vs : List Int) (h : HostLane) : HostLane :=
  ((List.range (laneItemSize item)).zip vs).foldl (fun a e =>
    let k := 16 * item + e.1
    let ok := laneInBound item e.1 e.2 && decide ((e.2 - tget 0 a.vals k).natAbs ≤ laneStep item)
    let a1 := { a with track := trackValue item (laneKeys item) k ok a.track }
    if ok then { a1 with next := tset none a1.next k (some e.2), accepted := satAdd 16 a1.accepted 1 }
    else { a1 with failed := satAdd 16 a1.failed 1 }) h

/-- The update just applied made the slicer error worse by more than 0.5 dB: its old values return, each a failure (R183). -/
def restoreLane (base : Nat) (h : HostLane) : HostLane :=
  h.old.foldl (fun a e =>
    let v := e.2.getD 0
    { a with vals := tset 0 a.vals e.1 v, kept := tset 0 a.kept (base + e.1) v, failed := satAdd 16 a.failed 1,
             track := trackValue (e.1 / 16) (laneKeys (e.1 / 16)) e.1 false a.track }) { h with old := [] }

/-- LANE_FOREGROUND_ADAPT_DONE (R182): the values found enter within their bounds and background adaptation starts. -/
def execLaneForegroundAdaptDone (lane : Nat) (values : List (List Int)) (s : State) : Out :=
  .next (
    let h := laneGet s lane
    if h.adapt != .foreground then s
    else
      let base := keptBase (quadGet s (lane / 4))
      let flat := ((List.range 5).zip values).flatMap fun e =>
        ((List.range (laneItemSize e.1)).zip e.2).map fun x => (e.1, x.1, x.2)
      let f (a : HostLane) (e : Nat × Nat × Int) : HostLane :=
        let k := 16 * e.1 + e.2.1
        if laneInBound e.1 e.2.1 e.2.2 then
          { a with vals := tset 0 a.vals k e.2.2, kept := tset 0 a.kept (base + k) e.2.2, accepted := satAdd 16 a.accepted 1 }
        else { a with failed := satAdd 16 a.failed 1 }
      noteLane lane (laneUpd lane (fun h => { flat.foldl f h with adapt := .background, fgEnd := none, spoiled := false }) s))

/-- A window of a lane does not count (R182). -/
def laneSpoiled (s : State) (l : Nat) : Bool :=
  let h := laneGet s l
  h.spoiled || h.los || laneLol h || domWarn s (quadDom (l / 4))
    || (match phyAt s l with
        | some p => (phyOf s p).declared.testBit 2
        | none => false)

/-- LANE_ADAPT_WINDOW (R182, R183): a 1 ms window closes and its results are checked or discarded. -/
def execLaneAdaptWindow (lane : Nat) (obs : LaneObs) (s : State) : Out :=
  .next (
    let h := laneGet s lane
    if h.adapt != .background then s
    else if laneSpoiled s lane then
      laneUpd lane (fun h => { h with discarded := satAdd 16 h.discarded 1, spoiled := false, old := [], lastMse := none }) s
    else
      let worse := match h.lastMse with
        | some m => decide (m + 50 < obs.mse)
        | none => false
      let base := keptBase (quadGet s (lane / 4))
      let h1 := if worse && !h.old.isEmpty then restoreLane base h else { h with old := [] }
      let h2 := if obs.item < 5 then checkLaneValues obs.item obs.values h1 else h1
      noteStuck lane h.track.stuck (laneUpd lane (fun _ => { h2 with lastMse := some obs.mse }) s))

/-- LANE_ADAPT_APPLY (R182): an accepted update is applied after the next alignment marker of the lane's PHY. -/
def execLaneAdaptApply (lane : Nat) (s : State) : Out :=
  .next (
    let h := laneGet s lane
    if h.adapt != .background || (phyAt s lane).isNone then s
    else
      let base := keptBase (quadGet s (lane / 4))
      laneUpd lane (fun h => { h.next.foldl (fun a e =>
        { a with old := tset none a.old e.1 (some (tget 0 h.vals e.1)), vals := tset 0 a.vals e.1 (e.2.getD 0),
                 kept := tset 0 a.kept (base + e.1) (e.2.getD 0) }) h with next := [] }) s)

/-! Defects and FlexE overhead. -/

/-- The defects of a PHY that HOST_DEFECT can declare: PHY_LOA, PHY_HISER, and on FlexE PHYs FX_OH_LOF and FX_OH_LOM. -/
def phyOwnMask (k : Phy) (declared : Nat) : Nat :=
  let m := if k.kind = 2 then 0x3C else 0x0C
  (declared &&& m) + (k.declared &&& 0x40)

/-- HOST_DEFECT (R185, R196 to R198): what is declared on a lane, a PHY or a group changes, or the fault indications of a client; PHY_LOA follows
the marker lock and the skew of the PHY's lanes;
masks are in the bit order of R208. -/
def execHostDefect (scope : HostScope) (declared indications : Nat) (s : State) : Out :=
  .next (match scope with
    | .lane l =>
      if (laneGet s l).adapt == .off then s
      else
        let los := declared.testBit 0
        let lol := declared.testBit 1
        noteLane l (laneUpd l (fun h => { h with los := los, cdrLol := lol, spoiled := h.spoiled || los || lol }) s)
    | .phy p marks =>
      let k := phyOf s p
      if k.kind = 0 then s
      else
        let loa := !alignedMarks k.type marks
        let k1 := { k with
          declared := setBit (phyOwnMask k declared) 2 loa, marks := marks, cwIn := if loa || k.declared.testBit 2 then 0 else k.cwIn }
        let s1 := { s with host := { s.host with phys := tset {} s.host.phys p k1 } }
        let s2 := notePhy p (if k1.declared.testBit 2 then spoilPhy p s1 else s1)
        match groupOfPhy s2 p with
        | some g => sendOverhead g s2
        | none => s2
    | .group g =>
      let loa := declared.testBit 7
      if (groupOf s g).number = 0 || (groupOf s g).loa = loa then s
      else postEv 0x0E01 [g, 128 * b2n loa, 128 * b2n loa] (groupUpd g (fun x => { x with loa := loa }) s)
    | .client t =>
      if (clientOf s t).kind = 0 then s
      else { s with host := { s.host with clients := tupd {} s.host.clients t fun x =>
        { x with lfRx := indications.testBit 0, rfRx := indications.testBit 1 } } })

/-- The tenants whose client runs over a PHY. -/
def phyTenants (s : State) (p : Nat) : List Nat :=
  match groupOfPhy s p with
  | some g => clientsWhere s fun c => c.kind == 2 && c.place == g
  | none => clientsWhere s fun c => c.kind == 1 && c.place == p

/-- The counts of one decoded codeword of a PHY (R186): symbols corrected, or uncorrectable. [log 103 DEDUCED] -/
def countCodeword (phy : Nat) (corrected : Option Nat) (s : State) : State :=
  match corrected with
  | some 0 => s
  | some n => countSrc 0x08 phy n (phyUpd phy (fun k => { k with cwCorr := satAdd 64 k.cwCorr 1, symCorr := satAdd 64 k.symCorr n }) s)
  | none => (phyTenants s phy).foldl (fun t x => pmCount (pmTen x) (fun a => { a with cwUncorr := a.cwUncorr + 1 }) t)
      (phyUpd phy (fun k => { k with cwUncorr := satAdd 32 k.cwUncorr 1 }) s)

/-- The blocks of a decoded codeword without the alignment markers, error blocks for an uncorrectable one (R185, R186). -/
def codewordBlocks (k : Phy) (d : List Nat × Option Nat) : List (List Bool) :=
  let l := if d.2.isNone then List.replicate 20 errorBlock else messageBlocks (d.1.take 514)
  if k.cwIn = 0 then l.drop (markerShape k.type).1 else l

/-- RS_FEC_CODEWORD (R180, R185, R186): a codeword received as PAM4 levels on the lanes of a PHY is put in order by the markers, decoded and
counted; the blocks of an Ethernet PHY go to its client's
container. A lane in HOST_LOCAL receives what it sends, one in HOST_REMOTE sends what it receives (R523). [log 240 PRESUMED] -/
def execRsFecCodeword (phy : Nat) (received : List (List Nat)) (s : State) : Out :=
  .next (
    let k := phyOf s phy
    if k.kind = 0 || !domOn s (quadDom (phy / 4)) || k.declared.testBit 2 then s
    else
      let loop (i : Nat) : Nat := tget 0 s.test.laneLoop (phy + i)
      let levels (i : Nat) : List Nat := if loop i = 3 then k.tx.out.getD i [] else received.getD i []
      let lanes := ((List.range k.lanes).map fun i =>
        let q := quadGet s ((phy + i) / 4)
        takeLevels (q.precode.testBit ((phy + i) % 4)) (q.polarity.testBit ((phy + i) % 4)) (k.rxLast.getD i 0) (levels i))
      let d := hostDecode (fromLanes k.type (k.marks.map fun m => (m.getD (0, 0)).1) (lanes.map (·.1)))
      let s1 := phyUpd phy (fun k => { k with cwIn := (k.cwIn + 1) % (markerShape k.type).2, rxLast := lanes.map (·.2), tx := { k.tx with
        out := (List.range (max k.lanes k.tx.out.length)).map fun i => if loop i = 4 then received.getD i [] else k.tx.out.getD i [] } }) (countCodeword phy d.2 s)
      (clientsWhere s1 fun c => c.kind == 1 && c.place == phy).foldl (fun t x => takeStream x (codewordBlocks k d) t) s1)

/-- The places of a client ID in a calendar. -/
def placesOf (cal : List Nat) (id : Nat) : List Nat := ((List.range cal.length).zip cal).filterMap fun e => if e.2 = id then some e.1 else none

/-- A PHY's overhead frame is received without error: identity (R196), remote PHY fault, and the run of CA (R193). [log 100 DEDUCED] -/
def takeOhPhy (oh : FlexeOh) (k : Phy) : Phy :=
  let bad := k.declared.testBit 6
  let run := if oh.idOk == bad then k.idRun + 1 else 0
  let k1 := if run = 3 then { k with declared := setBit k.declared 6 (!bad), idRun := 0 } else { k with idRun := run }
  { k1 with rpf := oh.rpf, caRun := if oh.ca then k1.caRun + 1 else 0 }

/-- What the peer marks in use decides FX_CAL_MISMATCH of each bound client, and the unbound slots are counted (R192). [log 100 DEDUCED] -/
def takePeerCal (g : Nat) (letter : Bool) (cal : List Nat) (s : State) : State :=
  let x := groupOf s g
  let mine := if letter then x.calB else x.calA
  let ts := clientsWhere s fun c => c.kind == 2 && c.place == g
  let s1 := ts.foldl (fun t k => { t with host := { t.host with clients := tupd {} t.host.clients k fun c =>
    { c with calMis := placesOf cal c.id != placesOf mine c.id } } }) s
  let n := (cal.filter fun e => e != 0 && e != 0xFFFF && !idBound s g e).length
  groupUpd g (fun x => { x with peerC := letter, unbound := satAdd 32 x.unbound n }) s1

/-- The peer's own change request (R193): CA is returned only where its announced calendar equals the written one. [log 101 DEDUCED] -/
def takePeerCr (g : Nat) (oh : FlexeOh) (s : State) : State :=
  groupUpd g (fun x =>
    let mine := if oh.c then x.calA else x.calB
    let agree := oh.cal == some mine
    if oh.cr then { x with peerCr := true, caOut := agree, withheld := x.withheld + b2n (!agree && !x.peerCr) }
    else { x with peerCr := false, caOut := false }) s

/-- FLEXE_OVERHEAD_FRAME_RX (R192, R193, R196, R352). A frame with an error ends the run of CA. -/
def execFlexeOverheadFrameRx (phy : Nat) (oh : FlexeOh) (s : State) : Out :=
  .next (
    if (phyOf s phy).kind != 2 then s
    else if !oh.ok then { s with host := { s.host with phys := tupd {} s.host.phys phy fun k => { k with caRun := 0 } } }
    else
      let s1 := notePhy phy { s with host := { s.host with phys := tupd {} s.host.phys phy (takeOhPhy oh) } }
      match groupOfPhy s phy with
      | none => s1
      | some g =>
        let s2 := match oh.cal with
          | some cal => if oh.cr then s1 else takePeerCal g oh.c cal s1
          | none => s1
        let s3 := takePeerCr g oh s2
        let s4 := sendOverhead g (if 3 ≤ (phyOf s3 phy).caRun then
          groupUpd g (fun x => { x with switch := x.switch.map fun w => { w with accepted := true } }) s3 else s3)
        match oh.ssm with
        | some q => noteQlCode q (groupUpd g (fun x => { x with ssm := some q, ssmAt := some (s.now + 5 * secNs) }) s4)
        | none => s4)

/-- FLEXE_MULTIFRAME_BOUNDARY (R193): an accepted switch changes the calendar in use and completes. -/
def execFlexeMultiframeBoundary (group : Nat) (s : State) : Out :=
  .next (match (groupOf s group).switch with
    | some w =>
      if w.accepted then
        let n := 1 - (groupOf s group).inUse
        complete w.ref stOk (le 1 n ++ le 3 0) (sendOverhead group (groupUpd group (fun x => { x with inUse := n, switch := none }) s))
      else s
    | none => s)

/-- FLEXE_CA_TIMEOUT (R193): CR is cleared, the old calendar kept, and the completion carries UNREACHABLE. -/
def execFlexeCaTimeout (group : Nat) (s : State) : Out :=
  .next (match (groupOf s group).switch with
    | some w => if w.accepted then s else endSwitch group stUnreachable (advanceTo w.deadline s)
    | none => s)

end Sys2Proof.Machine
end

