-- ==== Sys2Proof/Machine/Turret.lean ====
section
/-! DEFINITION. The commands and events of the Turret (spec/12_turret_cipher.md). -/

namespace Sys2Proof.Machine

/-- The refusals of the Turret group (R313): the fields, then a half that is off, then the remaining state (R382 step 7). -/
def turretGate (s : State) (bad badField : Bool) (l : List (Bool × Nat)) : Nat :=
  gated s bad ((badField, stBadParam) :: (!turretOn s, stBadState) :: l)

/-- The register that a target names (R315): 0 active, 1 next. -/
def targetReg (k : KeySlot) (target : Nat) : Nat := if target = 0 then k.pTx else 1 - k.pTx

/-- The KEK of an index; empty where none is established. -/
def kekAt (s : State) (i : Nat) : KeyReg := (keySlot s (slotKek + i)).r0

/-- The target of LOAD_KEY or GENERATE_KEY may not be loaded now (R304, R315). -/
def targetClosed (s : State) (t target : Nat) : Bool :=
  let k := keySlot s t
  if target = 0 then holdsSlot s t && (keyReg k k.pTx).state != 2 else regInUse k (1 - k.pTx)

/-- A loaded register of a slot (R315): INVOC and wrap counts at 0. [log 133 DEDUCED] -/
def loadReg (t target : Nat) (k1 : List Byte) (saltTx saltRx keyId : Nat) (s : State) : State :=
  keyUpd t (fun k => setReg k (targetReg k target)
    { k1 := k1, saltTx := saltTx, saltRx := saltRx, state := 1, keyId := keyId, used := target == 0 }) s

/-- ESTABLISH_KEK (R314): index, and full validation of the host's public key. -/
def checkEstablishKek (c : Ctx) (s : State) : Nat :=
  let p := c.pk.params
  turretGate s (!plainLen 104 c) (decide (7 < u8 p 0) || !zeroAt p 1 3 || !zeroAt p 101 3) [
    (!pointValid (slice p 4 97), stBadParam)]
/-- The command waits for the reseed of R305, at most 100 ms. -/
def runEstablishKek (c : Ctx) (s : State) : Res :=
  later { s with turret := { s.turret with
    jobs := s.turret.jobs ++ [⟨c.ref, true, 0, c.pk.params, s.now + 100 * msNs⟩] } }
/-- ESTABLISH_KEK. -/
def execEstablishKek (pk : Packet) (s : State) : Out := .next (serve 0x0701 checkEstablishKek runEstablishKek pk s)

/-- The plaintext of the blob of LOAD_KEY, where its KEK is set and its integrity check holds (R306). -/
def blobPlain (s : State) (p : List Byte) : Option (List Byte) := keyUnwrap (kekAt s (u8 p 1)).k1 (slice p 4 56)

/-- LOAD_KEY (R315). [log 133 DEDUCED] -/
def checkLoadKey (c : Ctx) (s : State) : Nat :=
  let p := c.pk.params
  let t := c.pk.tenant
  let plain := (blobPlain s p).getD []
  turretGate s (!tenantLen 60 c) (decide (1 < u8 p 0) || decide (7 < u8 p 1) || decide (2 ≤ u8 p 2) || !zeroAt p 3 1) [
    ((kekAt s (u8 p 1)).state != 1, stBadParam),
    (targetClosed s t (u8 p 0), stBadState),
    (plain.isEmpty || beNat (slice plain 40 4) != t, stAuthFail),
    (slice plain 32 4 == slice plain 36 4, stBadParam)]
/-- The register is loaded; with the peer flag the salts change places (R306). [log 133 DEDUCED] -/
def runLoadKey (c : Ctx) (s : State) : Res :=
  let p := c.pk.params
  let plain := (blobPlain s p).getD []
  let a := beNat (slice plain 32 4)
  let b := beNat (slice plain 36 4)
  let peer := (u8 p 2).testBit 0
  done (loadReg c.pk.tenant (u8 p 0) (plain.take 32) (if peer then b else a) (if peer then a else b) (beNat (slice plain 44 4)) s)
/-- LOAD_KEY. -/
def execLoadKey (pk : Packet) (s : State) : Out := .next (serve 0x0702 checkLoadKey runLoadKey pk s)

/-- GENERATE_KEY (R316). -/
def checkGenerateKey (c : Ctx) (s : State) : Nat :=
  let p := c.pk.params
  turretGate s (!tenantLen 8 c) (decide (1 < u8 p 0) || decide (7 < u8 p 1) || !zeroAt p 2 2) [
    ((kekAt s (u8 p 1)).state != 1, stBadParam),
    (targetClosed s c.pk.tenant (u8 p 0), stBadState)]
/-- The command waits for the reseed of R307, at most 100 ms. -/
def runGenerateKey (c : Ctx) (s : State) : Res :=
  later { s with turret := { s.turret with
    jobs := s.turret.jobs ++ [⟨c.ref, false, c.pk.tenant, c.pk.params, s.now + 100 * msNs⟩] } }
/-- GENERATE_KEY. -/
def execGenerateKey (pk : Packet) (s : State) : Out := .next (serve 0x0703 checkGenerateKey runGenerateKey pk s)

/-- ROTATE_KEY (R317). -/
def checkRotateKey (c : Ctx) (s : State) : Nat :=
  let at_ := u64 c.pk.params 0
  turretGate s (!tenantLen 8 c) false [
    (decide (s.tod / secNs + 86400 < at_), stBadParam),
    (s.turret.rotations.any fun r => r.tenant == c.pk.tenant, stBusy),
    (!readyNext (keySlot s c.pk.tenant) || !domOn s 2, stBadState)]
/-- The rotation waits for its time. -/
def runRotateKey (c : Ctx) (s : State) : Res :=
  later { s with turret := { s.turret with rotations := s.turret.rotations ++ [⟨c.pk.tenant, u64 c.pk.params 0, c.ref⟩] } }
/-- ROTATE_KEY. -/
def execRotateKey (pk : Packet) (s : State) : Out := .next (serve 0x0704 checkRotateKey runRotateKey pk s)

/-- ERASE_KEY (R318): of `both`, the active register counts as in use while a tag under either is still to be sent or checked. -/
def checkEraseKey (c : Ctx) (s : State) : Nat :=
  let p := c.pk.params
  let k := keySlot s c.pk.tenant
  turretGate s (!tenantLen 4 c) (decide (1 < u8 p 0) || !zeroAt p 1 3) [
    (if u8 p 0 = 0 then regInUse k (1 - k.pTx) else k.txOld.isSome || k.rxOld.isSome || holdsSlot s c.pk.tenant, stBadState)]
/-- The named registers are zeroised. -/
def runEraseKey (c : Ctx) (s : State) : Res :=
  done (keyUpd c.pk.tenant (fun k => if u8 c.pk.params 0 = 0 then setReg k (1 - k.pTx) {} else { k with r0 := {}, r1 := {} }) s)
/-- ERASE_KEY. -/
def execEraseKey (pk : Packet) (s : State) : Out := .next (serve 0x0705 checkEraseKey runEraseKey pk s)

/-- SET_TENANT_CIPHER (R319). -/
def checkSetTenantCipher (c : Ctx) (s : State) : Nat :=
  let p := c.pk.params
  turretGate s (!tenantLen 4 c) (decide (1 < u8 p 0) || decide (u8 p 1 < 16) || decide (48 < u8 p 1) || !zeroAt p 2 2) []
/-- The settings of R313 are stored. -/
def runSetTenantCipher (c : Ctx) (s : State) : Res :=
  done { s with turret := { s.turret with
    cipher := tset {} s.turret.cipher c.pk.tenant ⟨u8 c.pk.params 0, u8 c.pk.params 1⟩ } }
/-- SET_TENANT_CIPHER. -/
def execSetTenantCipher (pk : Packet) (s : State) : Out := .next (serve 0x0706 checkSetTenantCipher runSetTenantCipher pk s)

/-- GET_KEY_STATUS (R320). -/
def checkGetKeyStatus (c : Ctx) (s : State) : Nat :=
  turretGate s (!plainLen 4 c) (decide (1055 < u16 c.pk.params 0) || !zeroAt c.pk.params 2 2) []
/-- The 40-byte result; internal slots report zero in the tenant fields; the counters clear. -/
def runGetKeyStatus (c : Ctx) (s : State) : Res :=
  let i := u16 c.pk.params 0
  let k := keySlot s i
  let ten := decide (i < 1024)
  let z (v : Nat) : Nat := if ten then v else 0
  let act := keyReg k k.pTx
  doneWith (keyUpd i (fun k => { k with hunts := 0, missing := 0 }) s)
    (le 1 (k.r0.state + 4 * k.r1.state)
      ++ le 1 (z (k.pTx + 2 * k.pRx + 4 * b2n k.hunt + 8 * b2n (s.turret.rotations.any fun r => r.tenant == i))) ++ le 2 0
      ++ le 4 (z k.r0.keyId) ++ le 4 (z k.r1.keyId) ++ le 8 (z act.wTx) ++ le 8 (z (keyReg k k.pRx).wRx) ++ le 8 (z act.invoc)
      ++ le 2 (z k.hunts) ++ le 2 (z k.missing))
/-- GET_KEY_STATUS. -/
def execGetKeyStatus (pk : Packet) (s : State) : Out := .next (serve 0x0707 checkGetKeyStatus runGetKeyStatus pk s)

/-- Slots that containers hold in the tables in use of both directions. [log 137 DEDUCED] -/
def gcmSlots (s : State) : Nat :=
  if trafficMode s.mode.cur && s.mode.cur != .regenerate then
    ((calCarriers s).map fun c => ((txTable s c).filter fun e => entryUsed e.2).length
      + ((rxTable s c).filter fun e => entryUsed e.2).length).sum
  else 0

/-- The current load in 0.1 Tb/s (R291, R321): 5.15625 Gb/s for each slot and direction, and 6.6 Tb/s while the Dome buffers. [log 137 DEDUCED] -/
def turretLoad (s : State) : Nat :=
  let dome := (s.mode.cur == .bonded || s.mode.cur == .merge) && (s.skew.delay.a != 0 || s.skew.delay.b != 0)
  (gcmSlots s * 515625 + 5000000) / 10000000 + (if dome then 66 else 0)

/-- GET_TURRET_STATUS (R321). -/
def checkGetTurretStatus (c : Ctx) (s : State) : Nat := gated s (!plainLen 0 c) []
/-- The 48-byte result; the counters clear. -/
def runGetTurretStatus (_ : Ctx) (s : State) : Res :=
  let t := s.turret
  doneWith { s with turret := { t with healthFails := 0, entropy := 0, miss := 0, keepCorr := 0, keepUncorr := 0 } }
    (le 1 t.rng ++ le 1 (b2n (t.rng == 2) + 2 * b2n t.degraded + 4 * b2n t.capacity) ++ le 1 t.fenced.length
      ++ le 1 (b2n (domOn s 25) + 2 * b2n (domOn s 26)) ++ le 16 (t.fenced.map (2 ^ ·)).sum ++ le 4 (min t.calls (2 ^ 32 - 1))
      ++ le 4 t.healthFails ++ le 4 t.entropy ++ le 4 t.miss ++ le 2 (turretLoad s) ++ le 2 0 ++ le 4 t.keepCorr ++ le 4 t.keepUncorr)
/-- GET_TURRET_STATUS. -/
def execGetTurretStatus (pk : Packet) (s : State) : Out := .next (serve 0x0708 checkGetTurretStatus runGetTurretStatus pk s)

/-! Events. -/

/-- KEY_LIFE where INVOC of a register reaches the limit of its tenant, once for the register (R300). -/
def noteLife (t i : Nat) (s : State) : State :=
  let r := keyReg (keySlot s t) i
  if !r.lifePosted && 2 ^ (tget {} s.turret.cipher t).life ≤ r.invoc then
    postEv 0x0704 [t] (keyUpd t (fun k => setReg k i { r with lifePosted := true }) s)
  else s

/-- FRAMER_CIPHER_REQUEST (R290 to R292, R300): a period's request is served before its deadline, or misses it. -/
def execFramerCipherRequest (tenant : Nat) (transmit served : Bool) (s : State) : Out :=
  .next (
    if 1024 ≤ tenant || !(domOn s 25 || domOn s 26) then s
    else if !served then
      let s1 := { s with turret := { s.turret with miss := satAdd 32 s.turret.miss 1 } }
      if transmit then tenUpd tenant (fun x => { x with tx := { x.tx with missed := true } }) s1 else s1
    else
      let c := if transmit then sizeTx s tenant else sizeRx s tenant
      let s1 := countBlocks (64 * c) s
      let k := keySlot s1 tenant
      let r := keyReg k k.pTx
      if transmit && r.state = 1 then
        noteLife tenant k.pTx (keyUpd tenant (fun k => setReg k k.pTx { r with invoc := (r.invoc + 1) % 2 ^ 64 }) s1)
      else s1)

/-- PIPE_FENCED (R292): a parity error fences a pipeline until PORESET_N. -/
def execPipeFenced (pipe : Nat) (s : State) : Out :=
  .next (
    let d := if pipe < 64 then 25 else 26
    if 128 ≤ pipe || s.turret.fenced.contains pipe || !domOn s d then s
    else noteCapacity (postEv 0x0701 [pipe] { s with turret := { s.turret with fenced := s.turret.fenced ++ [pipe] } }))

/-- KEEP_ECC_ERROR (R295). -/
def execKeepEccError (slot reg : Nat) (kind : EccKind) (s : State) : Out :=
  .next (
    if 1056 ≤ slot || 2 ≤ reg || !(domOn s 25 || domOn s 26) then s
    else
      let fault (t : State) : State :=
        postEv 0x0703 [slot] (keyUpd slot (fun k => setReg k reg { (keyReg k reg) with state := 2 }) t)
      match kind with
      | .corrected => { s with turret := { s.turret with keepCorr := satAdd 32 s.turret.keepCorr 1 } }
      | .oneCopy =>
        let s1 := { s with turret := { s.turret with keepUncorr := satAdd 32 s.turret.keepUncorr 1 } }
        if turretOn s then s1 else fault s1
      | .bothCopies => fault s)

/-- P_TX of a tenant flips to its next register (R302): the rotation completes and KEY_ROTATED is posted. -/
def flipKey (r : Rotation) (tenant fc : Nat) (s : State) : State :=
  let k := keySlot s tenant
  let old := k.pTx
  let new := 1 - old
  let k1 := { (setReg k new { (keyReg k new) with wTx := 0, counts := holdsSlot s tenant, used := true }) with
    pTx := new, txOld := if holdsSlot s tenant then some (old, 1) else none }
  let s1 := keyUpd tenant (fun _ => releaseReg k1 old)
    { s with turret := { s.turret with rotations := s.turret.rotations.filter fun x => x.tenant != tenant } }
  postEv 0x0705 [tenant, fc % 2 ^ 24] (complete r.ref stOk (le 4 (fc % 2 ^ 24) ++ le 1 new ++ le 3 0) s1)

/-- KEY_ROTATED (R302): the flip of a tenant at the first pointer period at or after its time; `fc` its frame counter. -/
def execKeyRotated (tenant fc : Nat) (s : State) : Out :=
  .next (match s.turret.rotations.find? (fun r => r.tenant == tenant) with
    | none => s
    | some r => flipKey r tenant fc (advanceTod (r.at_ * secNs) s))

/-- KEK_ESTABLISHED (R305): the exchange that waits first runs after a reseed, its private key from 384 drawn bits. [log 239 DESIGN CHOICE] -/
def execKekEstablished (s : State) : Out :=
  .next (match s.turret.jobs.find? (fun j => j.kek) with
    | none => s
    | some j =>
      if s.turret.rng != 0 then s
      else
        let d := generate 48 (reseed s)
        let priv := beNat d.1 % (pOrder - 1) + 1
        let host := (beNat (slice j.params 5 48), beNat (slice j.params 53 48))
        let pub := pointMul priv pBase
        let idx := u8 j.params 0
        let kek := deriveKek (pointMul priv host).1 idx pub.1 host.1
        let s1 := { d.2 with turret := { d.2.turret with jobs := d.2.turret.jobs.filter (· != j) } }
        complete j.ref stOk (pointBytes pub ++ le 3 0 ++ kekCheck kek)
          (keyUpd (slotKek + idx) (fun k => { k with r0 := { k1 := kek, state := 1 } }) s1))

/-- KEY_GENERATED (R307): the key of a tenant that waits first is drawn after a reseed, loaded and returned wrapped. [log 239 DESIGN CHOICE] -/
def execKeyGenerated (tenant : Nat) (s : State) : Out :=
  .next (match s.turret.jobs.find? (fun j => !j.kek && j.tenant == tenant) with
    | none => s
    | some j =>
      if s.turret.rng != 0 then s
      else
        let k := generate 32 (reseed s)
        let a := generate 4 k.2
        let b := generateOther a.1 4 a.2
        let saltTx := beNat a.1
        let saltRx := beNat b.1
        let keyId := u32 j.params 4
        let plain := k.1 ++ a.1 ++ b.1 ++ be 4 tenant ++ be 4 keyId
        let s1 := { b.2 with turret := { b.2.turret with jobs := b.2.turret.jobs.filter (· != j) } }
        complete j.ref stOk (keyWrap (kekAt s1 (u8 j.params 1)).k1 plain)
          (loadReg tenant (u8 j.params 0) k.1 saltTx saltRx keyId s1))

/-- The command that has waited longest for a reseed. -/
def oldestJob (s : State) : Option KeyJob :=
  s.turret.jobs.foldl (fun o j => match o with
    | none => some j
    | some x => if j.deadline < x.deadline then some j else some x) none

/-- ENTROPY_TIMEOUT (R308, R311): 100 ms without a reseed fail the command, or the stacks, that waited longest. -/
def execEntropyTimeout (s : State) : Out :=
  .next (
    if s.turret.rng = 0 then s
    else
      let stack (t : Nat) (u : State) : State := failDomeDraw { (advanceTo t u) with turret := { (advanceTo t u).turret with domeDraw := none } }
      let fail (j : KeyJob) (u : State) : State :=
        let u1 := advanceTo j.deadline u
        complete j.ref stEntropy [] { u1 with turret := { u1.turret with
          jobs := u1.turret.jobs.filter (· != j), entropy := satAdd 32 u1.turret.entropy 1 } }
      match oldestJob s, s.turret.domeDraw with
      | none, none => s
      | some j, none => fail j s
      | none, some t => stack t s
      | some j, some t => if t < j.deadline then stack t s else fail j s)

/-- TRNG_HEALTH_FAIL (R309, R311): the health tests take raw samples; at a failure the output blocks, the countermeasures go to fixed mode, the
retests begin. -/
def execTrngHealthFail (samples : List Bool) (s0 : State) : Out :=
  .next (
    let t := noiseRun samples s0.turret.noise
    let s := { s0 with turret := { s0.turret with noise := t.1 } }
    if !t.2 then s
    else if s.turret.rng != 0 then { s with turret := { s.turret with healthFails := satAdd 32 s.turret.healthFails 1 } }
    else
      let o := drawOrders s
      let s1 := { o with turret := { o.turret with
        rng := 1, retests := 0, retestAt := some (s.now + 10 * msNs), healthFails := satAdd 32 s.turret.healthFails 1,
        fixed := true, degraded := true } }
      if s.turret.degraded then s1 else post 0x0707 true [] s1)

/-- TRNG_RETEST (R309, R311): the start-up tests over 1,024 raw samples, after 10, 20 and 30 ms, then every 10 s; a pass unblocks and reseeds at
once. -/
def execTrngRetest (samples : List Bool) (s : State) : Out :=
  .next (match s.turret.retestAt with
    | none => s
    | some t =>
      let s1 := advanceTo t s
      if startupOk samples then
        let s2 := reseed { s1 with turret := { s1.turret with rng := 0, retests := 0, retestAt := none } }
        let s3 := if s1.turret.rng = 2 then post 0x0706 false [] s2 else s2
        if s1.turret.domeDraw.isSome then drawDomeKey s3 else s3
      else
        let n := s1.turret.retests + 1
        if n < 3 then { s1 with turret := { s1.turret with retests := n, retestAt := some (t + 10 * msNs) } }
        else
          let s2 := { s1 with turret := { s1.turret with rng := 2, retests := n, retestAt := some (t + 10 * secNs) } }
          if s1.turret.rng = 2 then s2 else post 0x0706 true [] s2)

/-- Each half that is ON rekeys its mask key by one generate call; after a reseed the degraded alarm clears (R310 to R312). -/
def rekeyMask (s0 : State) : State :=
  let s1 := { s0 with turret := { s0.turret with maskAt := s0.now } }
  if s1.turret.rng != 0 && (s1.turret.drbg.1.isEmpty || 2 ^ 24 ≤ s1.turret.calls) then s1
  else
    let rekey (i : Nat) (t : State) : State :=
      let d := generate 32 t
      keyUpd (slotMask + i) (fun k => { k with r0 := { k.r0 with k1 := d.1, state := 1 } }) d.2
    let s4 := if domOn s0 25 then rekey 0 s1 else s1
    let s5 := if domOn s0 26 then rekey 1 s4 else s4
    if s5.turret.rng = 0 && s5.turret.degraded then
      post 0x0707 false [] { s5 with turret := { s5.turret with degraded := false, fixed := false } }
    else s5

/-- MASK_REKEY (R310). -/
def execMaskRekey (s : State) : Out :=
  .next (
    let halves := b2n (domOn s 25) + b2n (domOn s 26)
    if halves = 0 then s else rekeyMask (advanceTo (s.turret.maskAt + msNs) s))

end Sys2Proof.Machine
end

