-- ==== Sys2Proof/Machine/Memory.lean ====
section
/-! DEFINITION. The commands and events of stored-data protection (spec/13_stored_data_protection.md). -/

namespace Sys2Proof.Machine

/-- SET_MEMORY_CONFIG (R345). -/
def checkSetMemoryConfig (c : Ctx) (s : State) : Nat :=
  let p := c.pk.params
  gated s (!plainLen 12 c) [
    (decide (u32 p 0 < 4) || decide (86400 < u32 p 0) || u16 p 4 == 0 || decide (36000 < u16 p 4) || u8 p 6 == 0 || decide (8 < u8 p 6)
      || decide (8 ≤ u8 p 7) || !zeroAt p 8 4, stBadParam)]
/-- The settings of R344 are stored. -/
def runSetMemoryConfig (c : Ctx) (s : State) : Res :=
  let p := c.pk.params
  let f := u8 p 7
  done { s with mem := { s.mem with domePeriod := u32 p 0, sramPeriod := u16 p 4, thr := u8 p 6, domeScrub := f.testBit 0,
                                    sramScrub := f.testBit 1, autoRemap := f.testBit 2 } }
/-- SET_MEMORY_CONFIG. -/
def execSetMemoryConfig (pk : Packet) (s : State) : Out := .next (serve 0x0801 checkSetMemoryConfig runSetMemoryConfig pk s)

/-- A target byte names a stack or a region. -/
def targetOk (t : Nat) : Bool := t ≤ 1 || (16 ≤ t && t ≤ 29)

/-- The domain of a target. -/
def targetDom (t : Nat) : Nat := if t ≤ 1 then stackDom t else regionDom (t - 16)

/-- The remap entries of a target. -/
def targetRemap (s : State) (t : Nat) : List RemapEntry := if t ≤ 1 then (domeGet s t).remap else (regionGet s (t - 16)).remap

/-- The scrubber and counters of a target. -/
def targetScrub (s : State) (t : Nat) : Scrub := if t ≤ 1 then (domeGet s t).scrub else (regionGet s (t - 16)).scrub

/-- The scrubber of a target updated. -/
def scrubUpd (t : Nat) (f : Scrub → Scrub) (s : State) : State :=
  if t ≤ 1 then domeCount t f s else regionUpd (t - 16) (fun g => { g with scrub := f g.scrub }) s

/-- Addresses that a pass of a target reads. -/
def targetWords (t : Nat) : Nat := if t ≤ 1 then 2 ^ 26 else regionWords (t - 16)

/-- GET_MEMORY_STATUS (R346). -/
def checkGetMemoryStatus (c : Ctx) (s : State) : Nat :=
  gated s (!plainLen 4 c) [(!targetOk (u8 c.pk.params 0) || !zeroAt c.pk.params 1 3, stBadParam)]
/-- The 32-byte result; the counters clear. -/
def runGetMemoryStatus (c : Ctx) (s : State) : Res :=
  let t := u8 c.pk.params 0
  let v := targetScrub s t
  let es := targetRemap s t
  let on := domOn s (targetDom t)
  let ready := if t ≤ 1 then on && (domeGet s t).ready else on
  let n (f : RemapEntry → Bool) : Nat := (es.filter f).length
  doneWith (scrubUpd t (fun x => { x with corrected := 0, uncorr := 0, passes := 0, retiredCount := 0, overflow := 0 }) s)
    (le 1 (b2n on + 2 * b2n ready + 4 * b2n v.full + 8 * b2n v.late) ++ le 1 (n (·.valid)) ++ le 1 (n fun e => e.valid && e.poison)
      ++ le 1 (n fun e => e.valid && !e.journalled) ++ le 4 v.corrected ++ le 4 v.uncorr ++ le 4 v.passes
      ++ le 4 (v.pos * 10000 / targetWords t) ++ le 4 (min v.lastPass (2 ^ 32 - 1)) ++ le 4 v.retiredCount ++ le 4 v.overflow)
/-- GET_MEMORY_STATUS. -/
def execGetMemoryStatus (pk : Packet) (s : State) : Out := .next (serve 0x0802 checkGetMemoryStatus runGetMemoryStatus pk s)

/-- GET_CE_LOG (R347). -/
def checkGetCeLog (c : Ctx) (s : State) : Nat :=
  let p := c.pk.params
  gated s (!plainLen 4 c) [(decide (1 < u8 p 0) || decide (2 ≤ u8 p 1) || !zeroAt p 2 2, stBadParam)]
/-- A log entry of 16 bytes (R333). -/
def ceBytes (e : CeEntry) : List Byte :=
  le 4 (e.addr + 2 ^ 26 * b2n e.cw1 + 2 ^ 27 * b2n e.uncorr + 2 ^ 28 * b2n e.remapped) ++ le 1 e.symbol ++ le 1 e.hits ++ le 2 e.count
    ++ le 4 e.first ++ le 4 e.last
/-- The 260-byte result; the log clears where asked. -/
def runGetCeLog (c : Ctx) (s : State) : Res :=
  let p := c.pk.params
  let l := (domeGet s (u8 p 0)).log
  doneWith (if (u8 p 1).testBit 0 then domeUpd (u8 p 0) (fun d => { d with log := [] }) s else s)
    (slice (le 1 l.length ++ le 3 0 ++ l.flatMap ceBytes) 0 260)
/-- GET_CE_LOG. -/
def execGetCeLog (pk : Packet) (s : State) : Out := .next (serve 0x0803 checkGetCeLog runGetCeLog pk s)

/-- SET_REMAP (R348). -/
def checkSetRemap (c : Ctx) (s : State) : Nat :=
  let p := c.pk.params
  let t := u8 p 0
  let es := targetRemap s t
  let e := es.getD (u8 p 2) {}
  let release := u8 p 1 == 0
  gated s (!plainLen 8 c) [
    (!targetOk t || decide (1 < u8 p 1) || decide (es.length ≤ u8 p 2) || !zeroAt p 3 1
      || (!release && decide (targetWords t ≤ u32 p 4)), stBadParam),
    (if release then !e.valid else es.any fun x => x.valid && x.addr == u32 p 4, stBadParam),
    (!domOn s (targetDom t), stBadState),
    (if release then e.poison else es.all (·.valid), stBadState)]
/-- A line or word is remapped with its contents, or an entry released with its contents copied back. -/
def runSetRemap (c : Ctx) (s : State) : Res :=
  let p := c.pk.params
  let t := u8 p 0
  if u8 p 1 = 0 then done (if t ≤ 1 then releaseLine t (u8 p 2) s else releaseWord (t - 16) (u8 p 2) s)
  else done (if t ≤ 1 then remapLine t (u32 p 4) false s else remapWord (t - 16) (u32 p 4) false s)
/-- SET_REMAP. -/
def execSetRemap (pk : Packet) (s : State) : Out := .next (serve 0x0804 checkSetRemap runSetRemap pk s)

/-- The key of a bank in the table of repaired rows. -/
def bankKey (stack pc bank : Nat) : Nat := 1024 * stack + 32 * pc + bank

/-- REPAIR_ROW (R349). [log 139 DESIGN CHOICE] -/
def checkRepairRow (c : Ctx) (s : State) : Nat :=
  let p := c.pk.params
  let key := bankKey (u8 p 0) (u8 p 1) (u8 p 2)
  gated s (!plainLen 8 c) [
    (decide (1 < u8 p 0) || decide (31 < u8 p 1) || decide (31 < u8 p 2) || !zeroAt p 3 1 || decide (4095 < u16 p 4) || !zeroAt p 6 2,
      stBadParam),
    (s.mem.repair.isSome, stBusy),
    (!(s.mode.cur == .configure || s.mode.cur == .maintain) || !domOn s (stackDom (u8 p 0)) || !(domeGet s (u8 p 0)).ready
      || captureRuns s || decide (Config.spareRows key < tget 0 s.mem.spareUsed key), stBadState)]
/-- The repair runs (R338). [log 139 DESIGN CHOICE] -/
def runRepairRow (c : Ctx) (s : State) : Res :=
  let p := c.pk.params
  later { s with mem := { s.mem with repair := some ⟨c.ref, u8 p 0, u8 p 1, u8 p 2, u16 p 4⟩ } }
/-- REPAIR_ROW. -/
def execRepairRow (pk : Packet) (s : State) : Out := .next (serve 0x0805 checkRepairRow runRepairRow pk s)

/-- The line address of a line of a row (R323). -/
def rowLine (r : RowRepair) (line : Nat) : Nat := r.pc * 2 ^ 21 + r.bank * 2 ^ 16 + r.row * 16 + line

/-- ROW_REPAIR_DONE (R338): entries of the row without POISON are released; lines that failed verification are remapped. -/
def execRowRepairDone (failed : List Nat) (s : State) : Out :=
  .next (match s.mem.repair with
    | none => s
    | some r =>
      let key := bankKey r.stack r.pc r.bank
      let free := (List.range 16).filter fun i =>
        let e := (domeGet s r.stack).remap.getD i {}
        e.valid && !e.poison && e.addr / 16 == rowLine r 0 / 16
      let s1 := { s with mem := { s.mem with repair := none, spareUsed := tupd 0 s.mem.spareUsed key (· + 1) } }
      let s2 := free.foldl (fun t i => releaseLine r.stack i t) s1
      let bad := (List.range 16).filter fun i => failed.contains i
      let s3 := bad.foldl (fun t i => remapLine r.stack (rowLine r i) false t) s2
      complete r.ref stOk (le 1 (1 + 2 * b2n (!bad.isEmpty)) ++ le 1 free.length ++ le 2 0) s3)

/-! Consumers. -/

/-- A frame of a sector that was lost (R247): some of its words, which the manual leaves open, are delivered as zero, and its copy is not good
(R249). [log 142 DESIGN CHOICE] -/
def spoilFrame (seed : Nat) (x : HeldFrame) : HeldFrame :=
  { x with good := false, slots := x.slots.zipIdx.map fun e => if Config.freeNat 247 (2 ^ 20 * seed + e.2) % 2 = 0 then e.1 else 0 }

/-- A sector of frame data was uncorrectable (R247): counted; the frame that it held, which the manual leaves open, is spoiled, and in TWIN and BONDED
the tenants with a word in it have a pointer period replaced. [log 142 DESIGN CHOICE] -/
def frameSectorLost (sector : Nat) (s : State) : State :=
  if 524288 ≤ sector then s
  else
    let c := carrierOf (sector / 262144)
    let g := drawNat 2470 bufFrames s
    let s1 := { g.2 with skew := { g.2.skew with
      domeUncorr := satAdd 16 g.2.skew.domeUncorr 1
      bufs := pupd g.2.skew.bufs c fun l => lupd l g.1 (spoilFrame s.free) } }
    if s.mode.cur = .twin || s.mode.cur = .bonded then
      (tenantsOf (rxTable s c)).foldl (fun t x =>
        let d := drawBool 247 t
        if d.1 then tenUpd x (fun v => { v with rx := { v.rx with replaceNext := true } }) d.2 else d.2) s1
    else s1

/-- DOME_CIPHER_REQUEST (R291, R308, R329): a consumer writes or reads a whole sector. -/
def execDomeCipherRequest (sector : Nat) (write : Bool) (data : List Byte) (s : State) : Out :=
  .next (
    if 2097152 ≤ sector || !sectorUsable s sector then s
    else
      let s1 := countBlocks 257 (if write then s else countSrc 0x0A (61 + sector % 2) 4096 s)
      if write then sectorWrite sector data s1
      else
        let r := sectorRead s1 sector
        let s2 := { s1 with mem := { s1.mem with given := some ⟨sector, r.1, r.2⟩ } }
        if r.2 then frameSectorLost sector s2 else s2)

/-- DOME_SECTOR_TIMEOUT (R292, R329): a sector not served within 20 us reads uncorrectable. -/
def execDomeSectorTimeout (sector : Nat) (s : State) : Out :=
  .next (
    if 2097152 ≤ sector || !sectorUsable s sector then s
    else frameSectorLost sector { s with mem := { s.mem with given := some ⟨sector, zeroBytes, true⟩ } })

/-- DOME_LINE_OPERATION (R331, R334). -/
def execDomeLineOperation (stack addr : Nat) (op : LineOp) (s : State) : Out :=
  .next (
    if 2 ≤ stack || 2 ^ 26 ≤ addr || !domOn s (stackDom stack) || !(domeGet s stack).ready then s
    else match op with
      | .write data => lineWrite stack addr data s
      | .read flips =>
        let r := readLine stack addr flips s
        if r.1 then frameSectorLost (sectorOf stack addr) r.2.2 else r.2.2)

/-- DOME_REFRESH (R322): all banks of a stack are refreshed; the interval is halved while its sensor reads above 85 C. -/
def execDomeRefresh (stack : Nat) (hot : Bool) (s : State) : Out :=
  .next (
    if 2 ≤ stack || !domOn s (stackDom stack) then s
    else
      let s1 := advanceTo (domeGet s stack).refreshAt s
      domeUpd stack (fun d => { d with hot := hot, refreshAt := s1.now + if hot then 1950 else 3900 }) s1)

/-- DOME_STACK_READY (R332): the verifying pass has ended; failing lines are remapped, or their sectors retired. -/
def execDomeStackReady (stack : Nat) (failing : List Nat) (s : State) : Out :=
  .next (
    if 2 ≤ stack || (domGet s (stackDom stack)).state != .init || (domeKey s).state != 1 then s
    else
      let fix (t : State) (a : Nat) : State :=
        if (domeGet t stack).remap.all (·.valid) then
          let was := (domeGet t stack).scrub.full
          retireSector stack a (raiseFull stack was (domeCount stack (fun c => { c with full := true }) t))
        else remapLine stack (a % 2 ^ 26) false t
      let moved (n : Nat) (t : State) : State := countSrc 0x0A (61 + stack) (2 ^ 32) (countSrc 0x09 (61 + stack) n t)
      let s1 := failing.foldl fix (moved (2 ^ 32 + 4096 * failing.length) s)
      domainUp (stackDom stack) (domeUpd stack (fun d => { d with ready := true, refreshAt := s1.now + 3900 }) s1))

/-! Scrubbers (R342, R343). -/

/-- A target is scrubbed. -/
def scrubbed (s : State) (t : Nat) : Bool :=
  targetOk t && domOn s (targetDom t) && (if t ≤ 1 then s.mem.domeScrub && (domeGet s t).ready else s.mem.sramScrub)

/-- The period of the next pass (ns): under the throttle warning no faster than the default (R343). -/
def scrubPeriod (s : State) (t : Nat) : Nat :=
  if t ≤ 1 then (if s.therm.warn then max 600 s.mem.domePeriod else s.mem.domePeriod) * secNs
  else (if s.therm.warn then max 100 s.mem.sramPeriod else s.mem.sramPeriod) * 100 * msNs

/-- SCRUB_PASS_START (R342): a pass starts at the lowest address, a period after the start of the last one. -/
def execScrubPassStart (target : Nat) (s : State) : Out :=
  .next (
    if !scrubbed s target then s
    else
      let v := targetScrub s target
      let s1 := match v.passAt with
        | some t => advanceTo (t + v.period) s
        | none => s
      scrubUpd target (fun x => { x with passAt := some s1.now, period := scrubPeriod s1 target, pos := 0, finished := false }) s1)

/-- SCRUB_LATE (R342): a pass not finished within 110 % of its period raises the alarm. -/
def execScrubLate (target : Nat) (s : State) : Out :=
  .next (
    let v := targetScrub s target
    match v.passAt with
    | none => s
    | some t =>
      if !targetOk target || v.finished || v.late then s
      else post 0x0804 true [target] (scrubUpd target (fun x => { x with late := true }) (advanceTo (t + v.period * 11 / 10) s)))

/-- The scrubber has read an address: at the last one the pass finishes (R342). [log 145 DEDUCED] -/
def scrubStep (target addr : Nat) (s : State) : State :=
  let v := targetScrub s target
  if v.finished then s
  else if addr + 1 < targetWords target then scrubUpd target (fun x => { x with pos := addr + 1 }) s
  else
    let t0 := v.passAt.getD s.now
    let ok := decide (s.now - t0 ≤ v.period)
    let s1 := scrubUpd target (fun x => { x with
      pos := 0, finished := true, passes := satAdd 32 x.passes 1, lastPass := (s.now - t0) / msNs, late := x.late && !ok }) s
    if v.late && ok then post 0x0804 false [target] s1 else s1

/-- A visit to a logged line of the Dome (R334): a hit where a correction was made now or since the last visit; at
remap_thr hits the line is remapped. [log 145 DEDUCED] -/
def visitLine (stack addr : Nat) (fixed : Bool) (s : State) : State :=
  match (domeGet s stack).log.find? (fun e => e.addr == addr) with
  | none => s
  | some e =>
    if domWarn s (stackDom stack) then s
    else
      let hits := if fixed || e.since then satAdd 8 e.hits 1 else e.hits
      let s1 := domeUpd stack (fun d => { d with log := d.log.map fun x => if x.addr = addr then { x with hits := hits, since := false } else x }) s
      if s.mem.autoRemap && decide (s.mem.thr ≤ hits) && (domeEntry s stack addr).isNone then remapLine stack addr false s1 else s1

/-- The number of flipped bits that an on-die word shows. -/
def flippedBits (l : List (Nat × Byte)) : Nat := (l.map fun x => ((List.range 8).filter fun i => x.2.getLsbD i).length).sum

/-- A visit to an on-die word (R328, R340, R341): one bit is corrected, two are detected, three or more may be miscorrected. [log 145 DEDUCED] -/
def visitWord (r word n : Nat) (s : State) : State :=
  let d := drawBool 328 s
  let bad := n = 2 || (2 < n && d.1)
  let s0 := if 2 < n then d.2 else s
  if (regionGet s r).remap.any (fun e => e.valid && e.addr == word) || n = 0 then s
  else if bad then
    remapWord r word true (postEv 0x0802 [16 + r, word]
      (regionUpd r (fun g => { g with scrub := { g.scrub with uncorr := satAdd 32 g.scrub.uncorr 1 } }) s0))
  else
    let s1 := regionUpd r (fun g => { g with scrub := { g.scrub with corrected := satAdd 32 g.scrub.corrected 1 } }) s0
    if domWarn s (regionDom r) then s1
    else
      let hits := satAdd 8 (tget 0 (regionGet s r).hits word) 1
      let s2 := regionUpd r (fun g => { g with hits := tset 0 g.hits word hits }) s1
      if s.mem.autoRemap && decide (s.mem.thr ≤ hits) then remapWord r word false s2 else s2

/-- SCRUB_VISIT (R334, R341, R342): the scrubber of a target reads one line or word and finds flips. -/
def execScrubVisit (target addr : Nat) (flips : List (Nat × Byte)) (s : State) : Out :=
  .next (
    if !scrubbed s target || targetWords target ≤ addr then s
    else if target ≤ 1 then
      let r := readLine target addr flips (scrubBack target addr flips s)
      let s1 := visitLine target addr r.2.1 r.2.2
      scrubStep target addr (if r.1 then frameSectorLost (sectorOf target addr) s1 else s1)
    else scrubStep target addr (visitWord (target - 16) addr (flippedBits flips) s))

/-- The learned model is taken from the journal again (R340, R364). -/
def reloadModel (s : State) : State :=
  match journalBody s jBelfry 0 with
  | some l => belUpd (fun b => { b with model := modelOf l }) s
  | none => s

/-- A word of a tenant's data is delivered as zero, which one the manual leaves open, and the period is replaced (R340). [log 246 DESIGN CHOICE] -/
def loseTenantWord (s : State) (t : Nat) : State :=
  let d := drawNat 340 32768 s
  tenUpd t (fun v => { v with rx := { v.rx with
    replaceNext := true
    frames := match v.rx.frames with
      | [] => []
      | f :: r => { f with words := f.words.set (d.1 % max 1 f.words.length) 0 } :: r } }) d.2

/-- What a region can hold (R339, R340). -/
def useFits (region : Nat) : SramUse → Bool
  | .settings | .code => region == 0
  | .holdover | .dpllWord => region == 1
  | .tenants _ => region == 2
  | .sample | .loopState => region == 3 || region == 5
  | .block => region == 4 || region == 6
  | .spare _ => region == 7 || region == 8
  | .engine _ | .checkpoint _ => 9 ≤ region && region ≤ 12
  | .message _ _ => region == 13

/-- What an on-die word that failed was holding has its consequence (R340). -/
def sramLoss (region : Nat) (use : SramUse) (s : State) : State :=
  match use with
  | .settings => s
  | .code => controllerMismatchOp s
  | .holdover => reloadModel s
  | .dpllWord => s
  | .tenants ts => ts.foldl loseTenantWord s
  | .sample => rxUpd (if region = 5 then .b else .a) (fun r => { r with lost := true }) s
  | .loopState => loseLock (if region = 5 then .b else .a) false s
  | .block =>
    let c : Carrier := if region = 6 then .b else .a
    fecUpd c (fun f => { f with window := match f.window with
      | [] => []
      | b :: r => { b with convAt := none, badFill := true } :: r }) s
  | .spare entry =>
    let stack := region - 7
    let addr := ((domeGet s stack).remap.getD entry {}).addr
    let s1 := domeUpd stack (fun d => { d with remap := lupd d.remap entry fun e => if e.valid then { e with poison := true } else e }) s
    postEv 0x0802 [stack, addr] (domeCount stack (fun c => { c with uncorr := satAdd 32 c.uncorr 1 }) s1)
  | .engine e => engineFails e s
  | .checkpoint e => dropCheckpoint e s
  | .message p i => portUpd p (fun r => { r with waiting := r.waiting.eraseIdx i }) s

/-- SRAM_UNCORRECTABLE (R340): the word is remapped with POISON set, MEM_UE posted, and the region's consequence follows. -/
def execSramUncorrectable (region word : Nat) (use : SramUse) (s : State) : Out :=
  .next (
    if 14 ≤ region || regionWords region ≤ word || !useFits region use || !domOn s (regionDom region) then s
    else
      let s1 := regionUpd region (fun g => { g with scrub := { g.scrub with uncorr := satAdd 32 g.scrub.uncorr 1 } }) s
      sramLoss region use (remapWord region word true (postEv 0x0802 [16 + region, word] s1)))

end Sys2Proof.Machine
end

