-- ==== Sys2Proof/Machine/Pcie.lean ====
section
/-! DEFINITION. The endpoint, the register rows, the performance counters and the bandwidth windows (spec/16_pcie_dma_counters.md). -/

namespace Sys2Proof.Machine

/-- A word of the configuration space (R408): the IDs and the revision; what the manual does not give is free. [log 249 DESIGN CHOICE] -/
def cfgRead (off : Nat) (s : State) : Nat × State :=
  if off = 0 then (0x6432_1C5E, s)
  else if off = 8 then
    let d := drawNat 408 (2 ^ 24) s
    (256 * d.1 + 0xB0, d.2)
  else drawNat 408 (2 ^ 32) s

/-- CONFIG_REQUEST (R409): answered with retry status before READY, and normally after; a write sets what it names. -/
def execConfigRequest (w : CfgAccess) (s : State) : Out :=
  .next (
    if !s.ctl.ready || s.pcie.perst then { s with pcie := { s.pcie with retry := !s.ctl.ready } }
    else
      let s1 := { s with pcie := { s.pcie with retry := false, answerAt := none } }
      match w with
      | .read off =>
        let r := cfgRead off s1
        { r.2 with page := { r.2.page with readData := r.1 } }
      | .busMaster v => sendAllPending { s1 with pcie := { s1.pcie with busMaster := v } }
      | .msixEnable v => sendAllPending { s1 with pcie := { s1.pcie with msixEnable := v } }
      | .msixMask v => sendAllPending { s1 with pcie := { s1.pcie with msixMask := v } })

/-- FUNCTION_LEVEL_RESET (R409). [log 26 PRESUMED] -/
def execFunctionLevelReset (s : State) : Out := .next (if s.ctl.ready then endpointReset s else s)

/-- PERST_N_ASSERT (R409): after READY it acts as a function-level reset. -/
def execPerstNAssert (s : State) : Out :=
  .next (
    let s1 := { s with pcie := { s.pcie with perst := true, answerAt := none } }
    if s.ctl.ready && !s.pcie.perst then endpointReset s1 else s1)

/-- PERST_N_DEASSERT (R409): the endpoint answers configuration requests within 100 ms. -/
def execPerstNDeassert (s : State) : Out :=
  .next { s with pcie := { s.pcie with perst := false, answerAt := if s.ctl.ready then some (s.now + 100 * msNs) else none } }

/-- PCIE_LINK (R415): a change of link speed or width posts PCIE_LINK; a link that goes down is counted (R436). -/
def execPcieLink (speed width : Nat) (s : State) : Out :=
  .next (
    if speed = s.pcie.speed && width = s.pcie.width then s
    else
      postEv 0x0B02 [speed, width] { s with pcie := { s.pcie with
        speed := speed, width := width, linkDowns := satAdd 16 s.pcie.linkDowns (b2n (speed == 0 && s.pcie.speed != 0)) } })

/-- QRSP_SIZE_WRITE (R413). -/
def execQrspSizeWrite (q : QueueId) (value : BitVec 32) (s : State) : Out :=
  .next (match q with
    | .q3 | .relay => s
    | _ => posted (.reg (queueBase q + 0x110) value.toNat) .clean s)

/-- QRSP_HEAD_WRITE (R413). -/
def execQrspHeadWrite (q : QueueId) (value : BitVec 32) (s : State) : Out :=
  .next (match q with
    | .q3 | .relay => s
    | _ => posted (.reg (queueBase q + 0x114) value.toNat) .clean s)

/-- EVT_SIZE_WRITE (R414). -/
def execEvtSizeWrite (value : BitVec 32) (s : State) : Out := .next (posted (.reg 0x2008 value.toNat) .clean s)

/-- EVT_HEAD_WRITE (R414). -/
def execEvtHeadWrite (value : BitVec 32) (s : State) : Out := .next (posted (.reg 0x200C value.toNat) .clean s)

/-- EVT_LOST_READ (R414, R419): the count is returned and cleared. -/
def execEvtLostRead (s : State) : Out :=
  .next (
    let s1 := countSrc 0x0A 60 4 s
    { s1 with page := { s1.page with readData := s.ev.lost }, ev := { s1.ev with lost := 0, since := false } })

/-- MSIX_UNMASK (R414): vector control is written with the mask bit clear; a pending message is sent. -/
def execMsixUnmask (vector : Nat) (s : State) : Out :=
  .next (if vector < 22 then posted (.reg (0x2800 + 16 * vector + 12) 0) .clean s else s)

/-- DMA_DOORBELL (R421). -/
def execDmaDoorbell (ch : Nat) (host : List Host.Cell) (err : Bool) (s : State) : Out :=
  .next (if ch < 16 then posted (.bell ch host err) .clean s else s)

/-- DMA_ABORT (R425). -/
def execDmaAbort (ch : Nat) (s : State) : Out :=
  .next (if ch < 16 then posted (.reg (0x3000 + 0x100 * ch + 0x08) 1) .clean s else s)

/-- DMA_CPL_HEAD_WRITE (R417). -/
def execDmaCplHeadWrite (ch : Nat) (value : BitVec 32) (s : State) : Out :=
  .next (if ch < 16 then posted (.reg (0x3000 + 0x100 * ch + 0x2C) value.toNat) .clean s else s)

/-- CNT_SNAPSHOT (R418). -/
def execCntSnapshot (value : BitVec 32) (s : State) : Out := .next (posted (.reg 0x4610 value.toNat) .clean s)

/-- CNT_OVF_CLEAR (R418): a write to word `idx` of CNT_OVF. -/
def execCntOvfClear (idx : Nat) (value : BitVec 32) (s : State) : Out :=
  .next (if idx < 4 then posted (.reg (0x4620 + 4 * idx) value.toNat) .clean s else s)

/-- BW_PEAK_READ (R418, R6): the peak is returned and cleared; a 32-bit read returns and latches as R410 says. -/
def execBwPeakRead (port : Nat) (out wide : Bool) (s0 : State) : Out :=
  .next (
    if 63 ≤ port then s0
    else
      let s := countSrc 0x0A 60 (if wide then 8 else 4) s0
      let v := if out then tget 0 s.cnt.bwPeakOut port else tget 0 s.cnt.bwPeakIn port
      let off := 0x4810 + 32 * port + 8 * b2n out
      let c := if out then { s.cnt with bwPeakOut := tset 0 s.cnt.bwPeakOut port 0 }
        else { s.cnt with bwPeakIn := tset 0 s.cnt.bwPeakIn port 0 }
      if wide then { s with cnt := c, page := { s.page with readData := v } }
      else { s with cnt := { c with latchKey := some off, latchVal := v / 2 ^ 32 }, page := { s.page with readData := v % 2 ^ 32 } })

/-- A 32-bit read of BAR2 (R410, R431): a granted counter, or a violation that reads zero. -/
def readBar2 (off : Nat) (wide : Bool) (s0 : State) : State :=
  let s := countSrc 0x0A 60 (if wide then 8 else 4) s0
  let a : Access := ⟨true, off, false, if wide then 64 else 32⟩
  let keep (v : Nat) (t : State) : State := { t with page := { t.page with readData := v } }
  if !accessOk s a then keep 0 (violation (violationWord a) s)
  else
    let v := counterValue s (off / 8)
    let key := 0x1_0000 + off
    if wide then keep v s
    else if off % 8 = 0 then keep (v % 2 ^ 32) { s with cnt := { s.cnt with latchKey := some key, latchVal := v / 2 ^ 32 } }
    else if s.cnt.latchKey = some (key - 4) then keep s.cnt.latchVal { s with cnt := { s.cnt with latchKey := none, latchVal := 0 } }
    else keep (v / 2 ^ 32) s

/-- COUNTER_LOW_READ (R410): a 32-bit read of a half of a counter or window value. -/
def execCounterLowRead (bar2 : Bool) (offset : Nat) (s : State) : Out :=
  .next (if bar2 then readBar2 offset false s else readLatched offset s)

/-- VIOLATION_CLEAR (R419). -/
def execViolationClear (value : BitVec 32) (s : State) : Out := .next (posted (.reg 0x5008 value.toNat) .clean s)

/-- BAR2_COUNTER_READ (R431). -/
def execBar2CounterRead (offset : Nat) (wide : Bool) (s : State) : Out := .next (readBar2 offset wide s)

/-- VIOLATION (R411): a violating access reads zero or is ignored, and is recorded. -/
def execViolation (acc : Access) (s : State) : Out :=
  .next (
    if accessOk s acc then s
    else
      let s1 := violation (violationWord acc) s
      if acc.write then s1 else { s1 with page := { s1.page with readData := 0 } })

/-- REGISTER_WRITE (R6). -/
def execRegisterWrite (offset : Nat) (value : BitVec 32) (s : State) : Out := .next (posted (.reg offset value.toNat) .clean s)

/-- EVENT_RING_WRITE (R416): the oldest held event is written when room exists, and vector 3 is raised. -/
def execEventRingWrite (s : State) : Out := .next (flushEvent s)

/-- COUNTER_WRAP (R429): an enabled counter counts `n` more of its source, wrapping past 2^48 - 1. [log 33 DEDUCED] -/
def execCounterWrap (idx n : Nat) (s : State) : Out :=
  .next (if idx < 128 && (tget {} s.cnt.cfg idx).enable && !(tget {} s.cnt.cfg idx).chain then countOne idx n s else s)

/-- BW_WINDOW_END (R430): a port's window ends; BW_IN and BW_OUT take its counts together and the peaks update. [log 32 DESIGN CHOICE] -/
def execBwWindowEnd (port : Nat) (s : State) : Out :=
  .next (match tget 0 s.cnt.bwEnd port with
    | 0 => s
    | e + 1 =>
      let s1 := advanceTo e s
      let i := tget 0 s1.cnt.bwAccIn port % 2 ^ 64
      let o := tget 0 s1.cnt.bwAccOut port % 2 ^ 64
      { s1 with cnt := { s1.cnt with
          bwAccIn := tset 0 s1.cnt.bwAccIn port 0, bwAccOut := tset 0 s1.cnt.bwAccOut port 0,
          bwIn := tset 0 s1.cnt.bwIn port i, bwOut := tset 0 s1.cnt.bwOut port o,
          bwPeakIn := tupd 0 s1.cnt.bwPeakIn port (max i), bwPeakOut := tupd 0 s1.cnt.bwPeakOut port (max o),
          bwEnd := tset 0 s1.cnt.bwEnd port (s1.now + 1000 * tget 0 s1.cnt.bwWin port + 1) } })

/-! Commands. -/

/-- The objects of a counter source (R427). -/
def objectOk (source object : Nat) : Bool :=
  if source ≤ 0x04 then if source = 0 then object == 0 else decide (object < 2)
  else if source ≤ 0x07 then decide (object < 1024)
  else if source = 0x08 then decide (object < 40)
  else if source ≤ 0x0A then decide (object < 63)
  else if source = 0x0B then decide (object < 2)
  else if source = 0x0C then decide (object < 16)
  else if source = 0x0D then decide (object < 4)
  else if source = 0x0E then decide (object < 12)
  else if source ≤ 0x10 then object == 0
  else false

/-- SET_COUNTER (R432). -/
def checkSetCounter (c : Ctx) (_ : State) : Nat :=
  let p := c.pk.params
  let chain := (u8 p 4).testBit 1
  firstBad [
    (!plainLen 8 c || decide (127 < u8 p 0) || decide (8 ≤ u8 p 4) || !zeroAt p 5 3, stBadParam),
    (!objectOk (u8 p 1) (u16 p 2), stBadParam),
    (chain && (u8 p 0 % 2 == 0 || u8 p 1 != 0 || u16 p 2 != 0), stBadParam)]
/-- The settings are stored; value and OVF bit clear (R429). -/
def runSetCounter (c : Ctx) (s : State) : Res :=
  let p := c.pk.params
  let i := u8 p 0
  let f := u8 p 4
  done { s with cnt := { s.cnt with
    cfg := tset {} s.cnt.cfg i ⟨u8 p 1, u16 p 2, f.testBit 0, f.testBit 1, f.testBit 2⟩,
    val := tset 0 s.cnt.val i 0, ovf := setBit s.cnt.ovf i false } }
/-- SET_COUNTER. -/
def execSetCounter (pk : Packet) (s : State) : Out := .next (serve 0x0B01 checkSetCounter runSetCounter pk s)

/-- GRANT_COUNTERS (R433). -/
def checkGrantCounters (c : Ctx) (_ : State) : Nat :=
  firstBad [(!plainLen 20 c || decide (2 < u8 c.pk.params 0) || !zeroAt c.pk.params 1 3, stBadParam)]
/-- The grants are set, added or removed. -/
def runGrantCounters (c : Ctx) (s : State) : Res :=
  let m := uField c.pk.params 4 16
  let g := s.cnt.grant
  done { s with cnt := { s.cnt with grant := match u8 c.pk.params 0 with
    | 0 => m
    | 1 => g ||| m
    | _ => g - (g &&& m) } }
/-- GRANT_COUNTERS. -/
def execGrantCounters (pk : Packet) (s : State) : Out := .next (serve 0x0B02 checkGrantCounters runGrantCounters pk s)

/-- SET_BW_WINDOW (R434). -/
def checkSetBwWindow (c : Ctx) (_ : State) : Nat :=
  let p := c.pk.params
  firstBad [(!plainLen 8 c || decide (62 < u8 p 0) || !zeroAt p 1 3 || decide (1000000 < u32 p 4), stBadParam)]
/-- The new window starts at once; the partial window is discarded (R430). [log 32 DESIGN CHOICE] -/
def runSetBwWindow (c : Ctx) (s : State) : Res :=
  let p := u8 c.pk.params 0
  let w := u32 c.pk.params 4
  done { s with cnt := { s.cnt with
    bwWin := tset 0 s.cnt.bwWin p w, bwAccIn := tset 0 s.cnt.bwAccIn p 0, bwAccOut := tset 0 s.cnt.bwAccOut p 0,
    bwEnd := tset 0 s.cnt.bwEnd p (if w = 0 then 0 else s.now + 1000 * w + 1) } }
/-- SET_BW_WINDOW. -/
def execSetBwWindow (pk : Packet) (s : State) : Out := .next (serve 0x0B03 checkSetBwWindow runSetBwWindow pk s)

/-- READ_COUNTERS (R435). -/
def checkReadCounters (c : Ctx) (_ : State) : Nat :=
  let p := c.pk.params
  firstBad [
    (!plainLen 4 c || decide (2 ≤ u8 p 2) || !zeroAt p 3 1, stBadParam),
    (decide (127 < u8 p 0) || u8 p 1 == 0 || decide (128 < u8 p 0 + u8 p 1), stBadParam)]
/-- The values of `count` counters from `first` on; with snapshot first, from one instant. -/
def runReadCounters (c : Ctx) (s : State) : Res :=
  let p := c.pk.params
  let snap := (u8 p 2).testBit 0
  let s1 := if snap then takeSnapshot s else s
  doneWith s1 ((List.range (u8 p 1)).flatMap fun j =>
    le 8 (if snap then tget 0 s1.cnt.snap (u8 p 0 + j) else counterValue s1 (u8 p 0 + j)))
/-- READ_COUNTERS. -/
def execReadCounters (pk : Packet) (s : State) : Out := .next (serve 0x0B04 checkReadCounters runReadCounters pk s)

/-- GET_PCIE_STATUS (R436). -/
def checkGetPcieStatus (c : Ctx) (_ : State) : Nat := firstBad [(!plainLen 0 c, stBadParam)]
/-- Errors and replays on the link since the last read, of which no row tells (R408, R436). [log 249 DESIGN CHOICE] -/
def linkErrors (s : State) : State :=
  let a := drawNat 4361 (2 ^ 16) s
  let b := drawNat 4362 (2 ^ 16) a.2
  let c := drawNat 4363 (2 ^ 16) b.2
  { c.2 with pcie := { c.2.pcie with corr := a.1, uncorr := b.1, replays := c.1 } }

/-- The 32-byte result of GET_PCIE_STATUS; the 16-bit counters clear. -/
def runGetPcieStatus (_ : Ctx) (s0 : State) : Res :=
  let s := linkErrors s0
  let e := s.pcie
  doneWith { s with pcie := { e with corr := 0, uncorr := 0, replays := 0, timeouts := 0, linkDowns := 0, flr := 0 } }
    (le 1 e.speed ++ le 1 e.width ++ le 1 (b2n e.busMaster + 2 * b2n e.msixEnable + 4 * b2n e.msixMask)
      ++ le 1 (s.dma.filter fun x => x.state == 3).length ++ le 2 e.corr ++ le 2 e.uncorr ++ le 2 e.replays ++ le 2 e.timeouts
      ++ le 2 e.linkDowns ++ le 2 e.flr ++ le 4 s.page.violations ++ le 4 s.ev.lost ++ le 8 0)
/-- GET_PCIE_STATUS. -/
def execGetPcieStatus (pk : Packet) (s : State) : Out := .next (serve 0x0B05 checkGetPcieStatus runGetPcieStatus pk s)

end Sys2Proof.Machine
end

