-- ==== Sys2Proof/Machine/Pm.lean ====
section
/-! DEFINITION. The commands and events of performance monitoring and link quality (spec/11_performance_monitoring.md). -/

namespace Sys2Proof.Machine

/-- An entity is active now (R263): counted only in the traffic modes. -/
def pmActive (s : State) (e : Nat) : Bool :=
  trafficMode s.mode.cur &&
    (if e < 2 then domOn s (rxdspDom (carrierOf e)) && domOn s (fecDom (carrierOf e))
     else sizeRx s (e - 2) != 0 || (clientOf s (e - 2)).kind != 0)

/-- The entities that a second can touch: both lines, the tenants of the receive tables and of clients, and those on record. -/
def pmTouched (s : State) : List Nat :=
  let ts := tenantsOf (rxTable s .a) ++ tenantsOf (rxTable s .b) ++ s.host.clients.map (·.1)
  (pmEntities s ++ ts.map pmTen).foldl (fun l e => insNat e l) [0, 1]

/-- What the next second starts with (R265 to R267). -/
def freshAcc (s : State) (e : Nat) : PmAcc :=
  if e < 2 then
    let c := carrierOf e
    { whole := pmActive s e, defect := lineFailOn s c, farDef := rdiOn s c, deg := fecDegOn s c,
      spoiled := !(lockedOn s c && alignedOn s c) }
  else { whole := pmActive s e, defect := tenDefectOn s (e - 2), csf := tenCsfOn s (e - 2), spoiled := false }

/-- The link quality of a second (R280, R281, R288). [log 128 DESIGN CHOICE] -/
def linkQuality (s : State) (c : Carrier) (valid : Bool) (x y : Nat) : LinkQuality :=
  let f := (lineGet s c).fec
  let snr := snrMean (min x 4000) (min y 4000)
  let g := gsnrOf snr (pget s.pm.snrTrx c)
  let ber := perBillion f.sec.errors f.sec.bits
  let thr := berThreshold (iEff f)
  { valid := valid, ceiling := g.2, lower := decide (f.sec.errors * 1000000000 < f.sec.bits) || f.sec.errors == 0, iEff := iEff f,
    snrX := min x 4000, snrY := min y 4000, snr := snr, evm := evmOf snr, gsnr := g.1, q := qOf ber,
    margin := (qOf ber : Int) - qOf thr, ber := ber, berThr := thr, iterMean := meanIter f.sec.iters f.sec.blocks,
    iterMax := f.sec.iMax }

/-- The decoder's figures of the second for the bins, where it is valid. -/
def lqSecond (s : State) (c : Carrier) (q : LinkQuality) : Option LqSecond :=
  let f := (lineGet s c).fec.sec
  if q.valid then some ⟨f.bits, f.errors, f.uncorr, f.corrected, q.snr, f.blocks, f.iters⟩ else none

/-- The second of an entity ends: where it was active throughout it is classified and becomes pending; then it starts anew. -/
def endSecond (lq : Pair (Option LqSecond)) (t : Nat) (s : State) (e : Nat) : State :=
  let x := tget {} s.pm.ents e
  let line := decide (e < 2)
  let s1 := if x.acc.whole && pmActive s e then
      pmUpd e (pendSecond line t s.pm.dayUse s.pm.todUnset (if line then pget lq (carrierOf e) else none)) s
    else s
  pmUpd e (fun y => { y with acc := freshAcc s e }) s1

/-- A new day offset applies at a 15-minute end: every open 24-hour bin ends there (R282). -/
def applyDayOffset (endAt : Nat) (s : State) : State :=
  if endAt % 900 != 0 || s.pm.dayUse = s.pm.dayOff then s
  else { s with pm := { s.pm with
    dayUse := s.pm.dayOff,
    ents := s.pm.ents.map fun e => (e.1, { e.2 with bins24 := e.2.bins24.map fun b => { b with endAt := min b.endAt endAt } }) } }

/-- The decoder's sums of the second move to its figures (R149). -/
def endFecSecond (c : Carrier) (s : State) : State :=
  fecUpd c (fun f => { f with berLast := perBillion f.sec.errors f.sec.bits, iterMean := meanIter f.sec.iters f.sec.blocks,
                              sec := {} }) s

/-- The second `t` ends while counting is frozen (R278): counting resumes at the boundary that `resumeAt` names. -/
def frozenSecond (t : Nat) (s0 : State) : State :=
  let s := endFecSecond .b (endFecSecond .a s0)
  match s.pm.resumeAt with
  | none => { s with pm := { s.pm with curSec := t + 1 } }
  | some r =>
    if r ≤ t + 1 then
      (pmTouched s).foldl (fun u e => pmUpd e (fun y => { y with acc := freshAcc s e }) u)
        { s with pm := { s.pm with curSec := t + 1, frozen := false, resumeAt := none } }
    else { s with pm := { s.pm with curSec := t + 1 } }

/-- The second `t` ends: link quality is formed and every active entity's second is classified and held (R265, R282). -/
def countedSecond (t ax ay bx byy : Nat) (s : State) : State :=
  let ok (c : Carrier) : Bool :=
    !(tget {} s.pm.ents (carrierNum c)).acc.spoiled && lockedOn s c && alignedOn s c
  let qa := linkQuality s .a (ok .a) ax ay
  let qb := linkQuality s .b (ok .b) bx byy
  let lq : Pair (Option LqSecond) := ⟨lqSecond s .a qa, lqSecond s .b qb⟩
  let s1 := (pmTouched s).foldl (endSecond lq t) { s with pm := { s.pm with lq := ⟨qa, qb⟩ } }
  let s2 := endFecSecond .b (endFecSecond .a s1)
  applyDayOffset (t + 1) { s2 with pm := { s2.pm with curSec := t + 1 } }

/-- PM_SECOND_END (R264 to R267, R280): the nanoseconds field wraps; the second is classified. The operands are the measured
SNR of both polarisations of carrier A and of carrier B, 0.01 dB. While PD02 is off only the decoders' second ends (R149). -/
def execPmSecondEnd (ax ay bx byy : Nat) (s : State) : Out :=
  .next (
      let s1 := advanceTod ((s.pm.curSec + 1) * secNs) s
      if !domOn s 2 then endFecSecond .b (endFecSecond .a { s1 with pm := { s1.pm with curSec := s.pm.curSec + 1 } })
      else if s1.pm.frozen then frozenSecond s.pm.curSec s1 else countedSecond s.pm.curSec ax ay bx byy s1)

/-- The oldest pending second over all entities. -/
def oldestPending (s : State) : Option Nat :=
  s.pm.ents.foldl (fun o e => match e.2.pend, o with
    | [], _ => o
    | p :: _, none => some p.sec
    | p :: _, some t => some (min p.sec t)) none

/-- PM_SECOND_SETTLE (R268): 10 s after its end a pending second settles and is added to its bins. -/
def execPmSecondSettle (s : State) : Out :=
  .next (match oldestPending s with
    | none => s
    | some t =>
      let s1 := advanceTod ((t + 11) * secNs) s
      (pmEntities s1).foldl (settleBefore true (t + 1)) s1)

/-- PM_BIN_CLOSE (R269, R270): 10 s after their nominal end the bins that end first close and are posted. -/
def execPmBinClose (s : State) : Out :=
  .next (match (binEnds s).filter (fun d => decide (d ≤ s.pm.curSec)) with
    | [] => s
    | d :: _ =>
      let s1 := advanceTod ((d + 10) * secNs) s
      let s2 := (pmEntities s1).foldl (settleBefore true d) s1
      postEnd 1 0 d false (postEnd 0 0 d false s2))

/-! Commands. -/

/-- SET_PM_CONFIG (R283). -/
def checkSetPmConfig (c : Ctx) (s : State) : Nat :=
  let p := c.pk.params
  let trx (v : Nat) : Bool := decide (v < 100) || decide (350 < v)
  gated s (!plainLen 8 c) [
    (decide (15 < u8 p 0) || decide (3 < u8 p 1) || decide (95 < u16 p 2) || trx (u16 p 4) || trx (u16 p 6), stBadParam)]
/-- The settings are stored; a new day offset waits for the next 15-minute end (R282). -/
def runSetPmConfig (c : Ctx) (s : State) : Res :=
  let p := c.pk.params
  done { s with pm := { s.pm with dma := u8 p 0, delivery := (u8 p 1).testBit 0, history := (u8 p 1).testBit 1,
                                  dayOff := u16 p 2, snrTrx := ⟨u16 p 4, u16 p 6⟩ } }
/-- SET_PM_CONFIG. -/
def execSetPmConfig (pk : Packet) (s : State) : Out := .next (serve 0x0601 checkSetPmConfig runSetPmConfig pk s)

/-- SET_PM_THRESHOLDS (R284). -/
def checkSetPmThresholds (c : Ctx) (s : State) : Nat :=
  gated s (!plainLen 68 c) [(decide (7 < u8 c.pk.params 0) || !zeroAt c.pk.params 1 3, stBadParam)]
/-- The 16 thresholds of a profile are stored. -/
def runSetPmThresholds (c : Ctx) (s : State) : Res :=
  let p := c.pk.params
  done { s with pm := { s.pm with
    thr := (List.range 16).foldl (fun t i => tset 0 t (16 * u8 p 0 + i) (u32 p (4 + 4 * i))) s.pm.thr } }
/-- SET_PM_THRESHOLDS. -/
def execSetPmThresholds (pk : Packet) (s : State) : Out :=
  .next (serve 0x0602 checkSetPmThresholds runSetPmThresholds pk s)

/-- The entity that kind, carrier and the tenant field name; none where they are out of range. -/
def namedEntity (kind carrier : Nat) (c : Ctx) : Option Nat :=
  if kind = 0 then (if carrier ≤ 1 && c.pk.tenant = 0xFFFFFFFF then some carrier else none)
  else if kind = 1 then (if carrier = 0 && c.pk.tenant < 1024 then some (pmTen c.pk.tenant) else none)
  else none

/-- SET_PM_PROFILE (R285). -/
def checkSetPmProfile (c : Ctx) (s : State) : Nat :=
  let p := c.pk.params
  gated s (p.length != 4) [
    ((namedEntity (u8 p 0) (u8 p 1) c).isNone || decide (7 < u8 p 2) || !zeroAt p 3 1, stBadParam)]
/-- The entity takes the profile. -/
def runSetPmProfile (c : Ctx) (s : State) : Res :=
  let p := c.pk.params
  match namedEntity (u8 p 0) (u8 p 1) c with
  | some e => done { s with pm := { s.pm with profile := tset 0 s.pm.profile e (u8 p 2) } }
  | none => done s
/-- SET_PM_PROFILE. -/
def execSetPmProfile (pk : Packet) (s : State) : Out := .next (serve 0x0603 checkSetPmProfile runSetPmProfile pk s)

/-- GET_PM_CURRENT (R286). -/
def checkGetPmCurrent (c : Ctx) (s : State) : Nat :=
  let p := c.pk.params
  gated s (p.length != 4) [((namedEntity (u8 p 0) (u8 p 1) c).isNone || !zeroAt p 2 2, stBadParam)]
/-- The open bin of a period, or an empty one. -/
def currentBin (s : State) (e period : Nat) : PmBin :=
  let x := tget {} s.pm.ents e
  let t := s.pm.curSec
  let d := if period = 0 then end15 t else end24 s.pm.dayUse t
  ((if period = 0 then x.bins15 else x.bins24).find? fun b => decide (t < b.endAt)).getD { endAt := d }
/-- Both open bins in the layout of R271, with seq 0 and the flags of a close now. -/
def runGetPmCurrent (c : Ctx) (s : State) : Res :=
  let p := c.pk.params
  match namedEntity (u8 p 0) (u8 p 1) c with
  | none => done s
  | some e =>
    let f (period : Nat) : List Byte :=
      binRecord e period (binFlags e period 0 false (currentBin s e period)) 0 (currentBin s e period)
    doneWith s (f 0 ++ f 1)
/-- GET_PM_CURRENT. -/
def execGetPmCurrent (pk : Packet) (s : State) : Out := .next (serve 0x0604 checkGetPmCurrent runGetPmCurrent pk s)

/-- GET_PM_HISTORY (R287). -/
def checkGetPmHistory (c : Ctx) (s : State) : Nat :=
  let p := c.pk.params
  let held := match namedEntity (u8 p 0) (u8 p 1) c with
    | some e => (historyRead s e (u8 p 2) (u16 p 4)).isSome
    | none => false
  gated s (p.length != 8) [
    ((namedEntity (u8 p 0) (u8 p 1) c).isNone || decide (1 < u8 p 2) || !zeroAt p 3 1 || !zeroAt p 6 2
      || decide ((if u8 p 2 = 0 then 96 else 7) ≤ u16 p 4), stBadParam),
    (!s.pm.history || !domOn s 23 || !held, stBadState)]
/-- The record of 128 bytes. -/
def runGetPmHistory (c : Ctx) (s : State) : Res :=
  let p := c.pk.params
  match namedEntity (u8 p 0) (u8 p 1) c with
  | some e => doneWith (historyTaken s) ((historyRead s e (u8 p 2) (u16 p 4)).getD [])
  | none => done s
/-- GET_PM_HISTORY. -/
def execGetPmHistory (pk : Packet) (s : State) : Out := .next (serve 0x0605 checkGetPmHistory runGetPmHistory pk s)

/-- GET_LINK_QUALITY (R288). -/
def checkGetLinkQuality (c : Ctx) (s : State) : Nat :=
  gated s (!plainLen 4 c) [(decide (1 < u8 c.pk.params 0) || !zeroAt c.pk.params 1 3, stBadParam)]
/-- The figures of the last whole second; of a second that is not valid the figures are open. [log 128 DESIGN CHOICE] -/
def runGetLinkQuality (c : Ctx) (s : State) : Res :=
  let k := carrierOf (u8 c.pk.params 0)
  let q := pget s.pm.lq k
  let i := iEff (lineGet s k).fec
  if q.valid then
    doneWith s (le 1 (1 + 2 * b2n q.ceiling + 4 * b2n q.lower) ++ le 1 q.iEff ++ le 2 q.snrX ++ le 2 q.snrY ++ le 2 q.snr
      ++ le 2 q.evm ++ le 2 q.gsnr ++ le 2 q.q ++ leS 2 q.margin ++ le 4 q.ber ++ le 4 q.berThr ++ le 2 q.iterMean
      ++ le 1 q.iterMax ++ le 5 0)
  else
    let d := drawBytes 280 25 s
    doneWith d.2 (le 1 0 ++ le 1 i ++ d.1 ++ le 5 0)
/-- GET_LINK_QUALITY. -/
def execGetLinkQuality (pk : Packet) (s : State) : Out := .next (serve 0x0606 checkGetLinkQuality runGetLinkQuality pk s)

end Sys2Proof.Machine
end

