-- ==== Sys2Proof/Machine/Ring.lean ====
section
/-! DEFINITION. The commands and events of the Calond ring (spec/17_calond_ring.md). -/

namespace Sys2Proof.Machine

/-! Settings and status (R459 to R464). -/

/-- SET_RING_ROLE (R459). -/
def checkSetRingRole (c : Ctx) (s : State) : Nat :=
  let p := c.pk.params
  gated s (!plainLen 8 c) [
    (decide (2 < u8 p 0) || decide (3 < u8 p 1) || decide (3 < u8 p 2) || decide (15 < u8 p 3) || decide (15 < u8 p 4) || !zeroAt p 5 3,
      stBadParam),
    (u8 p 0 != s.ring.role && c.ref.queue == .relay, stBadState),
    (u8 p 0 != s.ring.role && s.ring.role == 1 && !s.ring.relays.isEmpty, stBadState),
    (startsUnqualified s { s with ring := { s.ring with role := u8 p 0 } }, stBadState)]

/-- A Calond pattern runs on a port (R527). -/
def portPattern (s : State) (p : Port) : Bool :=
  let x := pget s.test.ports (portSlot p)
  x.gen || x.chk.state != 0

/-- The link of a port is held DOWN: a direction sleeps, or a pattern runs (R443, R527). -/
def heldDown (s : State) (p : Port) : Bool := portSleeps s p || portPattern s p

/-- The role changes: what belongs to the old one ends, and a new manager raises its epoch (R437, R439). [log 160 DEDUCED] -/
def changeRole (role : Nat) (s : State) : State :=
  let s1 := { s with ring := { s.ring with
    role := role, number := none, conflict := none, log := [], resp := [], highest := none, timePort := none, newPort := none, agree := 0 } }
  if role = 1 then nextEpoch s1 else s1

/-- The ceiling of a link is renewed, a sleeping port goes DOWN, and NEG carries a changed ceiling (R441, R443). -/
def settlePort (old : Nat) (s : State) (p : Port) : State :=
  let s1 := portUpd p (fun r => { r with linkCeil := 3 }) s
  if heldDown s1 p then linkDown p s1
  else if (portGet s1 p).state != .up then s1
  else planStep p (if portCeil s1 p = old then s1 else sendNear p 0x03 [BitVec.ofNat 8 (portCeil s1 p)] s1)

/-- The settings are stored and applied; a change of role powers PD31 up or down (R21). -/
def runSetRingRole (c : Ctx) (s : State) : Res :=
  let p := c.pk.params
  let s1 := { s with ring := { s.ring with ceilE := u8 p 1, ceilW := u8 p 2, sleep := u8 p 3, pmDma := u8 p 4 } }
  let s2 := if u8 p 0 = s.ring.role then s1 else changeRole (u8 p 0) s1
  let s3 := if domOn s2 31 then settlePort (portCeil s .west) (settlePort (portCeil s .east) s2 .east) .west else s2
  done (applyUsed s3)
/-- SET_RING_ROLE. -/
def execSetRingRole (pk : Packet) (s : State) : Out := .next (serve 0x0A01 checkSetRingRole runSetRingRole pk s)

/-- ASSIGN_WORKER (R460): on a manager only. -/
def checkAssignWorker (c : Ctx) (s : State) : Nat :=
  let p := c.pk.params
  let id := slice p 4 11
  gated s (!plainLen 16 c) [
    (u8 p 0 == 0 || decide (15 < u8 p 0) || decide (1 < u8 p 1) || !zeroAt p 2 2 || decide (24 < u8 p 12) || !zeroAt p 15 1
      || (u8 p 1 == 1 && s.ring.bind.any fun e => e.1 != u8 p 0 && e.2 == id), stBadParam),
    (s.ring.role != 1, stBadState)]

/-- A number is heard no more until its next STATUS. [log 171 DEDUCED] -/
def forgetWorker (w : Nat) (s : State) : State :=
  let drop (r : RingPort) : RingPort := { r with heard := terase r.heard w, hops := terase r.hops w }
  workerUpd w (fun k => { k with ready := false, dormant := false, joined := false, goneAt := none, evSeq := none, pmSeq := none })
    (portUpd .west drop (portUpd .east drop s))

/-- The binding changes; a release ends the relays of the worker; ROSTER and the journal follow (R438). [log 171 DEDUCED] -/
def runAssignWorker (c : Ctx) (s : State) : Res :=
  let p := c.pk.params
  let w := u8 p 0
  let id := slice p 4 11
  let s1 :=
    if u8 p 1 = 0 then forgetWorker w (dropRelays w { s with ring := { s.ring with bind := terase s.ring.bind w } })
    else
      let t := { s with ring := { s.ring with bind := tset [] s.ring.bind w id } }
      if tget [] s.ring.bind w == id then t else forgetWorker w t
  done (sendRoster (journalRing s1))
/-- ASSIGN_WORKER. -/
def execAssignWorker (pk : Packet) (s : State) : Out := .next (serve 0x0A02 checkAssignWorker runAssignWorker pk s)

/-- The code of a link state (R461). -/
def linkCode : LinkState → Nat
  | .down => 0
  | .align => 1
  | .up => 2
  | .step => 3

/-- The mean link delay in 0.1 ns (R453), as 16 bits. -/
def linkDelay (r : RingPort) : Int := if r.delays.isEmpty then 0 else roundDiv r.delays.sum r.delays.length

/-- The 16 bytes of a port in GET_RING_STATUS. -/
def portBytes (s : State) (p : Port) : List Byte :=
  let r := portGet s p
  le 1 (linkCode r.state) ++ le 1 (r.rate + 16 * min (portCeil s p) r.linkCeil) ++ le 2 (clampInt 0 65535 (linkDelay r)).toNat
    ++ le 2 r.crcBad ++ le 2 r.dropped ++ le 2 r.codeErr ++ le 2 r.downs ++ le 4 0

/-- The 8 bytes of a worker in GET_RING_STATUS. [log 170 DEDUCED] -/
def workerBytes (s : State) (w : Nat) : List Byte :=
  let k := tget {} s.ring.workers w
  let e := reachable s w .east
  let v := reachable s w .west
  let hops (on : Bool) (p : Port) : Nat := if on then tget 0 (portGet s p).hops w else 0xFF
  if s.ring.role != 1 then le 1 0 ++ le 2 0xFFFF ++ le 5 0
  else
    le 1 (b2n (!(tget [] s.ring.bind w).isEmpty) + 2 * b2n e + 4 * b2n v + 8 * b2n k.ready + 16 * b2n k.dormant)
      ++ le 1 (hops e .east) ++ le 1 (hops v .west) ++ le 1 (min 255 (s.ring.relays.filter (·.worker == w)).length)
      ++ le 2 k.unknown ++ le 2 k.late

/-- GET_RING_STATUS (R461). -/
def checkGetRingStatus (c : Ctx) (s : State) : Nat := gated s (!plainLen 0 c) []
/-- The 160-byte result; the counters clear. [log 170 DEDUCED] -/
def runGetRingStatus (_ : Ctx) (s : State) : Res :=
  let clear (r : RingPort) : RingPort := { r with crcBad := 0, dropped := 0, codeErr := 0, downs := 0 }
  let s1 := portUpd .west clear (portUpd .east clear s)
  let s2 := { s1 with ring := { s1.ring with workers := s1.ring.workers.map fun e => (e.1, { e.2 with unknown := 0, late := 0 }) } }
  doneWith s2 (le 1 s.ring.role ++ le 1 (ringSelf s) ++ le 2 s.ring.epoch ++ portBytes s .east ++ portBytes s .west
    ++ ((List.range 15).flatMap fun i => workerBytes s (i + 1)) ++ le 4 0)
/-- GET_RING_STATUS. -/
def execGetRingStatus (pk : Packet) (s : State) : Out := .next (serve 0x0A03 checkGetRingStatus runGetRingStatus pk s)

/-- GET_OUTCOME (R462): accepted in DORMANT. -/
def checkGetOutcome (c : Ctx) (s : State) : Nat :=
  firstBad [(!plainLen 4 c, stBadParam), (s.mode.trans.isSome, stBusy)]
/-- The 48-byte result. -/
def runGetOutcome (c : Ctx) (s : State) : Res :=
  let p := c.pk.params
  match s.ring.log.reverse.find? fun e => e.epoch == u16 p 0 && e.tag == u16 p 2 with
  | none => doneWith s (le 48 0)
  | some e => doneWith s (le 1 e.state ++ le 1 0 ++ le 2 e.opcode ++ le 2 e.swTag ++ le 2 e.status ++ le 2 e.rlen ++ le 6 0
      ++ slice e.head 0 32)
/-- GET_OUTCOME. -/
def execGetOutcome (pk : Packet) (s : State) : Out := .next (serve 0x0A04 checkGetOutcome runGetOutcome pk s)

/-- SET_RING_PROTECT (R463): on a manager; a worker takes it from the relay of its manager (R455). [log 168 DEDUCED] -/
def checkSetRingProtect (c : Ctx) (s : State) : Nat :=
  let p := c.pk.params
  let unbound (d : Nat) : Bool := d != 0 && (tget [] s.ring.bind d).isEmpty
  gated s (!plainLen 16 c) [
    (decide (31 < u8 p 0) || decide (4 < u8 p 1) || decide (1 < u8 p 2) || !zeroAt p 3 1 || decide (15 < u8 p 4) || decide (15 < u8 p 5)
      || u8 p 4 == u8 p 5 || decide (1023 < u16 p 6) || decide (1023 < u16 p 8) || decide (u16 p 10 < 10) || decide (3600 < u16 p 10)
      || !zeroAt p 12 4, stBadParam),
    (s.ring.role != 1 && c.ref.queue != .relay, stBadState),
    (s.ring.role == 1 && (unbound (u8 p 4) || unbound (u8 p 5)), stBadState)]
/-- One member: this device itself, or a relay to a worker. [log 168 DEDUCED] -/
def pairMember (c : Ctx) (s : State) (d : Nat) : State :=
  let k := u8 c.pk.params 0
  if d = 0 then pairAnswer k 0 stOk (applyPair c.pk.params s)
  else relayStart d (packetBytes 0x0A05 { c.pk with target := d, flags := 0 }) c.ref (some k) s
/-- ACCEPTED, then both members are asked; the last answer completes the command. -/
def runSetRingProtect (c : Ctx) (s : State) : Res :=
  let p := c.pk.params
  if s.ring.role != 1 then done (applyPair p s)
  else
    let ds := [u8 p 4, u8 p 5]
    let s1 := acceptFrom 0 c.ref { s with ring := { s.ring with pairJobs := s.ring.pairJobs ++ [⟨c.ref, u8 p 0, ds, stOk⟩] } }
    { s := ds.foldl (pairMember c) s1, final := none }
/-- SET_RING_PROTECT. -/
def execSetRingProtect (pk : Packet) (s : State) : Out := .next (serve 0x0A05 checkSetRingProtect runSetRingProtect pk s)

/-- The remaining WTR of a pair in s, rounded up (R464). -/
def pairWtrLeft (s : State) (x : PPair) : Nat :=
  match x.wtrAt with
  | some t => (t - s.now + secNs - 1) / secNs
  | none => 0

/-- GET_RING_PROTECT (R464). -/
def checkGetRingProtect (c : Ctx) (s : State) : Nat :=
  let p := c.pk.params
  gated s (!plainLen 4 c) [
    (decide (31 < u8 p 0) || !zeroAt p 1 3, stBadParam),
    (!(tget {} s.ring.pairs (u8 p 0)).held, stBadState)]
/-- The 8-byte result; the switches clear. -/
def runGetRingProtect (c : Ctx) (s : State) : Res :=
  let k := u8 c.pk.params 0
  let x := tget {} s.ring.pairs k
  doneWith (pairUpd k (fun y => { y with switches := 0 }) s)
    (le 1 (b2n x.selP) ++ le 1 (b2n (pairSf s x)) ++ le 1 (b2n x.partnerSf) ++ le 1 (b2n (x.force != 0) + 2 * b2n x.lost)
      ++ le 2 x.switches ++ le 2 (pairWtrLeft s x))
/-- GET_RING_PROTECT. -/
def execGetRingProtect (pk : Packet) (s : State) : Out := .next (serve 0x0A06 checkGetRingProtect runGetRingProtect pk s)

/-! Links (R441, R442). -/

/-- RING_SIGNAL_DETECT (R441). -/
def execRingSignalDetect (p : Port) (s : State) : Out :=
  .next (if !domOn s 31 || (portGet s p).state != .down || heldDown s p then s
    else portUpd p (fun r => { r with state := .align, rate := 0, deadline := some (s.now + 10 * msNs) }) s)

/-- RING_ALIGN_DONE (R441): all lanes have held alignment for 1 ms. -/
def execRingAlignDone (p : Port) (s : State) : Out := .next (if (portGet s p).state = .align then linkUp p 0 s else s)

/-- RING_ALIGN_TIMEOUT (R441): 10 ms without success. -/
def execRingAlignTimeout (p : Port) (s : State) : Out :=
  .next (if (portGet s p).state = .align then linkDown p (advanceOpt (portGet s p).deadline s) else s)

/-- RING_STEP_START (R441): 1 ms after the far NEG both ends move to the next step. -/
def execRingStepStart (p : Port) (s : State) : Out :=
  .next (
    let r := portGet s p
    if r.state != .up || r.deadline.isNone || !stepsOn s p then s
    else
      let s1 := advanceOpt r.deadline s
      portUpd p (fun r => { r with state := .step, deadline := some (s1.now + 20 * msNs), delays := [], t1 := none }) s1)

/-- RING_STEP_END (R441): success within 20 ms, or back at the previous rate, which becomes the link's ceiling. -/
def execRingStepEnd (p : Port) (ok : Bool) (s : State) : Out :=
  .next (
    let r := portGet s p
    if r.state != .step then s
    else if ok then linkUp p (r.rate + 1) s
    else linkUp p r.rate (portUpd p (fun r => { r with linkCeil := r.rate }) (advanceOpt r.deadline s)))

/-- RING_LINK (R442): `codeErrors` within 1 ms, 0 for a lane without a comma for 2,048 columns. [log 174 DEDUCED] -/
def execRingLink (p : Port) (codeErrors : Nat) (s : State) : Out :=
  .next (if (portGet s p).state != .up then s
    else
      let s1 := portUpd p (fun r => { r with codeErr := satAdd 16 r.codeErr codeErrors }) s
      if codeErrors = 0 || 16 ≤ codeErrors then linkDown p s1 else s1)

/-! Messages (R444 to R446). -/

/-- A message has reached a port whose link is UP. -/
def arrives (s : State) (p : Port) : Bool := domOn s 31 && (portGet s p).state == .up

/-- Bytes of a message received on a port (R430). -/
def countIn (p : Port) (n : Nat) (s : State) : State := countSrc 0x09 (58 + portNum p) n s

/-- RING_MESSAGE_FORWARD (R446): a message to another number or to every device leaves by the other port, or is discarded
and counted. The bytes of a message to this device alone count at the row that receives it (R430). -/
def execRingMessageForward (p : Port) (bytes : List Byte) (s0 : State) : Out :=
  .next (if !arrives s0 p then s0
    else
      let s := countIn p bytes.length s0
      let drop (t : State) : State := portUpd p (fun r => { r with dropped := satAdd 16 r.dropped 1 }) t
      match parseMsg bytes with
      | none => portUpd p (fun r => { r with crcBad := satAdd 16 r.crcBad 1 }) s
      | some m =>
      if m.dst = 0xFF || m.dst = ringSelf s then s0
      else if 15 ≤ m.hops || m.src = ringSelf s || (portGet s (otherPort p)).state != .up then drop s
      else sendMsg (otherPort p) { m with hops := m.hops + 1 } s)

/-- Two identities as unsigned bytes, the first of them first (R439). -/
def identityBefore : List Byte → List Byte → Bool
  | a :: r, b :: t => if a = b then identityBefore r t else decide (a < b)
  | _, _ => false

/-- A STATUS of another manager (R439): the lower identity stays manager, the other yields for 1 s. -/
def otherManager (id : List Byte) (s : State) : State :=
  if !identityBefore id (fusedIdentity s.fw.fuses) then s
  else
    let t := { s with ring := { s.ring with conflict := some (s.now + secNs) } }
    if s.ring.conflict.isSome then t else postEv 0x0A04 [leNat (id.take 4), leNat ((id.drop 4).take 4)] t

/-- Relays that no copy of has been sent end NOT_READY when the worker reports READY clear (R448). -/
def dropUnready (w : Nat) (s : State) : State :=
  (s.ring.relays.filter fun r => r.worker == w && r.copies == 0).foldl (fun t r => endRelay r stNotReady [] t) s

/-- A STATUS of a bound worker (R447, R451): heard through the port, its flags, RING_WORKER, what waits for it. [log 158 DEDUCED] -/
def heardWorker (p : Port) (w hops flags : Nat) (s : State) : State :=
  let was := tget {} s.ring.workers w
  let ready := flags.testBit 0
  let s1 := portUpd p (fun r => { r with heard := tset 0 r.heard w (s.now + 1), hops := tset 0 r.hops w (hops + 1) }) s
  let rise := ready && !was.ready
  let s2 := noteGone (workerUpd w (fun k => { k with
    ready := ready, dormant := flags.testBit 1, joined := true
    evSeq := if rise then none else k.evSeq
    pmSeq := if rise then none else k.pmSeq }) s1)
  let s3 := if was.joined then s2 else postEv 0x0A02 [w, 1] s2
  let s4 := if was.joined && ready != was.ready then postEv 0x0A02 [w, if ready then 3 else 2] s3 else s3
  if ready then nextRelay w s4 else dropUnready w s4

/-- RING_STATUS_RECEIVE (R439, R445, R447, R451). -/
def execRingStatusReceive (p : Port) (m : RingMsg) (s : State) : Out :=
  .next (if !arrives s p || s.ring.role != 1 then s
    else
      let id := slice m.body 0 11
      let w := u8 m.body 12
      if u8 m.body 11 = 1 then otherManager id s
      else if 1 ≤ w && w ≤ 15 && m.src = w && tget [] s.ring.bind w == id then heardWorker p w m.hops (u8 m.body 13) s
      else s)

/-- MANAGER_RESUME (R439): 1 s without hearing another manager. -/
def execManagerResume (s : State) : Out :=
  .next (match s.ring.conflict with
    | none => s
    | some t =>
      let s1 := advanceTo t s
      { s1 with ring := { s1.ring with conflict := none } })

/-- WORKER_LEFT (R451): reachable in neither direction for 100 ms. -/
def execWorkerLeft (w : Nat) (s : State) : Out :=
  .next (
    let k := tget {} s.ring.workers w
    match k.goneAt with
    | some t => if k.joined && unreachable s w then
        postEv 0x0A02 [w, 0] (workerUpd w (fun k => { k with joined := false }) (advanceTo (t + 100 * msNs) s)) else s
    | none => s)

/-- WORKER_REACHABILITY_TIMEOUT (R447): no STATUS through a port for 30 ms. -/
def execWorkerReachabilityTimeout (w : Nat) (p : Port) (s : State) : Out :=
  .next (
    let h := tget 0 (portGet s p).heard w
    if h = 0 then s else noteGone (advanceTo (h + 30 * msNs) s))

/-- A new epoch ends what was sent under an older one (R450). -/
def takeEpoch (e : Nat) (s : State) : State :=
  if e = s.ring.epoch then s
  else { s with ring := { s.ring with epoch := e, resp := s.ring.resp.filter fun o => o.epoch == e } }

/-- ROSTER_RECEIVE (R438): a worker takes the number at which its identity is listed, or becomes unassigned. -/
def execRosterReceive (m : RingMsg) (s : State) : Out :=
  .next (if !domOn s 31 || s.ring.role != 2 || m.src != 0 then s
    else
      let n := (List.range 15).find? fun i => slice m.body (11 * i) 11 == fusedIdentity s.fw.fuses
      let s1 := takeEpoch m.epoch s
      { s1 with ring := { s1.ring with number := n.map (· + 1) } })

/-- NEG_RECEIVE (R441): with both ceilings above the rate the link steps 1 ms later. [log 159 DEDUCED] -/
def execNegReceive (p : Port) (ceil : Nat) (s0 : State) : Out :=
  .next (if !arrives s0 p then s0
    else
      planStep p (portUpd p (fun r => { r with farCeil := some (min 3 ceil) }) (countIn p 21 s0)))

/-- STATUS_SEND (R445). -/
def execStatusSend (s : State) : Out :=
  .next (if !domOn s 31 then s
    else
      let flags := b2n s.ctl.ready + 2 * b2n (s.mode.cur == .dormant) + 4 * b2n s.ring.conflict.isSome
      sendAll 0x01 (fusedIdentity s.fw.fuses ++ le 1 s.ring.role ++ le 1 (ringSelf s) ++ le 1 flags) s)

/-- ROSTER_SEND (R438): every 1 s. -/
def execRosterSend (s : State) : Out := .next (if domOn s 31 then sendRoster s else s)

/-! Delay and time (R453, R454). -/

/-- A time of 0.1 ns as seconds, ns and 1/65,536 ns, most significant byte first (R454). [log 165 PRESUMED] -/
def timeBytes (t : Nat) : List Byte := be 6 (t / 10 ^ 10) ++ be 4 (t / 10 % 10 ^ 9) ++ be 2 (t % 10 * 65536 / 10)

/-- DELAY_EXCHANGE (R453): the DELAY_REQ leaves at t1, in 0.1 ns. [log 165 PRESUMED] -/
def execDelayExchange (p : Port) (t1 : Nat) (s : State) : Out :=
  .next (if arrives s p then sendNear p 0x04 [] (portUpd p (fun r => { r with t1 := some t1 }) s) else s)

/-- DELAY_REQ_RECEIVE (R453): the answer carries t2 and t3. -/
def execDelayReqReceive (p : Port) (t2 t3 : Nat) (s : State) : Out :=
  .next (if arrives s p then sendNear p 0x05 (timeBytes t2 ++ timeBytes t3) (countIn p 20 s) else s)

/-- DELAY_RESP_RECEIVE (R453): the mean runs over the last 16 exchanges. [log 165 PRESUMED] -/
def execDelayRespReceive (p : Port) (t2 t3 t4 : Nat) (s0 : State) : Out :=
  .next (if !arrives s0 p then s0
    else
      let s := countIn p 44 s0
      match (portGet s p).t1 with
      | none => s
      | some t1 =>
        let d : Int := (((t4 : Int) - t1) - ((t3 : Int) - t2)) / 2
        portUpd p (fun r => { r with t1 := none, delays := (d :: r.delays).take 16 }) s)

/-- The depth in TIMING (R454): 0 at the manager, one more than that of the time port, 0xFF without time. -/
def timeDepth (s : State) : Nat :=
  if s.ring.role = 1 then 0
  else match s.ring.timePort.bind fun p => (portGet s p).timing with
    | some t => min 0xFF (t.depth + 1)
    | none => 0xFF

/-- TIMING_SEND (R454): every 62.5 ms on each UP port. [log 166 DEDUCED] -/
def execTimingSend (s : State) : Out :=
  .next (if !domOn s 31 then s
    else bothPorts.foldl (fun t p =>
      if (portGet t p).state != .up then t
      else
        let flags := b2n t.pm.todUnset + 2 * b2n t.bel.coarse
        sendNear p 0x06 (be 6 (t.tod / secNs) ++ be 4 (t.tod % secNs) ++ be 2 (t.subns * 65536 / 10 ^ 8) ++ le 1 (portQl t p)
          ++ le 1 (timeDepth t) ++ le 1 flags ++ le 1 0) t) s)

/-- The port from which time would be taken now: the lowest depth below 0xFF, east on a tie (R454). -/
def bestTimePort (s : State) : Option Port :=
  let depth (p : Port) : Nat := match (portGet s p).timing with
    | some t => t.depth
    | none => 0xFF
  if depth .east < 0xFF && depth .east ≤ depth .west then some .east
  else if depth .west < 0xFF then some .west
  else none

/-- The time port follows 3 messages that agree (R454); the first one is taken at once. [log 166 DEDUCED] -/
def chooseTimePort (s : State) : State :=
  let b := bestTimePort s
  if b = s.ring.timePort then { s with ring := { s.ring with agree := 0, newPort := none } }
  else if s.ring.timePort.isNone then { s with ring := { s.ring with timePort := b, agree := 0, newPort := none } }
  else
    let n := if s.ring.newPort = b then s.ring.agree + 1 else 1
    if 3 ≤ n then { s with ring := { s.ring with timePort := b, agree := 0, newPort := none } }
    else { s with ring := { s.ring with agree := n, newPort := b } }

/-- An offset within 1 us is corrected at up to 100 ns per second, a larger one stepped (R369). [log 166 DEDUCED] -/
def correctTime (off : Int) (elapsed : Nat) (s : State) : State :=
  if off.natAbs ≤ 1000 then
    let most : Int := (elapsed * 10 : Nat)
    todAligned (addTod (clampInt (-most) most (-(off * 10 ^ 8))) s)
  else todAligned (shiftTod (-(off * 10 ^ 8)) s)

/-- TIMING_RECEIVE (R369, R454): received at a time of day of this device. -/
def execTimingReceive (p : Port) (m : RingMsg) (rxSec rxNs : Nat) (s0 : State) : Out :=
  .next (if !arrives s0 p then s0
    else
      let s := countIn p (msgLength m) s0
      let b := m.body
      let sent : Int := ((beNat (slice b 0 6) * secNs + beNat (slice b 6 4) : Nat) : Int)
      let off : Int := ((rxSec * secNs + rxNs : Nat) : Int) - sent - roundDiv (linkDelay (portGet s p)) 10
      let last := match (portGet s p).timing with
        | some t => t.at_
        | none => s.now
      let s1 := portUpd p (fun r => { r with timing := some ⟨u8 b 13, u8 b 12, u8 b 14, off, s.now⟩ }) s
      if s1.ring.role != 2 then s1
      else
        let s2 := chooseTimePort { s1 with ring := { s1.ring with heardTiming := some s1.now } }
        if s2.bel.todUse.source = 2 && domOn s2 1 && s2.ring.timePort = some p then correctTime off (s2.now - last) s2 else s2)

/-! Relays (R447 to R450). -/

/-- A worker answers a REQUEST with RECEIPT through the port that it came in on (R448). -/
def sendReceipt (p : Port) (m : RingMsg) (refused : Bool) (s : State) : State :=
  sendEither p { (mkMsg s 0x11 0 m.tag (le 1 (b2n refused))) with epoch := m.epoch } s

/-- A tag lies at or below the highest of its epoch (R449). [log 161 DEDUCED] -/
def tagStale (s : State) (m : RingMsg) : Bool :=
  match s.ring.highest with
  | some (e, t) => e == m.epoch && decide ((t + 2 ^ 16 - m.tag) % 2 ^ 16 < 2 ^ 15)
  | none => false

/-- An entry joins the outcome log of 64 (R449). [log 161 DEDUCED] -/
def logRequest (p : Port) (m : RingMsg) (state : Nat) (s : State) : State :=
  let e : OutEntry := ⟨m.epoch, m.tag, state, u16 m.body 0, u16 m.body 2, 0, 0, [], [], p⟩
  let l := s.ring.log ++ [e]
  { s with ring := { s.ring with log := l.drop (l.length - 64) } }

/-- REQUEST_RECEIVE (R448, R449). [log 161 DEDUCED] -/
def execRequestReceive (p : Port) (m : RingMsg) (s0 : State) : Out :=
  .next (if !arrives s0 p || s0.ring.role != 2 || s0.ring.number != some m.dst then s0
    else
      let s := takeEpoch m.epoch (countIn p (msgLength m) s0)
      match s.ring.log.find? fun e => e.epoch == m.epoch && e.tag == m.tag with
      | some e =>
        let s1 := sendReceipt p m false { s with ring := { s.ring with dups := s.ring.dups + 1 } }
        if e.last.isEmpty then s1 else sendResponse ⟨e.epoch, e.tag, e.last, p⟩ s1
      | none =>
        if tagStale s m then
          sendReceipt p m false (logRequest p m 3 { s with ring := { s.ring with stale := s.ring.stale + 1 } })
        else if linesFree s .relay < linesFor m.body.length then sendReceipt p m true s
        else
          let s1 := logRequest p m 1 (qupd s .relay fun q => { q with waiting := q.waiting ++ [⟨m.body, m.epoch * 2 ^ 16 + m.tag⟩] })
          sendReceipt p m false { s1 with ring := { s1.ring with highest := some (m.epoch, m.tag) } })

/-- The relay of a worker and a tag. -/
def relayOf (s : State) (w tag : Nat) : Option Relay := s.ring.relays.find? fun r => r.worker == w && r.tag == tag

/-- RECEIPT_RECEIVE (R448): the next REQUEST may go; a refused copy is sent again 2 ms later and does not count. [log 162 DEDUCED] -/
def execReceiptReceive (p : Port) (w tag : Nat) (refused : Bool) (s0 : State) : Out :=
  .next (if !arrives s0 p || s0.ring.role != 1 then s0
    else
      let s := countIn p 21 s0
      if refused then relayUpd w tag (fun r => { r with copies := r.copies - 1, nextAt := some (s.now + 2 * msNs) }) s
      else nextRelay w (relayUpd w tag (fun r => { r with receipt := true, nextAt := none }) s))

/-- The direction of the next copy (R448): the other one, skipping one that is not reachable. [log 172 DEDUCED] -/
def retryDir (s : State) (r : Relay) : Option Port :=
  [otherPort r.lastDir, r.lastDir].find? (reachable s r.worker)

/-- RELAY_RETRY (R448): 2 ms without a RECEIPT; a manager that has yielded relays nothing (R439). -/
def execRelayRetry (w : Nat) (s : State) : Out :=
  .next (match s.ring.relays.find? fun r => r.worker == w && !r.receipt with
    | none => s
    | some r =>
      let s1 := advanceOpt r.nextAt s
      if 8 ≤ r.copies then giveUp s1 r
      else match (if s1.ring.conflict.isSome then none else (if r.copies = 0 then (if unreachable s1 w then none else some (firstDir s1 w r.anyDir)) else retryDir s1 r)) with
        | some p => sendCopy p w r.tag s1
        | none => relayUpd w r.tag (fun r => { r with nextAt := some (s1.now + 2 * msNs) }) s1)

/-- RELAY_UNREACHABLE_TIMEOUT (R448): both directions unreachable for 50 ms. -/
def execRelayUnreachableTimeout (w : Nat) (s : State) : Out :=
  .next (match (tget {} s.ring.workers w).goneAt with
    | some t =>
      if unreachable s w then (s.ring.relays.filter fun r => r.worker == w).foldl giveUp (advanceTo (t + 50 * msNs) s) else s
    | none => s)

/-- A RESPONSE without a waiting relay (R450): late where the manager gave the tag a final status itself, else a duplicate. [log 162 DEDUCED] -/
def lateResponse (w tag epoch status : Nat) (s : State) : State :=
  if epoch != s.ring.epoch || (tget {} s.ring.workers w).ended.contains tag then
    postEv 0x0A03 [w, tag, status] (workerUpd w (fun k => { k with late := satAdd 16 k.late 1 }) s)
  else { s with ring := { s.ring with dups := s.ring.dups + 1 } }

/-- RESPONSE_RECEIVE (R450): acknowledged; written to the queue of the packet; it counts as the RECEIPT of its tag. [log 163 DEDUCED] -/
def execResponseReceive (p : Port) (m : RingMsg) (s0 : State) : Out :=
  .next (if !arrives s0 p || s0.ring.role != 1 then s0
    else
      let w := m.src
      let s := sendEither p { (mkMsg s0 0x13 w m.tag []) with epoch := m.epoch } (countIn p (msgLength m) s0)
      let b := m.body
      let st := u16 b 4
      match (if m.epoch = s.ring.epoch then relayOf s w m.tag else none) with
      | none => lateResponse w m.tag m.epoch st s
      | some r =>
        let s1 := relayUpd w m.tag (fun r => { r with receipt := true, nextAt := none }) s
        if u8 b 14 = 1 then
          if r.interim then { s1 with ring := { s1.ring with dups := s1.ring.dups + 1 } }
          else
            let s2 := relayUpd w m.tag (fun r => { r with interim := true }) s1
            nextRelay w (if r.pair.isSome then s2 else acceptFrom w r.ref s2)
        else endRelay r st (slice b 16 (u16 b 6)) s1)

/-- RESP_ACK_RECEIVE (R450): the oldest record of the tag is done; the next one goes out. -/
def execRespAckReceive (p : Port) (tag epoch : Nat) (s0 : State) : Out :=
  .next (if !arrives s0 p || s0.ring.role != 2 then s0
    else
      let s := countIn p 20 s0
      let mine (o : RespOut) : Bool := o.epoch == epoch && o.tag == tag
      let s1 := { s with ring := { s.ring with resp := s.ring.resp.eraseP mine } }
      match s1.ring.resp.find? mine with
      | some o => sendResponse o s1
      | none => s1)

/-- The oldest unacknowledged record of each tag. -/
def firstOfTag : List RespOut → List RespOut
  | [] => []
  | o :: r => o :: (firstOfTag r).filter fun x => !(x.epoch == o.epoch && x.tag == o.tag)

/-- RESPONSE_RESEND (R450): every 2 ms, in alternating directions. -/
def execResponseResend (s : State) : Out :=
  .next (if !domOn s 31 || s.ring.role != 2 then s
    else
      let turn (o : RespOut) : RespOut := { o with dir := otherPort o.dir }
      let s1 := { s with ring := { s.ring with resp := s.ring.resp.map turn } }
      (firstOfTag s1.ring.resp).foldl (fun t o => sendResponse o t) s1)

/-! Events and PM records of workers (R452). -/

/-- A sequence number follows the last one taken. -/
def seqNew (last : Option Nat) (seq : Nat) : Bool :=
  match last with
  | none => true
  | some l => decide (0 < (seq + 2 ^ 32 - l) % 2 ^ 32) && decide ((seq + 2 ^ 32 - l) % 2 ^ 32 < 2 ^ 31)

/-- A stream record is acknowledged with its type and seq. -/
def sendStreamAck (p : Port) (w type seq : Nat) (s : State) : State := sendEither p (mkMsg s 0x22 w 0 (le 1 type ++ be 4 seq)) s

/-- An event record as a worker sent it (R415), with its source. -/
def eventOf (w : Nat) (b : List Byte) : EvRec :=
  { code := u16 b 0, set := (u8 b 2).testBit 0, source := w, seq := u32 b 4, ns := u32 b 8, sec := u32 b 12,
    args := [u32 b 16, u32 b 20, u32 b 24, u32 b 28] }

/-- EVENT_RECEIVE (R452): delivered once. -/
def execEventReceive (p : Port) (m : RingMsg) (s0 : State) : Out :=
  .next (if !arrives s0 p || s0.ring.role != 1 then s0
    else
      let seq := u32 m.body 4
      let s := sendStreamAck p m.src 0x20 seq (countIn p (msgLength m) s0)
      if !seqNew (tget {} s.ring.workers m.src).evSeq seq then s
      else deliverEvent (eventOf m.src m.body) (workerUpd m.src (fun k => { k with evSeq := some seq }) s))

/-- The envelope of a worker's PM record (R452). [log 173 DEDUCED] -/
def pmEnvelope (w rseq : Nat) (b : List Byte) : List Byte := le 1 w ++ le 3 0 ++ le 4 rseq ++ le 24 0 ++ slice b 0 128

/-- PM_RECEIVE (R452): delivered once, on the ring PM channel. [log 173 DEDUCED] -/
def execPmReceive (p : Port) (m : RingMsg) (s0 : State) : Out :=
  .next (if !arrives s0 p || s0.ring.role != 1 then s0
    else
      let seq := u32 m.body 20
      let s := sendStreamAck p m.src 0x21 seq (countIn p (msgLength m) s0)
      if !seqNew (tget {} s.ring.workers m.src).pmSeq seq then s
      else
        let s1 := workerUpd m.src (fun k => { k with pmSeq := some seq }) s
        let r : StreamRec := ⟨s.pcie.posted, 8, pmEnvelope m.src s.ring.rseq m.body⟩
        let s2 := chanUpd s.ring.pmDma (fun x => { x with stream := x.stream ++ [r] }) s1
        { s2 with
          pcie := { s2.pcie with posted := s2.pcie.posted + 1 }
          ring := { s2.ring with rseq := (s2.ring.rseq + 1) % 2 ^ 32 } })

/-- STREAM_ACK_RECEIVE (R452): the record with that seq is held no more. -/
def execStreamAckReceive (p : Port) (type seq : Nat) (s0 : State) : Out :=
  .next (if !arrives s0 p || s0.ring.role != 2 then s0
    else
      let s := countIn p 25 s0
      if type = 0x20 then { s with ring := { s.ring with evOut := s.ring.evOut.filter fun e => e.seq != seq } }
      else if type = 0x21 then { s with ring := { s.ring with pmOut := s.ring.pmOut.filter fun e => e.1 != seq } }
      else s)

/-- STREAM_RESEND (R452): every 2 ms what is held goes out again, in its order, in alternating directions. [log 173 DEDUCED] -/
def execStreamResend (s : State) : Out :=
  .next (if !ringWorker s then s
    else
      let p : Port := if s.ring.resendWest then .west else .east
      let s1 := { s with ring := { s.ring with resendWest := !s.ring.resendWest } }
      let s2 := s.ring.evOut.foldl (fun t e => sendEither p (mkMsg t 0x20 0 0 (eventBytes e false)) t) s1
      s.ring.pmOut.foldl (fun t e => sendEither p (mkMsg t 0x21 0 0 e.2) t) s2)

/-! Protection (R456, R457). -/

/-- PROTECT_RECEIVE (R456, R457): the partner's SF; messages that resume are posted. [log 169 DEDUCED] -/
def execProtectReceive (m : RingMsg) (s : State) : Out :=
  .next (
    let k := u8 m.body 0
    let x := tget {} s.ring.pairs k
    if !domOn s 31 || !x.held || m.src != (if pairIsW s x then x.pDev else x.wDev) || u8 m.body 1 != b2n (pairIsW s x) then s
    else
      let s1 := pairUpd k (fun y => { y with partnerSf := u8 m.body 2 != 0, heardAt := some s.now, lost := false }) s
      pairRule k false (if x.lost then postEv 0x0A06 [k, 0] s1 else s1))

/-- PROTECT_SEND (R456): the rule is evaluated on the member's present SF, and PROTECT leaves. [log 169 DEDUCED] -/
def execProtectSend (pair : Nat) (s : State) : Out := .next (sendProtect pair (pairRule pair false s))

/-- PROTECT_WTR_EXPIRY (R456). -/
def execProtectWtrExpiry (pair : Nat) (s : State) : Out :=
  .next (match (tget {} s.ring.pairs pair).wtrAt with
    | some t => pairRule pair true (advanceTo t s)
    | none => s)

/-- PROTECT_PARTNER (R457): 5 ms without a PROTECT of the partner. -/
def execProtectPartner (pair : Nat) (s : State) : Out :=
  .next (
    let x := tget {} s.ring.pairs pair
    match x.heardAt with
    | some t => if x.held && !x.lost then
        postEv 0x0A06 [pair, 1] (pairUpd pair (fun y => { y with lost := true }) (advanceTo (t + 5 * msNs) s)) else s
    | none => s)

end Sys2Proof.Machine
end

