-- ==== Sys2Proof/Machine/RxFront.lean ====
section
/-! DEFINITION. The commands and events of the receive front end: settings, AGC, LOS levels, clip monitoring, monitor chains
(spec/04_receive_front_end.md; LOS of R167). -/

namespace Sys2Proof.Machine

/-! Settings and status (R76, R90, R91). -/

/-- SET_RX_FRONT_END. -/
def checkSetRxFrontEnd (c : Ctx) (s : State) : Nat :=
  let p := c.pk.params
  gated s (!plainLen 16 c) [
    (carrierBad p || decide (u8 p 1 < 3) || decide (13 < u8 p 1) || decide (2 < u8 p 2) || u8 p 3 == 0 || decide (15 < u8 p 3)
      || decide (i16 p 4 < -180) || decide (-60 < i16 p 4) || decide (u8 p 6 < 4) || decide (16 < u8 p 6)
      || u8 p 7 == 0 || decide (50 < u8 p 7) || u8 p 8 == 0 || decide (32 < u8 p 8) || !zeroAt p 9 7, stBadParam)]
/-- The settings are stored; they take effect at the next received superframe boundary. Mode 2 of the DC blocking holds the estimates of this
moment (R67). -/
def runSetRxFrontEnd (c : Ctx) (s : State) : Res :=
  let p := c.pk.params
  done (rxUpd (carrierOf (u8 p 0)) (fun r => { r with
    set := {
             dcK := u8 p 1, dcMode := u8 p 2, clipThr := u8 p 3, agcTarget := i16 p 4, stepThr := u8 p 6, stepUs := u8 p 7
             timingBw := u8 p 8 }
    dcHeld := if u8 p 2 = 2 then r.dcEst else r.dcHeld }) s)
/-- SET_RX_FRONT_END. -/
def execSetRxFrontEnd (pk : Packet) (s : State) : Out := .next (serve 0x0220 checkSetRxFrontEnd runSetRxFrontEnd pk s)

/-- The code of an AGC state (R91). -/
def agcCode : AgcState → Nat
  | .off => 0
  | .fast => 1
  | .frozen => 2
  | .refast => 3
  | .hold => 4

/-- The code of a timing state (R91). -/
def timingCode : TimingState → Nat
  | .off => 0
  | .free => 1
  | .acquire => 2
  | .track => 3
  | .hold => 4

/-- GET_RX_STATUS (R91). -/
def checkGetRxStatus (c : Ctx) (s : State) : Nat :=
  gated s (!plainLen 4 c) [(carrierBad c.pk.params || !zeroAt c.pk.params 1 3, stBadParam)]
/-- The 48-byte result; the clip and unfreeze counts clear. -/
def runGetRxStatus (c : Ctx) (s : State) : Res :=
  let k := carrierOf (u8 c.pk.params 0)
  let r := (spireGet s k).rx
  let alarms := b2n (r.clipAlarm.any (·.isSome)) + 2 * b2n r.agcLimit + 4 * b2n r.timingLimit
    + 8 * b2n ((spireGet s k).cal.track.stuck != 0)
  doneWith (rxUpd k (fun r => { r with clips := [0, 0, 0, 0], unfreezes := 0, settleFails := 0 }) s)
    (le 1 (agcCode r.agc) ++ le 1 (timingCode r.timing) ++ le 1 alarms ++ le 1 0
      ++ (List.range 4).flatMap (fun i => leS 2 (r.level.getD i 0)) ++ leS 2 r.gain ++ le 2 0 ++ leS 4 r.clockOffset
      ++ (List.range 4).flatMap (fun i => le 4 (r.clips.getD i 0)) ++ le 2 r.unfreezes ++ le 2 r.settleFails
      ++ (List.range 4).flatMap (fun i => leS 2 (r.dcEst.getD i 0 / 2 ^ 32)))
/-- GET_RX_STATUS. -/
def execGetRxStatus (pk : Packet) (s : State) : Out := .next (serve 0x0221 checkGetRxStatus runGetRxStatus pk s)

/-! The AGC (R67 to R70). -/

/-- The DC-blocking stage runs (R67). -/
def dcRuns (r : Rx) : Bool :=
  match r.use.dcMode with
  | 0 => r.agc != .frozen
  | 1 => true
  | _ => false

/-- The samples of a window after the corrections of their channels (R65). -/
def windowChannels (rs256 : Nat) (vals : Tbl Int) (obs : AgcObs) (r : Rx) : List (List Int) :=
  (List.range 4).map fun ch => adcChannel vals ch r.phase ((obs.codes.getD ch []).take (windowSamples rs256))

/-- Levels, clipped samples and the place among the sub-ADCs after a window (R65, R71, R91): a level is the RMS over the last four windows,
1 us. [log 207 DESIGN CHOICE] -/
def noteLevels (n : Nat) (obs : AgcObs) (xs : List (List Int)) (r : Rx) : Rx :=
  let ps := ((xs.map energyOf, n) :: r.powers).take 4
  let clip := (List.range 4).map fun ch => (((obs.codes.getD ch []).take n).filter clippedSample).length
  { r with
    powers := ps, phase := (r.phase + n) % 128
    level := (List.range 4).map fun ch => levelOf (powerOf (ps.map fun e => e.1.getD ch 0).sum (ps.map (·.2)).sum)
    clips := List.zipWith (fun a b => satAdd 32 a b) r.clips clip, clipNow := List.zipWith (· + ·) r.clipNow clip }

/-- A time that goes on while a condition holds, in ns. -/
def lasting (on : Bool) (t : Nat) : Nat := if on then t + 256 else 0

/-- What a 256 ns window measures (R67 to R70): the DC estimates, the power before the AGC, the gain of the running loop, and how long the limit,
steps and settling last. [log 66 DEDUCED, 208 DESIGN CHOICE] -/
def measureWindow (rs256 : Nat) (xs : List (List Int)) (obs : AgcObs) (r0 : Rx) : Rx :=
  let n := (xs.headD []).length
  let r := noteLevels n obs xs r0
  let ds := xs.zipIdx.map fun e => dcBlock (dcRuns r) r.use.dcK (fsQuarter rs256) (r.dcEst.getD e.2 0) e.1
  let pre := (ds.map fun d => powerOf (energyOf d.1) n).sum
  let runs := r.agc == .fast || r.agc == .refast
  let gain := if runs then clampInt (-768) 1536 obs.gain else r.gain
  let edge := decide (gain = -768) || decide (gain = 1536)
  { r with
    prePower := pre, dcEst := ds.map (·.2), gain := gain
    limitNs := lasting edge r.limitNs, insideNs := lasting (!edge) r.insideNs
    stepNs := lasting (r.agc == .frozen && powerFar (50 * r.use.stepThr) pre r.pRef) r.stepNs
    settledNs := lasting (atTarget r.use.agcTarget gain (pre / 4)) r.settledNs
    refastNs := lasting (r.agc == .refast) r.refastNs }

/-- How long the mean of the four channels' RMS over the window has lain below LOS_SET and above LOS_CLR (R167);
a receiver without light is to lie below it (R168). [log 67 DEDUCED] -/
def measureLos (xs : List (List Int)) (f : Frm) : Frm :=
  let sum := ((xs.take 4).map fun l => (powerOf (energyOf l) l.length * fixOne).sqrt).sum
  { f with
    belowNs := lasting (decide (sum < 4 * levelRms f.use.losSet)) f.belowNs
    aboveNs := lasting (decide (4 * levelRms f.use.losClr < sum)) f.aboveNs }

/-- The AGC enters FROZEN with the power of this window as its reference (R70). -/
def freezeAgc (r : Rx) : Rx := { r with agc := .frozen, pRef := r.prePower, stepNs := 0, settledNs := 0, refastNs := 0 }

/-- A power step in FROZEN has lasted (R70). -/
def stepSeen (r : Rx) : Bool := r.agc == .frozen && decide (1000 * r.use.stepUs < r.stepNs)

/-- One transition of the AGC in the order of R69: LOS, LOF, step, settled. [log 66 DEDUCED] -/
def agcMove (los sync : Bool) (r : Rx) : Rx :=
  if los && r.agc != .hold then { r with agc := .hold, stepNs := 0, settledNs := 0 }
  else if !los && r.agc == .hold then { r with agc := .fast, settledNs := 0 }
  else if r.lofArose && r.agc != .hold then { r with agc := .fast, stepNs := 0, settledNs := 0 }
  else if stepSeen r then { r with agc := .refast, stepNs := 0, settledNs := 0, refastNs := 0, unfreezes := satAdd 16 r.unfreezes 1 }
  else if decide (2000 ≤ r.settledNs) && ((r.agc == .fast && sync) || r.agc == .refast) then freezeAgc r
  else r

/-- The time of day in 1/65,536 ns. -/
def todFine (s : State) : Nat := s.tod * 65536 + s.subns * 65536 / 10 ^ 8

/-- The running monitor chains take the samples of a window (R77). -/
def feedMonitors (c : Carrier) (xs : List (List Int)) (s : State) : State :=
  (List.range 4).foldl (fun t i =>
    let m := (spireGet t c).mon.getD i {}
    if !m.running then t
    else
      let r := monWindow m.input m.dc m.len m.rate (fsQuarter (planOf t c).rs256) (todFine t) (xs.getD i []) m.stages t.free
      spireUpd c (fun x => { x with mon := lupd x.mon i fun m => { m with stages := r.1 } }) { t with free := r.2 }) s

/-- AGC_WINDOW (R65, R67 to R71, R167): 256 ns of samples. [log 66 DEDUCED] -/
def execAgcWindow (c : Carrier) (obs : AgcObs) (s : State) : Out :=
  .next (
    let r0 := (spireGet s c).rx
    if r0.agc == .off then s
    else
      let rs := (planOf s c).rs256
      let xs := windowChannels rs (spireGet s c).cal.vals obs r0
      let r1 := measureWindow rs xs obs r0
      let los := (lineGet s c).frm.los
      let r2 := agcMove los (syncOn s c) r1
      let s0 := captureFeed 0 c (adcBytes s.test.cap.mask obs.codes) s
      let s1 := feedMonitors c xs (frmUpd c (measureLos xs) (rxUpd c (fun _ => { r2 with lofArose := false }) s0))
      let s2 := if r1.agc == .frozen && r2.agc != .frozen then spoilCal c s1 else s1
      if r2.agc == .refast && r1.agc != .refast then postEv 0x0206 [carrierNum c] s2 else s2)

/-- AGC_SETTLE_FAIL (R70): REFAST has run for 100 us. -/
def execAgcSettleFail (c : Carrier) (s : State) : Out :=
  .next (
    let r := (spireGet s c).rx
    if r.agc != .refast || decide (r.refastNs < 100000) then s
    else rxUpd c (fun r => { freezeAgc r with settleFails := satAdd 16 r.settleFails 1 }) s)

/-- AGC_LIMIT (R68): raised once the gain has been at its limit for more than 1 us, cleared once it has been inside for 1 us. -/
def execAgcLimit (c : Carrier) (s : State) : Out :=
  .next (
    let r := (spireGet s c).rx
    let on := if r.agcLimit then decide (r.insideNs < 1000) else decide (1000 < r.limitNs)
    if r.agc == .off || r.agcLimit == on then s
    else post 0x0207 on [carrierNum c] (rxUpd c (fun r => { r with agcLimit := on }) s))

/-! LOS (R115, R167). -/

/-- LOS_DECLARE: the level has stayed below LOS_SET for los_t_set. -/
def execLosDeclare (c : Carrier) (s : State) : Out :=
  .next (
    let f := (lineGet s c).frm
    if !rxPowered s c || f.los || decide (f.belowNs < 1000 * f.use.tSet) then s
    else acqLos c (neutralize c (spoilCal c (frmUpd c (fun f => { f with los := true }) s))))

/-- LOS_CLEAR: the level has stayed above LOS_CLR for los_t_clr; acquisition leaves WAIT_SIGNAL. -/
def execLosClear (c : Carrier) (s : State) : Out :=
  .next (
    let f := (lineGet s c).frm
    if !rxPowered s c || !f.los || decide (f.aboveNs < 1000 * f.use.tClr) then s
    else
      let s1 := frmUpd c (fun f => { f with los := false }) s
      if (spireGet s1 c).acq.state == .waitSignal then leaveWait c s1 else s1)

/-! Clip monitoring (R71). -/

/-- RX_CLIP_INTERVAL (R64, R71): the clipped samples of 1 ms against those that an ADC takes in it. [log 65 DEDUCED] -/
def execRxClipInterval (c : Carrier) (adc : Nat) (s : State) : Out :=
  .next (if 4 ≤ adc || (spireGet s c).rx.agc == .off then s
    else
      let x := (spireGet s c).rx
      let r := clipStep 10 (x.clipNow.getD adc 0) (samplesPerMs (planOf s c).rs256) (x.clipAlarm.getD adc none)
      let s1 := rxUpd c (fun x => { x with clipNow := lupd x.clipNow adc fun _ => 0, clipAlarm := lupd x.clipAlarm adc fun _ => r.1 }) s
      match r.2 with
      | some v => post 0x0205 v [carrierNum c, adc] s1
      | none => s1)

/-! Monitor chains (R77 to R79, R94, R95). -/

/-- A monitor chain. -/
def monGet (s : State) (c : Carrier) (i : Nat) : Mon := (spireGet s c).mon.getD i {}

/-- The state with a monitor chain updated. -/
def monUpd (c : Carrier) (i : Nat) (f : Mon → Mon) (s : State) : State := spireUpd c (fun x => { x with mon := lupd x.mon i f }) s

/-- SET_MONITOR (R94). -/
def checkSetMonitor (c : Ctx) (s : State) : Nat :=
  let p := c.pk.params
  let bad := carrierBad p || decide (3 < u8 p 1) || decide (1 < u8 p 2) || decide (1 < u8 p 3) || (u8 p 2 == 1 && u8 p 3 == 1)
    || u16 p 4 == 0 || decide (4096 < u16 p 4) || decide (u32 p 6 < 1000) || decide (10000000 < u32 p 6) || decide (15 < u8 p 10)
    || !zeroAt p 11 5
  gated s (!plainLen 16 c) [(bad, stBadParam), ((monGet s (carrierOf (u8 p 0)) (u8 p 1)).running, stBadState)]
/-- The settings of a STOPPED chain are stored. -/
def runSetMonitor (c : Ctx) (s : State) : Res :=
  let p := c.pk.params
  done (monUpd (carrierOf (u8 p 0)) (u8 p 1) (fun m => { m with
    input := u8 p 2, dc := u8 p 3, len := u16 p 4, rate := u32 p 6, dma := u8 p 10 }) s)
/-- SET_MONITOR. -/
def execSetMonitor (pk : Packet) (s : State) : Out := .next (serve 0x0224 checkSetMonitor runSetMonitor pk s)

/-- MONITOR_CONTROL (R95). -/
def checkMonitorControl (c : Ctx) (s : State) : Nat :=
  let p := c.pk.params
  gated s (!plainLen 4 c) [
    (carrierBad p || decide (15 < u8 p 1) || decide (1 < u8 p 2) || !zeroAt p 3 1, stBadParam),
    (u8 p 2 == 1 && !domOn s (adcDom (carrierOf (u8 p 0))), stBadState)]
/-- Each named chain starts or stops. [log 74 DEDUCED] -/
def runMonitorControl (c : Ctx) (s : State) : Res :=
  let p := c.pk.params
  let k := carrierOf (u8 p 0)
  let start := u8 p 2 == 1
  let one (m : Mon) : Mon :=
    if m.running == start then m
    else if start then { m with running := true, closing := false, seq := 0, first := true, gap := false, stages := {} }
    else { m with running := false, closing := true }
  done ((List.range 4).foldl (fun t i => if (u8 p 1).testBit i then monUpd k i one t else t) s)
/-- MONITOR_CONTROL. -/
def execMonitorControl (pk : Packet) (s : State) : Out := .next (serve 0x0225 checkMonitorControl runMonitorControl pk s)

/-- The time that a record gives its sample 0 in 1/65,536 ns (R78): within 2 ns of its own. [log 209 DESIGN CHOICE] -/
def monitorTime (s : State) (t : Nat) : Nat × State :=
  let wrap : Int := 2 ^ 48 * secNs * 65536
  ((((t : Int) + clampInt (-131072) 131072 (Config.freeInt 78 s.free)) % wrap).toNat, { s with free := s.free + 1 })

/-- A monitor record (R78): 512 bytes. -/
def monitorRecord (c : Carrier) (i : Nat) (m : Mon) (time : Nat) (samples : List Int) : List Byte :=
  let body := samples.flatMap (leS 2)
  le 1 (carrierNum c) ++ le 1 i ++ le 1 (b2n m.gap + 2 * b2n m.first + 4 * m.input) ++ le 1 0 ++ le 4 m.seq
    ++ le 6 (time / 65536 / secNs) ++ le 4 (time / 65536 % secNs) ++ le 2 (time % 65536) ++ le 2 samples.length ++ le 2 0
    ++ body ++ List.replicate (488 - body.length) 0

/-- The records of a chain that wait on the DMA channels, whichever it has named (R79). -/
def monitorHeld (s : State) (c : Carrier) (i : Nat) : Nat :=
  ((List.range 16).map fun d => ((chanGet s d).stream.filter fun r => r.from_ == 4 * carrierNum c + i).length).sum

/-- A record of a chain is closed with `n` samples (R78, R79): a 65th waiting one is discarded and counted. [log 73 DESIGN CHOICE] -/
def closeRecord (c : Carrier) (ch n : Nat) (s : State) : State :=
  let m := monGet s c ch
  let next (m : Mon) : Mon := { m with
    seq := (m.seq + 1) % 2 ^ 32, first := false, closing := false, stages := { m.stages with buf := m.stages.buf.drop n } }
  if 64 ≤ monitorHeld s c ch then
    monUpd c ch (fun m => { (next m) with gap := true, overrun := satAdd 32 m.overrun 1 }) s
  else
    let l := m.stages.buf.take n
    let t := monitorTime s (l.headD (0, 0)).2
    let s1 := chanUpd m.dma (fun x => { x with stream := x.stream ++
      [⟨s.pcie.posted, 4 * carrierNum c + ch, monitorRecord c ch m t.1 (l.map (·.1))⟩] }) t.2
    monUpd c ch (fun m => { (next m) with gap := false }) { s1 with pcie := { s1.pcie with posted := s1.pcie.posted + 1 } }

/-- MONITOR_RECORD_CLOSE (R78, R79): a chain closes a record of 244 samples, a stopped one its last. [log 74 DEDUCED] -/
def execMonitorRecordClose (c : Carrier) (ch : Nat) (s : State) : Out :=
  .next (
    let m := monGet s c ch
    let n := min 244 m.stages.buf.length
    if decide (ch < 4) && ((m.running && n == 244) || (!m.running && m.closing && decide (1 ≤ n))) then closeRecord c ch n s else s)

end Sys2Proof.Machine
end

