-- ==== Sys2Proof/Machine/Skew.lean ====
section
/-! DEFINITION. The commands and events of the skew buffers and of the merge (spec/10_bonding_and_merge.md). -/

namespace Sys2Proof.Machine

/-! Commands (R258 to R262). -/

/-- SET_SKEW_CONFIG (R259). -/
def checkSetSkewConfig (c : Ctx) (s : State) : Nat :=
  let p := c.pk.params
  gated s (!plainLen 8 c) [
    (decide (2000 < u16 p 0) || u16 p 0 % 50 != 0 || u8 p 2 == 0 || decide (100 < u8 p 2) || decide (1 < u8 p 3) || !zeroAt p 4 4, stBadParam)]
/-- The values apply at the next multiframe boundary (R258). -/
def runSetSkewConfig (c : Ctx) (s : State) : Res :=
  let p := c.pk.params
  done { s with skew := { s.skew with set := { s.skew.set with guard := u16 p 0, ramp := u8 p 2, jump := u8 p 3 == 1 } } }
/-- SET_SKEW_CONFIG. -/
def execSetSkewConfig (pk : Packet) (s : State) : Out := .next (serve 0x0501 checkSetSkewConfig runSetSkewConfig pk s)

/-- SET_MERGE_CONFIG (R260). -/
def checkSetMergeConfig (c : Ctx) (s : State) : Nat :=
  let p := c.pk.params
  gated s (!plainLen 4 c) [
    (decide (3 < u8 p 0) || !zeroAt p 1 1 || decide (u16 p 2 < 10) || decide (3600 < u16 p 2), stBadParam)]
/-- Mode and preference apply from the next frame read; a running WTR restarts. -/
def runSetMergeConfig (c : Ctx) (s : State) : Res :=
  let p := c.pk.params
  let set (k : SkewSet) : SkewSet := { k with mode := u8 p 0, wtr := u16 p 2 }
  let s1 := { s with skew := { s.skew with set := set s.skew.set, use := set s.skew.use } }
  done (legUpd .a (fun l => { l with eligSince := l.eligSince.map fun _ => s.now }) { s1 with mrg := { s1.mrg with prefA := false } })
/-- SET_MERGE_CONFIG. -/
def execSetMergeConfig (pk : Packet) (s : State) : Out := .next (serve 0x0502 checkSetMergeConfig runSetMergeConfig pk s)

/-- The code of a group state (R261). -/
def groupCode : GroupState → Nat
  | .off => 0
  | .ramp => 1
  | .aligned => 2
  | .excess => 3

/-- The skew is valid (R239). -/
def skewValid (s : State) : Bool := s.skew.valid && syncOn s .a && syncOn s .b

/-- GET_SKEW_STATUS (R261). -/
def checkGetSkewStatus (c : Ctx) (s : State) : Nat := gated s (!plainLen 0 c) []
/-- The 32-byte result; the counters clear. -/
def runGetSkewStatus (c : Ctx) (s : State) : Res :=
  let _ := c
  let k := s.skew
  let t := unitsToNs k.toTarget
  doneWith { s with skew := { k with steps := 0, excess := 0, unaligned := 0, domeUncorr := 0 } }
    (le 1 (groupCode k.state) ++ le 1 (b2n (skewValid s) + 2 * b2n (inDome s .a) + 4 * b2n (inDome s .b) + 8 * b2n (decide (10 < t.natAbs)))
      ++ le 2 0 ++ leS 4 k.value ++ leS 4 (unitsToNs k.delay.a) ++ leS 4 (unitsToNs k.delay.b) ++ leS 4 t
      ++ le 2 k.steps ++ le 2 k.excess ++ le 2 k.unaligned ++ le 2 k.domeUncorr ++ le 4 0)
/-- GET_SKEW_STATUS. -/
def execGetSkewStatus (pk : Packet) (s : State) : Out := .next (serve 0x0503 checkGetSkewStatus runGetSkewStatus pk s)

/-- The remaining WTR in s, rounded up (R262). -/
def wtrLeft (s : State) : Nat :=
  match s.mrg.legs.a.eligSince with
  | some t => if s.skew.use.mode = 1 && !s.mrg.prefA && s.mode.cur == .merge then
      (t + s.skew.use.wtr * secNs - s.now + secNs - 1) / secNs else 0
  | none => 0

/-- GET_MERGE_STATUS (R262). -/
def checkGetMergeStatus (c : Ctx) (s : State) : Nat := gated s (!plainLen 0 c) []
/-- The 48-byte result; the counters clear. -/
def runGetMergeStatus (c : Ctx) (s : State) : Res :=
  let _ := c
  let m := s.mrg
  let far (k : Carrier) : Bool := (lineGet s k).frm.leg.val == some 1
  let legs := b2n m.legs.a.qualified + 2 * b2n m.legs.a.eligible + 4 * b2n m.legs.b.qualified + 8 * b2n m.legs.b.eligible
    + 16 * b2n (far .a) + 32 * b2n (far .b) + 64 * b2n m.loss
  let head := if s.mode.cur == .merge then
      le 1 (b2n m.selB) ++ le 1 legs ++ le 1 m.legs.a.reason ++ le 1 m.legs.b.reason ++ le 2 m.legs.a.run ++ le 2 m.legs.b.run
    else le 8 0
  doneWith { s with mrg := { m with switches := 0, slips := 0, losses := 0, skipped := 0, absent := 0, badTaken := 0 } }
    (head ++ leS 4 s.skew.value ++ leS 4 (unitsToNs (max s.skew.delay.a s.skew.delay.b)) ++ le 4 (wtrLeft s) ++ le 4 m.switches
      ++ le 2 m.slips ++ le 2 m.losses ++ le 4 m.skipped ++ le 4 m.absent ++ le 4 m.badTaken ++ le 4 m.slipGap ++ le 4 0)
/-- GET_MERGE_STATUS. -/
def execGetMergeStatus (pk : Packet) (s : State) : Out := .next (serve 0x0504 checkGetMergeStatus runGetMergeStatus pk s)

/-! Skew (R239, R244). -/

/-- SKEW_UPDATE (R239, R244, R258): the mean of 256 differences in ns; settings apply at the multiframe boundary; skew beyond
the limit enters EXCESS, and skew within 95 % of it lets EXCESS end. [log 122 DEDUCED, 188 DEDUCED] -/
def execSkewUpdate (sum : Int) (s0 : State) : Out :=
  .next (if !domOn s0 2 then s0
    else
      let s := { s0 with skew := { s0.skew with use := s0.skew.set } }
      if !(syncOn s .a && syncOn s .b && trafficMode s.mode.cur) then { s with skew := { s.skew with valid := false } }
      else
        let v := roundDiv sum 256
        let lim := skewLimit s.mode.cur
        let s1 := { s with skew := { s.skew with value := v, valid := true } }
        if s.skew.state == .off then s1
        else if lim < v.natAbs then enterExcess { s1 with skew := { s1.skew with within := none } }
        else if s.skew.state == .excess then
          { s1 with skew := { s1.skew with within := if 100 * v.natAbs ≤ 95 * lim then some (s.skew.within.getD s.now) else none } }
        else s1)

/-- EXCESS ends: the schedule ramps to its target (R244). [log 176 DEDUCED] -/
def leaveExcess (s : State) : State :=
  let s1 := clearExcess s
  { s1 with skew := { s1.skew with state := .ramp, within := none } }

/-- EXCESS_END (R244): the skew has stayed within 95 % of the limit for 100 ms. -/
def execExcessEnd (s : State) : Out :=
  .next (match s.skew.state, s.skew.within with
    | .excess, some t => leaveExcess (advanceTo (t + 100 * msNs) s)
    | _, _ => s)

/-! Schedules (R240 to R245, R251). -/

/-- A schedule moves toward its target by at most the ramp over a number of frames (R241). -/
def moveTo (s : State) (frames : Int) (base target : Int) : Int :=
  let m := s.skew.use.ramp * ppmUnits * max 1 frames
  base + clampInt (-m) m (target - base)

/-- The time at which a carrier's schedule reads a frame when its period does not change; it starts from the delay in use. [log 121 DEDUCED] -/
def schedBase (s : State) (c : Carrier) (fc : Nat) (arr : Option Int) : Option Int :=
  match pget s.skew.sched c, arr with
  | some t, _ => some (t + fcDist (pget s.skew.readFc c) fc * frameUnits)
  | none, some a => some (a + pget s.skew.delay c)
  | none, none => none

/-- A carrier's schedule set, with its delay behind the arrival, the frame read and the lengthening of the frame period. -/
def putSched (c : Carrier) (fc : Nat) (t : Option Int) (arr : Option Int) (s : State) : State :=
  { s with skew := { s.skew with
    sched := pset s.skew.sched c t
    readFc := pset s.skew.readFc c fc
    stretch := match pget s.skew.sched c, t with
      | some old, some x =>
        let n := fcDist (pget s.skew.readFc c) fc
        pset s.skew.stretch c (if n = 0 then 0 else roundDiv (x - old) n.natAbs - frameUnits)
      | _, _ => pset s.skew.stretch c 0
    delay := match t, arr with
      | some x, some a => pset s.skew.delay c (max 0 (x - a))
      | _, _ => s.skew.delay } }

/-- A schedule of a carrier alone: it ramps toward a target and never reads a frame before it arrives. [log 120 DEDUCED] -/
def ownSched (s : State) (c : Carrier) (fc : Nat) (arr target : Option Int) : Option Int :=
  match schedBase s c fc arr, arr, target with
  | some b, some a, some t => some (max a (moveTo s (fcDist (pget s.skew.readFc c) fc) b t))
  | b, _, _ => b

/-- The distance of both schedules from their targets, the larger one. [log 122 DEDUCED] -/
def noteTarget (l : List (Option Int × Option Int)) (s : State) : State :=
  let ds := l.filterMap fun e => match e.1, e.2 with
    | some x, some t => some (x - t)
    | _, _ => none
  { s with skew := { s.skew with toTarget := ds.foldl (fun m d => if m.natAbs < d.natAbs then d else m) 0 } }

/-- Both carriers read on their own arrivals (R242). -/
def readOwn (fc : Nat) (arrA arrB : Option Int) (s : State) : State :=
  let a := ownSched s .a fc arrA arrA
  let b := ownSched s .b fc arrB arrB
  noteTarget [(a, arrA), (b, arrB)] (putSched .b fc b arrB (putSched .a fc a arrA s))

/-- The tenants that see a gap have their running period replaced (R245). [log 123 DEDUCED] -/
def gapTenants (cs : List Carrier) (s : State) : State :=
  ((rxTenants s).filter fun t => cs.any fun c => onCarrier s c t).foldl
    (fun u t => tenUpd t (fun v => { v with rx := { v.rx with replaceNext := true } }) u) s

/-- The earlier carrier cannot be held within the limit (R245). -/
def cannotHold (s : State) (t : Int) (arrA arrB : Int) : Bool :=
  decide ((skewLimit s.mode.cur : Int) * unitNs + guardUnits s < t - min arrA arrB)

/-- The joint schedule of an ALIGNED pair (R244, R245): it holds without both arrivals; a step jumps or slews. -/
def readJoint (fc : Nat) (arrA arrB : Option Int) (s : State) : State :=
  match schedBase s .a fc arrA, arrA, arrB with
  | some b, some a1, some b1 =>
    let late := max a1 b1
    let goal := late + guardUnits s
    if b < late then
      let s1 := postEv 0x0504 [sArg (unitsToNs (late - b))] { s with skew := { s.skew with steps := satAdd 16 s.skew.steps 1 } }
      if cannotHold s goal a1 b1 then enterExcess (putSched .b fc (some b) arrB (putSched .a fc (some b) arrA s1))
      else if s.skew.use.jump then
        noteTarget [] (gapTenants [.a, .b] (putSched .b fc (some goal) arrB (putSched .a fc (some goal) arrA s1)))
      else
        let slow : Carrier := if a1 < b1 then .b else .a
        let s2 := putSched .b fc (some (if slow = .b then goal else b)) arrB
          (putSched .a fc (some (if slow = .a then goal else b)) arrA (leaveAligned .ramp s1))
        noteTarget [(some b, some goal)] (gapTenants [slow] s2)
    else
      let t := moveTo s (fcDist s.skew.readFc.a fc) b goal
      let s1 := noteTarget [(some t, some goal)] (putSched .b fc (some t) arrB (putSched .a fc (some t) arrA s))
      if cannotHold s t a1 b1 then enterExcess s1 else s1
  | b, _, _ => putSched .b fc b arrB (putSched .a fc b arrA s)

/-- Two times lie within 10 ns (R241). -/
def near (x y : Int) : Bool := decide ((x - y).natAbs ≤ (10 * unitNs).natAbs)

/-- The schedules of a pair in RAMP (R244): they hold while either carrier is out of SYNC; within 10 ns they become one. [log 120 DEDUCED] -/
def readRamp (fc : Nat) (arrA arrB : Option Int) (s : State) : State :=
  match arrA, arrB with
  | some a1, some b1 =>
    let goal := max a1 b1 + guardUnits s
    match ownSched s .a fc arrA (some goal), ownSched s .b fc arrB (some goal) with
    | some x, some y =>
      let s1 := noteTarget [(some x, some goal), (some y, some goal)] (putSched .b fc (some y) arrB (putSched .a fc (some x) arrA s))
      if cannotHold s (max x y) a1 b1 then enterExcess s1
      else if near x y && near x goal && near y goal then
        let s2 := putSched .b fc (some (max x y)) arrB (putSched .a fc (some (max x y)) arrA s1)
        lineEffects (postEv 0x0501 [] { s2 with skew := { s2.skew with state := .aligned } })
      else s1
    | x, y => putSched .b fc y arrB (putSched .a fc x arrA s)
  | _, _ => putSched .b fc (schedBase s .b fc arrB) arrB (putSched .a fc (schedBase s .a fc arrA) arrA s)

/-- The schedules of a pair in EXCESS (R244): the earlier carrier is held at the limit plus g, the later ramps toward its
arrival plus g. [log 121 DEDUCED] -/
def readExcess (fc : Nat) (arrA arrB : Option Int) (s : State) : State :=
  match arrA, arrB with
  | some a1, some b1 =>
    let held (x : Int) : Int := x + (skewLimit s.mode.cur : Int) * unitNs + guardUnits s
    let own (c : Carrier) (x : Int) : Option Int := ownSched s c fc (some x) (some (x + guardUnits s))
    let ta := if a1 ≤ b1 then some (held a1) else own .a a1
    let tb := if a1 ≤ b1 then own .b b1 else some (held b1)
    putSched .b fc tb arrB (putSched .a fc ta arrA s)
  | _, _ => putSched .b fc (schedBase s .b fc arrB) arrB (putSched .a fc (schedBase s .a fc arrA) arrA s)

/-- A leg counts for the target of the merge (R251). -/
def legCounts (s : State) (c : Carrier) : Bool :=
  let l := legGet s c
  l.qualified || (match l.holdAt with
    | some t => decide (s.now < t)
    | none => false)

/-- The one schedule of MERGE (R251): toward the latest arrival of the legs that count and lie within 2.0 ms of the selected
leg, plus g. -/
def readMerge (fc : Nat) (arrA arrB : Option Int) (down : Bool) (s : State) : State :=
  let sel := if s.mrg.selB then arrB else arrA
  let cand (c : Carrier) (arr : Option Int) : List Int := match arr, sel with
    | some x, some y => if legCounts s c && decide ((x - y).natAbs ≤ (2000000 * unitNs).natAbs) then [x] else []
    | some x, none => if legCounts s c then [x] else []
    | none, _ => []
  let goal : Option Int := if down then arrA else match cand .a arrA ++ cand .b arrB with
    | [] => none
    | x :: r => some (r.foldl max x + guardUnits s)
  let base := schedBase s .a fc arrA
  let t := match base, goal with
    | some b, some g => some (moveTo s (fcDist s.skew.readFc.a fc) b g)
    | b, _ => b
  let s1 := noteTarget [(t, goal)] (putSched .b fc t arrB (putSched .a fc t arrA s))
  let lag (arr : Option Int) (l : Leg) : Leg := { l with delay := match t, arr with
    | some x, some a => some (x - a)
    | _, _ => l.delay }
  noteLegs (legUpd .b (lag arrB) (legUpd .a (lag arrA) s1))

/-- A transition ramps the delays down (R242). -/
def rampingDown (s : State) : Bool :=
  match s.mode.trans with
  | some t => t.step == 3
  | none => false

/-- The schedules move with a frame that is read (R240 to R245, R251); arrivals are in units. -/
def moveSchedules (f : Nat) (a b : Option Int) (s : State) : State :=
  if s.mode.cur == .merge then readMerge f a b (rampingDown s) s
  else if rampingDown s then readOwn f a b (if s.skew.state == .aligned then leaveAligned .ramp s else s)
  else match s.skew.state with
    | .off => readOwn f a b s
    | .ramp => readRamp f a b s
    | .aligned => readJoint f a b s
    | .excess => readExcess f a b s

/-- SCHEDULE_FRAME_READ (R240): frame `fc` leaves the skew buffers, in MERGE by the selector (R252); the operands are its arrivals in ns on the
carriers that are in SYNC. -/
def execScheduleFrameRead (fc : Nat) (arrA arrB : Option Int) (s : State) : Out :=
  .next (if !domOn s 2 then s
    else
      let f := fc % 2 ^ 24
      let a := if syncOn s .a then arrA.map (· * unitNs) else none
      let b := if syncOn s .b then arrB.map (· * unitNs) else none
      let s1 := moveSchedules f a b s
      if s.mode.cur == .merge then s1 else extractFrame f (heldFrame s .a f) (heldFrame s .b f) s1)

/-! The selector (R252 to R256). -/

/-- A leg's copy of a frame may be used: the leg is eligible, or the copy arrived while it was (R250). [log 119 DEDUCED] -/
def legUsable (s : State) (c : Carrier) (fc : Nat) : Bool :=
  let l := legGet s c
  l.eligible || (match l.usableTo with
    | some u => decide (0 ≤ fcDist fc u)
    | none => false)

/-- The preferred leg (R253). -/
def preferred (s : State) : Option Carrier :=
  match s.skew.use.mode with
  | 0 => none
  | 1 => if s.mrg.prefA then some .a else none
  | 2 => some .a
  | _ => some .b

/-- The leg that the procedure of R252 takes, and whether its copy is good; none where the frame is absent. -/
def selectLeg (s : State) (fc : Nat) (a b : LegCopy) : Option (Carrier × Bool) :=
  let sel : Carrier := if s.mrg.selB then .b else .a
  let copy (c : Carrier) : LegCopy := if c = .a then a else b
  let good (c : Carrier) : Bool := (copy c).present && (copy c).good && legUsable s c fc
  let pref := preferred s
  let prefGood := match pref with
    | some p => good p
    | none => false
  if good sel && !(prefGood && pref != some sel) then some (sel, true)
  else if good .a || good .b then
    match pref with
    | some p => if good p then some (p, true) else some (if good .a then .a else .b, true)
    | none =>
      if good .a && good .b then some (if fecDegOn s .a && !fecDegOn s .b then .b else .a, true)
      else some (if good .a then .a else .b, true)
  else if (copy sel).present then some (sel, false)
  else if (legGet s (otherCarrier sel)).eligible && (copy (otherCarrier sel)).present then some (otherCarrier sel, false)
  else none

/-- An absent frame (R254): every tenant's period is replaced, and the fifth in a row raises MERGE_LOSS. -/
def absentFrame (s : State) : State :=
  let s1 := gapTenants [.a] { s with mrg := { s.mrg with
    absent := satAdd 32 s.mrg.absent 1, absentRun := s.mrg.absentRun + 1, goodRun := 0 } }
  if s1.mrg.absentRun = 5 && !s1.mrg.loss then
    lineEffects (post 0x0508 true [] { s1 with mrg := { s1.mrg with loss := true, losses := satAdd 16 s1.mrg.losses 1 } })
  else s1

/-- A taken frame (R252, R255): a switch is posted when a good copy moves the selection; the announcement is accepted from a
good copy. -/
def takenFrame (leg : Carrier) (good : Bool) (ann : Option Nat) (s : State) : State :=
  let moves := good && decide ((leg = .b) ≠ (s.mrg.selB = true))
  let s1 := if moves then
      postEv 0x0507 [carrierNum leg] { (pmCount (carrierNum leg) (fun a => { a with switches := a.switches + 1 }) s) with mrg := { s.mrg with selB := leg == .b, switches := satAdd 32 s.mrg.switches 1 } }
    else s
  let s2 := { s1 with mrg := { s1.mrg with
    absentRun := 0, goodRun := if good then s1.mrg.goodRun + 1 else 0
    badTaken := if good then s1.mrg.badTaken else satAdd 32 s1.mrg.badTaken 1 } }
  let s3 := match good, ann with
    | true, some v => takeAnn .a v s2
    | _, _ => s2
  noteLossEnd s3

/-- The selected leg has failed and no leg is eligible: the schedule slips to the other leg (R256). [log 124 DESIGN CHOICE] -/
def slipDue (s : State) : Bool :=
  let sel : Carrier := if s.mrg.selB then .b else .a
  lineFailOn s sel && !s.mrg.legs.a.eligible && !s.mrg.legs.b.eligible && (legGet s (otherCarrier sel)).qualified

/-- A slip (R256): the schedule jumps to the other leg's arrival plus g; where that leg is earlier than the window, the frames
that it no longer holds are skipped. [log 123 DEDUCED, 124 DESIGN CHOICE] -/
def slip (s : State) : State :=
  let other : Carrier := if s.mrg.selB then .a else .b
  match (legGet s other).delay, s.skew.sched.a with
  | some d, some t =>
    let new := t - d + guardUnits s
    let later := decide (d ≤ windowUnits s)
    let over_ := d - windowUnits s
    let skipped : Nat := if later then 0 else ((over_ + frameUnits - 1) / frameUnits).toNat
    let g := if later then ((unitsToNs (new - t)).toNat, s) else drawNat 256 (2 ^ 32) s
    let s1 := postEv 0x0509 [g.1, skipped] { g.2 with
      mrg := { g.2.mrg with
        selB := other == .b, slips := satAdd 16 g.2.mrg.slips 1, skipped := satAdd 32 g.2.mrg.skipped skipped
        slipGap := (g.1 + 500) / 1000
        lastFc := g.2.mrg.lastFc.map fun f => (f + skipped) % 2 ^ 24 }
      skew := { g.2.skew with sched := ⟨some new, some new⟩ } }
    let move (l : Leg) : Leg := { l with delay := l.delay.map (· + new - t) }
    noteLegs (legUpd .b move (legUpd .a move s1))
  | _, _ => s

/-- The copy of a frame on a leg (R249). -/
def legCopy (s : State) (c : Carrier) (fc : Nat) : LegCopy :=
  match heldFrame s c fc with
  | some f => ⟨true, f.good, f.ann⟩
  | none => ⟨false, false, none⟩

/-- MERGE_FRAME_SELECT (R252, R255): at S(k) one copy of frame k is taken and its containers leave; FC values rise strictly. -/
def execMergeFrameSelect (fc : Nat) (s0 : State) : Out :=
  .next (if s0.mode.cur != .merge || !domOn s0 2 then s0
    else
      let f := fc % 2 ^ 24
      let s := if slipDue s0 then slip s0 else s0
      let after := match s.mrg.lastFc with
        | some l => decide (0 < fcDist l f)
        | none => true
      if !after then s
      else
        let s1 := { s with mrg := { s.mrg with lastFc := some f } }
        match selectLeg s1 f (legCopy s1 .a f) (legCopy s1 .b f) with
        | none => absentFrame (dropHeld f s1)
        | some (leg, good) => takenFrame leg good (legCopy s1 leg f).ann (extractFrame f (heldFrame s1 leg f) none s1))

/-- LEG_QUALIFICATION_HOLD_EXPIRY (R251): 900 s after a leg lost its qualification it no longer holds the window open. -/
def execLegQualificationHoldExpiry (leg : Carrier) (s : State) : Out :=
  .next (match (legGet s leg).holdAt with
    | none => s
    | some t => legUpd leg (fun l => { l with holdAt := none }) (advanceTo t s))

/-- Leg A becomes the preferred leg (R253). -/
def preferA (s : State) : State := { s with mrg := { s.mrg with prefA := true } }

/-- MERGE_WTR_EXPIRY (R253): leg A has been eligible without a break for the wait-to-restore time. -/
def execMergeWtrExpiry (s : State) : Out :=
  .next (match s.mrg.legs.a.eligSince with
    | none => s
    | some t =>
      if s.mode.cur != .merge || s.skew.use.mode != 1 then s
      else preferA (advanceTo (t + s.skew.use.wtr * secNs) s))

end Sys2Proof.Machine
end

