-- ==== Sys2Proof/Machine/Test.lean ====
section
/-! DEFINITION. The commands and events of loops, patterns, capture and sub-assembly buses (spec/20_test_diagnostics.md). -/

namespace Sys2Proof.Machine

/-! Loops (R523 to R526, R538). -/

/-- The carrier, lane or port of an object number is in range for a loop. -/
def loopObject (k obj : Nat) : Bool := if k = 3 || k = 4 then decide (obj < 40) else decide (obj < 2)

/-- A test on a host lane may run (R525): in MAINTAIN, elsewhere on an enabled lane that belongs to no PHY. -/
def laneTestOk (s : State) (l : Nat) : Bool := s.mode.cur == .maintain || (laneEnabled s l && (phyAt s l).isNone)

/-- A loop may be set or removed in this mode and role (R525). -/
def loopAllowed (s : State) (k obj : Nat) : Bool :=
  if k < 3 then s.mode.cur == .maintain else if k < 5 then laneTestOk s obj else s.ring.role != 0

/-- The domains of a loop's object are ON (R538). [log 183 DESIGN CHOICE] -/
def loopPowered (s : State) (k obj : Nat) : Bool :=
  if k < 3 then (loopDoms (carrierOf obj) k).all (domOn s) else if k < 5 then domOn s (quadDom (obj / 4)) else domOn s 31

/-- The loop set on an object, with its code. -/
def loopOn (s : State) (k obj : Nat) : Option Nat :=
  if k < 3 then lineLoop s (carrierOf obj)
  else if k < 5 then (match tget 0 s.test.laneLoop obj with
    | 0 => none
    | v => some v)
  else if pget s.test.portLoop (carrierOf obj) then some 5 else none

/-- SET_LOOP (R538): a second loop on an occupied object is refused. [log 177 DEDUCED] -/
def checkSetLoop (c : Ctx) (s : State) : Nat :=
  let p := c.pk.params
  let k := u8 p 0
  gated s (!plainLen 4 c) [
    (decide (5 < k) || !loopObject k (u8 p 1) || decide (1 < u8 p 2) || decide (2 < u8 p 3) || (k != 0 && u8 p 3 != 0), stBadParam),
    (!loopAllowed s k (u8 p 1) || !loopPowered s k (u8 p 1) || (u8 p 2 == 1 && (loopOn s k (u8 p 1)).isSome), stBadState)]

/-- A line loop is set or removed with its timing source (R523, R526). [log 177 DEDUCED] -/
def setLineLoop (c : Carrier) (k timing : Nat) (on : Bool) (s : State) : State :=
  linePatUpd c (fun p => { p with
    loop := if on then some k else none
    timing := if k = 2 then p.timing else if !on then 0 else if k = 1 then 1 else timing
    fallback := if k = 2 then p.fallback else false }) s

/-- The port of a number. -/
def portOf (n : Nat) : Port := if n = 0 then .east else .west

/-- The loop is set or removed; a removal of a loop that is not set changes nothing. [log 177 DEDUCED] -/
def runSetLoop (c : Ctx) (s : State) : Res :=
  let p := c.pk.params
  let k := u8 p 0
  let obj := u8 p 1
  let on := u8 p 2 == 1
  if !on && loopOn s k obj != some k then done s
  else if k < 3 then
    let s1 := setLineLoop (carrierOf obj) k (u8 p 3) on s
    done (if k = 2 then switchFraming (carrierOf obj) on s1 else s1)
  else if k < 5 then done { s with test := { s.test with laneLoop := tset 0 s.test.laneLoop obj (if on then k else 0) } }
  else done (linkDown (portOf obj) { s with test := { s.test with portLoop := pset s.test.portLoop (carrierOf obj) on } })
/-- SET_LOOP. -/
def execSetLoop (pk : Packet) (s : State) : Out := .next (serve 0x0C01 checkSetLoop runSetLoop pk s)

/-- TIMING_FALLBACK (R526): the named clock is not in TRACK, and the transmitter takes the system timing; it returns with it. -/
def execTimingFallback (c : Carrier) (s : State) : Out :=
  .next (match (if s.mode.cur == .maintain then timingClock s c else none) with
    | none => s
    | some x =>
      let lost := !trackOn s x
      let was := (pget s.test.line c).fallback
      let s1 := linePatUpd c (fun p => { p with
        fallback := lost
        fallbacks := if lost && !was then satAdd 32 p.fallbacks 1 else p.fallbacks }) s
      if lost && !was then postEv 0x0C04 [carrierNum c] s1 else s1)

/-! Patterns (R527 to R529, R539 to R542). -/

/-- A checker is switched: it starts in HUNT, and stops (R528). -/
def switchChecker (on : Bool) (k : Checker) : Checker :=
  { k with state := if !on then 0 else if k.state = 0 then 1 else k.state }

/-- SET_LINE_PATTERN (R539). -/
def checkSetLinePattern (c : Ctx) (s : State) : Nat :=
  let p := c.pk.params
  gated s (!plainLen 8 c) [
    (decide (1 < u8 p 0) || decide (2 < u8 p 1) || decide (3 < u8 p 2) || decide (2 < u8 p 3) || decide (838860 < u32 p 4), stBadParam),
    (s.mode.cur != .maintain || (txGet s (carrierOf (u8 p 0))).state == .off, stBadState)]
/-- Content, checker, injection and timing source of a carrier. -/
def runSetLinePattern (c : Ctx) (s : State) : Res :=
  let p := c.pk.params
  let k := carrierOf (u8 p 0)
  let f := u8 p 2
  let s1 := linePatUpd k (fun x => { x with
    prbs := u8 p 1 == 2
    m := u32 p 4
    timing := u8 p 3
    fallback := false
    single := f.testBit 1
    chk := switchChecker (f.testBit 0) x.chk }) s
  done (if u8 p 1 = 0 then stopTx k s1 else runTx k s1)
/-- SET_LINE_PATTERN. -/
def execSetLinePattern (pk : Packet) (s : State) : Out := .next (serve 0x0C02 checkSetLinePattern runSetLinePattern pk s)

/-- SET_LANE_PATTERN (R540). [log 178 DEDUCED] -/
def checkSetLanePattern (c : Ctx) (s : State) : Nat :=
  let p := c.pk.params
  let port := u8 p 0 == 1
  let off := if port then !domOn s 31 else !domOn s (quadDom (u8 p 1 / 4))
  gated s (!plainLen 8 c) [
    (decide (1 < u8 p 0) || decide ((if port then 1 else 39) < u8 p 1) || decide ((if port then 1 else 2) < u8 p 2) || decide (15 < u8 p 3)
      || decide (u8 p 4 < 10) || decide (40 < u8 p 4) || decide ((if port then 3 else 0) < u8 p 5) || !zeroAt p 6 2, stBadParam),
    (if port then s.ring.role == 0 else !laneTestOk s (u8 p 1), stBadState),
    (off, stBadState)]
/-- Generator, checker and injection of a host lane or a Calond port; a port with a pattern is held DOWN. -/
def runSetLanePattern (c : Ctx) (s : State) : Res :=
  let p := c.pk.params
  let f := u8 p 3
  let set (x : LanePat) : LanePat := { x with
    pattern := u8 p 2
    gen := f.testBit 0
    rateInj := f.testBit 3
    single := f.testBit 2
    cnt := 0
    k := u8 p 4
    rate := u8 p 5
    chk := addInjected (b2n (f.testBit 2)) (switchChecker (f.testBit 1) x.chk) }
  if u8 p 0 = 0 then done { s with test := { s.test with lanes := tupd {} s.test.lanes (u8 p 1) set } }
  else
    let s1 := { s with test := { s.test with ports := pupd s.test.ports (carrierOf (u8 p 1)) set } }
    done (if f % 4 = 0 then s1 else linkDown (portOf (u8 p 1)) s1)
/-- SET_LANE_PATTERN. -/
def execSetLanePattern (pk : Packet) (s : State) : Out := .next (serve 0x0C03 checkSetLanePattern runSetLanePattern pk s)

/-- SET_TENANT_PATTERN (R541). -/
def checkSetTenantPattern (c : Ctx) (s : State) : Nat :=
  let p := c.pk.params
  let t := c.pk.tenant
  gated s (!tenantLen 4 c) [
    (decide (3 < u8 p 0) || !zeroAt p 1 3, stBadParam),
    (s.mode.cur != .maintain || (sizeTx s t == 0 && sizeRx s t == 0), stBadState)]
/-- Generator and checker, from the next pointer period. -/
def runSetTenantPattern (c : Ctx) (s : State) : Res :=
  let f := u8 c.pk.params 0
  done { s with test := { s.test with
    tens := tupd {} s.test.tens c.pk.tenant fun x => { x with genSet := f.testBit 0, chkSet := f.testBit 1 } } }
/-- SET_TENANT_PATTERN. -/
def execSetTenantPattern (pk : Packet) (s : State) : Out := .next (serve 0x0C04 checkSetTenantPattern runSetTenantPattern pk s)

/-- An injection of errors at a rate runs on an object whose symbols no row carries one by one (R529). [log 179 DESIGN CHOICE] -/
def rateInjects (s : State) (kind idx : Nat) : Bool :=
  match kind with
  | 0 => (tget {} s.test.lanes idx).rateInj
  | 1 => (pget s.test.ports (carrierOf idx)).rateInj
  | _ => false

/-- GET_PATTERN_STATUS (R542). -/
def checkGetPatternStatus (c : Ctx) (s : State) : Nat :=
  let p := c.pk.params
  let k := u8 p 0
  gated s (if k = 3 then !tenantLen 4 c else !plainLen 4 c) [
    (decide (3 < k) || (k == 0 && decide (39 < u8 p 1)) || ((k == 1 || k == 2) && decide (1 < u8 p 1)) || !zeroAt p 2 2, stBadParam)]
/-- The 32-byte result; the counters clear. What a running rate injection has added is open: no rule gives it a time. -/
def runGetPatternStatus (c : Ctx) (s : State) : Res :=
  let k := u8 c.pk.params 0
  let idx := if k = 3 then c.pk.tenant else u8 c.pk.params 1
  let x := checkerGet s k idx
  let more := if rateInjects s k idx then drawNat 529 (2 ^ 32) s else (0, s)
  doneWith (checkerUpd k idx (fun v => { v with bits := 0, errors := 0, losses := 0, injected := 0 }) more.2)
    (le 1 x.state ++ le 3 0 ++ le 8 x.bits ++ le 8 x.errors ++ le 4 x.losses ++ le 4 (satAdd 32 x.injected more.1) ++ le 4 0)
/-- GET_PATTERN_STATUS. -/
def execGetPatternStatus (pk : Packet) (s : State) : Out := .next (serve 0x0C05 checkGetPatternStatus runGetPatternStatus pk s)

/-- PATTERN_LOCK (R528): the checker of a host lane or a Calond port has compared bits with its pattern. Those of a payload or of a tenant follow
what is received (R527). [log 178 DEDUCED] -/
def execPatternLock (kind idx : Nat) (errs : List Bool) (s : State) : Out :=
  .next (if 1 < kind || (checkerGet s kind idx).state = 0 then s else takeChecker kind idx (checkerBits errs (checkerGet s kind idx)) s)

/-! Capture (R530 to R534, R543, R544). -/

/-- The source rate in bytes in ns: numerator and denominator (R530). -/
def captureRate (s : State) (source mask : Nat) (c : Carrier) : Nat × Nat :=
  let p := planOf s c
  let channels := ((List.range 4).filter mask.testBit).length
  match source with
  | 0 => (channels * ((9 * p.rs256 + 511) / 512), 4)
  | 1 => (p.rs256, 64)
  | 2 => (p.n * 13365 * 9513, 262144)
  | _ => (p.n * 10368 * 165, 32768)

/-- What the frame buffers (R326) leave of 983.0 GB/s, in 1/32,768 bytes per ns (R530). -/
def captureLimit (s : State) : Nat :=
  let load := if s.mode.cur == .maintain then 0 else 2 * (planOf s .a).n * 10368 * 165
  983 * 32768 - load

/-- The smallest valid k (R530). -/
def smallestKeep (s : State) (r : Nat × Nat) : Nat := max 1 ((r.1 * 32768 + r.2 * captureLimit s - 1) / (r.2 * captureLimit s))

/-- The trigger arguments of START_CAPTURE are in range (R543). -/
def triggerOk (trig arg8 arg64 : Nat) : Bool :=
  match trig with
  | 0 => arg8 == 0 && arg64 == 0
  | 1 => arg8 == 0 && decide (arg64 < 65536)
  | 2 => decide (arg8 < 16) && arg64 == 0
  | 3 => arg8 == 0
  | _ => arg64 == 0

/-- Both Dome stacks are ready (R332, R525). -/
def stacksReady (s : State) : Bool := domOn s 23 && domOn s 24 && (domeGet s 0).ready && (domeGet s 1).ready

/-- START_CAPTURE (R543). -/
def checkStartCapture (c : Ctx) (s : State) : Nat :=
  let p := c.pk.params
  gated s (!plainLen 24 c) [
    (decide (3 < u8 p 0) || decide (1 < u8 p 1) || (if u8 p 0 = 0 then u8 p 2 == 0 || decide (15 < u8 p 2) else u8 p 2 != 0)
      || decide (4 < u8 p 3) || u32 p 4 == 0 || decide (1556480 < u32 p 4) || decide (u32 p 4 ≤ u32 p 8) || u16 p 12 == 0
      || decide (3 < u8 p 14) || !triggerOk (u8 p 3) (u8 p 15) (u64 p 16), stBadParam),
    (!captureMode s.mode.cur || !stacksReady s, stBadState),
    (captureRuns s, stBusy)]
/-- ACCEPTED and ARMED; a rate over the limit is refused with the smallest valid k. -/
def runStartCapture (c : Ctx) (s : State) : Res :=
  let p := c.pk.params
  let r := captureRate s (u8 p 0) (u8 p 2) (carrierOf (u8 p 1))
  if u16 p 12 < smallestKeep s r then { s := s, final := some (stBadParam, le 4 (smallestKeep s r)) }
  else later { s with test := { s.test with cap := {
    state := 1, ref := some c.ref, source := u8 p 0, carrier := u8 p 1, mask := u8 p 2, trig := u8 p 3, length := u32 p 4,
    pre := u32 p 8, keep := u16 p 12, retrig := (u8 p 14).testBit 0, falling := (u8 p 14).testBit 1, arg8 := u8 p 15,
    arg64 := u64 p 16, num := r.1, den := r.2, start := s.now, gen := s.test.cap.gen + 1, extents := s.test.cap.extents
    held := s.test.cap.held } } }
/-- START_CAPTURE. -/
def execStartCapture (pk : Packet) (s : State) : Out := .next (serve 0x0C06 checkStartCapture runStartCapture pk s)

/-- The state with the capture engine updated. -/
def capUpd (f : Capture → Capture) (s : State) : State := { s with test := { s.test with cap := f s.test.cap } }

/-- A trigger is taken (R531 to R533): ARMED becomes RUNNING; in RUNNING the retrigger setting decides. [log 180 DEDUCED] -/
def takeTrigger (s : State) : State :=
  let c := s.test.cap
  let mark (k : Capture) : Capture := { k with
    state := 2, trigPos := some (capIndex s), trigTod := s.tod, preHeld := min (capIndex s) c.pre }
  match c.state with
  | 0 => s
  | 1 => postEv 0x0C01 [c.trig, 0] (capUpd mark s)
  | _ =>
    if c.retrig && decide (c.retrigs < 255) then
      postEv 0x0C01 [c.trig, c.retrigs + 1] (capUpd (fun k => { (mark k) with retrigs := k.retrigs + 1 }) s)
    else postEv 0x0C02 [c.overruns + 1] (capUpd (fun k => { k with overruns := k.overruns + 1 }) s)

/-- A trigger matches the written source and its arguments (R532). [log 180 DEDUCED] -/
def trigMatches (c : Capture) (src : CapSource) : Bool :=
  match src with
  | .command => false
  | .event code => c.trig == 1 && c.arg64 == code
  | .gpio pin falling => c.trig == 2 && c.arg8 == pin && c.falling == falling
  | .second sec => c.trig == 3 && c.arg64 == sec
  | .defect k mask => c.trig == 4 && c.carrier == carrierNum k && (c.arg8 &&& mask) != 0

/-- CAPTURE_TRIGGER (R532): the trigger of the written source arrives; that of a command is TRIGGER_CAPTURE itself. A
time-of-day second is reached when it starts. [log 180 DEDUCED] -/
def execCaptureTrigger (src : CapSource) (s : State) : Out :=
  .next (if !captureRuns s || !trigMatches s.test.cap src then s
    else match src with
      | .second sec => takeTrigger (advanceTo (s.now + (sec * secNs - s.tod)) s)
      | _ => takeTrigger s)

/-- TRIGGER_CAPTURE (R544). -/
def checkTriggerCapture (c : Ctx) (s : State) : Nat := gated s (!plainLen 0 c) [(!captureRuns s, stBadState)]
/-- The capture is triggered under every source. -/
def runTriggerCapture (_ : Ctx) (s : State) : Res := done (takeTrigger s)
/-- TRIGGER_CAPTURE. -/
def execTriggerCapture (pk : Packet) (s : State) : Out := .next (serve 0x0C07 checkTriggerCapture runTriggerCapture pk s)

/-- STOP_CAPTURE (R544). -/
def checkStopCapture (c : Ctx) (s : State) : Nat := gated s (!plainLen 0 c) [(!captureRuns s, stBadState)]
/-- The capture ends with reason 5. -/
def runStopCapture (_ : Ctx) (s : State) : Res := done (endCapture 5 s)
/-- STOP_CAPTURE. -/
def execStopCapture (pk : Packet) (s : State) : Out := .next (serve 0x0C08 checkStopCapture runStopCapture pk s)

/-- CAPTURE_POST_DONE (R531): the sectors after the last trigger are stored. -/
def execCapturePostDone (s : State) : Out :=
  .next (
    let c := s.test.cap
    match c.state, c.trigPos with
    | 2, some p =>
      let n := p + (c.length - c.pre)
      let t := if c.num = 0 then s.now else c.start + (n * c.den * c.keep * 4096 + c.num - 1) / c.num
      endCapture 0 (advanceTo t s)
    | _, _ => s)

/-- CAPTURE_END_EARLY (R534): writes were held back, a stack has left ON, or the mode does not allow captures. -/
def execCaptureEndEarly (reason : Nat) (s : State) : Out :=
  .next (match reason with
    | 2 => endCapture 2 s
    | 3 => if domOn s 23 && domOn s 24 then s else captureLost s
    | 4 => if captureMode s.mode.cur then s else endCapture 4 s
    | _ => s)

/-! JTAG (R536). -/

/-- The instructions of the TAP. -/
inductive Jtag where
  | extest
  | sample
  | idcode
  | highz
  | clamp
  | extestPulse
  | extestTrain
  | bypass
  deriving DecidableEq, Repr

/-- The IDCODE register. -/
abbrev jtagIdcode : Nat := 0x164325E7

/-- The instruction of a code; unlisted codes act as BYPASS. -/
def jtagOf (code : Nat) : Jtag :=
  match code with
  | 0 => .extest
  | 1 => .sample
  | 2 => .idcode
  | 3 => .highz
  | 4 => .clamp
  | 8 => .extestPulse
  | 9 => .extestTrain
  | _ => .bypass

/-- What the instruction register does: the driving instructions take effect only while PORESET_N is asserted. -/
def jtagActs (s : State) : Jtag :=
  match jtagOf s.test.tap with
  | .sample => .sample
  | .idcode => .idcode
  | i => if s.pins.poreset then i else .bypass

/-! Sub-assembly buses (R535, R545). -/

/-- BUS_TRANSFER (R545): accepted in every mode, DORMANT included. -/
def checkBusTransfer (c : Ctx) (s : State) : Nat :=
  let p := c.pk.params
  let w := u8 p 2
  firstBad [
    (c.pk.tenant != 0xFFFFFFFF || decide (p.length < 4) || p.length != 4 + w || decide (1 < u8 p 0) || decide (127 < u8 p 1)
      || decide (32 < w) || decide (32 < u8 p 3) || w + u8 p 3 == 0, stBadParam),
    (s.mode.trans.isSome, stBusy)]
/-- The transfer joins those of its bus, which run in the order they start. [log 182 DEDUCED] -/
def runBusTransfer (c : Ctx) (s : State) : Res :=
  let p := c.pk.params
  { s := { s with test := { s.test with buses := s.test.buses ++ [⟨c.ref, u8 p 0, u8 p 1, p.drop 4, u8 p 3⟩] } }, final := none }
/-- BUS_TRANSFER. -/
def execBusTransfer (pk : Packet) (s : State) : Out := .next (serve 0x0C09 checkBusTransfer runBusTransfer pk s)

/-- The oldest transfer of a bus ends with a status and what it read; as zero after a failure. [log 182 DEDUCED] -/
def endTransfer (bus status : Nat) (bytes : List Byte) (s : State) : State :=
  match s.test.buses.find? fun j => j.bus == bus with
  | none => s
  | some j =>
    let got := if status = 0 then slice bytes 0 j.read else le j.read 0
    complete j.ref stOk (le 1 status ++ got) { s with test := { s.test with buses := s.test.buses.eraseP fun j => j.bus == bus } }

/-- BUS_TRANSFER_DONE (R535): 0 ACK throughout, 1 address NACK, 2 data NACK. [log 182 DEDUCED] -/
def execBusTransferDone (bus status : Nat) (bytes : List Byte) (s : State) : Out :=
  .next (if 2 < status then s else endTransfer bus status bytes s)

/-- BUS_STUCK_RELEASE (R535): a bus held low for 25 ms is released; its transfer ends as stuck. -/
def execBusStuckRelease (bus : Nat) (s : State) : Out := .next (endTransfer bus 3 [] s)

end Sys2Proof.Machine
end

