-- ==== Sys2Proof/Machine/Transmit.lean ====
section
/-! DEFINITION. The commands and events of the line plan and of the transmitters (spec/02_line_signal.md, spec/03_transmit_path.md). -/

namespace Sys2Proof.Machine

/-! The line plan (R41, R42). -/

/-- SET_LINE_PLAN: its length, DORMANT, and what makes it BUSY; a plan of 24 bytes that breaks a rule or names a tenant is answered with its
result. -/
def checkSetLinePlan (c : Ctx) (s : State) : Nat :=
  if c.pk.params.length == 24 && c.pk.tenant != 0xFFFFFFFF then stOk
  else gated s (c.pk.params.length != 24) [(s.plan.applying.a.isSome || s.plan.applying.b.isSome, stBusy)]

/-- A changed plan of a carrier whose Spire is on is applied (R41): the transmitter and its pattern stop. -/
def beginApply (c : Carrier) (changed : Bool) (s : State) : State :=
  if changed && spireOn s c then
    let s1 := stopLinePattern c (stopTx c s)
    { s1 with plan := { s1.plan with applying := pset s1.plan.applying c (some (s1.now + 10 * msNs)) } }
  else s

/-- The plan is stored with its matcher tables (R44), and applied where the Spire is on. -/
def runSetLinePlan (c : Ctx) (s : State) : Res :=
  let p := c.pk.params
  let a := planField p 0
  let b := planField p 8
  let f := u8 p 20
  let r := planReason s a b (i32 p 16) f (!zeroAt p 21 3)
  let ca := a != s.plan.car.a
  let cb := b != s.plan.car.b
  let res := planResult a b r
  if r.1 != 0 || c.pk.tenant != 0xFFFFFFFF then { s := s, final := some (stBadParam, res) }
  else if trafficMode s.mode.cur && ((ca && !spireOff s .a) || (cb && !spireOff s .b)) then { s := s, final := some (stBadState, []) }
  else
    let s1 := { s with plan := { s.plan with car := ⟨a, b⟩, shape := ⟨shapeOf a.fmt a.h64, shapeOf b.fmt b.h64⟩, spacing := i32 p 16, fibre := f } }
    if startsUnqualified s s1 then { s := s, final := some (stBadState, []) }
    else doneWith (applyUsed (beginApply .b cb (beginApply .a ca s1))) res
/-- SET_LINE_PLAN. -/
def execSetLinePlan (pk : Packet) (s : State) : Out := .next (serve 0x0201 checkSetLinePlan runSetLinePlan pk s)

/-- GET_LINE_PLAN (R42). -/
def checkGetLinePlan (c : Ctx) (s : State) : Nat := gatedIdle s (!plainLen 0 c) []
/-- The held plan and its result. -/
def runGetLinePlan (c : Ctx) (s : State) : Res :=
  let _ := c
  let v := s.plan
  let r := planReason s v.car.a v.car.b v.spacing v.fibre false
  doneWith s (planBytes v.car.a ++ planBytes v.car.b ++ leS 4 v.spacing ++ le 1 v.fibre ++ le 3 0 ++ planResult v.car.a v.car.b r)
/-- GET_LINE_PLAN. -/
def execGetLinePlan (pk : Packet) (s : State) : Out := .next (serve 0x0202 checkGetLinePlan runGetLinePlan pk s)

/-- LINE_PLAN_APPLY_DONE (R41 steps 4 and 5): the encoder restarts, acquisition returns to IDLE and a foreground calibration
runs. -/
def execLinePlanApplyDone (c : Carrier) (s : State) : Out :=
  .next (if (pget s.plan.applying c).isNone then s
    else
      let s1 := { s with plan := { s.plan with applying := pset s.plan.applying c none } }
      let s2 := acqIdle c (fecUpd c (fun f => { f with encBlock := none }) s1)
      if rxPowered s2 c then startForeground c none s2 else s2)

/-! Transmit commands (R59 to R63). -/

/-- SET_TX_SHAPING (R37, R48, R59). -/
def checkSetTxShaping (c : Ctx) (s : State) : Nat :=
  let p := c.pk.params
  let k := carrierOf (u8 p 0)
  let beta := u8 p 1
  let bad := carrierBad p || beta == 0 || decide (20 < beta) || decide (1 < u8 p 2) || !zeroAt p 3 1
  let betas := if k = .a then (beta, s.spire.b.tx.beta100) else (s.spire.a.tx.beta100, beta)
  let st := (txGet s k).state
  gated s (decide (p.length < 4) || c.pk.tenant != 0xFFFFFFFF) [
    (bad || p.length != (if u8 p 2 = 1 then 134 else 4) || (trafficMode s.mode.cur && !planMeets s s.mode.cur betas.1 betas.2), stBadParam),
    (st == .running || st == .squelched, stBadState)]
/-- The filter is stored. -/
def runSetTxShaping (c : Ctx) (s : State) : Res :=
  let p := c.pk.params
  let src := u8 p 2 == 1
  done (txUpd (carrierOf (u8 p 0)) (fun t => { t with
    beta100 := u8 p 1, loaded := src, taps := if src then (List.range 65).map fun i => i16 p (4 + 2 * i) else [] }) s)
/-- SET_TX_SHAPING. -/
def execSetTxShaping (pk : Packet) (s : State) : Out := .next (serve 0x0210 checkSetTxShaping runSetTxShaping pk s)

/-- A channel block of SET_TX_CORRECTION (R60). -/
def chanField (p : List Byte) (i : Nat) : TxChan :=
  let o := 4 + 36 * i
  { pre := (List.range 15).map fun k => i16 p (o + 2 * k), skew := i16 p (o + 30), gain := i16 p (o + 32), dc := i8 p (o + 34) }

/-- A channel lies within R50. -/
def chanOk (t : TxChan) : Bool :=
  decide ((t.pre.map Int.natAbs).sum ≤ 32768) && decide (t.skew.natAbs ≤ 640) && decide (t.gain.natAbs ≤ 150) && decide (t.dc.natAbs ≤ 16)

/-- SET_TX_CORRECTION (R50, R60). -/
def checkSetTxCorrection (c : Ctx) (s : State) : Nat :=
  let p := c.pk.params
  gatedIdle s (!plainLen 148 c) [
    (carrierBad p || !zeroAt p 1 3 || !((List.range 4).all fun i => chanOk (chanField p i) && zeroAt p (39 + 36 * i) 1), stBadParam)]
/-- The host terms are stored; they take effect at the next superframe boundary (R49). -/
def runSetTxCorrection (c : Ctx) (s : State) : Res :=
  let p := c.pk.params
  done (txUpd (carrierOf (u8 p 0)) (fun t => { t with corr := (List.range 4).map (chanField p) }) s)
/-- SET_TX_CORRECTION. -/
def execSetTxCorrection (pk : Packet) (s : State) : Out := .next (serve 0x0211 checkSetTxCorrection runSetTxCorrection pk s)

/-- SET_TX_OUTPUT (R50, R61). -/
def checkSetTxOutput (c : Ctx) (s : State) : Nat :=
  let p := c.pk.params
  gatedIdle s (!plainLen 8 c) [
    (carrierBad p || decide (u8 p 1 < 40) || decide (90 < u8 p 1) || decide (i16 p 2 < -140) || decide (-60 < i16 p 2)
      || decide (50 < u8 p 4) || decide (3 < u8 p 5) || !zeroAt p 6 2, stBadParam)]
/-- Swing ramps from now on; RMS and tone wait for a superframe boundary (R51, R52). -/
def runSetTxOutput (c : Ctx) (s : State) : Res :=
  let p := c.pk.params
  let k := carrierOf (u8 p 0)
  let old := (swingNow s k).toNat
  done (txUpd k (fun t => { t with
    swingRamp := if u8 p 1 = t.swing then t.swingRamp else some (old, s.now)
    swing := u8 p 1, rms := i16 p 2, settle := u8 p 4, latch := (u8 p 5).testBit 0, tone := (u8 p 5).testBit 1 }) s)
/-- SET_TX_OUTPUT. -/
def execSetTxOutput (pk : Packet) (s : State) : Out := .next (serve 0x0212 checkSetTxOutput runSetTxOutput pk s)

/-- SET_TX_STATE (R53, R62). -/
def checkSetTxState (c : Ctx) (s : State) : Nat :=
  let p := c.pk.params
  gated s (!plainLen 4 c) [
    (carrierBad p || decide (1 < u8 p 1) || !zeroAt p 2 2, stBadParam),
    ((u8 p 1 == 1 && s.mode.cur == .configure) || (txGet s (carrierOf (u8 p 0))).state == .off, stBadState)]
/-- STOP or RUN; the result is the state that follows. -/
def runSetTxState (c : Ctx) (s : State) : Res :=
  let p := c.pk.params
  let k := carrierOf (u8 p 0)
  let s1 := if u8 p 1 = 1 then runTx k s else stopTx k s
  doneWith s1 (le 1 (txCode (txGet s1 k).state))
/-- SET_TX_STATE. -/
def execSetTxState (pk : Packet) (s : State) : Out := .next (serve 0x0213 checkSetTxState runSetTxState pk s)

/-- GET_TX_STATUS (R63). -/
def checkGetTxStatus (c : Ctx) (s : State) : Nat :=
  gatedIdle s (!plainLen 4 c) [(carrierBad c.pk.params || !zeroAt c.pk.params 1 3, stBadParam)]
/-- The 36-byte result; the clip counters clear. [log 63 DEDUCED] -/
def runGetTxStatus (c : Ctx) (s : State) : Res :=
  let k := carrierOf (u8 c.pk.params 0)
  let t := txGet s k
  let chan (i : Nat) : TxChan := (if t.state == .off then t.corr else t.corrUse).getD i {}
  let term (i : Nat) : TxTerm := t.term.getD i {}
  doneWith (txUpd k (fun t => { t with clips := [0, 0, 0, 0] }) s)
    (le 1 (txCode t.state) ++ le 1 (txCauses s k) ++ le 1 (b2n (t.toneUse && t.state == .running)) ++ le 1 (b2n (t.clipAlarm.any (·.isSome)))
      ++ (List.range 4).flatMap (fun i => le 4 (t.clips.getD i 0))
      ++ (List.range 4).flatMap (fun i => leS 2 ((chan i).skew + (term i).skew))
      ++ (List.range 4).flatMap (fun i => leS 2 ((chan i).gain + (term i).gain)))
/-- GET_TX_STATUS. -/
def execGetTxStatus (pk : Packet) (s : State) : Out := .next (serve 0x0214 checkGetTxStatus runGetTxStatus pk s)

/-! Events. -/

/-- The symbols of the superframe that begins are formed and sent (R29 to R31, R43 to R52), with the sign bits that an injection inverts (R529). -/
def sendSuperframe (c : Carrier) (s : State) : State :=
  let p := planOf s c
  if unused p then s
  else
    let h := pget s.plan.shape c
    let m := (txGet s c).mNow
    let b := takeCoded c (superframeBits h m) s
    let e := injectLine c (252 - m) (256 + h.bits) b.2
    txUpd c (txRun (superframeSyms p.fmt h m (txGet s c).mNext (b.1 ^^^ e.1))) e.2

/-- SUPERFRAME_TRANSMIT (R30, R46, R49, R51, R52): the count announced before holds now, the next one follows the level, what waited
for the boundary takes effect, and the superframe is sent. [log 64 DESIGN CHOICE] -/
def execSuperframeTransmit (c : Carrier) (level : FifoLevel) (s : State) : Out :=
  .next (if (txGet s c).state == .off then s
    else
      let p := planOf s c
      let m := match level with
        | .low => fillCeil p
        | .high => fillFloor p
        | .outOfRange => 4
      let s1 := txUpd c (fun t => { t with
        corrUse := t.corr, rmsUse := t.rms, toneUse := t.tone, mNow := t.mNext, mNext := m, clock := sendClock s c }) s
      sendSuperframe c (if level = .outOfRange then postEv 0x0203 [carrierNum c] s1 else s1))

/-- TX_CLIP_INTERVAL (R51): the samples that the DAC clipped in the 1 ms that ends, against its samples in 1 ms. [log 65 DEDUCED] -/
def execTxClipInterval (c : Carrier) (dac : Nat) (s : State) : Out :=
  .next (if 4 ≤ dac || (txGet s c).state == .off then s
    else
      let r := clipStep 10 ((txGet s c).clipNow.getD dac 0) (dacSamples (planOf s c)) ((txGet s c).clipAlarm.getD dac none)
      let s1 := txUpd c (fun t => { t with
        clipNow := lupd t.clipNow dac fun _ => 0, clipAlarm := lupd t.clipAlarm dac fun _ => r.1 }) s
      match r.2 with
      | some v => post 0x0204 v [carrierNum c, dac] s1
      | none => s1)

end Sys2Proof.Machine
end

