-- ==== Sys2Proof/Machine/Tributary.lean ====
section
/-! DEFINITION. The commands and events of tributary mapping (spec/09_tributary_mapping.md). -/

namespace Sys2Proof.Machine

/-! Calendars (R227 to R236). -/

/-- A carrier named in a mask. -/
def named (mask : Nat) (c : Carrier) : Bool := mask.testBit (carrierNum c)

/-- The carriers named in a mask. -/
def namedCarriers (mask : Nat) : List Carrier := [Carrier.a, Carrier.b].filter (named mask)

/-- A swap to a buffer is announced: by this device's own swap, or by an accepted ANN of the far end (R162, R228). [log 111 DEDUCED] -/
def announced (s : State) (c : Carrier) (b : Nat) : Bool :=
  (swapNames s c && b == 1 - pget s.cal.tx c) || (match (lineGet s c).frm.annPend with
    | some (ann, _) => annTbl ann == b
    | none => false)

/-- The transmitter of a carrier uses a buffer. [log 112 DEDUCED] -/
def txUses (s : State) (c : Carrier) (b : Nat) : Bool := (calCarriers s).contains c && pget s.cal.tx c == b

/-- The receiver of a carrier uses a buffer. [log 112 DEDUCED] -/
def rxUses (s : State) (c : Carrier) (b : Nat) : Bool := (calCarriers s).contains c && pget s.cal.rx c == b

/-- A buffer is free (R228). [log 111 DEDUCED] -/
def freeBuf (s : State) (c : Carrier) (b : Nat) : Bool := !txUses s c b && !rxUses s c b && !announced s c b

/-- The buffer that SET_CALENDAR writes: where both are free, the one other than the transmitter's (R228). -/
def bufToWrite (s : State) (c : Carrier) : Option Nat :=
  [1 - pget s.cal.tx c, pget s.cal.tx c].find? (freeBuf s c)

/-- The entries of a written table: 640 words of 16 bits. -/
def writtenEntries (p : List Byte) (off : Nat) : List (Nat × Nat) := (List.range 640).map fun i => (i, u16 p (off + 2 * i))

/-- Where the entries of the i-th named carrier lie (R234). -/
def entryOffsets (mask : Nat) : List (Carrier × Nat) :=
  (namedCarriers mask).zip [4, 1284]

/-- An entry that a buffer cannot take: reserved bits, or used at an index of 80 n or above (R227). [log 114 DEDUCED] -/
def badEntry (s : State) (c : Carrier) (e : Nat × Nat) : Bool :=
  bits e.2 14 10 != 0 || (entryUsed e.2 && decide (80 * (planOf s c).n ≤ e.1))

/-- SET_CALENDAR (R234). -/
def checkSetCalendar (c : Ctx) (s : State) : Nat :=
  let p := c.pk.params
  let m := u8 p 0
  gated s (decide (p.length < 4) || c.pk.tenant != 0xFFFFFFFF) [
    (m == 0 || decide (3 < m) || p.length != 4 + 1280 * (namedCarriers m).length || !zeroAt p 1 3 || (entryOffsets m).any fun e => (writtenEntries p e.2).any (badEntry s e.1), stBadParam),
    (s.mode.cur == .regenerate || (namedCarriers m).any fun x => (bufToWrite s x).isNone, stBadState)]

/-- A buffer of a carrier replaced. -/
def putTable (c : Carrier) (b : Nat) (t : Tbl Nat) (s : State) : State :=
  if b = 0 then { s with cal := { s.cal with t0 := pset s.cal.t0 c t } } else { s with cal := { s.cal with t1 := pset s.cal.t1 c t } }

/-- The free buffer of each named carrier is written; the result names them. -/
def runSetCalendar (c : Ctx) (s : State) : Res :=
  let p := c.pk.params
  let m := u8 p 0
  let one (t : State) (e : Carrier × Nat) : State :=
    putTable e.1 ((bufToWrite s e.1).getD 0) ((writtenEntries p e.2).filter fun x => x.2 != 0) t
  let buf (x : Carrier) : Nat := if named m x then (bufToWrite s x).getD 0 else 0xFF
  doneWith ((entryOffsets m).foldl one s) (le 1 (buf .a) ++ le 1 (buf .b))
/-- SET_CALENDAR. -/
def execSetCalendar (pk : Packet) (s : State) : Out := .next (serve 0x0410 checkSetCalendar runSetCalendar pk s)

/-- The table of a carrier after a swap of the named carriers. -/
def tableAfter (s : State) (mask : Nat) (c : Carrier) : Tbl Nat :=
  if named mask c then calBuf s c (1 - pget s.cal.tx c) else txTable s c

/-- Slots of a tenant in the tables in effect after a swap (R209, R228). -/
def sizeAfter (s : State) (mask t : Nat) : Nat := ((calCarriers s).map fun c => slotCount (tableAfter s mask c) t).sum

/-- A tenant holds slots on both carriers after a swap. -/
def crossAfter (s : State) (mask t : Nat) : Bool :=
  slotCount (tableAfter s mask .a) t != 0 && slotCount (tableAfter s mask .b) t != 0

/-- The lowest reason for which a used slot makes a swap invalid, 0 where it does not (R229, R246). [log 114 DEDUCED, 116 DEDUCED] -/
def slotReason (s : State) (mask : Nat) (c : Carrier) (e : Nat × Nat) : Nat :=
  let t := entryTen e.2
  let k := clientOf s t
  firstBad [
    (crossAfter s mask t && s.mode.cur != .twin && s.mode.cur != .bonded, 3),
    (c == .b && s.mode.cur == .merge, 4),
    (k.kind == 1 && sizeAfter s mask t != ethernetSlots (phyOf s k.place).type, 5),
    (k.kind == 2 && decide (sizeAfter s mask t < clientSlots s t), 6),
    (!activeKey s t, 7),
    (crossAfter s mask t && s.skew.state != .aligned, 8),
    (decide (80 * (planOf s c).n ≤ e.1), 9)]

/-- The first slot in (carrier, index) order that makes a swap invalid: reason, carrier, entry. [log 114 DEDUCED, 116 DEDUCED] -/
def swapFailure (s : State) (mask : Nat) : Option (Nat × Carrier × Nat × Nat) :=
  let all := [Carrier.a, Carrier.b].flatMap fun c => ((tableAfter s mask c).filter fun e => entryUsed e.2).map fun e => (c, e)
  (all.find? fun x => slotReason s mask x.1 x.2 != 0).map fun x => (slotReason s mask x.1 x.2, x.1, x.2.1, x.2.2)

/-- SWAP_CALENDAR (R235): BUSY while a swap is announced; BAD_STATE without a result in REGENERATE or with PD02 not ON. -/
def checkSwapCalendar (c : Ctx) (s : State) : Nat :=
  let p := c.pk.params
  gated s (!plainLen 4 c) [
    (u8 p 0 == 0 || decide (3 < u8 p 0) || !zeroAt p 1 3, stBadParam),
    (s.cal.swap.isSome, stBusy),
    (s.mode.cur == .regenerate || !domOn s 2, stBadState)]
/-- The rules of R229 are checked: ACCEPTED, or BAD_STATE with the first failing slot. [log 113 DEDUCED] -/
def runSwapCalendar (c : Ctx) (s : State) : Res :=
  let m := u8 c.pk.params 0
  match swapFailure s m with
  | some (r, x, slot, e) =>
    { s := s, final := some (stBadState, le 1 r ++ le 1 (carrierNum x) ++ le 2 slot ++ le 2 (entryTen e) ++ le 2 0) }
  | none => later { s with cal := { s.cal with swap := some ⟨named m .a, named m .b, c.ref, some (boundaryAfter s.txFc)⟩ } }
/-- SWAP_CALENDAR (R13): the one way a tenant's slots change. -/
def execSwapCalendar (pk : Packet) (s : State) : Out := .next (serve 0x0411 checkSwapCalendar runSwapCalendar pk s)

/-- The transmitters of the carriers that a swap names change buffer at frame `b`, and the swap completes (R230). -/
def swapBuffers (w : Swap) (b : Nat) (s : State) : State :=
  let flip (x : Bool) (v : Nat) : Nat := if x then 1 - v else v
  let tx : Pair Nat := ⟨flip w.carA s.cal.tx.a, flip w.carB s.cal.tx.b⟩
  let s1 := settleTxAll { s with cal := { s.cal with tx := tx, swap := none } }
  applyUsed (complete w.ref stOk (le 4 b ++ le 1 tx.a ++ le 1 tx.b ++ le 2 0) s1)

/-- CALENDAR_SWAP_BOUNDARY (R230), where no block of a tenant with slots on both sides is lost, doubled or reordered (R232): the transmitters of the named carriers change buffer together, and the swap completes. [log 185 DEDUCED] -/
def execCalendarSwapBoundary (s : State) : Out :=
  .next (match s.cal.swap with
    | none => s
    | some w => swapBuffers w (w.boundary.getD 0) (toFrame (w.boundary.getD 0) s))

/-- GET_CALENDAR (R236). -/
def checkGetCalendar (c : Ctx) (s : State) : Nat :=
  let p := c.pk.params
  gated s (!plainLen 4 c) [(decide (1 < u8 p 0) || decide (1 < u8 p 1) || !zeroAt p 2 2, stBadParam)]
/-- The flags and the 640 entries. [log 111 DEDUCED] -/
def runGetCalendar (c : Ctx) (s : State) : Res :=
  let x := carrierOf (u8 c.pk.params 0)
  let b := u8 c.pk.params 1
  let t := calBuf s x b
  doneWith s (le 1 (b2n (txUses s x b) + 2 * b2n (rxUses s x b) + 4 * b2n (announced s x b)) ++ le 3 0
    ++ (List.range 640).flatMap fun i => le 2 (tget 0 t i))
/-- GET_CALENDAR. -/
def execGetCalendar (pk : Packet) (s : State) : Out := .next (serve 0x0412 checkGetCalendar runGetCalendar pk s)

/-! Tenants (R237, R238). -/

/-- SET_TENANT_CONTROL (R237). -/
def checkSetTenantControl (c : Ctx) (s : State) : Nat :=
  let p := c.pk.params
  gated s (!tenantLen 4 c) [(decide (1 < u8 p 0) || !zeroAt p 1 3, stBadParam)]
/-- Force AIS, from the next pointer period. -/
def runSetTenantControl (c : Ctx) (s : State) : Res :=
  done (tenUpd c.pk.tenant (fun x => { x with forceAis := u8 c.pk.params 0 == 1 }) s)
/-- SET_TENANT_CONTROL. -/
def execSetTenantControl (pk : Packet) (s : State) : Out := .next (serve 0x0413 checkSetTenantControl runSetTenantControl pk s)

/-- The code of a pointer interpreter state (R238). -/
def ptrCode : PtrState → Nat
  | .none => 0
  | .acq => 1
  | .norm => 2
  | .lop => 3

/-- GET_TENANT_STATUS (R238). -/
def checkGetTenantStatus (c : Ctx) (s : State) : Nat := gated s (!tenantLen 0 c) []
/-- The 48-byte result; the counters clear. -/
def runGetTenantStatus (c : Ctx) (s : State) : Res :=
  let t := c.pk.tenant
  let x := tenGet s t
  let n := x.cnt
  let tx := sizeTx s t
  let rx := sizeRx s t
  doneWith (tenUpd t (fun v => { v with cnt := {} }) s)
    (le 1 (ptrCode x.rx.state) ++ le 1 (tenDeclared x.rx) ++ le 1 x.rx.reported
      ++ le 1 ((if tx = 0 then 0 else x.tx.stat) + 8 * b2n x.tx.freq + 16 * b2n (tx != 0) + 32 * b2n (rx != 0))
      ++ le 2 tx ++ le 2 rx ++ le 4 x.tx.level ++ le 4 n.justPos ++ le 4 n.justNeg ++ le 4 n.freqEv ++ le 4 n.mismatch
      ++ le 4 n.realign ++ le 4 n.lop ++ le 4 n.authFail ++ le 4 n.replaced ++ le 4 n.jcErr)
/-- GET_TENANT_STATUS. -/
def execGetTenantStatus (pk : Packet) (s : State) : Out := .next (serve 0x0414 checkGetTenantStatus runGetTenantStatus pk s)

/-- The counters of a tenant updated. -/
def tenCnt (t : Nat) (f : TenCounts → TenCounts) (s : State) : State := tenUpd t (fun x => { x with cnt := f x.cnt }) s

/-! The mapper (R216 to R219, R231). -/

/-- STAT of the next period (R219): a tenant pattern is sent as normal (R527). [log 108 DEDUCED] -/
def chooseStat (s : State) (t : Nat) (x : Tenant) (freq : Bool) : Nat :=
  if (tget {} s.test.tens t).gen then 0
  else if x.aisUse || (clientOf s t).kind = 0 then 3
  else if freq then 2
  else if replacedToLine s t then 1
  else 0

/-- The justification of a period (R216), and toward the centre while a resize is settled (R231): 0 none, 1 POS, 2 NEG. -/
def chooseJc (c level since resize : Nat) : Nat :=
  if since < 4 then 0
  else if resize != 0 then (if 8 * c < level then 2 else if level < 8 * c then 1 else 0)
  else if 8 * c + c < level then 2
  else if level < 8 * c - c then 1
  else 0

/-- The store level lies within c of its centre (R231). -/
def centred (c level : Nat) : Bool := decide (7 * c ≤ level) && decide (level ≤ 9 * c)

/-- The size whose TC-FREQ thresholds apply: the larger of both until a resize is settled (R231). [log 110 DEDUCED] -/
def freqSize (c resize : Nat) : Nat := max c resize

/-- The level reaches 14 c or 2 c (R218), as it does when the input leaves the ±2,006.3 ppm that justification corrects (R217). [log 110 DEDUCED] -/
def freqReached (c level : Nat) : Bool := decide (14 * c ≤ level) || decide (level ≤ 2 * c)

/-- TC-FREQ is declared on transmit (R218). [log 110 DEDUCED] -/
def declareFreq (t : Nat) (s : State) : State :=
  let s1 := tenCnt t (fun n => { n with freqEv := satAdd 32 n.freqEv 1 })
    (tenUpd t (fun x => { x with tx := { (x.tx.refill x.tx.c) with freq := true, clean := 0 } }) s)
  postEv 0x0404 [t] (pmCount (pmTen t) (fun a => { a with freqEv := a.freqEv + 1 }) s1)

/-- The data words of a period of `n` words (R212, R219, R527): the tenant pattern, the client stream from the store, or local-fault
blocks whose phase follows the pointer. -/
def periodData (s : State) (t stat n : Nat) : List Word64 :=
  let v := (tenGet s t).tx
  let g := tget {} s.test.tens t
  if g.gen then (prbsWords n g.seed).1
  else if stat = 0 then (v.store ++ v.inflow).take n ++ List.replicate (n - (v.store ++ v.inflow).length) 0
  else faultWords v.ptr n

/-- What the Turret makes of a period (R295, R296): the encrypted words with their tag; zero words and a zero tag where the register is not
LOADED or the request missed its deadline. -/
def sealPeriod (s : State) (t : Nat) (h : Word64) (plain : List Word64) : List Word64 × Word64 :=
  let k := keySlot s t
  let r := keyReg k k.pTx
  if r.state != 1 || (tenGet s t).tx.missed then (plain.map fun _ => 0, 0)
  else
    let ks := aesKeys r.k1
    let j0 := gcmJ0 r.saltTx (if r.counts then r.wTx else 0) s.txFc
    let body := gcmCrypt ks j0 plain
    (body, gcmTag ks j0 h body)

/-- The period is sent: H and T, the words that leave the store, encrypted, the justification counts (R210 to R219, R296). Under TC-FREQ
nothing is justified (R218). -/
def sendPeriod (t : Nat) (s : State) : State :=
  let x := tenGet s t
  let v := x.tx
  let p := s.txFc / 8 % 256
  let jc := if v.freq then 0 else chooseJc v.c v.level v.since v.resize
  let b := dataBits v.c p jc
  let stat := chooseStat s t x v.freq
  let k := keySlot s t
  let h := headerWord t jc v.ptr stat k.pTx v.c
  let zero := v.fresh || (keyReg k k.pTx).state != 1 || v.missed
  let sealed := sealPeriod s t h (periodPlain v.c (periodData s t stat (b / 64)))
  let s0 := { s with test := { s.test with tens := tupd {} s.test.tens t fun g => if g.gen then { g with seed := (prbsWords (b / 64) g.seed).2 } else g } }
  let s1 := tenUpd t (fun x => { x with tx := { v with
    store := (v.store ++ v.inflow).drop (b / 64)
    inflow := []
    words := periodWords v.c h (if zero then 0 else v.tag) sealed.1
    tag := sealed.2
    missed := false
    since := if jc != 0 then 1 else min 4 (v.since + 1)
    ptr := nextPtr v.ptr b
    stat := stat
    jc := jc
    fresh := false
    tZero := zero
    hOut := h } }) s0
  let s2 := tenCnt t (fun n => { n with
    justPos := satAdd 32 n.justPos (b2n (jc == 1))
    justNeg := satAdd 32 n.justNeg (b2n (jc == 2)) }) s1
  txPeriod t (pmCount (pmTen t) (fun a => { a with
    justPos := a.justPos + b2n (jc == 1)
    justNeg := a.justNeg + b2n (jc == 2) }) s2)

/-- POINTER_PERIOD_TRANSMIT (R189, R216, R218): the written settings of the tenant apply; the level at the start of the period declares TC-FREQ;
the blocks that a FlexE client brings in the period pass the shim; the period is sent. [log 109 DESIGN CHOICE] -/
def execPointerPeriodTransmit (tenant : Nat) (arrived : List Block66) (s0 : State) : Out :=
  .next (if 1024 ≤ tenant || !domOn s0 2 || sizeTx s0 tenant = 0 then s0
    else
      let s := { s0 with test := { s0.test with tens := tupd {} s0.test.tens tenant fun g => { g with gen := g.genSet } } }
      let s1 := tenUpd tenant (fun x => { x with
        aisUse := x.forceAis
        tx := { x.tx with resize := if centred x.tx.c x.tx.level then 0 else x.tx.resize } }) s
      let v := (tenGet s1 tenant).tx
      sendPeriod tenant (offerBlocks tenant arrived
        (if !v.freq && freqReached (freqSize v.c v.resize) v.level then declareFreq tenant s1 else s1)))

/-- TC_FREQ_OFFSET_WINDOW (R218): the client's offset over 10 ms in 0.1 ppm; 10 windows within 1,950 ppm in a row clear
TC-FREQ, and mapping resumes from a store at its centre. [log 109 DESIGN CHOICE] -/
def execTcFreqOffsetWindow (tenant : Nat) (offset : Int) (s : State) : Out :=
  .next (if 1024 ≤ tenant || (clientOf s tenant).kind = 0 then s
    else
      let s1 := { s with host := { s.host with clients := tupd {} s.host.clients tenant fun k => { k with offset := offset } } }
      let s2 := pmCount (pmTen tenant) (fun a => { a with
        offMin := minOptI a.offMin (some offset)
        offMax := maxOptI a.offMax (some offset) }) s1
      let v := (tenGet s2 tenant).tx
      if !v.freq then s2
      else
        let n := if offset.natAbs ≤ 19500 then v.clean + 1 else 0
        tenUpd tenant (fun x => { x with tx :=
          if 10 ≤ n then { (x.tx.refill x.tx.c) with freq := false, clean := 0 } else { x.tx with clean := n } }) s2)

/-! The demapper (R220 to R226). -/

/-- What the pointer interpreter does in a period (R221): its next state; PTR_MISMATCH, PTR_REALIGN, an entry to LOP. -/
structure Interp where
  rx       : TenRx
  mismatch : Bool := false
  realign  : Bool := false
  lop      : Bool := false
  deriving DecidableEq, Repr

/-- ACQ and LOP: three consistent accepted H lead to NORM; 8 periods in ACQ without them to LOP. [log 105 DEDUCED] -/
def interpSearch (acc : Bool) (ptr : Nat) (r : TenRx) : Interp :=
  let run := if !acc then r.run else if r.run != 0 && ptr = r.cand then r.run + 1 else 1
  let r1 := if acc then { r with run := run, cand := ptr } else r
  if 3 ≤ run then ⟨{ r1 with state := .norm, expected := ptr, run := 0, misRun := 0, noMatch := 0, age := 0 }, false, false, false⟩
  else if r.state == .acq && decide (7 ≤ r.age) then ⟨{ r1 with state := .lop, age := 0 }, false, false, true⟩
  else ⟨{ r1 with age := r.age + 1 }, false, false, false⟩

/-- NORM: a match, a mismatch, the third of three consistent mismatches; 8 periods without a match lead to LOP. [log 104 DEDUCED, 105 DEDUCED] -/
def interpNorm (acc : Bool) (ptr : Nat) (r : TenRx) : Interp :=
  if acc && ptr = r.expected then ⟨{ r with misRun := 0, noMatch := 0 }, false, false, false⟩
  else
    let run := if !acc then r.misRun else if r.misRun != 0 && ptr = r.cand then r.misRun + 1 else 1
    if 3 ≤ run then ⟨{ r with expected := ptr, misRun := 0, noMatch := 0 }, false, true, false⟩
    else
      let r1 := { r with misRun := run, cand := if acc then ptr else r.cand, noMatch := r.noMatch + 1 }
      if 8 ≤ r1.noMatch then ⟨{ r1 with state := .lop, run := 0, age := 0 }, acc, false, true⟩
      else ⟨r1, acc, false, false⟩

/-- The expected values advance by the data bits of the period (R215). -/
def interpAdvance (b : Nat) (i : Interp) : Interp :=
  { i with rx := { i.rx with expected := nextPtr i.rx.expected b, cand := nextPtr i.rx.cand b } }

/-- The pointer interpreter of a tenant takes a period. -/
def interpret (acc : Bool) (ptr b : Nat) (r : TenRx) : Interp :=
  match r.state with
  | .none => ⟨r, false, false, false⟩
  | .norm => interpAdvance b (interpNorm acc ptr r)
  | _ => interpAdvance b (interpSearch acc ptr r)

/-- STAT of an accepted H takes part in its run of 3 (R224): the third sets the defect of that value and ends the others. [log 115 DEDUCED] -/
def takeStat (stat : Nat) (r : TenRx) : TenRx :=
  let run := if r.statRun != 0 && r.statCand = stat then min 3 (r.statRun + 1) else 1
  let r1 := { r with statRun := run, statCand := stat }
  if run = 3 then { r1 with ais := stat == 3, freq := stat == 2, csf := stat == 1 } else r1

/-- The frame read last whose counter opens a period. -/
def openingFrame (r : TenRx) : Option ConFrame := r.frames.find? fun f => f.fc % 8 == 0

/-- The frame that opens the period that arrives, where it is not the one before; a period without one follows the last in FC (R298). -/
def newOpening (r : TenRx) : Option ConFrame := (openingFrame r).filter fun f => some f.fc != r.base

/-- FC of the first frame of the period that arrives. [log 93 DEDUCED] -/
def rxPeriodFc (s : State) (t : Nat) : Nat :=
  let r := (tenGet s t).rx
  match newOpening r with
  | some f => f.fc
  | none => match r.base with
    | some b => (b + 8) % 2 ^ 24
    | none => (if s.mode.cur == .merge then s.mrg.lastFc.getD 0 else if onCarrier s .a t then s.skew.readFc.a else s.skew.readFc.b) / 8 * 8

/-- H of the period that arrives and whether its frame's header is good (R210, R220). -/
def rxHeader (r : TenRx) : Word64 × Bool :=
  match newOpening r with
  | some f => (f.words.headD 0, f.header)
  | none => (0, false)

/-- FC[23:3] has passed from its end to 0 between two periods (R298). -/
def fcWraps (old : Option Nat) (new : Nat) : Bool :=
  match old with
  | some b => decide (0 < fcDist b new) && decide (new < b)
  | none => false

/-- H is accepted (R220): under the wrong table its TID or NSL differs (R233). [log 104 DEDUCED] -/
def acceptH (s : State) (t : Nat) (h : BitVec 64) (goodHeader : Bool) : Bool :=
  let v := h.toNat
  goodHeader && v % 256 == (crc8 h).toNat && bits v 63 54 == t && bits v 33 23 == sizeRx s t

/-- The period that arrives is counted as replaced, once (R226, R238, R274). [log 104 DEDUCED] -/
def countReplaced (t : Nat) (s : State) : State :=
  countSrc 0x06 t 1 (pmCount (pmTen t) (fun a => { a with replaced := a.replaced + 1 })
    (tenCnt t (fun n => { n with replaced := satAdd 32 n.replaced 1 }) s))

/-- An errored block of a tenant (R267). -/
def countErrored (t : Nat) (s : State) : State := pmCount (pmTen t) (fun a => { a with errs := a.errs + 1 }) s

/-- The counts of a period that the interpreter has taken. -/
def countInterp (t : Nat) (jcErr : Bool) (i : Interp) (s : State) : State :=
  tenCnt t (fun n => { n with
    mismatch := satAdd 32 n.mismatch (b2n i.mismatch)
    realign := satAdd 32 n.realign (b2n i.realign)
    lop := satAdd 32 n.lop (b2n i.lop)
    jcErr := satAdd 32 n.jcErr (b2n jcErr) }) s

/-- The words that the 8 frames of a period brought (R210); those of an absent frame are zero. [log 230 DESIGN CHOICE] -/
def periodFrames (r : TenRx) (m : PeriodMark) : List Word64 :=
  (List.range 8).flatMap fun i => match r.frames.find? fun f => f.fc == (m.fc + i) % 2 ^ 24 with
    | some f => f.words
    | none => List.replicate (16 * m.size) 0

/-- The period before becomes the one that awaits its T, with the words it brought (R210, R222); a period whose T never came is discarded. [log 107 DEDUCED] -/
def openPeriod (t : Nat) (s : State) : State :=
  let r := (tenGet s t).rx
  let done := { r.now with words := periodFrames r r.now }
  let s1 := if r.held.isSome then keyUpd t (fun k => { k with checks := k.checks.drop 1 }) s else s
  tenUpd t (fun x => { x with rx := { x.rx with held := if r.fresh then none else some done, fresh := false } }) s1

/-- The period that arrives is marked and counted: errored where H is not accepted or it is replaced. The authentication action
in force as it opens stays its own (R313). [log 123 DEDUCED, 136 DEDUCED] -/
def markPeriod (t : Nat) (acc replaced : Bool) (p : PeriodMark) (s : State) : State :=
  let m : PeriodMark := { p with
    errored := !acc || replaced, replaced := replaced, countOnly := (tget {} s.turret.cipher t).action != 0 }
  let s1 := tenUpd t (fun x => { x with rx := { x.rx with now := m, replaceNext := false } }) s
  let s2 := if replaced then countReplaced t s1 else s1
  if !acc || replaced then countErrored t s2 else s2

/-- The written checker of a tenant applies from the next period (R541): it starts in HUNT. [log 106 DEDUCED] -/
def followChecker (t : Nat) (s : State) : State :=
  { s with test := { s.test with tens := tupd {} s.test.tens t fun g =>
    if g.chkSet && g.chk.state = 0 then { g with chk := { g.chk with state := 1 } }
    else if g.chkSet then g else { g with chk := { g.chk with state := 0 } } } }

/-! The recovered client clock (R223). -/

/-- The data rate of a period against the container's nominal 4,112 / 33 words per slot, in 10^-12 (R213). -/
def receivedRate (size bits : Nat) : Int :=
  if size = 0 then 0 else roundDiv ((bits * 33 * 10 ^ 12 : Nat) : Int) (4112 * 64 * size) - 10 ^ 12

/-- 1 ppm per ms over a pointer period, in 10^-12 (R223). -/
abbrev slewLimit : Int := 1589

/-- One period of the second-order loop of 100 Hz and damping 0.7 (R223): natural frequency 2 pi 100 Hz, so the factors per period of 1,588.75 ns
are 1.39755 10^-3 and 9.9648 10^-7. While the payload is replaced the clock holds its frequency; after that it moves by at most 1 ppm per ms until the
loop asks for less. [log 232 DESIGN CHOICE] -/
def clockStep (replaced : Bool) (rate : Int) (k : ClientClock) : ClientClock :=
  if replaced then { k with err := 0, slews := true }
  else if k.slews && slewLimit < (rate - k.offset).natAbs then
    { k with offset := k.offset + clampInt (-slewLimit) slewLimit (rate - k.offset) }
  else
    let e := k.err + rate - k.offset - roundDiv (k.err * 139755) 100000000
    { offset := k.offset + roundDiv (e * 99648) 100000000000, err := e, slews := false }

/-- The schedule's lengthening of the period in 10^-12 (R241): 32,768 units of a frame period are 1 ppm. -/
def scheduleStretch (s : State) (t : Nat) : Int :=
  roundDiv ((if s.mode.cur == .merge || onCarrier s .a t then s.skew.stretch.a else s.skew.stretch.b) * 1000000) 32768

/-- The clock of an Ethernet client takes a period (R223). -/
def followClock (t : Nat) (replaced : Bool) (size bits : Nat) (s : State) : State :=
  if (clientOf s t).kind != 1 then s
  else tenUpd t (fun x => { x with rx := { x.rx with clk := clockStep replaced (receivedRate size bits - scheduleStretch s t) x.rx.clk } }) s

/-- POINTER_PERIOD_RECEIVE (R220, R221, R223 to R226, R267, R298, R299): H of the period that opens, from the frames that were read. [log 229 DESIGN CHOICE] -/
def execPointerPeriodReceive (tenant : Nat) (s0 : State) : Out :=
  .next (if 1024 ≤ tenant || !domOn s0 2 || (tenGet s0 tenant).rx.state == .none then s0
    else
      let hd := rxHeader (tenGet s0 tenant).rx
      let fc := rxPeriodFc s0 tenant
      let acc := acceptH s0 tenant hd.1 hd.2
      let v := hd.1.toNat
      let sw := if fcWraps (tenGet s0 tenant).rx.base fc then wrapRx (· == tenant) s0 else s0
      let s := openPeriod tenant (followChecker tenant <| countSrc 0x05 tenant 1 (pmCount (pmTen tenant) (fun a => { a with blocks := a.blocks + 1 }) sw))
      let s1 := tenUpd tenant (fun x => { x with rx := { x.rx with base := some fc } })
        (rxPeriod tenant (if acc then some (bits v 35 35) else none) s)
      let r := (tenGet s1 tenant).rx
      let k := keySlot s1 tenant
      let jc := majorityJc hd.1
      let b := dataBits r.c (fc / 8 % 256) jc.1
      let p : PeriodMark := { fc := fc, h := hd.1, w := (keyReg k k.lastKp).wRx, size := r.c, data := b / 64 }
      if r.suppressed then followClock tenant true r.c b (markPeriod tenant acc true p (tenCnt tenant (fun n => { n with
        jcErr := satAdd 32 n.jcErr (b2n jc.2) }) s1))
      else
        let i := interpret acc (bits v 47 39) b r
        let r1 := if acc then takeStat (bits v 38 36) i.rx else i.rx
        let s2 := settleTen tenant (countClient 0x0A tenant (if r.state == .norm then b / 8 else 0) <| countInterp tenant jc.2 i (tenUpd tenant (fun x => { x with rx := r1 }) s1))
        let replaced := r.state != .norm || i.mismatch || r.replaceNext || (tenGet s2 tenant).rx.replacing
        followClock tenant replaced r.c b (markPeriod tenant acc replaced { p with ptr := r.expected } s2))

/-- TC-AUTH follows the runs of 3 checked periods; ACQ and LOP are not checked for it (R224). [log 106 DEDUCED] -/
def takeAuth (pass : Bool) (r : TenRx) : TenRx :=
  if r.state != .norm then r
  else
    let f := if pass then 0 else min 3 (r.authFails + 1)
    let g := if pass then min 3 (r.authGood + 1) else 0
    { r with authFails := f, authGood := g, auth := if f = 3 then true else if g = 3 then false else r.auth }

/-- The T that covers a period: container word 0 of the fifth frame of the next one (R210). -/
def periodTag (r : TenRx) (m : PeriodMark) : Option Word64 :=
  (r.frames.find? fun f => f.fc == (m.fc + 12) % 2 ^ 24).map fun f => f.words.headD 0

/-- The candidates c of the counter W_RX - 1 + c under which T verifies (R296, R298). -/
def tagCandidates (k : KeySlot) (m : PeriodMark) (tag : Word64) : List Nat :=
  let reg := keyReg k (k.checks.headD k.pRx)
  let ks := aesKeys reg.k1
  [0, 1, 2, 3].filter fun c =>
    decide (1 ≤ m.w + c) && gcmTag ks (gcmJ0 reg.saltRx (m.w + c - 1) m.fc) m.h (periodBody m.size m.words) == tag

/-- The data words of a period, decrypted (R212, R299); under a register without a key the manual leaves them open. [log 231 DESIGN CHOICE] -/
def periodClear (s : State) (k : KeySlot) (m : PeriodMark) : List Word64 :=
  let reg := keyReg k (k.checks.headD k.pRx)
  if reg.state != 1 then (List.range m.data).map fun i => BitVec.ofNat 64 (Config.freeNat 299 (s.free + i))
  else (gcmCrypt (aesKeys reg.k1) (gcmJ0 reg.saltRx m.w m.fc) (periodBody m.size m.words)).take m.data

/-- What a period gives to the client (R198, R222, R226, R455): its data words, or local-fault or remote-fault blocks in their place; in blocks
to its PHY, or through the shim to its calendar slots (R187, R189). -/
def giveClient (t : Nat) (replaced : Bool) (clear : List Word64) (m : PeriodMark) (s : State) : State :=
  let r := (tenGet s t).rx
  let words := if replaced || m.replaced || localFaultToHost s t then faultWords m.ptr m.data
    else if remoteFaultToHost s t then faultStream 2 m.ptr m.data else clear
  let b := wholeBlocks r.part m.ptr (wordBits words)
  let c := clientOf s t
  let s1 := tenUpd t (fun x => { x with rx := { x.rx with egress := words, part := b.2 } }) s
  if c.kind = 1 then phySend c.place b.1 r.clk.offset s1
  else if c.kind = 2 then
    let credit := r.credit + shimShare * clientSlots s t
    let f := shimFit (4 * (credit / 33)) (r.shim ++ b.1.flatMap untranscode)
    tenUpd t (fun x => { x with rx := { x.rx with toHost := f.1, shim := f.2, credit := credit % 33 } }) s1
  else s1

/-- TAG_CHECK_RESULT (R222, R296, R298, R299): the Turret's result on T of the period that is held, once T has arrived. [log 107 DEDUCED, 136 DEDUCED] -/
def execTagCheckResult (tenant : Nat) (s0 : State) : Out :=
  .next (match (tenGet s0 tenant).rx.held.bind fun m => (periodTag (tenGet s0 tenant).rx m).map fun t => (m, t) with
    | none => s0
    | some (m, tag) =>
      let k := keySlot s0 tenant
      let clear := periodClear s0 k m
      let d := tagVerdict tenant (tagCandidates k m tag) s0
      let pass := d.1
      let s := tenUpd tenant (fun x => { x with rx := { x.rx with held := none } }) { d.2.2 with free := s0.free + m.data }
      let r := (tenGet s tenant).rx
      if r.suppressed then giveClient tenant true [] m s
      else
        let fail := !pass
        let replaced := d.2.1 || (fail && !m.countOnly)
        let s1 := if fail then countSrc 0x07 tenant 1 (pmCount (pmTen tenant) (fun a => { a with authFail := a.authFail + 1 })
            (tenCnt tenant (fun n => { n with authFail := satAdd 32 n.authFail 1 }) s))
          else s
        let s2 := if replaced && !m.replaced then countReplaced tenant s1 else s1
        let s3 := if (replaced || fail) && !m.errored then countErrored tenant s2 else s2
        let s4 := tenUpd tenant (fun x => { x with rx := takeAuth pass x.rx }) s3
        let s5 := if (tenGet s4 tenant).rx.auth && !r.auth then startHunt tenant s4 else s4
        let s6 := if replaced || m.replaced then s5 else feedPrbs 3 tenant clear s5
        settleTen tenant (giveClient tenant replaced clear m s6))

end Sys2Proof.Machine
end

