-- ==== Sys2Proof/Machine/Dispatch.lean ====
section
/-! DEFINITION. The dispatch of the commands to their meanings, one arm per constructor. -/

namespace Sys2Proof.Machine

/-- A command's effect on everything but the queue of waiting commands. -/
def exec (i : Instr) (s : State) : Host.Outcome State Fault Refusal :=
  match i with
  | .nop pk => Sys2Proof.Machine.execNop pk s
  | .fence pk => Sys2Proof.Machine.execFence pk s
  | .getIdentity pk => Sys2Proof.Machine.execGetIdentity pk s
  | .getQueueStatus pk => Sys2Proof.Machine.execGetQueueStatus pk s
  | .resetQueue pk => Sys2Proof.Machine.execResetQueue pk s
  | .setQueueConfig pk => Sys2Proof.Machine.execSetQueueConfig pk s
  | .setMode pk => Sys2Proof.Machine.execSetMode pk s
  | .setDomains pk => Sys2Proof.Machine.execSetDomains pk s
  | .getPowerStatus pk => Sys2Proof.Machine.execGetPowerStatus pk s
  | .setSupervision pk => Sys2Proof.Machine.execSetSupervision pk s
  | .clearPairFault pk => Sys2Proof.Machine.execClearPairFault pk s
  | .setLinePlan pk => Sys2Proof.Machine.execSetLinePlan pk s
  | .getLinePlan pk => Sys2Proof.Machine.execGetLinePlan pk s
  | .setTxShaping pk => Sys2Proof.Machine.execSetTxShaping pk s
  | .setTxCorrection pk => Sys2Proof.Machine.execSetTxCorrection pk s
  | .setTxOutput pk => Sys2Proof.Machine.execSetTxOutput pk s
  | .setTxState pk => Sys2Proof.Machine.execSetTxState pk s
  | .getTxStatus pk => Sys2Proof.Machine.execGetTxStatus pk s
  | .setRxFrontEnd pk => Sys2Proof.Machine.execSetRxFrontEnd pk s
  | .getRxStatus pk => Sys2Proof.Machine.execGetRxStatus pk s
  | .setCalControl pk => Sys2Proof.Machine.execSetCalControl pk s
  | .getCalStatus pk => Sys2Proof.Machine.execGetCalStatus pk s
  | .setMonitor pk => Sys2Proof.Machine.execSetMonitor pk s
  | .monitorControl pk => Sys2Proof.Machine.execMonitorControl pk s
  | .runToneSearch pk => Sys2Proof.Machine.execRunToneSearch pk s
  | .setRxDsp pk => Sys2Proof.Machine.execSetRxDsp pk s
  | .restartAcquisition pk => Sys2Proof.Machine.execRestartAcquisition pk s
  | .getChannelEstimates pk => Sys2Proof.Machine.execGetChannelEstimates pk s
  | .setFec pk => Sys2Proof.Machine.execSetFec pk s
  | .setFecDefects pk => Sys2Proof.Machine.execSetFecDefects pk s
  | .getFecStatus pk => Sys2Proof.Machine.execGetFecStatus pk s
  | .setFrameConfig pk => Sys2Proof.Machine.execSetFrameConfig pk s
  | .getFrameStatus pk => Sys2Proof.Machine.execGetFrameStatus pk s
  | .setCalendar pk => Sys2Proof.Machine.execSetCalendar pk s
  | .swapCalendar pk => Sys2Proof.Machine.execSwapCalendar pk s
  | .getCalendar pk => Sys2Proof.Machine.execGetCalendar pk s
  | .setTenantControl pk => Sys2Proof.Machine.execSetTenantControl pk s
  | .getTenantStatus pk => Sys2Proof.Machine.execGetTenantStatus pk s
  | .setSkewConfig pk => Sys2Proof.Machine.execSetSkewConfig pk s
  | .setMergeConfig pk => Sys2Proof.Machine.execSetMergeConfig pk s
  | .getSkewStatus pk => Sys2Proof.Machine.execGetSkewStatus pk s
  | .getMergeStatus pk => Sys2Proof.Machine.execGetMergeStatus pk s
  | .setPmConfig pk => Sys2Proof.Machine.execSetPmConfig pk s
  | .setPmThresholds pk => Sys2Proof.Machine.execSetPmThresholds pk s
  | .setPmProfile pk => Sys2Proof.Machine.execSetPmProfile pk s
  | .getPmCurrent pk => Sys2Proof.Machine.execGetPmCurrent pk s
  | .getPmHistory pk => Sys2Proof.Machine.execGetPmHistory pk s
  | .getLinkQuality pk => Sys2Proof.Machine.execGetLinkQuality pk s
  | .establishKek pk => Sys2Proof.Machine.execEstablishKek pk s
  | .loadKey pk => Sys2Proof.Machine.execLoadKey pk s
  | .generateKey pk => Sys2Proof.Machine.execGenerateKey pk s
  | .rotateKey pk => Sys2Proof.Machine.execRotateKey pk s
  | .eraseKey pk => Sys2Proof.Machine.execEraseKey pk s
  | .setTenantCipher pk => Sys2Proof.Machine.execSetTenantCipher pk s
  | .getKeyStatus pk => Sys2Proof.Machine.execGetKeyStatus pk s
  | .getTurretStatus pk => Sys2Proof.Machine.execGetTurretStatus pk s
  | .setMemoryConfig pk => Sys2Proof.Machine.execSetMemoryConfig pk s
  | .getMemoryStatus pk => Sys2Proof.Machine.execGetMemoryStatus pk s
  | .getCeLog pk => Sys2Proof.Machine.execGetCeLog pk s
  | .setRemap pk => Sys2Proof.Machine.execSetRemap pk s
  | .repairRow pk => Sys2Proof.Machine.execRepairRow pk s
  | .setRefConfig pk => Sys2Proof.Machine.execSetRefConfig pk s
  | .setDpllConfig pk => Sys2Proof.Machine.execSetDpllConfig pk s
  | .setSelection pk => Sys2Proof.Machine.execSetSelection pk s
  | .stepPhase pk => Sys2Proof.Machine.execStepPhase pk s
  | .setTime pk => Sys2Proof.Machine.execSetTime pk s
  | .setTodConfig pk => Sys2Proof.Machine.execSetTodConfig pk s
  | .getTimingStatus pk => Sys2Proof.Machine.execGetTimingStatus pk s
  | .getTime pk => Sys2Proof.Machine.execGetTime pk s
  | .setLearning pk => Sys2Proof.Machine.execSetLearning pk s
  | .setRingRole pk => Sys2Proof.Machine.execSetRingRole pk s
  | .assignWorker pk => Sys2Proof.Machine.execAssignWorker pk s
  | .getRingStatus pk => Sys2Proof.Machine.execGetRingStatus pk s
  | .getOutcome pk => Sys2Proof.Machine.execGetOutcome pk s
  | .setRingProtect pk => Sys2Proof.Machine.execSetRingProtect pk s
  | .getRingProtect pk => Sys2Proof.Machine.execGetRingProtect pk s
  | .setCounter pk => Sys2Proof.Machine.execSetCounter pk s
  | .grantCounters pk => Sys2Proof.Machine.execGrantCounters pk s
  | .setBwWindow pk => Sys2Proof.Machine.execSetBwWindow pk s
  | .readCounters pk => Sys2Proof.Machine.execReadCounters pk s
  | .getPcieStatus pk => Sys2Proof.Machine.execGetPcieStatus pk s
  | .setLoop pk => Sys2Proof.Machine.execSetLoop pk s
  | .setLinePattern pk => Sys2Proof.Machine.execSetLinePattern pk s
  | .setLanePattern pk => Sys2Proof.Machine.execSetLanePattern pk s
  | .setTenantPattern pk => Sys2Proof.Machine.execSetTenantPattern pk s
  | .getPatternStatus pk => Sys2Proof.Machine.execGetPatternStatus pk s
  | .startCapture pk => Sys2Proof.Machine.execStartCapture pk s
  | .triggerCapture pk => Sys2Proof.Machine.execTriggerCapture pk s
  | .stopCapture pk => Sys2Proof.Machine.execStopCapture pk s
  | .busTransfer pk => Sys2Proof.Machine.execBusTransfer pk s
  | .fwPrepare pk => Sys2Proof.Machine.execFwPrepare pk s
  | .fwVerify pk => Sys2Proof.Machine.execFwVerify pk s
  | .fwActivate pk => Sys2Proof.Machine.execFwActivate pk s
  | .fwCommit pk => Sys2Proof.Machine.execFwCommit pk s
  | .getFwStatus pk => Sys2Proof.Machine.execGetFwStatus pk s
  | .getJournalStatus pk => Sys2Proof.Machine.execGetJournalStatus pk s
  | .setHostQuad pk => Sys2Proof.Machine.execSetHostQuad pk s
  | .setHostLaneTx pk => Sys2Proof.Machine.execSetHostLaneTx pk s
  | .setHostPhy pk => Sys2Proof.Machine.execSetHostPhy pk s
  | .setClient pk => Sys2Proof.Machine.execSetClient pk s
  | .setFlexeGroup pk => Sys2Proof.Machine.execSetFlexeGroup pk s
  | .setFlexeCalendar pk => Sys2Proof.Machine.execSetFlexeCalendar pk s
  | .switchFlexeCalendar pk => Sys2Proof.Machine.execSwitchFlexeCalendar pk s
  | .getHostStatus pk => Sys2Proof.Machine.execGetHostStatus pk s
  | .getClientStatus pk => Sys2Proof.Machine.execGetClientStatus pk s
  | .invalidPacket q bytes => Sys2Proof.Machine.execInvalidPacket q bytes s
  | .relayRequest q bytes => Sys2Proof.Machine.execRelayRequest q bytes s
  | .qdataWrite q word err => Sys2Proof.Machine.execQdataWrite q word err s
  | .queueWriteResume q => Sys2Proof.Machine.execQueueWriteResume q s
  | .qend q len err => Sys2Proof.Machine.execQend q len err s
  | .twiQdataWrite byte err => Sys2Proof.Machine.execTwiQdataWrite byte err s
  | .twiQendWrite bytes => Sys2Proof.Machine.execTwiQendWrite bytes s
  | .twiRspRead => Sys2Proof.Machine.execTwiRspRead s
  | .twiStretchExpiry => Sys2Proof.Machine.execTwiStretchExpiry s
  | .responseWrite q => Sys2Proof.Machine.execResponseWrite q s
  | .pointerWindowClose q mismatch => Sys2Proof.Machine.execPointerWindowClose q mismatch s
  | .fenceComplete q => Sys2Proof.Machine.execFenceComplete q s
  | .controllerMismatch => Sys2Proof.Machine.execControllerMismatch s
  | .configRequest w => Sys2Proof.Machine.execConfigRequest w s
  | .functionLevelReset => Sys2Proof.Machine.execFunctionLevelReset s
  | .perstNAssert => Sys2Proof.Machine.execPerstNAssert s
  | .pcieLink speed width => Sys2Proof.Machine.execPcieLink speed width s
  | .qrspSizeWrite q value => Sys2Proof.Machine.execQrspSizeWrite q value s
  | .qrspHeadWrite q value => Sys2Proof.Machine.execQrspHeadWrite q value s
  | .evtSizeWrite value => Sys2Proof.Machine.execEvtSizeWrite value s
  | .evtHeadWrite value => Sys2Proof.Machine.execEvtHeadWrite value s
  | .evtLostRead => Sys2Proof.Machine.execEvtLostRead s
  | .msixUnmask vector => Sys2Proof.Machine.execMsixUnmask vector s
  | .dmaDoorbell ch host err => Sys2Proof.Machine.execDmaDoorbell ch host err s
  | .dmaAbort ch => Sys2Proof.Machine.execDmaAbort ch s
  | .dmaCplHeadWrite ch value => Sys2Proof.Machine.execDmaCplHeadWrite ch value s
  | .cntSnapshot value => Sys2Proof.Machine.execCntSnapshot value s
  | .cntOvfClear idx value => Sys2Proof.Machine.execCntOvfClear idx value s
  | .bwPeakRead port out wide => Sys2Proof.Machine.execBwPeakRead port out wide s
  | .counterLowRead bar2 offset => Sys2Proof.Machine.execCounterLowRead bar2 offset s
  | .violationClear value => Sys2Proof.Machine.execViolationClear value s
  | .bar2CounterRead offset wide => Sys2Proof.Machine.execBar2CounterRead offset wide s
  | .violation acc => Sys2Proof.Machine.execViolation acc s
  | .registerWrite offset value => Sys2Proof.Machine.execRegisterWrite offset value s
  | .dmaBurst host hostErr domeErr => Sys2Proof.Machine.execDmaBurst host hostErr domeErr s
  | .receiveFlushTimeout ch => Sys2Proof.Machine.execReceiveFlushTimeout ch s
  | .eventRingWrite => Sys2Proof.Machine.execEventRingWrite s
  | .counterWrap idx n => Sys2Proof.Machine.execCounterWrap idx n s
  | .bwWindowEnd port => Sys2Proof.Machine.execBwWindowEnd port s
  | .poresetNAssert => Sys2Proof.Machine.execPoresetNAssert s
  | .poresetNDeassert => Sys2Proof.Machine.execPoresetNDeassert s
  | .firmwareVerified read => Sys2Proof.Machine.execFirmwareVerified read s
  | .ready => Sys2Proof.Machine.execReady s
  | .localOscWindowEnd ppb => Sys2Proof.Machine.execLocalOscWindowEnd ppb s
  | .localOscEdgeLoss => Sys2Proof.Machine.execLocalOscEdgeLoss s
  | .railWarn rail mv => Sys2Proof.Machine.execRailWarn rail mv s
  | .railWarnClear rail mv => Sys2Proof.Machine.execRailWarnClear rail mv s
  | .railReset rail mv => Sys2Proof.Machine.execRailReset rail mv s
  | .domainReturnStart rail => Sys2Proof.Machine.execDomainReturnStart rail s
  | .domainPllLock dom => Sys2Proof.Machine.execDomainPllLock dom s
  | .domainInitDone dom => Sys2Proof.Machine.execDomainInitDone dom s
  | .fifoMismatch dom fifo => Sys2Proof.Machine.execFifoMismatch dom fifo s
  | .fifoWindowClose dom => Sys2Proof.Machine.execFifoWindowClose dom s
  | .modeAnnounce => Sys2Proof.Machine.execModeAnnounce s
  | .modeBoundary => Sys2Proof.Machine.execModeBoundary s
  | .rampDownDone => Sys2Proof.Machine.execRampDownDone s
  | .txsafeAssert inp => Sys2Proof.Machine.execTxsafeAssert inp s
  | .txsafeDeassert inp => Sys2Proof.Machine.execTxsafeDeassert inp s
  | .pairFault => Sys2Proof.Machine.execPairFault s
  | .settleExpiry c => Sys2Proof.Machine.execSettleExpiry c s
  | .pfailNAssert => Sys2Proof.Machine.execPfailNAssert s
  | .pfailNDeassert => Sys2Proof.Machine.execPfailNDeassert s
  | .tempSample readings => Sys2Proof.Machine.execTempSample readings s
  | .journalWrite => Sys2Proof.Machine.execJournalWrite s
  | .flashOperationDone found => Sys2Proof.Machine.execFlashOperationDone found s
  | .fwSlotErased => Sys2Proof.Machine.execFwSlotErased s
  | .fwVerifyDone => Sys2Proof.Machine.execFwVerifyDone s
  | .fwControllerSwitch => Sys2Proof.Machine.execFwControllerSwitch s
  | .fwClusterSwitch cluster => Sys2Proof.Machine.execFwClusterSwitch cluster s
  | .superframeTransmit c level => Sys2Proof.Machine.execSuperframeTransmit c level s
  | .txClipInterval c dac => Sys2Proof.Machine.execTxClipInterval c dac s
  | .linePlanApplyDone c => Sys2Proof.Machine.execLinePlanApplyDone c s
  | .agcWindow c obs => Sys2Proof.Machine.execAgcWindow c obs s
  | .agcSettleFail c => Sys2Proof.Machine.execAgcSettleFail c s
  | .agcLimit c => Sys2Proof.Machine.execAgcLimit c s
  | .rxClipInterval c adc => Sys2Proof.Machine.execRxClipInterval c adc s
  | .overlapSaveBlock c obs => Sys2Proof.Machine.execOverlapSaveBlock c obs s
  | .symbolGroupReceive c obs => Sys2Proof.Machine.execSymbolGroupReceive c obs s
  | .monitorRecordClose c ch => Sys2Proof.Machine.execMonitorRecordClose c ch s
  | .toneSweepDone c bins => Sys2Proof.Machine.execToneSweepDone c bins s
  | .calWindowClose c item values => Sys2Proof.Machine.execCalWindowClose c item values s
  | .calApply c item => Sys2Proof.Machine.execCalApply c item s
  | .txCalApply c => Sys2Proof.Machine.execTxCalApply c s
  | .txCalTimeout c => Sys2Proof.Machine.execTxCalTimeout c s
  | .foregroundCalDone c values => Sys2Proof.Machine.execForegroundCalDone c values s
  | .foregroundCalRepeat c => Sys2Proof.Machine.execForegroundCalRepeat c s
  | .calDeferred c => Sys2Proof.Machine.execCalDeferred c s
  | .cdScanDone c obs => Sys2Proof.Machine.execCdScanDone c obs s
  | .freqCoarseDone c khz => Sys2Proof.Machine.execFreqCoarseDone c khz s
  | .timingAcquired c clockOffset => Sys2Proof.Machine.execTimingAcquired c clockOffset s
  | .eqConverged c correlated dgd16 => Sys2Proof.Machine.execEqConverged c correlated dgd16 s
  | .sfSyncFound c swapped iqSwapped => Sys2Proof.Machine.execSfSyncFound c swapped iqSwapped s
  | .freqFineDone c khz => Sys2Proof.Machine.execFreqFineDone c khz s
  | .locked c est => Sys2Proof.Machine.execLocked c est s
  | .acquisitionTimeout c => Sys2Proof.Machine.execAcquisitionTimeout c s
  | .warmPathTimeout c => Sys2Proof.Machine.execWarmPathTimeout c s
  | .lossOfLock c cause => Sys2Proof.Machine.execLossOfLock c cause s
  | .eqSingularCheck c correlated est => Sys2Proof.Machine.execEqSingularCheck c correlated est s
  | .eqLimit c energyOver => Sys2Proof.Machine.execEqLimit c energyOver s
  | .xtalkFallback c parity => Sys2Proof.Machine.execXtalkFallback c parity s
  | .xtalkResume c => Sys2Proof.Machine.execXtalkResume c s
  | .spacingErr => Sys2Proof.Machine.execSpacingErr s
  | .turboPass c block pass => Sys2Proof.Machine.execTurboPass c block pass s
  | .superframeReceive c => Sys2Proof.Machine.execSuperframeReceive c s
  | .ldpcBlockEnter c => Sys2Proof.Machine.execLdpcBlockEnter c s
  | .decoderIterationPeriod c => Sys2Proof.Machine.execDecoderIterationPeriod c s
  | .blockLeave c => Sys2Proof.Machine.execBlockLeave c s
  | .fullHuntDone c => Sys2Proof.Machine.execFullHuntDone c s
  | .fecDegWindow c => Sys2Proof.Machine.execFecDegWindow c s
  | .fecFailWindow c => Sys2Proof.Machine.execFecFailWindow c s
  | .fecThrottle c => Sys2Proof.Machine.execFecThrottle c s
  | .frameTransmit => Sys2Proof.Machine.execFrameTransmit s
  | .frameReceive c => Sys2Proof.Machine.execFrameReceive c s
  | .flywheelTick c => Sys2Proof.Machine.execFlywheelTick c s
  | .losDeclare c => Sys2Proof.Machine.execLosDeclare c s
  | .losClear c => Sys2Proof.Machine.execLosClear c s
  | .multiframeBoundaryRx c => Sys2Proof.Machine.execMultiframeBoundaryRx c s
  | .calendarSwapBoundary => Sys2Proof.Machine.execCalendarSwapBoundary s
  | .pointerPeriodTransmit tenant arrived => Sys2Proof.Machine.execPointerPeriodTransmit tenant arrived s
  | .tcFreqOffsetWindow tenant offset => Sys2Proof.Machine.execTcFreqOffsetWindow tenant offset s
  | .pointerPeriodReceive tenant => Sys2Proof.Machine.execPointerPeriodReceive tenant s
  | .tagCheckResult tenant => Sys2Proof.Machine.execTagCheckResult tenant s
  | .laneForegroundAdaptDone lane values => Sys2Proof.Machine.execLaneForegroundAdaptDone lane values s
  | .laneAdaptWindow lane obs => Sys2Proof.Machine.execLaneAdaptWindow lane obs s
  | .laneAdaptApply lane => Sys2Proof.Machine.execLaneAdaptApply lane s
  | .hostDefect scope declared indications => Sys2Proof.Machine.execHostDefect scope declared indications s
  | .rsFecCodeword phy received => Sys2Proof.Machine.execRsFecCodeword phy received s
  | .flexeOverheadFrameRx phy oh => Sys2Proof.Machine.execFlexeOverheadFrameRx phy oh s
  | .flexeMultiframeBoundary group => Sys2Proof.Machine.execFlexeMultiframeBoundary group s
  | .flexeCaTimeout group => Sys2Proof.Machine.execFlexeCaTimeout group s
  | .esmcTimeout group => Sys2Proof.Machine.execEsmcTimeout group s
  | .esmcInfoPdu group => Sys2Proof.Machine.execEsmcInfoPdu group s
  | .skewUpdate sum => Sys2Proof.Machine.execSkewUpdate sum s
  | .scheduleFrameRead fc arrA arrB => Sys2Proof.Machine.execScheduleFrameRead fc arrA arrB s
  | .excessEnd => Sys2Proof.Machine.execExcessEnd s
  | .mergeFrameSelect fc => Sys2Proof.Machine.execMergeFrameSelect fc s
  | .legQualificationHoldExpiry leg => Sys2Proof.Machine.execLegQualificationHoldExpiry leg s
  | .mergeWtrExpiry => Sys2Proof.Machine.execMergeWtrExpiry s
  | .pmSecondEnd snrAx snrAy snrBx snrBy => Sys2Proof.Machine.execPmSecondEnd snrAx snrAy snrBx snrBy s
  | .pmSecondSettle => Sys2Proof.Machine.execPmSecondSettle s
  | .pmBinClose => Sys2Proof.Machine.execPmBinClose s
  | .framerCipherRequest tenant transmit served => Sys2Proof.Machine.execFramerCipherRequest tenant transmit served s
  | .domeCipherRequest sector write data => Sys2Proof.Machine.execDomeCipherRequest sector write data s
  | .domeSectorTimeout sector => Sys2Proof.Machine.execDomeSectorTimeout sector s
  | .pipeFenced pipe => Sys2Proof.Machine.execPipeFenced pipe s
  | .keepEccError slot reg kind => Sys2Proof.Machine.execKeepEccError slot reg kind s
  | .keyRotated tenant fc => Sys2Proof.Machine.execKeyRotated tenant fc s
  | .kekEstablished => Sys2Proof.Machine.execKekEstablished s
  | .keyGenerated tenant => Sys2Proof.Machine.execKeyGenerated tenant s
  | .entropyTimeout => Sys2Proof.Machine.execEntropyTimeout s
  | .trngHealthFail samples => Sys2Proof.Machine.execTrngHealthFail samples s
  | .trngRetest samples => Sys2Proof.Machine.execTrngRetest samples s
  | .maskRekey => Sys2Proof.Machine.execMaskRekey s
  | .domeStackReady stack failing => Sys2Proof.Machine.execDomeStackReady stack failing s
  | .domeLineOperation stack addr op => Sys2Proof.Machine.execDomeLineOperation stack addr op s
  | .domeRefresh stack hot => Sys2Proof.Machine.execDomeRefresh stack hot s
  | .scrubVisit target addr flips => Sys2Proof.Machine.execScrubVisit target addr flips s
  | .scrubPassStart target => Sys2Proof.Machine.execScrubPassStart target s
  | .scrubLate target => Sys2Proof.Machine.execScrubLate target s
  | .sramUncorrectable region word use => Sys2Proof.Machine.execSramUncorrectable region word use s
  | .rowRepairDone failed => Sys2Proof.Machine.execRowRepairDone failed s
  | .refPhaseMeasure ref phasePs ppb => Sys2Proof.Machine.execRefPhaseMeasure ref phasePs ppb s
  | .refFreqCheck ref => Sys2Proof.Machine.execRefFreqCheck ref s
  | .refSignalChange ref valid => Sys2Proof.Machine.execRefSignalChange ref valid s
  | .refWtrExpiry ref => Sys2Proof.Machine.execRefWtrExpiry ref s
  | .holdOffExpiry => Sys2Proof.Machine.execHoldOffExpiry s
  | .selectionEvaluation => Sys2Proof.Machine.execSelectionEvaluation s
  | .dpllLock => Sys2Proof.Machine.execDpllLock s
  | .lockFail => Sys2Proof.Machine.execLockFail s
  | .holdoverCorrectionUpdate temp => Sys2Proof.Machine.execHoldoverCorrectionUpdate temp s
  | .learningSample freq temp => Sys2Proof.Machine.execLearningSample freq temp s
  | .modelUpdate => Sys2Proof.Machine.execModelUpdate s
  | .modelJournal => Sys2Proof.Machine.execModelJournal s
  | .slewDone => Sys2Proof.Machine.execSlewDone s
  | .todSecond => Sys2Proof.Machine.execTodSecond s
  | .setTimeEdgeTimeout => Sys2Proof.Machine.execSetTimeEdgeTimeout s
  | .ppsInEdge offsetPs => Sys2Proof.Machine.execPpsInEdge offsetPs s
  | .ppsLoss => Sys2Proof.Machine.execPpsLoss s
  | .ringSignalDetect p => Sys2Proof.Machine.execRingSignalDetect p s
  | .ringAlignDone p => Sys2Proof.Machine.execRingAlignDone p s
  | .ringAlignTimeout p => Sys2Proof.Machine.execRingAlignTimeout p s
  | .ringStepStart p => Sys2Proof.Machine.execRingStepStart p s
  | .ringStepEnd p ok => Sys2Proof.Machine.execRingStepEnd p ok s
  | .ringLink p codeErrors => Sys2Proof.Machine.execRingLink p codeErrors s
  | .ringMessageForward p bytes => Sys2Proof.Machine.execRingMessageForward p bytes s
  | .ringStatusReceive p m => Sys2Proof.Machine.execRingStatusReceive p m s
  | .managerResume => Sys2Proof.Machine.execManagerResume s
  | .workerLeft w => Sys2Proof.Machine.execWorkerLeft w s
  | .workerReachabilityTimeout w p => Sys2Proof.Machine.execWorkerReachabilityTimeout w p s
  | .rosterReceive m => Sys2Proof.Machine.execRosterReceive m s
  | .negReceive p ceil => Sys2Proof.Machine.execNegReceive p ceil s
  | .statusSend => Sys2Proof.Machine.execStatusSend s
  | .rosterSend => Sys2Proof.Machine.execRosterSend s
  | .delayExchange p t1 => Sys2Proof.Machine.execDelayExchange p t1 s
  | .delayReqReceive p t2 t3 => Sys2Proof.Machine.execDelayReqReceive p t2 t3 s
  | .delayRespReceive p t2 t3 t4 => Sys2Proof.Machine.execDelayRespReceive p t2 t3 t4 s
  | .timingSend => Sys2Proof.Machine.execTimingSend s
  | .timingReceive p m rxSec rxNs => Sys2Proof.Machine.execTimingReceive p m rxSec rxNs s
  | .requestReceive p m => Sys2Proof.Machine.execRequestReceive p m s
  | .receiptReceive p w tag refused => Sys2Proof.Machine.execReceiptReceive p w tag refused s
  | .relayRetry w => Sys2Proof.Machine.execRelayRetry w s
  | .relayUnreachableTimeout w => Sys2Proof.Machine.execRelayUnreachableTimeout w s
  | .responseReceive p m => Sys2Proof.Machine.execResponseReceive p m s
  | .respAckReceive p tag epoch => Sys2Proof.Machine.execRespAckReceive p tag epoch s
  | .responseResend => Sys2Proof.Machine.execResponseResend s
  | .eventReceive p m => Sys2Proof.Machine.execEventReceive p m s
  | .pmReceive p m => Sys2Proof.Machine.execPmReceive p m s
  | .streamAckReceive p type seq => Sys2Proof.Machine.execStreamAckReceive p type seq s
  | .streamResend => Sys2Proof.Machine.execStreamResend s
  | .protectReceive m => Sys2Proof.Machine.execProtectReceive m s
  | .protectSend pair => Sys2Proof.Machine.execProtectSend pair s
  | .protectWtrExpiry pair => Sys2Proof.Machine.execProtectWtrExpiry pair s
  | .protectPartner pair => Sys2Proof.Machine.execProtectPartner pair s
  | .engineFailed e => Sys2Proof.Machine.execEngineFailed e s
  | .engineFailover e => Sys2Proof.Machine.execEngineFailover e s
  | .engineCheckpoint e => Sys2Proof.Machine.execEngineCheckpoint e s
  | .captureTrigger src => Sys2Proof.Machine.execCaptureTrigger src s
  | .capturePostDone => Sys2Proof.Machine.execCapturePostDone s
  | .captureEndEarly reason => Sys2Proof.Machine.execCaptureEndEarly reason s
  | .patternLock kind idx errs => Sys2Proof.Machine.execPatternLock kind idx errs s
  | .timingFallback c => Sys2Proof.Machine.execTimingFallback c s
  | .busTransferDone bus status bytes => Sys2Proof.Machine.execBusTransferDone bus status bytes s
  | .busStuckRelease bus => Sys2Proof.Machine.execBusStuckRelease bus s
  | .waitSignalTimeout c => Sys2Proof.Machine.execWaitSignalTimeout c s
  | .ringTimingTimeout => Sys2Proof.Machine.execRingTimingTimeout s
  | .perstNDeassert => Sys2Proof.Machine.execPerstNDeassert s
  | .controllerRestartDone => Sys2Proof.Machine.execControllerRestartDone s
  | .holdoverReady => Sys2Proof.Machine.execHoldoverReady s

end Sys2Proof.Machine
end

