-- ==== Sys2Proof/Machine/Step.lean ====
section
/-! DEFINITION. One step of the block: the command at the front of its queue, or on an empty queue one tick of its clock. -/

namespace Sys2Proof.Machine

/-- One step: exec of the command at the front with the queue's rest; on an empty queue 1 ns passes (DESIGN CHOICE, log 2). [log 1 DESIGN CHOICE, 2 DESIGN CHOICE] -/
def step (s : State) : Host.Outcome State Fault Refusal :=
  match s.pending with
  | [] => .next (idle s)
  | c :: rest => exec c { s with pending := rest }

/-- The state with the command that a table word spells put at the front of its queue; no row of the table gives bits, so
no word spells a command. [log 5 DEDUCED] -/
def State.withFetchWord (s : State) (nbits w : Nat) : State :=
  match decodeTableWord nbits w with
  | some c => { s with pending := c :: s.pending }
  | none => s

end Sys2Proof.Machine
end

