-- ==== Sys2Proof/WellFormed.lean ====
section
/-! DEFINITION. Which commands are well formed: every operand within the range its rule gives it. -/

namespace Sys2Proof

/-- A packet's fields fit the widths of R380, and its parameters at most 4,080 bytes. -/
def Packet.wf (p : Packet) : Bool :=
  decide (p.tag < 65536) && decide (p.target < 256) && decide (p.flags < 256) && decide (p.tenant < 4294967296)
    && decide (p.params.length ≤ 4080)

/-- An access lies in its BAR (R410): BAR0 64 KiB, BAR2 4 KiB. -/
def Access.wf (a : Access) : Bool := decide (a.offset < if a.bar2 then 4096 else 65536)

/-- Cells of host memory hold 64-bit addresses (R417). -/
def hostCellsWf (l : List Host.Cell) : Bool := l.all fun c => decide (c.1 < 18446744073709551616)

/-- Every number of a list lies below a bound. -/
def below (n : Nat) (l : List Nat) : Bool := l.all fun x => decide (x < n)

/-- A scrub target: a Dome stack, or 16 plus an on-die region (R346). -/
def targetWf (t : Nat) : Bool := decide (t < 2) || (decide (16 ≤ t) && decide (t < 30))

/-- A ring message has the field widths of R444. -/
def RingMsg.wf (m : RingMsg) : Bool :=
  decide (m.type < 256) && decide (m.src < 256) && decide (m.dst < 256) && decide (m.hops < 256) && decide (m.epoch < 65536)
    && decide (m.tag < 65536) && decide (m.body.length ≤ 4128)

/-- An AGC window holds as many 8-bit codes of each of the four channels (R65, R69). -/
def AgcObs.wf (o : AgcObs) : Bool :=
  o.codes.length == 4 && o.codes.all fun l => l.length == (o.codes.headD []).length && l.all fun x => decide (-128 ≤ x) && decide (x ≤ 127)

/-- A group has 64 symbols and 65 tap places (R29, R101). -/
def GroupObs.wf (o : GroupObs) : Bool := o.samples.length == 64 && o.first.length == 64 && decide (o.centroid ≤ 1024)

/-- A lane adapts 5 items (R182). -/
def LaneObs.wf (o : LaneObs) : Bool := decide (o.item < 5)

/-- The object of a host-side defect exists (R178, R196). -/
def HostScope.wf : HostScope → Bool
  | .lane n => decide (n < 40)
  | .phy n marks => decide (n < 40) && decide (marks.length ≤ 32)
  | .group n => decide (n < 16)
  | .client t => decide (t < 1024)

/-- The place of a FIFO exists (R468). -/
def FifoRef.wf : FifoRef → Bool
  | .store t => decide (t < 1024)
  | .phyTx p => decide (p < 40)
  | _ => true

/-- An SSM code has 4 bits (R352). -/
def FlexeOh.wf (o : FlexeOh) : Bool := o.ssm.all fun x => decide (x < 16)

/-- A line holds 64 bytes in 72 symbols (R328). -/
def LineOp.wf : LineOp → Bool
  | .write data => data.length == 64
  | .read flips => flips.all fun f => decide (f.1 < 72)

/-- A trigger names an event code or a pin that exists (R532). -/
def CapSource.wf : CapSource → Bool
  | .command => true
  | .event code => decide (code < 65536)
  | .gpio pin _ => decide (pin < 16)
  | .second _ => true
  | .defect _ mask => decide (mask < 256)

/-- Every operand of a command lies within its range. -/
def Instr.wf : Instr → Bool
  | .nop pk => pk.wf
  | .fence pk => pk.wf
  | .getIdentity pk => pk.wf
  | .getQueueStatus pk => pk.wf
  | .resetQueue pk => pk.wf
  | .setQueueConfig pk => pk.wf
  | .setMode pk => pk.wf
  | .setDomains pk => pk.wf
  | .getPowerStatus pk => pk.wf
  | .setSupervision pk => pk.wf
  | .clearPairFault pk => pk.wf
  | .setLinePlan pk => pk.wf
  | .getLinePlan pk => pk.wf
  | .setTxShaping pk => pk.wf
  | .setTxCorrection pk => pk.wf
  | .setTxOutput pk => pk.wf
  | .setTxState pk => pk.wf
  | .getTxStatus pk => pk.wf
  | .setRxFrontEnd pk => pk.wf
  | .getRxStatus pk => pk.wf
  | .setCalControl pk => pk.wf
  | .getCalStatus pk => pk.wf
  | .setMonitor pk => pk.wf
  | .monitorControl pk => pk.wf
  | .runToneSearch pk => pk.wf
  | .setRxDsp pk => pk.wf
  | .restartAcquisition pk => pk.wf
  | .getChannelEstimates pk => pk.wf
  | .setFec pk => pk.wf
  | .setFecDefects pk => pk.wf
  | .getFecStatus pk => pk.wf
  | .setFrameConfig pk => pk.wf
  | .getFrameStatus pk => pk.wf
  | .setCalendar pk => pk.wf
  | .swapCalendar pk => pk.wf
  | .getCalendar pk => pk.wf
  | .setTenantControl pk => pk.wf
  | .getTenantStatus pk => pk.wf
  | .setSkewConfig pk => pk.wf
  | .setMergeConfig pk => pk.wf
  | .getSkewStatus pk => pk.wf
  | .getMergeStatus pk => pk.wf
  | .setPmConfig pk => pk.wf
  | .setPmThresholds pk => pk.wf
  | .setPmProfile pk => pk.wf
  | .getPmCurrent pk => pk.wf
  | .getPmHistory pk => pk.wf
  | .getLinkQuality pk => pk.wf
  | .establishKek pk => pk.wf
  | .loadKey pk => pk.wf
  | .generateKey pk => pk.wf
  | .rotateKey pk => pk.wf
  | .eraseKey pk => pk.wf
  | .setTenantCipher pk => pk.wf
  | .getKeyStatus pk => pk.wf
  | .getTurretStatus pk => pk.wf
  | .setMemoryConfig pk => pk.wf
  | .getMemoryStatus pk => pk.wf
  | .getCeLog pk => pk.wf
  | .setRemap pk => pk.wf
  | .repairRow pk => pk.wf
  | .setRefConfig pk => pk.wf
  | .setDpllConfig pk => pk.wf
  | .setSelection pk => pk.wf
  | .stepPhase pk => pk.wf
  | .setTime pk => pk.wf
  | .setTodConfig pk => pk.wf
  | .getTimingStatus pk => pk.wf
  | .getTime pk => pk.wf
  | .setLearning pk => pk.wf
  | .setRingRole pk => pk.wf
  | .assignWorker pk => pk.wf
  | .getRingStatus pk => pk.wf
  | .getOutcome pk => pk.wf
  | .setRingProtect pk => pk.wf
  | .getRingProtect pk => pk.wf
  | .setCounter pk => pk.wf
  | .grantCounters pk => pk.wf
  | .setBwWindow pk => pk.wf
  | .readCounters pk => pk.wf
  | .getPcieStatus pk => pk.wf
  | .setLoop pk => pk.wf
  | .setLinePattern pk => pk.wf
  | .setLanePattern pk => pk.wf
  | .setTenantPattern pk => pk.wf
  | .getPatternStatus pk => pk.wf
  | .startCapture pk => pk.wf
  | .triggerCapture pk => pk.wf
  | .stopCapture pk => pk.wf
  | .busTransfer pk => pk.wf
  | .fwPrepare pk => pk.wf
  | .fwVerify pk => pk.wf
  | .fwActivate pk => pk.wf
  | .fwCommit pk => pk.wf
  | .getFwStatus pk => pk.wf
  | .getJournalStatus pk => pk.wf
  | .setHostQuad pk => pk.wf
  | .setHostLaneTx pk => pk.wf
  | .setHostPhy pk => pk.wf
  | .setClient pk => pk.wf
  | .setFlexeGroup pk => pk.wf
  | .setFlexeCalendar pk => pk.wf
  | .switchFlexeCalendar pk => pk.wf
  | .getHostStatus pk => pk.wf
  | .getClientStatus pk => pk.wf
  | .invalidPacket _ bytes => decide (bytes.length ≤ 4096)
  | .relayRequest _ bytes => decide (bytes.length ≤ 4096)
  | .qdataWrite _ _ _ => true
  | .queueWriteResume _ => true
  | .qend _ len _ => decide (len < 8192)
  | .twiQdataWrite _ _ => true
  | .twiQendWrite bytes => decide (bytes.length ≤ 4096)
  | .twiRspRead => true
  | .twiStretchExpiry => true
  | .responseWrite _ => true
  | .pointerWindowClose _ _ => true
  | .fenceComplete _ => true
  | .controllerMismatch => true
  | .configRequest _ => true
  | .functionLevelReset => true
  | .perstNAssert => true
  | .pcieLink speed width => decide (speed < 16) && decide (width < 33)
  | .qrspSizeWrite _ _ => true
  | .qrspHeadWrite _ _ => true
  | .evtSizeWrite _ => true
  | .evtHeadWrite _ => true
  | .evtLostRead => true
  | .msixUnmask vector => decide (vector < 22)
  | .dmaDoorbell ch host _ => decide (ch < 16) && hostCellsWf host
  | .dmaAbort ch => decide (ch < 16)
  | .dmaCplHeadWrite ch _ => decide (ch < 16)
  | .cntSnapshot _ => true
  | .cntOvfClear idx _ => decide (idx < 4)
  | .bwPeakRead port _ _ => decide (port < 63)
  | .counterLowRead _ offset => decide (offset < 65536)
  | .violationClear _ => true
  | .bar2CounterRead offset _ => decide (offset < 1024)
  | .violation acc => acc.wf
  | .registerWrite offset _ => decide (offset < 65536)
  | .dmaBurst host _ _ => hostCellsWf host
  | .receiveFlushTimeout ch => decide (ch < 16)
  | .eventRingWrite => true
  | .counterWrap idx _ => decide (idx < 128)
  | .bwWindowEnd port => decide (port < 63)
  | .poresetNAssert => true
  | .poresetNDeassert => true
  | .firmwareVerified _ => true
  | .ready => true
  | .localOscWindowEnd _ => true
  | .localOscEdgeLoss => true
  | .railWarn rail mv => decide (rail < 9) && decide (mv < 65536)
  | .railWarnClear rail mv => decide (rail < 9) && decide (mv < 65536)
  | .railReset rail mv => decide (rail < 9) && decide (mv < 65536)
  | .domainReturnStart rail => decide (rail < 9)
  | .domainPllLock dom => decide (dom < 32)
  | .domainInitDone dom => decide (dom < 32)
  | .fifoMismatch dom fifo => decide (dom < 32) && fifo.wf
  | .fifoWindowClose dom => decide (dom < 32)
  | .modeAnnounce => true
  | .modeBoundary => true
  | .rampDownDone => true
  | .txsafeAssert _ => true
  | .txsafeDeassert _ => true
  | .pairFault => true
  | .settleExpiry _ => true
  | .pfailNAssert => true
  | .pfailNDeassert => true
  | .tempSample readings => readings.length == 24
  | .journalWrite => true
  | .flashOperationDone found => match found with
    | some l => decide (l.length ≤ 4080)
    | none => true
  | .fwSlotErased => true
  | .fwVerifyDone => true
  | .fwControllerSwitch => true
  | .fwClusterSwitch cluster => decide (cluster < 12)
  | .superframeTransmit _ _ => true
  | .txClipInterval _ dac => decide (dac < 4)
  | .linePlanApplyDone _ => true
  | .agcWindow _ obs => obs.wf
  | .agcSettleFail _ => true
  | .agcLimit _ => true
  | .rxClipInterval _ adc => decide (adc < 4)
  | .overlapSaveBlock _ _ => true
  | .symbolGroupReceive _ obs => obs.wf
  | .monitorRecordClose _ ch => decide (ch < 4)
  | .toneSweepDone _ bins => bins.all fun b => b.length == 16
  | .calWindowClose _ item _ => decide (item < 9)
  | .calApply _ item => decide (item < 9)
  | .txCalApply _ => true
  | .txCalTimeout _ => true
  | .foregroundCalDone _ values => values.length == 6
  | .foregroundCalRepeat _ => true
  | .calDeferred _ => true
  | .cdScanDone _ _ => true
  | .freqCoarseDone _ _ => true
  | .timingAcquired _ _ => true
  | .eqConverged _ _ _ => true
  | .sfSyncFound _ _ _ => true
  | .freqFineDone _ _ => true
  | .locked _ _ => true
  | .acquisitionTimeout _ => true
  | .warmPathTimeout _ => true
  | .lossOfLock _ _ => true
  | .eqSingularCheck _ _ _ => true
  | .eqLimit _ _ => true
  | .xtalkFallback _ _ => true
  | .xtalkResume _ => true
  | .spacingErr => true
  | .turboPass _ _ pass => decide (pass < 3)
  | .superframeReceive _ => true
  | .ldpcBlockEnter _ => true
  | .decoderIterationPeriod _ => true
  | .blockLeave _ => true
  | .fullHuntDone _ => true
  | .fecDegWindow _ => true
  | .fecFailWindow _ => true
  | .fecThrottle _ => true
  | .frameTransmit => true
  | .frameReceive _ => true
  | .flywheelTick _ => true
  | .losDeclare _ => true
  | .losClear _ => true
  | .multiframeBoundaryRx _ => true
  | .calendarSwapBoundary => true
  | .pointerPeriodTransmit tenant l => decide (tenant < 1024) && l.all fun b => decide (b.payload.length = 64)
  | .tcFreqOffsetWindow tenant _ => decide (tenant < 1024)
  | .pointerPeriodReceive tenant => decide (tenant < 1024)
  | .tagCheckResult tenant => decide (tenant < 1024)
  | .laneForegroundAdaptDone lane _ => decide (lane < 40)
  | .laneAdaptWindow lane obs => decide (lane < 40) && obs.wf
  | .laneAdaptApply lane => decide (lane < 40)
  | .hostDefect scope declared indications => scope.wf && decide (declared < 65536) && decide (indications < 65536)
  | .rsFecCodeword phy l => decide (phy < 40) && decide (l.length ≤ 8) && l.all fun x => x.all fun v => decide (v < 4)
  | .flexeOverheadFrameRx phy oh => decide (phy < 40) && oh.wf
  | .flexeMultiframeBoundary group => decide (group < 16)
  | .flexeCaTimeout group => decide (group < 16)
  | .esmcTimeout group => decide (group < 16)
  | .esmcInfoPdu group => decide (group < 16)
  | .skewUpdate _ => true
  | .scheduleFrameRead fc _ _ => decide (fc < 16777216)
  | .excessEnd => true
  | .mergeFrameSelect fc => decide (fc < 16777216)
  | .legQualificationHoldExpiry _ => true
  | .mergeWtrExpiry => true
  | .pmSecondEnd _ _ _ _ => true
  | .pmSecondSettle => true
  | .pmBinClose => true
  | .framerCipherRequest tenant _ _ => decide (tenant < 1024)
  | .domeCipherRequest sector _ data => decide (sector < 2097152) && data.length == 4096
  | .domeSectorTimeout sector => decide (sector < 2097152)
  | .pipeFenced pipe => decide (pipe < 128)
  | .keepEccError slot reg _ => decide (slot < 1056) && decide (reg < 2)
  | .keyRotated tenant fc => decide (tenant < 1024) && decide (fc < 16777216)
  | .kekEstablished => true
  | .keyGenerated tenant => decide (tenant < 1024)
  | .entropyTimeout => true
  | .trngHealthFail _ => true
  | .trngRetest _ => true
  | .maskRekey => true
  | .domeStackReady stack failing => decide (stack < 2) && below 67108864 failing
  | .domeLineOperation stack addr op => decide (stack < 2) && decide (addr < 67108864) && op.wf
  | .domeRefresh stack _ => decide (stack < 2)
  | .scrubVisit target _ _ => targetWf target
  | .scrubPassStart target => targetWf target
  | .scrubLate target => targetWf target
  | .sramUncorrectable region _ _ => decide (region < 14)
  | .rowRepairDone failed => below 16 failed
  | .refPhaseMeasure ref _ _ => decide (ref < 10)
  | .refFreqCheck ref => decide (ref < 10)
  | .refSignalChange ref _ => decide (ref < 10)
  | .refWtrExpiry ref => decide (ref < 10)
  | .holdOffExpiry => true
  | .selectionEvaluation => true
  | .dpllLock => true
  | .lockFail => true
  | .holdoverCorrectionUpdate _ => true
  | .learningSample _ _ => true
  | .modelUpdate => true
  | .modelJournal => true
  | .slewDone => true
  | .todSecond => true
  | .setTimeEdgeTimeout => true
  | .ppsInEdge _ => true
  | .ppsLoss => true
  | .ringSignalDetect _ => true
  | .ringAlignDone _ => true
  | .ringAlignTimeout _ => true
  | .ringStepStart _ => true
  | .ringStepEnd _ _ => true
  | .ringLink _ _ => true
  | .ringMessageForward _ l => decide (l.length ≤ 4148)
  | .ringStatusReceive _ m => m.wf
  | .managerResume => true
  | .workerLeft w => decide (w < 16)
  | .workerReachabilityTimeout w _ => decide (w < 16)
  | .rosterReceive m => m.wf
  | .negReceive _ ceil => decide (ceil < 8)
  | .statusSend => true
  | .rosterSend => true
  | .delayExchange _ t1 => decide (t1 < 18446744073709551616)
  | .delayReqReceive _ t2 t3 => decide (t2 < 18446744073709551616) && decide (t3 < 18446744073709551616)
  | .delayRespReceive _ t2 t3 t4 => decide (t2 < 18446744073709551616) && decide (t3 < 18446744073709551616) && decide (t4 < 18446744073709551616)
  | .timingSend => true
  | .timingReceive _ m rxSec rxNs => m.wf && decide (rxSec < 281474976710656) && decide (rxNs < 1000000000)
  | .requestReceive _ m => m.wf
  | .receiptReceive _ w tag _ => decide (w < 16) && decide (tag < 65536)
  | .relayRetry w => decide (w < 16)
  | .relayUnreachableTimeout w => decide (w < 16)
  | .responseReceive _ m => m.wf
  | .respAckReceive _ tag epoch => decide (tag < 65536) && decide (epoch < 65536)
  | .responseResend => true
  | .eventReceive _ m => m.wf
  | .pmReceive _ m => m.wf
  | .streamAckReceive _ type seq => decide (type < 256) && decide (seq < 4294967296)
  | .streamResend => true
  | .protectReceive m => m.wf
  | .protectSend pair => decide (pair < 32)
  | .protectWtrExpiry pair => decide (pair < 32)
  | .protectPartner pair => decide (pair < 32)
  | .engineFailed e => decide (e < 192)
  | .engineFailover e => decide (e < 192)
  | .engineCheckpoint e => decide (e < 192)
  | .captureTrigger src => src.wf
  | .capturePostDone => true
  | .captureEndEarly reason => decide (reason < 6)
  | .patternLock kind idx _ => decide (kind < 4) && decide (idx < 1024)
  | .timingFallback _ => true
  | .busTransferDone bus status bytes => decide (bus < 2) && decide (status < 256) && decide (bytes.length ≤ 4096)
  | .busStuckRelease bus => decide (bus < 2)
  | .waitSignalTimeout _ => true
  | .ringTimingTimeout => true
  | .perstNDeassert => true
  | .controllerRestartDone => true
  | .holdoverReady => true

end Sys2Proof
end

