-- ==== Sys2Proof/Safety.lean ====
section
/-! DEFINITION. What a safe state of the block is, and when a command that reaches the front of the block's queue starts, in the terms
that the statements use. -/

namespace Sys2Proof.Machine

/-! Safe states. -/

/-- A carrier of the line plan is unused, or its values lie in the ranges of R27, R28, R33 and R34: n from 1 to 8, a format
code, H x 64 in the range of the format, Rs x 256 from 15,360 to 86,016, a mean fill from 0 to 3.5 blocks. -/
def PlanInRange (p : CarrierPlan) : Prop :=
  p = {} ∨
    (1 ≤ p.n ∧ p.n ≤ 8 ∧ p.fmt ≤ 4 ∧ (hRange p.fmt).1 ≤ p.h64 ∧ p.h64 ≤ (hRange p.fmt).2 ∧
      15360 ≤ p.rs256 ∧ p.rs256 ≤ 86016 ∧ codedNum p.n ≤ shapingDen p.h64 p.rs256 ∧
      504 * shapingDen p.h64 p.rs256 ≤ 7 * shapingDen p.h64 p.rs256 + 504 * codedNum p.n)

/-- Spacing and fibre agree (R36, R41): no spacing where a carrier is unused or the fibres differ, 60 to 2,000 GHz on a
shared fibre. -/
def FibreAgrees (a b : CarrierPlan) (spacing : Int) (fibre : Nat) : Prop :=
  (spacing = 0 ∧ fibre = 0) ∨
    (a ≠ {} ∧ b ≠ {} ∧ fibre = 1 ∧ 15360 ≤ spacing.natAbs ∧ spacing.natAbs ≤ 512000)

/-- The held line plan obeys the rules that a stored plan obeys in every mode (R41, reasons 1 to 6 and 8). -/
def PlanOk (s : State) : Prop :=
  PlanInRange s.plan.car.a ∧ PlanInRange s.plan.car.b ∧
    FibreAgrees s.plan.car.a s.plan.car.b s.plan.spacing s.plan.fibre

/-- The lines of both Dome stacks are in canonical form: keys strictly rising, no entry equal to what an unlisted line reads
as. -/
def Memory.wf (m : Memory) : Bool := tblWf none m.d0.lines && tblWf none m.d1.lines

/-- The memory that the block addresses, its Dome and the host's, is in canonical form. -/
def memoryOk (s : State) : Bool := s.mem.wf && tblWf 0 s.hostMem

/-- The state with queues, events, endpoint, counters, status page, ring and host memory left out. -/
def outer (s : State) : State :=
  { s with swiys := {}, ev := {}, pcie := {}, cnt := {}, page := {}, ring := {}, hostMem := [] }

/-- The level of a TXSAFE input that the device holds. -/
def safeLevel (c : Carrier) (s : State) : Bool := match c with
  | .a => s.pins.safeA
  | .b => s.pins.safeB

/-- The line side takes a command (R22, R24): the mode is not DORMANT and no transition runs. -/
abbrev modeOpen (s : State) : Prop := s.mode.cur ≠ .dormant ∧ s.mode.trans = none

/-! The start of a command. -/

/-- The packet as its queue holds it: its bytes, with the submission count it takes (R387). -/
def waitPk (op : Nat) (pk : Packet) (s : State) : WaitPk := ⟨packetBytes op pk, s.swiys.subCount⟩

/-- The state with the packet submitted to its queue. -/
def submitted (op : Nat) (pk : Packet) (s : State) : State := submit pk.queue (packetBytes op pk) s

/-- The state in which the packet has started: it has left the waiting packets of its queue. -/
def begun (op : Nat) (pk : Packet) (s : State) : State := takeHead pk.queue (waitPk op pk s) (submitted op pk s)

/-- The started command's reference: its queue and its submission count. -/
def refOf (pk : Packet) (s : State) : Ref := ⟨pk.queue, s.swiys.subCount⟩

/-- What the started command sees. -/
def ctxOf (pk : Packet) (s : State) : Ctx := ⟨pk, refOf pk s⟩

/-- The packet is chosen as soon as it is submitted (R395) and reaches the checks of step 7 of R382: its queue is empty and takes it,
the controller chooses its queue, the header checks pass, and it names this device. -/
def reaches (op : Nat) (pk : Packet) (s : State) : Bool :=
  pk.queue != .relay && pk.target == 0 && (qget s pk.queue).waiting == []
    && (qget (submitted op pk s) pk.queue).waiting == [waitPk op pk s]
    && chosen (submitted op pk s) == some pk.queue
    && headerStatus (packetBytes op pk) (begun op pk s) == stOk

/-- The packet starts: it reaches step 7, and neither R486 nor R488 holds its group back. -/
def starts (op : Nat) (pk : Packet) (s : State) : Bool := reaches op pk s && gateStatus op s == stOk

/-- The started command has ended with OK and a result: its final record is written, or waits for room. -/
def endsOk (pk : Packet) (res : List Byte) (s t : State) : State := complete (refOf pk s) stOk res t

/-- The started command has answered ACCEPTED. -/
def accepts (pk : Packet) (s t : State) : State := acceptFrom 0 (refOf pk s) t

/-- The started command has been refused with a status. -/
def refusedWith (st : Nat) (pk : Packet) (s t : State) : State := complete (refOf pk s) st [] t

/-- The command packets of the opcode table: opcode, packet, and the checks of step 7 of R382 that the command's own chapter
states. -/
def commandOf (i : Instr) : Option (Nat × Packet × (Ctx → State → Nat)) :=
  match i with
  | .nop pk => some (0x0000, pk, checkNop)
  | .fence pk => some (0x0001, pk, checkFence)
  | .getIdentity pk => some (0x0002, pk, checkGetIdentity)
  | .getQueueStatus pk => some (0x0003, pk, checkGetQueueStatus)
  | .resetQueue pk => some (0x0004, pk, checkResetQueue)
  | .setQueueConfig pk => some (0x0005, pk, checkSetQueueConfig)
  | .setMode pk => some (0x0101, pk, checkSetMode)
  | .setDomains pk => some (0x0102, pk, checkSetDomains)
  | .getPowerStatus pk => some (0x0103, pk, checkGetPowerStatus)
  | .setSupervision pk => some (0x0104, pk, checkSetSupervision)
  | .clearPairFault pk => some (0x0105, pk, checkClearPairFault)
  | .setLinePlan pk => some (0x0201, pk, checkSetLinePlan)
  | .getLinePlan pk => some (0x0202, pk, checkGetLinePlan)
  | .setTxShaping pk => some (0x0210, pk, checkSetTxShaping)
  | .setTxCorrection pk => some (0x0211, pk, checkSetTxCorrection)
  | .setTxOutput pk => some (0x0212, pk, checkSetTxOutput)
  | .setTxState pk => some (0x0213, pk, checkSetTxState)
  | .getTxStatus pk => some (0x0214, pk, checkGetTxStatus)
  | .setRxFrontEnd pk => some (0x0220, pk, checkSetRxFrontEnd)
  | .getRxStatus pk => some (0x0221, pk, checkGetRxStatus)
  | .setCalControl pk => some (0x0222, pk, checkSetCalControl)
  | .getCalStatus pk => some (0x0223, pk, checkGetCalStatus)
  | .setMonitor pk => some (0x0224, pk, checkSetMonitor)
  | .monitorControl pk => some (0x0225, pk, checkMonitorControl)
  | .runToneSearch pk => some (0x0226, pk, checkRunToneSearch)
  | .setRxDsp pk => some (0x0230, pk, checkSetRxDsp)
  | .restartAcquisition pk => some (0x0231, pk, checkRestartAcquisition)
  | .getChannelEstimates pk => some (0x0232, pk, checkGetChannelEstimates)
  | .setFec pk => some (0x0301, pk, checkSetFec)
  | .setFecDefects pk => some (0x0302, pk, checkSetFecDefects)
  | .getFecStatus pk => some (0x0303, pk, checkGetFecStatus)
  | .setFrameConfig pk => some (0x0401, pk, checkSetFrameConfig)
  | .getFrameStatus pk => some (0x0402, pk, checkGetFrameStatus)
  | .setCalendar pk => some (0x0410, pk, checkSetCalendar)
  | .swapCalendar pk => some (0x0411, pk, checkSwapCalendar)
  | .getCalendar pk => some (0x0412, pk, checkGetCalendar)
  | .setTenantControl pk => some (0x0413, pk, checkSetTenantControl)
  | .getTenantStatus pk => some (0x0414, pk, checkGetTenantStatus)
  | .setSkewConfig pk => some (0x0501, pk, checkSetSkewConfig)
  | .setMergeConfig pk => some (0x0502, pk, checkSetMergeConfig)
  | .getSkewStatus pk => some (0x0503, pk, checkGetSkewStatus)
  | .getMergeStatus pk => some (0x0504, pk, checkGetMergeStatus)
  | .setPmConfig pk => some (0x0601, pk, checkSetPmConfig)
  | .setPmThresholds pk => some (0x0602, pk, checkSetPmThresholds)
  | .setPmProfile pk => some (0x0603, pk, checkSetPmProfile)
  | .getPmCurrent pk => some (0x0604, pk, checkGetPmCurrent)
  | .getPmHistory pk => some (0x0605, pk, checkGetPmHistory)
  | .getLinkQuality pk => some (0x0606, pk, checkGetLinkQuality)
  | .establishKek pk => some (0x0701, pk, checkEstablishKek)
  | .loadKey pk => some (0x0702, pk, checkLoadKey)
  | .generateKey pk => some (0x0703, pk, checkGenerateKey)
  | .rotateKey pk => some (0x0704, pk, checkRotateKey)
  | .eraseKey pk => some (0x0705, pk, checkEraseKey)
  | .setTenantCipher pk => some (0x0706, pk, checkSetTenantCipher)
  | .getKeyStatus pk => some (0x0707, pk, checkGetKeyStatus)
  | .getTurretStatus pk => some (0x0708, pk, checkGetTurretStatus)
  | .setMemoryConfig pk => some (0x0801, pk, checkSetMemoryConfig)
  | .getMemoryStatus pk => some (0x0802, pk, checkGetMemoryStatus)
  | .getCeLog pk => some (0x0803, pk, checkGetCeLog)
  | .setRemap pk => some (0x0804, pk, checkSetRemap)
  | .repairRow pk => some (0x0805, pk, checkRepairRow)
  | .setRefConfig pk => some (0x0901, pk, checkSetRefConfig)
  | .setDpllConfig pk => some (0x0902, pk, checkSetDpllConfig)
  | .setSelection pk => some (0x0903, pk, checkSetSelection)
  | .stepPhase pk => some (0x0904, pk, checkStepPhase)
  | .setTime pk => some (0x0905, pk, checkSetTime)
  | .setTodConfig pk => some (0x0906, pk, checkSetTodConfig)
  | .getTimingStatus pk => some (0x0907, pk, checkBelPlain)
  | .getTime pk => some (0x0908, pk, checkBelPlain)
  | .setLearning pk => some (0x0909, pk, checkSetLearning)
  | .setRingRole pk => some (0x0A01, pk, checkSetRingRole)
  | .assignWorker pk => some (0x0A02, pk, checkAssignWorker)
  | .getRingStatus pk => some (0x0A03, pk, checkGetRingStatus)
  | .getOutcome pk => some (0x0A04, pk, checkGetOutcome)
  | .setRingProtect pk => some (0x0A05, pk, checkSetRingProtect)
  | .getRingProtect pk => some (0x0A06, pk, checkGetRingProtect)
  | .setCounter pk => some (0x0B01, pk, checkSetCounter)
  | .grantCounters pk => some (0x0B02, pk, checkGrantCounters)
  | .setBwWindow pk => some (0x0B03, pk, checkSetBwWindow)
  | .readCounters pk => some (0x0B04, pk, checkReadCounters)
  | .getPcieStatus pk => some (0x0B05, pk, checkGetPcieStatus)
  | .setLoop pk => some (0x0C01, pk, checkSetLoop)
  | .setLinePattern pk => some (0x0C02, pk, checkSetLinePattern)
  | .setLanePattern pk => some (0x0C03, pk, checkSetLanePattern)
  | .setTenantPattern pk => some (0x0C04, pk, checkSetTenantPattern)
  | .getPatternStatus pk => some (0x0C05, pk, checkGetPatternStatus)
  | .startCapture pk => some (0x0C06, pk, checkStartCapture)
  | .triggerCapture pk => some (0x0C07, pk, checkTriggerCapture)
  | .stopCapture pk => some (0x0C08, pk, checkStopCapture)
  | .busTransfer pk => some (0x0C09, pk, checkBusTransfer)
  | .fwPrepare pk => some (0x0D01, pk, checkFwPrepare)
  | .fwVerify pk => some (0x0D02, pk, checkFwVerify)
  | .fwActivate pk => some (0x0D03, pk, checkFwActivate)
  | .fwCommit pk => some (0x0D04, pk, checkFwCommit)
  | .getFwStatus pk => some (0x0D05, pk, checkGetFwStatus)
  | .getJournalStatus pk => some (0x0D06, pk, checkGetJournalStatus)
  | .setHostQuad pk => some (0x0E01, pk, checkSetHostQuad)
  | .setHostLaneTx pk => some (0x0E02, pk, checkSetHostLaneTx)
  | .setHostPhy pk => some (0x0E03, pk, checkSetHostPhy)
  | .setClient pk => some (0x0E04, pk, checkSetClient)
  | .setFlexeGroup pk => some (0x0E05, pk, checkSetFlexeGroup)
  | .setFlexeCalendar pk => some (0x0E06, pk, checkSetFlexeCalendar)
  | .switchFlexeCalendar pk => some (0x0E07, pk, checkSwitchFlexeCalendar)
  | .getHostStatus pk => some (0x0E08, pk, checkGetHostStatus)
  | .getClientStatus pk => some (0x0E09, pk, checkGetClientStatus)
  | _ => none

end Sys2Proof.Machine
end

