-- ==== Sys2Proof/Certificates/Slice0/Obligations.lean ====
section
/-! DEFINITION. The statements for the provers. Each says what a command or the whole block does, in terms of the state before it; the
commands of a group stand in one statement, one clause each. -/

open Sys2Proof Sys2Proof.Machine

/-! The command interface. -/

/-- Where each generic command completes (R402 to R407): NOP returns its parameters; FENCE waits with no record and holds its
queue; the status readers answer and change nothing but the counters that GET_QUEUE_STATUS clears; RESET_QUEUE of another
queue empties it and is OK; SET_QUEUE_CONFIG stores its three settings. -/
def Obligations.GenericCommandsComplete : Prop :=
  (∀ (pk : Packet) (s : State), starts 0x0000 pk s → pk.tenant = 0xFFFFFFFF →
    exec (.nop pk) s = .next (endsOk pk pk.params s (begun 0x0000 pk s))) ∧
  (∀ (pk : Packet) (s : State), starts 0x0001 pk s → plainLen 4 (ctxOf pk s) → u8 pk.params 0 < 16 → zeroAt pk.params 1 3 →
    exec (.fence pk) s = .next (qupd (begun 0x0001 pk s) pk.queue fun v =>
      { v with fence := some ⟨s.swiys.subCount, setBit (u8 pk.params 0) (queueNum pk.queue) true⟩ })) ∧
  (∀ (pk : Packet) (s : State), starts 0x0002 pk s → plainLen 0 (ctxOf pk s) →
    ∃ res, exec (.getIdentity pk) s = .next (endsOk pk res s (begun 0x0002 pk s)) ∧ res.length = 32 ∧ u16 res 0 = 0x1C5E ∧
      u16 res 2 = 0x6432 ∧ u8 res 21 = modeCode s.mode.cur ∧ u32 res 24 = uptime s % 2 ^ 32) ∧
  (∀ (pk : Packet) (s : State), starts 0x0003 pk s → plainLen 4 (ctxOf pk s) → u8 pk.params 0 ≤ 3 → zeroAt pk.params 1 3 →
    ∃ res, exec (.getQueueStatus pk) s = .next (endsOk pk res s (qupd (begun 0x0003 pk s) (queueOf (u8 pk.params 0)) fun v =>
        { v with corrected := 0, resets := 0, mismatches := 0, badCrc := 0, framing := 0, nacks := 0, unclosed := 0 })) ∧
      res.length = 40 ∧ u8 res 0 = u8 pk.params 0 ∧ u16 res 2 = qfree (begun 0x0003 pk s) (queueOf (u8 pk.params 0))) ∧
  (∀ (pk : Packet) (s : State), starts 0x0004 pk s → plainLen 4 (ctxOf pk s) → u8 pk.params 0 ≤ 3 → zeroAt pk.params 1 3 →
    queueOf (u8 pk.params 0) ≠ pk.queue →
    exec (.resetQueue pk) s =
      .next (endsOk pk [] s (resetQueue (queueOf (u8 pk.params 0)) 0 none (begun 0x0004 pk s)))) ∧
  (∀ (pk : Packet) (s : State), starts 0x0005 pk s → plainLen 4 (ctxOf pk s) → u8 pk.params 1 < 4 → zeroAt pk.params 2 2 →
    exec (.setQueueConfig pk) s = .next (endsOk pk [] s { begun 0x0005 pk s with
      swiys := { (begun 0x0005 pk s).swiys with
        stretch := u8 pk.params 0, alertQ3 := (u8 pk.params 1).testBit 0, ptrAlways := (u8 pk.params 1).testBit 1 }
      page := { (begun 0x0005 pk s).page with
        alertMask := setBit (begun 0x0005 pk s).page.alertMask 2 ((u8 pk.params 1).testBit 0) } }))

/-- Where the packet and two-wire events of the interface complete (R382, R386 to R393, R447): a failed header check is
answered with its status; a packet for a worker starts its relay; a word or a byte is appended to the open packet; QEND
closes it and QEND over the two-wire port too; a read of RSP takes one byte; a stretch that expires NACKs the byte. -/
def Obligations.PacketEventsComplete : Prop :=
  (∀ (q : QueueId) (l : List Byte) (s : State), (qget s q).waiting = [] →
    (qget (submit q l s) q).waiting = [⟨l, s.swiys.subCount⟩] → chosen (submit q l s) = some q →
    headerStatus l (submit q l s) ≠ stOk →
    exec (.invalidPacket q l) s = .next (refuseHeader ⟨q, s.swiys.subCount⟩ ⟨l, s.swiys.subCount⟩
      (headerStatus l (submit q l s)) (takeHead q ⟨l, s.swiys.subCount⟩ (submit q l s)))) ∧
  (∀ (q : QueueId) (l : List Byte) (s : State), (qget s q).waiting = [] →
    (qget (submit q l s) q).waiting = [⟨l, s.swiys.subCount⟩] → chosen (submit q l s) = some q →
    headerStatus l (submit q l s) = stOk → u8 l 4 ≠ 0 → q ≠ .relay →
    exec (.relayRequest q l) s = .next (relayStart (u8 l 4) l ⟨q, s.swiys.subCount⟩ none
      (takeHead q ⟨l, s.swiys.subCount⟩ (submit q l s)))) ∧
  (∀ (q : QueueId) (w : BitVec 32) (s : State), q ≠ .q3 → q ≠ .relay → s.swiys.stalled = [] →
    queuesOpen (countSrc 0x09 60 4 s) → lineRoom (countSrc 0x09 60 4 s) q →
    exec (.qdataWrite q w .clean) s = .next (qupd (countSrc 0x09 60 4 s) q fun v =>
      { v with openBytes := (v.openBytes ++ le 4 w.toNat).take 4096, openCount := v.openCount + 4 })) ∧
  (∀ (q : QueueId) (w : BitVec 32) (s : State), q ≠ .q3 → q ≠ .relay → s.swiys.stalled = [.qdata q w] → queuesOpen s →
    lineRoom s q →
    exec (.queueWriteResume q) s = .next (appendOpen q (le 4 w.toNat) { s with swiys := { s.swiys with stalled := [] } })) ∧
  (∀ (q : QueueId) (n : Nat) (s : State), q ≠ .q3 → q ≠ .relay → s.swiys.stalled = [] → queuesOpen (countSrc 0x09 60 4 s) →
    exec (.qend q n .clean) s = .next (closePacket q (n % 2 ^ 13) 4 (countSrc 0x09 60 4 s))) ∧
  (∀ (b : Byte) (s : State), queuesOpen s → s.swiys.twiHeld = none → lineRoom s .q3 →
    exec (.twiQdataWrite b .clean) s = .next (appendOpen .q3 [b] { s with swiys := { s.swiys with twiPtr := 1 } })) ∧
  (∀ (l : List Byte) (s : State), queuesOpen s → s.swiys.twiHeld = none → l.length = 2 →
    exec (.twiQendWrite l) s = .next (closePacket .q3 (leNat l) 1 { s with swiys := { s.swiys with twiPtr := 2 } })) ∧
  (∀ (b c : Byte) (l : List Byte) (r : List (List Byte)) (s : State), s.swiys.q3Buf = (b :: c :: l) :: r →
    exec .twiRspRead s = .next { s with
      swiys := { s.swiys with twiPtr := 3, q3Buf := (c :: l) :: r }
      page := { s.page with readData := b.toNat } }) ∧
  (∀ (h : TwiHeld) (t : Nat) (s : State), s.swiys.twiHeld = some h → s.swiys.twiLimit = some t → t ≤ s.now →
    exec .twiStretchExpiry s = .next (qupd { s with swiys := { s.swiys with twiHeld := none, twiLimit := none } } .q3
      fun v => { v with nacks := satAdd 32 v.nacks 1 }))

/-- Where the events of the response paths and of the queues complete (R385, R390, R397): a held record is written once it
has room; a pointer window closes, or finds a mismatch and resets the queue with cause 1; a FENCE whose condition holds is
answered OK and frees the head of its queue. -/
def Obligations.QueueEventsComplete : Prop :=
  (∀ (q : QueueId) (r : Rec) (l : List Rec) (s : State), (qget s q).hold = r :: l → writePad q r s = s → recordRoom q r s →
    exec (.responseWrite q) s = .next (writeRecord q r (qupd s q fun v => { v with hold := l }))) ∧
  (∀ (q : QueueId) (t : Nat) (s : State), (qget s q).window = some t →
    exec (.pointerWindowClose q false) s = .next (qupd (advanceTo t s) q fun v => { v with window := none }) ∧
    exec (.pointerWindowClose q true) s = .next (resetQueue q 1 none (advanceTo t s))) ∧
  (∀ (q : QueueId) (f : FenceWait) (s : State), (qget s q).fence = some f →
    (∀ p : QueueId, p ≠ .relay → f.mask.testBit (queueNum p) → fencePassed f (qget s p)) →
    (q = .relay → fencePassed f (qget s .relay)) →
    exec (.fenceComplete q) s = .next (complete ⟨q, f.sub⟩ stOk [] (qupd s q fun v => { v with fence := none })))

/-! The endpoint, its registers, the DMA engine and the counters. -/

/-- Where the endpoint events complete (R408 to R419, R436): a configuration request sets the bit it names once READY; resets
of the endpoint after READY; PERST_N deasserts; a change of link posts PCIE_LINK; EVT_LOST is read and cleared; a pending
vector is sent when unmasked; a violation is recorded; the violation record clears; a held event is written. -/
def Obligations.EndpointEventsComplete : Prop :=
  (∀ (v : Bool) (s : State), s.ctl.ready → s.pcie.perst = false →
    exec (.configRequest (.read 0)) s = .next { s with
      pcie := { s.pcie with retry := false, answerAt := none }
      page := { s.page with readData := 0x6432_1C5E } } ∧
    (∀ off : Nat, ∃ x t, exec (.configRequest (.read off)) s = .next t ∧ t.pcie = { s.pcie with retry := false, answerAt := none } ∧
      t.page = { s.page with readData := x } ∧ outer { t with free := s.free } = outer s) ∧
    exec (.configRequest (.busMaster v)) s =
      .next (sendAllPending { s with pcie := { s.pcie with retry := false, answerAt := none, busMaster := v } }) ∧
    exec (.configRequest (.msixEnable v)) s =
      .next (sendAllPending { s with pcie := { s.pcie with retry := false, answerAt := none, msixEnable := v } }) ∧
    exec (.configRequest (.msixMask v)) s =
      .next (sendAllPending { s with pcie := { s.pcie with retry := false, answerAt := none, msixMask := v } })) ∧
  (∀ s : State, s.ctl.ready → exec .functionLevelReset s = .next (endpointReset s)) ∧
  (∀ s : State, s.ctl.ready → s.pcie.perst = false →
    exec .perstNAssert s = .next (endpointReset { s with pcie := { s.pcie with perst := true, answerAt := none } })) ∧
  (∀ s : State, s.ctl.ready →
    exec .perstNDeassert s =
      .next { s with pcie := { s.pcie with perst := false, answerAt := some (s.now + 100 * msNs) } }) ∧
  (∀ (speed width : Nat) (s : State), speed ≠ s.pcie.speed → speed ≠ 0 →
    exec (.pcieLink speed width) s = .next (postEv 0x0B02 [speed, width] { s with
      pcie := { s.pcie with speed := speed, width := width, linkDowns := satAdd 16 s.pcie.linkDowns 0 } })) ∧
  (∀ s : State, exec .evtLostRead s = .next { countSrc 0x0A 60 4 s with
    page := { s.page with readData := s.ev.lost }
    ev := { s.ev with lost := 0, since := false } }) ∧
  (∀ (v : Nat) (s : State), v < 22 → s.swiys.stalled = [] →
    exec (.msixUnmask v) s = .next (sendPending v { countSrc 0x09 60 4 s with
      pcie := { (countSrc 0x09 60 4 s).pcie with
        msix := tupd {} (countSrc 0x09 60 4 s).pcie.msix v fun e => { e with ctrl := 0 } } })) ∧
  (∀ (a : Access) (s : State), accessOk s a = false → a.write = false →
    exec (.violation a) s = .next { violation (violationWord a) s with
      page := { (violation (violationWord a) s).page with readData := 0 } }) ∧
  (∀ (a : Access) (s : State), accessOk s a = false → a.write →
    exec (.violation a) s = .next (violation (violationWord a) s)) ∧
  (∀ (v : BitVec 32) (s : State), v.getLsbD 0 → s.swiys.stalled = [] →
    exec (.violationClear v) s = .next { countSrc 0x09 60 4 s with
      page := { (countSrc 0x09 60 4 s).page with violations := 0, last := 0 } }) ∧
  (∀ (e : EvRec) (l : List EvRec) (s : State), s.ev.hold = e :: l → eventRoom s →
    exec .eventRingWrite s = .next (writeEvent e { s with ev := { s.ev with hold := l } }))

/-- Where writes to rings, channels and counters complete (R413 to R426): a size configures an unconfigured ring, a valid head
is taken, a doorbell starts a stopped channel, an abort ends a descriptor with status 1, a snapshot latches all values, an
overflow bit clears; a burst moves bytes of the chosen channel; a RECEIVE descriptor is flushed. -/
def Obligations.RingAndDmaRowsComplete : Prop :=
  (∀ (q : QueueId) (v : BitVec 32) (s : State), q ≠ .q3 → q ≠ .relay → s.swiys.stalled = [] → (qget s q).ring.sizeLog = 0 →
    13 ≤ v.toNat % 32 → v.toNat % 32 ≤ 24 →
    exec (.qrspSizeWrite q v) s =
      .next (qupd (countSrc 0x09 60 4 s) q fun x => { x with ring := { x.ring with sizeLog := v.toNat % 32 } })) ∧
  (∀ (q : QueueId) (v : BitVec 32) (s : State), q ≠ .q3 → q ≠ .relay → s.swiys.stalled = [] → (qget s q).hold = [] →
    headValid 32 (v.toNat % 2 ^ 24) (qget s q).ring →
    exec (.qrspHeadWrite q v) s = .next (qupd (countSrc 0x09 60 4 s) q fun x =>
      { x with ring := { x.ring with head := v.toNat % 2 ^ 24, headErr := false } })) ∧
  (∀ (v : BitVec 32) (s : State), s.swiys.stalled = [] → s.ev.ring.sizeLog = 0 → 12 ≤ v.toNat % 32 → v.toNat % 32 ≤ 20 →
    exec (.evtSizeWrite v) s = .next { countSrc 0x09 60 4 s with
      ev := { s.ev with ring := { s.ev.ring with sizeLog := v.toNat % 32 } } }) ∧
  (∀ (v : BitVec 32) (s : State), s.swiys.stalled = [] → headValid 32 (v.toNat % 2 ^ 20) s.ev.ring →
    exec (.evtHeadWrite v) s = .next { countSrc 0x09 60 4 s with
      ev := { s.ev with ring := { s.ev.ring with head := v.toNat % 2 ^ 20, headErr := false } } }) ∧
  (∀ (c : Nat) (host : List Host.Cell) (s : State), c < 16 → s.swiys.stalled = [] → (chanGet s c).state ≠ 1 →
    (chanGet s c).state ≠ 2 → (chanGet s c).waits = false → (chanGet s c).needHead = false →
    exec (.dmaDoorbell c host false) s = .next (chanUpd c (fun x => { x with fetch := some x.head, state := 1 })
      (hostCells host (countSrc 0x09 60 4 s)))) ∧
  (∀ (c : Nat) (d : Desc) (s : State), c < 16 → s.swiys.stalled = [] → (chanGet s c).state = 1 ∨ (chanGet s c).state = 2 →
    (chanGet s c).desc = some d →
    exec (.dmaAbort c) s = .next (chanUpd c
      (fun x => { x with state := 3, desc := none, fetch := none, staged := [], moved := 0, flushAt := none, waits := false })
      (writeCompletion c 1 (d.length - (chanGet s c).moved) (recordCrc d (chanGet s c).crcReg) true (countSrc 0x09 60 4 s)))) ∧
  (∀ (c : Nat) (v : BitVec 32) (s : State), c < 16 → s.swiys.stalled = [] → headValid 16 (v.toNat % 2 ^ 20) (chanGet s c).cpl →
    exec (.dmaCplHeadWrite c v) s = .next (chanUpd c
      (fun x => { x with cpl := { x.cpl with head := v.toNat % 2 ^ 20, headErr := false } }) (countSrc 0x09 60 4 s))) ∧
  (∀ (v : BitVec 32) (s : State), s.swiys.stalled = [] → v.getLsbD 0 →
    exec (.cntSnapshot v) s = .next { countSrc 0x09 60 4 s with
      cnt := { (countSrc 0x09 60 4 s).cnt with snap := (countSrc 0x09 60 4 s).cnt.val } }) ∧
  (∀ (i : Nat) (v : BitVec 32) (s : State), i < 4 → s.swiys.stalled = [] →
    ∃ t, exec (.cntOvfClear i v) s = .next t ∧ t.cnt.val = (countSrc 0x09 60 4 s).cnt.val ∧
      t.cnt.ovf = (countSrc 0x09 60 4 s).cnt.ovf - ((countSrc 0x09 60 4 s).cnt.ovf &&& (v.toNat * 2 ^ (32 * i)))) ∧
  (∀ (off : Nat) (v : BitVec 32) (s : State), s.swiys.stalled = [] →
    exec (.registerWrite off v) s = .next (writeReg off v.toNat (countSrc 0x09 60 4 s))) ∧
  (∀ (c : Nat) (d : Desc) (host : List Host.Cell) (hostErr domeErr : Bool) (s : State), chanChosen (hostCells host s) = some c →
    (chanGet (markStates c { hostCells host s with pcie := { s.pcie with lastChan := c } }) c).desc = some d →
    ∀ b : State, b = markStates c { hostCells host s with pcie := { s.pcie with lastChan := c } } →
    exec (.dmaBurst host hostErr domeErr) s = .next (
      if descKind d = 0 then takeRecords 5 c d 0 (advanceTo (b.now + 40) b)
      else if descKind d = 1 then burstRead c d domeErr (advanceTo (b.now + 40) b)
      else burstWrite c d hostErr (advanceTo (b.now + 40) b))) ∧
  (∀ (c t : Nat) (d : Desc) (s : State), (chanGet s c).desc = some d → (chanGet s c).flushAt = some t → t ≤ s.now →
    (chanGet s c).moved ≠ 0 → nextRecord s c = none → d.crc % 4 ≠ 2 →
    exec (.receiveFlushTimeout c) s = .next (endDesc c 0 (d.length - (chanGet s c).moved) d s))

/-- Where the counter commands and events complete (R410, R418, R427 to R436): SET_COUNTER stores its settings and clears the
value and its overflow bit; grants are set, added or removed; a window starts anew; values are read at one instant; a
peak, a live counter and a BAR2 counter are read; an enabled counter counts; a window ends. -/
def Obligations.CounterRowsComplete : Prop :=
  (∀ (pk : Packet) (s : State), starts 0x0B01 pk s → plainLen 8 (ctxOf pk s) → u8 pk.params 0 ≤ 127 → u8 pk.params 4 < 8 →
    zeroAt pk.params 5 3 → objectOk (u8 pk.params 1) (u16 pk.params 2) → (u8 pk.params 4).testBit 1 = false →
    exec (.setCounter pk) s = .next (endsOk pk [] s { begun 0x0B01 pk s with
      cnt := { (begun 0x0B01 pk s).cnt with
        cfg := tset {} (begun 0x0B01 pk s).cnt.cfg (u8 pk.params 0) ⟨u8 pk.params 1, u16 pk.params 2, (u8 pk.params 4).testBit 0,
          false, (u8 pk.params 4).testBit 2⟩
        val := tset 0 (begun 0x0B01 pk s).cnt.val (u8 pk.params 0) 0
        ovf := setBit (begun 0x0B01 pk s).cnt.ovf (u8 pk.params 0) false } })) ∧
  (∀ (pk : Packet) (s : State), starts 0x0B02 pk s → plainLen 20 (ctxOf pk s) → u8 pk.params 0 ≤ 2 → zeroAt pk.params 1 3 →
    exec (.grantCounters pk) s = .next (endsOk pk [] s { begun 0x0B02 pk s with
      cnt := { (begun 0x0B02 pk s).cnt with
        grant := if u8 pk.params 0 = 0 then uField pk.params 4 16
          else if u8 pk.params 0 = 1 then (begun 0x0B02 pk s).cnt.grant ||| uField pk.params 4 16
          else (begun 0x0B02 pk s).cnt.grant - ((begun 0x0B02 pk s).cnt.grant &&& uField pk.params 4 16) } })) ∧
  (∀ (pk : Packet) (s : State), starts 0x0B03 pk s → plainLen 8 (ctxOf pk s) → u8 pk.params 0 ≤ 62 → zeroAt pk.params 1 3 →
    u32 pk.params 4 ≤ 1000000 →
    exec (.setBwWindow pk) s = .next (endsOk pk [] s { begun 0x0B03 pk s with
      cnt := { (begun 0x0B03 pk s).cnt with
        bwWin := tset 0 (begun 0x0B03 pk s).cnt.bwWin (u8 pk.params 0) (u32 pk.params 4)
        bwAccIn := tset 0 (begun 0x0B03 pk s).cnt.bwAccIn (u8 pk.params 0) 0
        bwAccOut := tset 0 (begun 0x0B03 pk s).cnt.bwAccOut (u8 pk.params 0) 0
        bwEnd := tset 0 (begun 0x0B03 pk s).cnt.bwEnd (u8 pk.params 0)
          (if u32 pk.params 4 = 0 then 0 else (begun 0x0B03 pk s).now + 1000 * u32 pk.params 4 + 1) } })) ∧
  (∀ (pk : Packet) (s : State), starts 0x0B04 pk s → plainLen 4 (ctxOf pk s) → u8 pk.params 0 ≤ 127 → u8 pk.params 1 ≠ 0 →
    u8 pk.params 0 + u8 pk.params 1 ≤ 128 → u8 pk.params 2 = 1 → zeroAt pk.params 3 1 →
    exec (.readCounters pk) s = .next (endsOk pk ((List.range (u8 pk.params 1)).flatMap fun j =>
        le 8 (tget 0 (begun 0x0B04 pk s).cnt.val (u8 pk.params 0 + j))) s
      { begun 0x0B04 pk s with cnt := { (begun 0x0B04 pk s).cnt with snap := (begun 0x0B04 pk s).cnt.val } })) ∧
  (∀ (pk : Packet) (s : State), starts 0x0B05 pk s → plainLen 0 (ctxOf pk s) →
    ∃ res, exec (.getPcieStatus pk) s = .next (endsOk pk res s { linkErrors (begun 0x0B05 pk s) with
        pcie := { (begun 0x0B05 pk s).pcie with
          corr := 0, uncorr := 0, replays := 0, timeouts := 0, linkDowns := 0, flr := 0 } }) ∧
      res.length = 32 ∧ u8 res 0 = s.pcie.speed % 256 ∧ u8 res 1 = s.pcie.width % 256) ∧
  (∀ (p : Nat) (s : State), p < 63 → ∀ r : State, r = countSrc 0x0A 60 8 s →
    exec (.bwPeakRead p false true) s = .next { r with
      cnt := { r.cnt with bwPeakIn := tset 0 r.cnt.bwPeakIn p 0 }
      page := { r.page with readData := tget 0 r.cnt.bwPeakIn p } } ∧
    exec (.bwPeakRead p true true) s = .next { r with
      cnt := { r.cnt with bwPeakOut := tset 0 r.cnt.bwPeakOut p 0 }
      page := { r.page with readData := tget 0 r.cnt.bwPeakOut p } }) ∧
  (∀ (i : Nat) (s : State), i < 128 → ∀ r : State, r = countSrc 0x0A 60 4 s →
    exec (.counterLowRead false (0x4000 + 8 * i)) s = .next { r with
      cnt := { r.cnt with latchKey := some (0x4000 + 8 * i), latchVal := counterValue r i / 2 ^ 32 }
      page := { r.page with readData := counterValue r i % 2 ^ 32 } }) ∧
  (∀ (i : Nat) (s : State), i < 128 → ∀ r : State, r = countSrc 0x0A 60 8 s → r.cnt.grant.testBit i →
    exec (.bar2CounterRead (8 * i) true) s = .next { r with page := { r.page with readData := counterValue r i } }) ∧
  (∀ (i n : Nat) (s : State), i < 128 → (tget {} s.cnt.cfg i).enable → (tget {} s.cnt.cfg i).chain = false →
    tget 0 s.cnt.val i + n < 2 ^ 48 →
    exec (.counterWrap i n) s = .next { s with cnt := { s.cnt with val := tset 0 s.cnt.val i (tget 0 s.cnt.val i + n) } }) ∧
  (∀ (p e i o : Nat) (s : State), tget 0 s.cnt.bwEnd p = e + 1 → e ≤ s.now → i < 2 ^ 64 → o < 2 ^ 64 →
    tget 0 s.cnt.bwAccIn p = i → tget 0 s.cnt.bwAccOut p = o →
    exec (.bwWindowEnd p) s = .next { s with
      cnt := { s.cnt with
        bwAccIn := tset 0 s.cnt.bwAccIn p 0
        bwAccOut := tset 0 s.cnt.bwAccOut p 0
        bwIn := tset 0 s.cnt.bwIn p i
        bwOut := tset 0 s.cnt.bwOut p o
        bwPeakIn := tset 0 s.cnt.bwPeakIn p (max i (tget 0 s.cnt.bwPeakIn p))
        bwPeakOut := tset 0 s.cnt.bwPeakOut p (max o (tget 0 s.cnt.bwPeakOut p))
        bwEnd := tset 0 s.cnt.bwEnd p (s.now + 1000 * tget 0 s.cnt.bwWin p + 1) } })

/-! Modes, domains, supplies, pins, clocks, start-up and temperature. -/

/-- Where the commands of modes, domains and supervision complete (R493 to R497): an allowed SET_MODE is ACCEPTED and powers up
what the target mode needs; SET_DOMAINS down is ACCEPTED, removes the domains and is OK, SET_DOMAINS up is ACCEPTED and asks
for them; the status is read and its counters clear; the levels are stored; the latch of PAIR_FAULT clears. -/
def Obligations.PowerCommandsComplete : Prop :=
  (∀ (pk : Packet) (s : State), starts 0x0101 pk s → checkSetMode (ctxOf pk s) (begun 0x0101 pk s) = stOk →
    ∀ ups : List Nat, ups = transStarts s (modeOf (u8 pk.params 0)) →
    exec (.setMode pk) s = .next (accepts pk s (progressTrans (requestUp ups { begun 0x0101 pk s with
      mode := { s.mode with trans := some ⟨modeOf (u8 pk.params 0), refOf pk s, 2, ups, none⟩ } })))) ∧
  (∀ (pk : Packet) (s : State), starts 0x0102 pk s → checkSetDomains (ctxOf pk s) (begun 0x0102 pk s) = stOk →
    u8 pk.params 4 = 0 →
    ∃ t, t = powerDown (maskDoms (u32 pk.params 0))
        ((maskDoms (u32 pk.params 0)).foldl (fun t d => domUpd d (fun x => { x with wanted := false }) t) (begun 0x0102 pk s)) ∧
      exec (.setDomains pk) s = .next (endsOk pk (le 4 (onMask t) ++ le 4 0) s (accepts pk s t))) ∧
  (∀ (pk : Packet) (s : State), starts 0x0102 pk s → checkSetDomains (ctxOf pk s) (begun 0x0102 pk s) = stOk →
    u8 pk.params 4 = 1 →
    ∃ t, t = (maskDoms (u32 pk.params 0)).foldl (fun t d => domUpd d (fun x => { x with wanted := true }) t) (begun 0x0102 pk s) ∧
      ((maskDoms (u32 pk.params 0)).all (domOn t) = false →
        exec (.setDomains pk) s = .next (accepts pk s (requestUp (maskDoms (u32 pk.params 0)) { t with
          power := { t.power with jobs := t.power.jobs ++ [⟨refOf pk s, maskDoms (u32 pk.params 0), true, [], stOk⟩] } })))) ∧
  (∀ (pk : Packet) (s : State), starts 0x0103 pk s → plainLen 0 (ctxOf pk s) →
    ∃ res, exec (.getPowerStatus pk) s = .next (endsOk pk res s { begun 0x0103 pk s with
        power := { s.power with discrepancies := 0, railResets := 0, returns := 0, fifoMismatch := 0 } }) ∧
      res.length = 64 ∧ u32 res 0 = onMask s % 2 ^ 32) ∧
  (∀ (pk : Packet) (s : State), starts 0x0104 pk s → checkSetSupervision (ctxOf pk s) (begun 0x0104 pk s) = stOk →
    u8 pk.params 0 ≠ 0xFF →
    exec (.setSupervision pk) s = .next (endsOk pk [] s { begun 0x0104 pk s with
      power := { s.power with
        rails := lupd s.power.rails (u8 pk.params 0) fun r =>
          { r with warnLvl := u8 pk.params 1, resetLvl := u8 pk.params 2, deglitch := u8 pk.params 3 }
        autoReturn := u8 pk.params 4 == 1 }
      pins := { s.pins with td := u16 pk.params 6 } })) ∧
  (∀ (pk : Packet) (s : State), starts 0x0105 pk s → plainLen 0 (ctxOf pk s) → s.pins.safeA = false → s.pins.safeB = false →
    s.pins.pairFault →
    exec (.clearPairFault pk) s = .next (endsOk pk [] s (noteSafety (begun 0x0105 pk s)
      (post 0x0109 false [s.pins.faultInput] { begun 0x0105 pk s with pins := { s.pins with pairFault := false } }))))

/-- Where the steps of a transition and of a domain's power-up complete (R24, R242, R465, R468): the announcement names the
boundary, the boundary ends the transition, the ramp-down passes to the announcement; a PLL lock starts initialisation, its end
turns the domain ON; a FIFO whose pointers disagree is flushed
and the pointer window restarts, and closes. -/
def Obligations.TransitionEventsComplete : Prop :=
  (∀ (t : Trans) (s : State), s.mode.trans = some t → t.step = 4 →
    exec .modeAnnounce s = .next { s with mode := { s.mode with
      trans := some { t with step := 5, boundary := some (boundaryAfter s.txFc) } } }) ∧
  (∀ (t : Trans) (s : State), s.mode.trans = some t → t.step = 5 → domOn s 2 = false → s.mode.cur ≠ .merge →
    exec .modeBoundary s = .next (finishTrans t s)) ∧
  (∀ (t : Trans) (s : State), s.mode.trans = some t → t.step = 3 → inDome s .a = false → inDome s .b = false →
    exec .rampDownDone s = .next { s with mode := { s.mode with trans := some { t with step := 4 } } }) ∧
  (∀ (d : Nat) (s : State), (domGet s d).state = .powering → exec (.domainPllLock d) s = .next (pllLocked d s)) ∧
  (∀ (d : Nat) (s : State), (domGet s d).state = .init → d ≠ 23 → d ≠ 24 →
    exec (.domainInitDone d) s = .next (domainUp d s)) ∧
  (∀ (d t : Nat) (f : FifoRef) (s : State), (domGet s d).window = some t → fifoDom f = none ∨ fifoDom f = some d →
    ∀ r : State, r = flushFifo f (domUpd d (fun x => { x with window := some (s.now + secNs) }) s) →
    exec (.fifoMismatch d f) s = .next (postEv 0x010B [d] { r with
      power := { r.power with fifoMismatch := satAdd 16 r.power.fifoMismatch 1 } })) ∧
  (∀ (d t : Nat) (s : State), (domGet s d).window = some t →
    exec (.fifoWindowClose d) s =
      .next (domUpd d (fun x => { x with window := none, returning := false }) (advanceTo t s)))

/-- Where the events of the pins, the rails and LOCAL_OSC complete (R18, R56, R57, R471 to R475): the safety inputs are taken, a
disagreement of T_d latches PAIR_FAULT, a settled transmitter resumes, PFAIL_N freezes and thaws the counts; a rail warns,
clears, resets its domains and lets them return; LOCAL_OSC is qualified and lost. -/
def Obligations.PinAndRailEventsComplete : Prop :=
  (∀ (c : Carrier) (s : State), s.pins.poreset = false → safeLevel c s = false →
    exec (.txsafeAssert c) s = .next (noteDiscrepancy (noteSafety s { s with pins := match c with
      | .a => { s.pins with safeA := true }
      | .b => { s.pins with safeB := true } }))) ∧
  (∀ (c : Carrier) (s : State), s.pins.poreset = false → safeLevel c s →
    exec (.txsafeDeassert c) s = .next (noteDiscrepancy (noteSafety s { s with pins := match c with
      | .a => { s.pins with safeA := false }
      | .b => { s.pins with safeB := false } }))) ∧
  (∀ (t : Nat) (s : State), s.pins.discSince = some t → pairFaultAt t s.pins.td ≤ s.now → s.pins.pairFault = false →
    exec .pairFault s = .next (post 0x0109 true [b2n s.pins.safeB]
      (noteSafety s { s with
        pins := { s.pins with discSince := none, pairFault := true, faultInput := b2n s.pins.safeB } }))) ∧
  (∀ (c : Carrier) (t : Nat) (s : State), (txGet s c).settleAt = some t → t ≤ s.now → (txGet s c).state = .squelched →
    safetyCause s = false →
    exec (.settleExpiry c) s =
      .next (postEv 0x0202 [carrierNum c] (txUpd c (fun x => { x with state := .running, settleAt := none }) s))) ∧
  (∀ s : State, s.pins.pfail = false → s.pins.poreset = false →
    exec .pfailNAssert s = .next (pmFreeze (post 0x010A true [] { s with pins := { s.pins with pfail := true } }))) ∧
  (∀ s : State, s.pins.pfail → s.pins.poreset = false →
    exec .pfailNDeassert s = .next (pmThaw (post 0x010A false [] { s with pins := { s.pins with pfail := false } }))) ∧
  (∀ (r mv : Nat) (s : State), r ≤ 8 → (s.power.rails.getD r {}).warn = 0 →
    mv * 1000 < railNominal r * (1000 - (s.power.rails.getD r {}).warnLvl) →
    exec (.railWarn r mv) s = .next (noteStatus s (dropWaiting (railDomains r) false stSupply ((railQuads r).foldl (fun t q => spoilQuad q t)
      ((railCarriers r).foldl (fun t c => warnSpire c t)
        (post 0x0101 true [r, 1] (railUpd r (fun x => { x with mv := mv, warn := 1 }) s))))))) ∧
  (∀ (r mv : Nat) (s : State), r ≤ 8 → (s.power.rails.getD r {}).warn ≠ 0 →
    railNominal r * (1000 - (s.power.rails.getD r {}).warnLvl + 5) ≤ mv * 1000 → mv * 1000 ≤ railNominal r * 1045 →
    exec (.railWarnClear r mv) s = .next (noteStatus s (applyUsed ((railCarriers r).foldl (fun t c => clearSpire c t)
      (post 0x0101 false [r, (s.power.rails.getD r {}).warn] (railUpd r (fun x => { x with mv := mv, warn := 0 }) s)))))) ∧
  (∀ (r mv : Nat) (s : State), r ≤ 2 → mv * 1000 < railNominal r * (1000 - (s.power.rails.getD r {}).resetLvl) →
    exec (.railReset r mv) s = .next (coldReset (warnRail r mv (railUpd r (fun x => { x with mv := mv }) s)))) ∧
  (∀ (r mv : Nat) (s : State), 2 < r → r ≤ 8 → mv * 1000 < railNominal r * (1000 - (s.power.rails.getD r {}).resetLvl) →
    exec (.railReset r mv) s = .next (railDown r (warnRail r mv (railUpd r (fun x => { x with mv := mv }) s)))) ∧
  (∀ (r d : Nat) (s : State), (railDomains r).filter (fun d => (domGet s d).state == .reset && !(railsOf d).any (railLow s)) = [d] →
    s.power.autoReturn → (domGet s d).wanted →
    exec (.domainReturnStart r) s = .next (domUpd d (fun x => { x with returning := true }) (requestUp [d] s))) ∧
  (∀ (p : Int) (s : State), s.pins.poreset = false → s.clk.qualified = false → p.natAbs ≤ 100000 →
    exec (.localOscWindowEnd (some p)) s =
      .next (applyUsed (evaluateRef 0 { s with clk := { s.clk with qualified := true, absent := false } }))) ∧
  (∀ s : State, s.clk.qualified → domOn s 1 →
    exec .localOscEdgeLoss s =
      .next (evaluateRef 0 (postEv 0x0005 [] { s with clk := { s.clk with qualified := false, absent := true } })))

/-- Where start-up and the temperature supervisor complete (R470, R476 to R479, R485): PORESET_N resets all but what the board,
the package and the pins hold; its release scans the journal; a verified image starts the controller; READY opens the queues
with their pointer windows; a sample takes its 24 readings. -/
def Obligations.StartUpEventsComplete : Prop :=
  (∀ s : State, exec .poresetNAssert s = .next (coldReset s)) ∧
  (∀ s : State, s.pins.poreset → s.pins.safeA = s.pins.safeB → s.pins.discSince = none → s.pins.pfail = false →
    ∃ t, exec .poresetNDeassert s = .next t ∧ t.pins.poreset = false ∧ t.now = 0 ∧ t.mode.cur = s.mode.cur) ∧
  (∀ s : State, s.ctl.phase = .held → s.pins.poreset = false → s.fw.tryOther = false → s.fw.committed = 0 →
    (checkSlot s.fw.fuses s.fw.slot0).1 = 0 →
    exec (.firmwareVerified .ok) s = .next { s with
      fw := { s.fw with tryOther := false, running := 0, image := some (checkSlot s.fw.fuses s.fw.slot0).2 }
      ctl := { s.ctl with phase := .running } }) ∧
  (∀ s : State, s.ctl.ready = false → s.ctl.phase = .running → s.pins.poreset = false → s.clk.qualified →
    ∃ t, exec .ready s = .next (noteStatus s (applyUsed t)) ∧ t.ctl.ready = true ∧ t.swiys.q0.window = some (s.now + secNs) ∧
      t.swiys.q1.window = some (s.now + secNs) ∧ t.swiys.q2.window = some (s.now + secNs) ∧
      t.swiys.q3.window = some (s.now + secNs)) ∧
  (∀ (v : Int) (s : State), -20 < v → v < 1000 → s.therm.sensors.length = 24 → s.therm.warn = false →
    s.therm.critical = false → s.therm.shutdown = false → s.therm.low = false →
    ∃ t, exec (.tempSample (List.replicate 24 v)) s = .next t ∧ t.therm.tj = v ∧ t.therm.warn = false ∧ t.therm.critical = false ∧
      t.therm.shutdown = false ∧ t.therm.low = false)

/-! Firmware, journal, controller and engines. -/

/-- Where the firmware commands complete (R498 to R503): each that takes time is ACCEPTED and waits; a commit of the committed
image is done at once; the two status readers answer, and GET_JOURNAL_STATUS clears its error count. -/
def Obligations.FirmwareCommandsComplete : Prop :=
  (∀ (pk : Packet) (s : State), starts 0x0D01 pk s → plainLen 0 (ctxOf pk s) → s.fw.jobs = [] →
    exec (.fwPrepare pk) s = .next (accepts pk s { begun 0x0D01 pk s with
      fw := { s.fw with regionOpen := false, verified := false, jobs := [⟨0x0D01, refOf pk s, false⟩] } })) ∧
  (∀ (pk : Packet) (s : State), starts 0x0D02 pk s → plainLen 0 (ctxOf pk s) → s.fw.jobs = [] →
    exec (.fwVerify pk) s = .next (accepts pk s { begun 0x0D02 pk s with
      fw := { s.fw with regionOpen := false, jobs := [⟨0x0D02, refOf pk s, false⟩] } })) ∧
  (∀ (pk : Packet) (s : State), starts 0x0D03 pk s → plainLen 0 (ctxOf pk s) → s.fw.jobs = [] → s.fw.verified →
    (checkSlot s.fw.fuses (slotGet s (inactiveSlot s))).1 = 0 → s.fw.recovery = false →
    settingsFormat s = some (checkSlot s.fw.fuses (slotGet s (inactiveSlot s))).2.settings →
    exec (.fwActivate pk) s = .next (accepts pk s { begun 0x0D03 pk s with
      fw := { s.fw with activation := some ⟨0, 0, 0, s.now, false⟩, jobs := [⟨0x0D03, refOf pk s, false⟩] } })) ∧
  (∀ (pk : Packet) (s : State) (h : ImageHdr), starts 0x0D04 pk s → plainLen 4 (ctxOf pk s) → u8 pk.params 0 = 0 →
    zeroAt pk.params 1 3 → s.fw.jobs = [] → s.fw.image = some h →
    (s.fw.committed = s.fw.running → exec (.fwCommit pk) s = .next (endsOk pk [] s (begun 0x0D04 pk s))) ∧
    (s.fw.committed ≠ s.fw.running → exec (.fwCommit pk) s = .next (accepts pk s
      (journalAdd jBoot 0 (le 1 s.fw.running ++ (le 1 h.major ++ le 1 h.minor) ++ le 1 0) (some (refOf pk s))
        { begun 0x0D04 pk s with fw := { s.fw with jobs := [⟨0x0D04, refOf pk s, false⟩] } })))) ∧
  (∀ (pk : Packet) (s : State), starts 0x0D05 pk s → plainLen 0 (ctxOf pk s) →
    ∃ res, exec (.getFwStatus pk) s = .next (endsOk pk res s (begun 0x0D05 pk s)) ∧ res.length = 16 ∧
      u8 res 0 = s.fw.running % 256 ∧ u8 res 1 = s.fw.committed % 256) ∧
  (∀ (pk : Packet) (s : State), starts 0x0D06 pk s → plainLen 0 (ctxOf pk s) →
    ∃ res, exec (.getJournalStatus pk) s = .next (endsOk pk res s { begun 0x0D06 pk s with
        journal := { s.journal with errors := 0 } }) ∧
      res.length = 16 ∧ u32 res 0 = s.journal.nextSeq % 2 ^ 32)

/-- Where the events of flash and firmware complete (R483, R487, R488): the erased slot opens region 1 and ends FW_PREPARE; the
check of a slot ends FW_VERIFY; the controller and then each cluster switches; a pending record starts, and each verified copy
leads to the next place, where a copy that reads back otherwise is written again. -/
def Obligations.FirmwareEventsComplete : Prop :=
  (∀ s : State, s.fw.jobs.any (·.opcode == 0x0D01) → s.journal.suspended = false → flashDeferred s = false →
    exec .fwSlotErased s = .next (endFwJob 0x0D01 stOk [] { inactiveUpd (fun _ => {}) s with
      fw := { (inactiveUpd (fun _ => {}) s).fw with regionOpen := true, written := 0, verified := false } })) ∧
  (∀ s : State, s.fw.jobs.any (·.opcode == 0x0D02) → (checkSlot s.fw.fuses (slotGet s (inactiveSlot s))).1 = 0 →
    ∃ res, exec .fwVerifyDone s = .next (endFwJob 0x0D02 stOk res { s with fw := { s.fw with verified := true } }) ∧
      res.length = 16 ∧ u32 res 4 = (checkSlot s.fw.fuses (slotGet s (inactiveSlot s))).2.security % 2 ^ 32) ∧
  (∀ s : State, s.fw.jobs.any (·.opcode == 0x0D02) → (checkSlot s.fw.fuses (slotGet s (inactiveSlot s))).1 ≠ 0 →
    exec .fwVerifyDone s = .next (endFwJob 0x0D02 stAuthFail (le 16 0) { s with fw := { s.fw with verified := false } })) ∧
  (∀ (a : Activation) (s : State), s.fw.activation = some a → a.ctlDone = false → s.fw.recovery = false →
    exec .fwControllerSwitch s = .next (endActivation { a with ctlDone := true }
      (switchImage (inactiveSlot s) (checkSlot s.fw.fuses (slotGet s (inactiveSlot s))).2 { s with fw := { s.fw with
        old := s.fw.image.map fun h => (s.fw.running, h), switchedAt := some s.now, verified := false } }))) ∧
  (∀ (a : Activation) (h : ImageHdr) (k : Nat) (s : State), s.fw.activation = some a → a.ctlDone → s.fw.image = some h →
    (poweredFrom s a.next).head? = some k →
    exec (.fwClusterSwitch k) s = .next (endActivation
      { a with
        next := k + 1
        switched := a.switched + b2n (rollCluster k (versionArg h) s).1
        inPlace := a.inPlace + b2n (!(rollCluster k (versionArg h) s).1) }
      (postEv 0x0D02 [1 + k, versionArg h] (rollCluster k (versionArg h) s).2))) ∧
  (∀ (p : JPend) (l : List JPend) (s : State), flashDeferred s = false → s.journal.writing = none → s.journal.pending = p :: l →
    exec .journalWrite s = .next { s with journal := { s.journal with
      pending := l, writing := some (p, 0), nextSeq := s.journal.nextSeq + 1 } }) ∧
  (∀ (p : JPend) (s : State), s.journal.writing = some (p, 0) →
    exec (.flashOperationDone none) s = .next (nextCopy p 1 (copyWritten 0 p none s)) ∧
    (∀ l : List Byte, l.take (jBytes (recordOf s p)).length ≠ jBytes (recordOf s p) →
      exec (.flashOperationDone (some l)) s = .next (nextCopy p 0 (copyWritten 0 p (some l) s)))) ∧
  (∀ (p : JPend) (s : State), s.journal.writing = some (p, 1) →
    exec (.flashOperationDone none) s = .next (journalDone p { copyWritten 1 p none s with
      journal := { (copyWritten 1 p none s).journal with writing := none } }) ∧
    (∀ l : List Byte, l.take (jBytes (recordOf s p)).length ≠ jBytes (recordOf s p) →
      exec (.flashOperationDone (some l)) s = .next (nextCopy p 1 (copyWritten 1 p (some l) s))))

/-- Where the events of controller and engines complete (R15 to R17): a mismatch restarts the cores, the third within 60 s holds
them; the restart ends; a failed engine is fenced and a spare takes over; the takeover ends; an active engine checkpoints,
the restore timer of its tenants' pairs with it. -/
def Obligations.EngineEventsComplete : Prop :=
  (∀ s : State, s.ctl.phase = .running → s.ctl.mismatches = [] → s.fw.old = none →
    exec .controllerMismatch s = .next (postEv 0x0002 [] { s with
      ctl := { s.ctl with mismatches := [s.now], phase := .restarting } })) ∧
  (∀ (t u : Nat) (s : State), s.ctl.phase = .running → s.ctl.mismatches = [t, u] → s.now < t + 60 * secNs → s.now < u + 60 * secNs →
    exec .controllerMismatch s = .next (noteStatus s { s with
      ctl := { s.ctl with mismatches := [s.now, t, u], phase := .failed } })) ∧
  (∀ s : State, s.ctl.phase = .restarting →
    exec .controllerRestartDone s = .next { s with ctl := { s.ctl with phase := .running } }) ∧
  (∀ (e x : Nat) (s : State), e < 192 → engPowered s e → engGet s e = .active → s.eng.takeovers = [] →
    spareFor (engPut e .fenced s) (e) = some x →
    exec (.engineFailed e) s = .next (engPut x .taking { engPut e .fenced s with
      eng := { (engPut e .fenced s).eng with takeovers := [⟨e, x, (tenantsOn s e).eraseDups⟩] } })) ∧
  (∀ (k : Takeover) (s : State), s.eng.takeovers = [k] → engPowered s k.spare →
    exec (.engineFailover k.failed) s = .next (takeOver k s)) ∧
  (∀ (e : Nat) (s : State), e < 192 → engPowered s e → engGet s e = .active →
    ∃ t, exec (.engineCheckpoint e) s = .next t ∧ t.eng.checkpoint = tset 0 s.eng.checkpoint e s.now ∧
      (∀ i x, s.ring.pairs = [(i, x)] → tblWf none s.eng.saved → pairAmong s (tenantsOn s e) i → tget none t.eng.saved i = x.wtrAt) ∧
      t = { s with eng := { s.eng with checkpoint := t.eng.checkpoint, saved := t.eng.saved } })

/-! Line plan and transmitters. -/

/-- Where the line plan and transmitter rows complete (R41, R42, R51, R52, R59 to R63): a plan that keeps the rules is stored and
applied; shaping, correction, output and state commands store what they carry; the status readers answer; a superframe takes
what waited for it and the new fill count, and is sent; a clip interval of at most 1 in 100,000 samples raises nothing, any other
raises TX_CLIP; an applied plan restarts the encoder. -/
def Obligations.TransmitRowsComplete : Prop :=
  (∀ (pk : Packet) (s : State), starts 0x0201 pk s → plainLen 24 (ctxOf pk s) → s.mode.cur = .configure → s.mode.trans = none →
    s.plan.applying = ⟨none, none⟩ → s.clk.qualified →
    planReason s (planField pk.params 0) (planField pk.params 8) (i32 pk.params 16) (u8 pk.params 20)
      (!zeroAt pk.params 21 3) = (0, 0) →
    exec (.setLinePlan pk) s = .next (endsOk pk (planResult (planField pk.params 0) (planField pk.params 8) (0, 0)) s
      (applyUsed (beginApply .b (planField pk.params 8 != s.plan.car.b) (beginApply .a (planField pk.params 0 != s.plan.car.a)
        { begun 0x0201 pk s with plan := { s.plan with
          car := ⟨planField pk.params 0, planField pk.params 8⟩
          shape := ⟨shapeOf (planField pk.params 0).fmt (planField pk.params 0).h64,
            shapeOf (planField pk.params 8).fmt (planField pk.params 8).h64⟩
          spacing := i32 pk.params 16
          fibre := u8 pk.params 20 } }))))) ∧
  (∀ (pk : Packet) (s : State), starts 0x0202 pk s → checkGetLinePlan (ctxOf pk s) (begun 0x0202 pk s) = stOk →
    ∃ res, exec (.getLinePlan pk) s = .next (endsOk pk res s (begun 0x0202 pk s)) ∧ res.length = 40 ∧
      u8 res 0 = s.plan.car.a.n % 256 ∧ u8 res 8 = s.plan.car.b.n % 256) ∧
  (∀ (pk : Packet) (s : State), starts 0x0210 pk s → checkSetTxShaping (ctxOf pk s) (begun 0x0210 pk s) = stOk →
    u8 pk.params 2 = 0 →
    exec (.setTxShaping pk) s = .next (endsOk pk [] s (txUpd (carrierOf (u8 pk.params 0))
      (fun t => { t with beta100 := u8 pk.params 1, loaded := false, taps := [] }) (begun 0x0210 pk s)))) ∧
  (∀ (pk : Packet) (s : State), starts 0x0210 pk s → checkSetTxShaping (ctxOf pk s) (begun 0x0210 pk s) = stOk →
    u8 pk.params 2 = 1 →
    exec (.setTxShaping pk) s = .next (endsOk pk [] s (txUpd (carrierOf (u8 pk.params 0))
      (fun t => { t with
        beta100 := u8 pk.params 1
        loaded := true
        taps := (List.range 65).map fun i => i16 pk.params (4 + 2 * i) }) (begun 0x0210 pk s)))) ∧
  (∀ (pk : Packet) (s : State), starts 0x0211 pk s → checkSetTxCorrection (ctxOf pk s) (begun 0x0211 pk s) = stOk →
    exec (.setTxCorrection pk) s = .next (endsOk pk [] s (txUpd (carrierOf (u8 pk.params 0))
      (fun t => { t with corr := (List.range 4).map (chanField pk.params) }) (begun 0x0211 pk s)))) ∧
  (∀ (pk : Packet) (s : State), starts 0x0212 pk s → checkSetTxOutput (ctxOf pk s) (begun 0x0212 pk s) = stOk →
    ∃ t, exec (.setTxOutput pk) s = .next (endsOk pk [] s t) ∧ t.power = s.power ∧
      (txGet t (carrierOf (u8 pk.params 0))).swing = u8 pk.params 1 ∧ (txGet t (carrierOf (u8 pk.params 0))).rms = i16 pk.params 2 ∧
      (txGet t (carrierOf (u8 pk.params 0))).settle = u8 pk.params 4 ∧
      (txGet t (carrierOf (u8 pk.params 0))).latch = (u8 pk.params 5).testBit 0) ∧
  (∀ (pk : Packet) (s : State), starts 0x0213 pk s → checkSetTxState (ctxOf pk s) (begun 0x0213 pk s) = stOk →
    (u8 pk.params 1 = 1 → exec (.setTxState pk) s = .next (endsOk pk
      (le 1 (txCode (txGet (runTx (carrierOf (u8 pk.params 0)) (begun 0x0213 pk s)) (carrierOf (u8 pk.params 0))).state)) s
      (runTx (carrierOf (u8 pk.params 0)) (begun 0x0213 pk s)))) ∧
    (u8 pk.params 1 = 0 → exec (.setTxState pk) s = .next (endsOk pk
      (le 1 (txCode (txGet (stopTx (carrierOf (u8 pk.params 0)) (begun 0x0213 pk s)) (carrierOf (u8 pk.params 0))).state)) s
      (stopTx (carrierOf (u8 pk.params 0)) (begun 0x0213 pk s))))) ∧
  (∀ (pk : Packet) (s : State), starts 0x0214 pk s → checkGetTxStatus (ctxOf pk s) (begun 0x0214 pk s) = stOk →
    ∃ res, exec (.getTxStatus pk) s = .next (endsOk pk res s (txUpd (carrierOf (u8 pk.params 0))
        (fun t => { t with clips := [0, 0, 0, 0] }) (begun 0x0214 pk s))) ∧
      res.length = 36 ∧ u8 res 0 = txCode (txGet s (carrierOf (u8 pk.params 0))).state) ∧
  (∀ (c : Carrier) (s : State), (txGet s c).state ≠ .off →
    ∀ u : Nat → State, u = (fun m => txUpd c (fun t => { t with
      corrUse := t.corr, rmsUse := t.rms, toneUse := t.tone, mNow := t.mNext, mNext := m, clock := sendClock s c }) s) →
    exec (.superframeTransmit c .low) s = .next (sendSuperframe c (u (fillCeil (planOf s c)))) ∧
    exec (.superframeTransmit c .high) s = .next (sendSuperframe c (u (fillFloor (planOf s c)))) ∧
    exec (.superframeTransmit c .outOfRange) s = .next (sendSuperframe c (postEv 0x0203 [carrierNum c] (u 4)))) ∧
  (∀ (c : Carrier) (d n : Nat) (s : State), d < 4 → (txGet s c).state ≠ .off → (txGet s c).clipAlarm.getD d none = none →
    (txGet s c).clipNow.getD d 0 = n →
    (n * 100000 ≤ dacSamples (planOf s c) → exec (.txClipInterval c d) s = .next (txUpd c (fun t => { t with
      clipNow := lupd t.clipNow d fun _ => 0, clipAlarm := lupd t.clipAlarm d fun _ => none }) s)) ∧
    (dacSamples (planOf s c) < n * 100000 → exec (.txClipInterval c d) s = .next (post 0x0204 true [carrierNum c, d]
      (txUpd c (fun t => { t with
        clipNow := lupd t.clipNow d fun _ => 0, clipAlarm := lupd t.clipAlarm d fun _ => some 0 }) s)))) ∧
  (∀ (c : Carrier) (t : Nat) (s : State), pget s.plan.applying c = some t → rxPowered s c = false →
    exec (.linePlanApplyDone c) s = .next (acqIdle c (fecUpd c (fun f => { f with encBlock := none })
      { s with plan := { s.plan with applying := pset s.plan.applying c none } })))

/-! The receive front end and its calibration. -/

/-- Where the rows of the receive front end complete (R65 to R71, R76 to R79, R90, R91, R94, R95, R167): the settings of R90 are stored, and
mode 2 of DC blocking holds the present estimates; the status of R91 is read and its counts clear; a STOPPED monitor chain takes its
settings; a named chain starts and stops; a window of samples is measured, moves the AGC by one transition and feeds the LOS
levels, and a settled FAST in SYNC freezes; a REFAST of 100 us fails; AGC_LIMIT is raised after more than 1 us at a limit and cleared
after 1 us inside; LOS is declared and cleared; a clip interval raises RX_CLIP, or does not; a full record joins the stream of its
DMA channel, or as the 65th is discarded and counted. -/
def Obligations.FrontEndRowsComplete : Prop :=
  (∀ (pk : Packet) (s : State), starts 0x0220 pk s → plainLen 16 (ctxOf pk s) → modeOpen s → u8 pk.params 0 ≤ 1 →
    3 ≤ u8 pk.params 1 → u8 pk.params 1 ≤ 13 → u8 pk.params 2 ≤ 2 → 1 ≤ u8 pk.params 3 → u8 pk.params 3 ≤ 15 →
    -180 ≤ i16 pk.params 4 → i16 pk.params 4 ≤ -60 → 4 ≤ u8 pk.params 6 → u8 pk.params 6 ≤ 16 → 1 ≤ u8 pk.params 7 →
    u8 pk.params 7 ≤ 50 → 1 ≤ u8 pk.params 8 → u8 pk.params 8 ≤ 32 → zeroAt pk.params 9 7 →
    exec (.setRxFrontEnd pk) s = .next (endsOk pk [] s (rxUpd (carrierOf (u8 pk.params 0)) (fun r => { r with
      set := {
        dcK := u8 pk.params 1
        dcMode := u8 pk.params 2
        clipThr := u8 pk.params 3
        agcTarget := i16 pk.params 4
        stepThr := u8 pk.params 6
        stepUs := u8 pk.params 7
        timingBw := u8 pk.params 8 }
      dcHeld := if u8 pk.params 2 = 2 then r.dcEst else r.dcHeld }) (begun 0x0220 pk s)))) ∧
  (∀ (pk : Packet) (s : State), starts 0x0221 pk s → plainLen 4 (ctxOf pk s) → modeOpen s → u8 pk.params 0 ≤ 1 →
    zeroAt pk.params 1 3 → ∀ r : Rx, r = (spireGet s (carrierOf (u8 pk.params 0))).rx →
    ∃ res, exec (.getRxStatus pk) s = .next (endsOk pk res s (rxUpd (carrierOf (u8 pk.params 0))
        (fun r => { r with clips := [0, 0, 0, 0], unfreezes := 0, settleFails := 0 }) (begun 0x0221 pk s))) ∧
      res.length = 48 ∧ u8 res 0 = agcCode r.agc ∧ u8 res 1 = timingCode r.timing ∧
      u8 res 2 = b2n (r.clipAlarm.any (·.isSome)) + 2 * b2n r.agcLimit + 4 * b2n r.timingLimit
        + 8 * b2n ((spireGet s (carrierOf (u8 pk.params 0))).cal.track.stuck != 0)) ∧
  (∀ (pk : Packet) (s : State), starts 0x0224 pk s → plainLen 16 (ctxOf pk s) → modeOpen s → u8 pk.params 0 ≤ 1 →
    u8 pk.params 1 ≤ 3 → u8 pk.params 2 ≤ 1 → u8 pk.params 3 ≤ 1 → u8 pk.params 2 + u8 pk.params 3 ≤ 1 → 1 ≤ u16 pk.params 4 →
    u16 pk.params 4 ≤ 4096 → 1000 ≤ u32 pk.params 6 → u32 pk.params 6 ≤ 10000000 → u8 pk.params 10 ≤ 15 → zeroAt pk.params 11 5 →
    (monGet s (carrierOf (u8 pk.params 0)) (u8 pk.params 1)).running = false →
    exec (.setMonitor pk) s = .next (endsOk pk [] s (monUpd (carrierOf (u8 pk.params 0)) (u8 pk.params 1) (fun m => { m with
      input := u8 pk.params 2, dc := u8 pk.params 3, len := u16 pk.params 4, rate := u32 pk.params 6, dma := u8 pk.params 10 })
      (begun 0x0224 pk s)))) ∧
  (∀ (pk : Packet) (i : Nat) (s : State), starts 0x0225 pk s → plainLen 4 (ctxOf pk s) → modeOpen s → u8 pk.params 0 ≤ 1 →
    u8 pk.params 1 = 2 ^ i → i ≤ 3 → u8 pk.params 2 = 1 → zeroAt pk.params 3 1 → domOn s (adcDom (carrierOf (u8 pk.params 0))) →
    (monGet s (carrierOf (u8 pk.params 0)) i).running = false →
    exec (.monitorControl pk) s = .next (endsOk pk [] s (monUpd (carrierOf (u8 pk.params 0)) i (fun m =>
      if m.running then m
      else { m with running := true, closing := false, seq := 0, first := true, gap := false, stages := {} })
      (begun 0x0225 pk s)))) ∧
  (∀ (pk : Packet) (i : Nat) (s : State), starts 0x0225 pk s → plainLen 4 (ctxOf pk s) → modeOpen s → u8 pk.params 0 ≤ 1 →
    u8 pk.params 1 = 2 ^ i → i ≤ 3 → u8 pk.params 2 = 0 → zeroAt pk.params 3 1 →
    exec (.monitorControl pk) s = .next (endsOk pk [] s (monUpd (carrierOf (u8 pk.params 0)) i (fun m =>
      if m.running then { m with running := false, closing := true } else m) (begun 0x0225 pk s)))) ∧
  (∀ (c : Carrier) (o : AgcObs) (s : State), (spireGet s c).rx.agc ≠ .off →
    ∀ (xs : List (List Int)) (r1 : Rx), xs = windowChannels (planOf s c).rs256 (spireGet s c).cal.vals o (spireGet s c).rx →
    r1 = measureWindow (planOf s c).rs256 xs o (spireGet s c).rx →
    ∃ t, exec (.agcWindow c o) s = .next t ∧
      (spireGet t c).rx = { agcMove (lineGet s c).frm.los (syncOn s c) r1 with lofArose := false } ∧
      (lineGet t c).frm = measureLos xs (lineGet s c).frm ∧
      (r1.agc = .fast → (lineGet s c).frm.los = false → syncOn s c → r1.lofArose = false → 2000 ≤ r1.settledNs →
        (spireGet t c).rx.agc = .frozen ∧ (spireGet t c).rx.pRef = r1.prePower)) ∧
  (∀ (c : Carrier) (s : State), (spireGet s c).rx.agc = .refast → 100000 ≤ (spireGet s c).rx.refastNs →
    exec (.agcSettleFail c) s = .next (rxUpd c (fun r => { r with
      agc := .frozen, pRef := r.prePower, stepNs := 0, settledNs := 0, refastNs := 0, settleFails := satAdd 16 r.settleFails 1 }) s)) ∧
  (∀ (c : Carrier) (s : State), (spireGet s c).rx.agc ≠ .off → (spireGet s c).rx.agcLimit = false →
    1000 < (spireGet s c).rx.limitNs →
    exec (.agcLimit c) s = .next (post 0x0207 true [carrierNum c] (rxUpd c (fun r => { r with agcLimit := true }) s))) ∧
  (∀ (c : Carrier) (s : State), (spireGet s c).rx.agc ≠ .off → (spireGet s c).rx.agcLimit →
    1000 ≤ (spireGet s c).rx.insideNs →
    exec (.agcLimit c) s = .next (post 0x0207 false [carrierNum c] (rxUpd c (fun r => { r with agcLimit := false }) s))) ∧
  (∀ (c : Carrier) (s : State), rxPowered s c → (lineGet s c).frm.los = false →
    1000 * (lineGet s c).frm.use.tSet ≤ (lineGet s c).frm.belowNs →
    exec (.losDeclare c) s = .next (acqLos c (neutralize c (spoilCal c (frmUpd c (fun f => { f with los := true }) s))))) ∧
  (∀ (c : Carrier) (s : State), rxPowered s c → (lineGet s c).frm.los → 1000 * (lineGet s c).frm.use.tClr ≤ (lineGet s c).frm.aboveNs →
    ∀ t : State, t = frmUpd c (fun f => { f with los := false }) s →
    exec (.losClear c) s = .next (if acqState s c = .waitSignal then leaveWait c t else t)) ∧
  (∀ (c : Carrier) (d n : Nat) (s : State), d < 4 → (spireGet s c).rx.agc ≠ .off → (spireGet s c).rx.clipAlarm.getD d none = none →
    (spireGet s c).rx.clipNow.getD d 0 = n →
    (n * 100000 ≤ samplesPerMs (planOf s c).rs256 → exec (.rxClipInterval c d) s = .next (rxUpd c (fun x => { x with
      clipNow := lupd x.clipNow d fun _ => 0, clipAlarm := lupd x.clipAlarm d fun _ => none }) s)) ∧
    (samplesPerMs (planOf s c).rs256 < n * 100000 → exec (.rxClipInterval c d) s = .next (post 0x0205 true [carrierNum c, d]
      (rxUpd c (fun x => { x with
        clipNow := lupd x.clipNow d fun _ => 0, clipAlarm := lupd x.clipAlarm d fun _ => some 0 }) s)))) ∧
  (∀ (c : Carrier) (i : Nat) (s : State), i < 4 → (monGet s c i).running → 244 ≤ (monGet s c i).stages.buf.length →
    monitorHeld s c i < 64 → (monGet s c i).dma < s.dma.length →
    ∃ t r, exec (.monitorRecordClose c i) s = .next t ∧ t.pcie.posted = s.pcie.posted + 1 ∧ t.ev = s.ev ∧
      (chanGet t (monGet s c i).dma).stream = (chanGet s (monGet s c i).dma).stream ++ [r] ∧ r.from_ = 4 * carrierNum c + i ∧
      r.order = s.pcie.posted) ∧
  (∀ (c : Carrier) (i : Nat) (s : State), i < 4 → (monGet s c i).running → 244 ≤ (monGet s c i).stages.buf.length →
    64 ≤ monitorHeld s c i →
    exec (.monitorRecordClose c i) s = .next (monUpd c i (fun m => { m with
      seq := (m.seq + 1) % 2 ^ 32
      first := false
      closing := false
      gap := true
      overrun := satAdd 32 m.overrun 1
      stages := { m.stages with buf := m.stages.buf.drop 244 } }) s))

/-- Where the calibration rows complete (R84 to R89, R92, R93, R163): the mask is stored, or a foreground calibration restarts as well; the status
is read and its counts clear; a foreground calibration that was spoiled waits, any other takes its values; it repeats 1 ms after the
warning cleared, and is deferred; a background window that a condition of R85 spoiled is discarded, any other has its values checked;
values that passed apply together; the corrections of the far end are taken one by one; without an estimate one discard is
counted for each transmit item. -/
def Obligations.CalibrationRowsComplete : Prop :=
  (∀ (pk : Packet) (s : State), starts 0x0222 pk s → plainLen 8 (ctxOf pk s) → modeOpen s → u8 pk.params 0 ≤ 1 →
    u16 pk.params 2 ≤ 0x1FF → zeroAt pk.params 4 4 →
    (u8 pk.params 1 = 0 → exec (.setCalControl pk) s = .next (endsOk pk [] s
      (calUpd (carrierOf (u8 pk.params 0)) (fun x => { x with enable := u16 pk.params 2 }) (begun 0x0222 pk s)))) ∧
    (u8 pk.params 1 = 1 → trafficMode s.mode.cur = false → rxPowered s (carrierOf (u8 pk.params 0)) →
      exec (.setCalControl pk) s = .next (accepts pk s (startForeground (carrierOf (u8 pk.params 0))
        (some (refOf pk s))
        (calUpd (carrierOf (u8 pk.params 0)) (fun x => { x with enable := u16 pk.params 2 }) (begun 0x0222 pk s)))))) ∧
  (∀ (pk : Packet) (s : State), starts 0x0223 pk s → plainLen 4 (ctxOf pk s) → modeOpen s → u8 pk.params 0 ≤ 1 →
    zeroAt pk.params 1 3 →
    ∃ res, exec (.getCalStatus pk) s = .next (endsOk pk res s (calUpd (carrierOf (u8 pk.params 0))
        (fun x => { x with accepted := [], failed := [], discarded := [] }) (begun 0x0223 pk s))) ∧
      res.length = 116 ∧ u16 res 0 = (spireGet s (carrierOf (u8 pk.params 0))).cal.track.stuck % 2 ^ 16 ∧
      u16 res 2 = (spireGet s (carrierOf (u8 pk.params 0))).cal.enableUse % 2 ^ 16) ∧
  (∀ (c : Carrier) (l : List (List Int)) (t : Nat) (s : State), (spireGet s c).cal.fg.running = some t → t ≤ s.now →
    (spireGet s c).cal.fg.spoiled → spireWarn s c →
    exec (.foregroundCalDone c l) s = .next (calUpd c (fun k => { k with
      fg := { k.fg with running := none, waiting := true, spoiled := false, clearAt := none } }) s)) ∧
  (∀ (c : Carrier) (l : List (List Int)) (t : Nat) (s : State), (spireGet s c).cal.fg.running = some t → t ≤ s.now →
    (spireGet s c).cal.fg.spoiled = false →
    exec (.foregroundCalDone c l) s = .next (afterForeground c stOk (calUpd c (fun k =>
      (((List.range 6).zip l).flatMap fun e => ((List.range (calSize e.1)).zip e.2).map fun x => (e.1, x.1, x.2)).foldl
        foregroundValue (keptValues k)) s))) ∧
  (∀ (c : Carrier) (t : Nat) (s : State), (spireGet s c).cal.fg.clearAt = some t → (spireGet s c).cal.fg.waiting →
    spireWarn s c = false →
    exec (.foregroundCalRepeat c) s = .next (startForeground c none (advanceTo (t + msNs) s))) ∧
  (∀ (c : Carrier) (t : Nat) (s : State), (spireGet s c).cal.fg.deferAt = some t →
    (spireGet s c).cal.fg.waiting ∨ (spireGet s c).cal.fg.running ≠ none →
    exec (.calDeferred c) s =
      .next (afterForeground c stSupply (postEv 0x020A [carrierNum c] (calUpd c keptValues (advanceTo t s))))) ∧
  (∀ (c : Carrier) (i : Nat) (l : List Int) (s : State), i < 6 → rxPowered s c → (spireGet s c).cal.fg.running = none →
    (spireGet s c).cal.fg.waiting = false → (spireGet s c).cal.enableUse.testBit i → calLength i ≤ tget 0 (spireGet s c).cal.age i →
    ∀ u : Bool → State, u = (fun b => calUpd c (fun x => { x with spoiled := setBit x.spoiled i b, age := tset 0 x.age i 0 }) s) →
    ((spireGet s c).cal.spoiled.testBit i → calMeasures s c →
      exec (.calWindowClose c i l) s = .next (calUpd c (discardItem i) (u false))) ∧
    (calMeasures s c = false → exec (.calWindowClose c i l) s = .next (calUpd c (discardItem i) (u true))) ∧
    ((spireGet s c).cal.spoiled.testBit i = false → calMeasures s c →
      exec (.calWindowClose c i l) s =
        .next (noteCalStuck c (spireGet s c).cal.track.stuck (calUpd c (checkCalValues i l) (u false))))) ∧
  (∀ (c : Carrier) (i key : Nat) (v : Int) (s : State), rxPowered s c → syncOn s c → (spireGet s c).cal.next = [(key, some v)] →
    key / 1024 = i →
    ∃ t, exec (.calApply c i) s = .next t ∧ (spireGet t c).cal.vals = tset 0 (spireGet s c).cal.vals key v ∧
      (spireGet t c).cal.kept = tset 0 (spireGet s c).cal.kept key v ∧ (spireGet t c).cal.next = []) ∧
  (∀ (c : Carrier) (l : List Int) (s : State), (spireGet s c).cal.est = some l → (txGet s c).state ≠ .off →
    exec (.txCalApply c) s = .next (noteCalStuck c (spireGet s c).cal.track.stuck
      (([6, 7, 8].flatMap fun item => (List.range 4).map fun i => (item, i)).foldl (applyTerm c l)
        (calUpd c (fun k => { k with est := none }) s)))) ∧
  (∀ (c : Carrier) (t : Nat) (s : State), (spireGet s c).cal.txDue = some t → (spireGet s c).cal.est = none → (txGet s c).state ≠ .off →
    exec (.txCalTimeout c) s = .next (calUpd c (fun k => discardItem 8 (discardItem 7 (discardItem 6
      { k with txDue := some (t + txCalSpan) }))) (advanceTo t s)))

/-! Acquisition and equalisation. -/

/-- Where the acquisition commands and their timers complete (R80, R81, R119 to R122): the settings of R119 are stored; the state
of the machine is read and the counters clear; a restart answers ACCEPTED and, without LOS, starts a full cycle or a warm path;
one that waits for a signal ends after 1 s; a tone search runs for its sweep, and the search of a host answers what its bins show. -/
def Obligations.AcquisitionCommandsComplete : Prop :=
  (∀ (pk : Packet) (s : State), starts 0x0230 pk s → plainLen 16 (ctxOf pk s) → modeOpen s → u8 pk.params 0 ≤ 1 →
    u8 pk.params 1 ≤ 2 → u8 pk.params 2 ≤ 15 → 6 ≤ u8 pk.params 3 → u8 pk.params 3 ≤ 16 → (i32 pk.params 4).natAbs ≤ 80000 →
    (u8 pk.params 1 = 2 → ∀ m, cdMax s (carrierOf (u8 pk.params 0)) = some m → (i32 pk.params 4).natAbs ≤ m) →
    100 ≤ u32 pk.params 8 → u32 pk.params 8 ≤ 80000 → 8 ≤ u8 pk.params 12 → u8 pk.params 12 ≤ 128 →
    1 ≤ u8 pk.params 13 → u8 pk.params 13 ≤ 10 →
    u8 pk.params 14 = 0 ∨ u8 pk.params 13 + 6 ≤ u8 pk.params 14 ∧ u8 pk.params 14 ≤ 10 →
    1 ≤ u8 pk.params 15 → u8 pk.params 15 ≤ 50 →
    exec (.setRxDsp pk) s = .next (endsOk pk [] s (eqUpd (carrierOf (u8 pk.params 0)) (fun e => { e with set := {
      cdMode := u8 pk.params 1
      centre := i32 pk.params 4
      half := u32 pk.params 8
      mu := u8 pk.params 3
      cprN := u8 pk.params 12
      freqBw := u8 pk.params 15
      i1 := u8 pk.params 13
      i2 := u8 pk.params 14
      bulk := (u8 pk.params 2).testBit 0
      cross := (u8 pk.params 2).testBit 1
      tone := (u8 pk.params 2).testBit 2
      turbo := (u8 pk.params 2).testBit 3 } }) (begun 0x0230 pk s)))) ∧
  (∀ (pk : Packet) (s : State), starts 0x0232 pk s → plainLen 4 (ctxOf pk s) → modeOpen s → u8 pk.params 0 ≤ 1 →
    zeroAt pk.params 1 3 →
    ∃ res, exec (.getChannelEstimates pk) s = .next (endsOk pk res s (spireUpd (carrierOf (u8 pk.params 0)) (fun x => { x with
        acq := { x.acq with locksLost := 0, cyclesFailed := 0, cdClipped := 0 }
        eq := { x.eq with
          sopPeak := 0, slips := 0, turboDone := 0, dropIter := 0, dropState := 0, turboSkip := 0, singular := 0
          fallbacks := 0, parity := 0 } }) (begun 0x0232 pk s))) ∧
      res.length = 68 ∧ u8 res 0 = acqCode (acqState s (carrierOf (u8 pk.params 0)))) ∧
  (∀ (pk : Packet) (c : Carrier) (s : State), starts 0x0231 pk s → plainLen 4 (ctxOf pk s) → modeOpen s → u8 pk.params 0 ≤ 1 →
    u8 pk.params 1 ≤ 1 → zeroAt pk.params 2 2 → c = carrierOf (u8 pk.params 0) → rxPowered s c →
    (spireGet s c).cal.fg.running = none → (spireGet s c).cal.fg.waiting = false → (spireGet s c).acq.restart = none →
    (lineGet s c).frm.los = false →
    ∀ t : State, t = acqUpd c (fun a => { a with
        restart := some { ref := refOf pk s, start := s.now, times := List.replicate 8 0, waitAt := none }
        warm := none
        warmFine := false
        fullRange := if u8 pk.params 1 = 1 then false else a.fullRange }) (leaveLocked c (begun 0x0231 pk s)) →
      (u8 pk.params 1 = 1 → exec (.restartAcquisition pk) s = .next (accepts pk s (fullCycle c t))) ∧
      (u8 pk.params 1 = 0 → exec (.restartAcquisition pk) s = .next (accepts pk s (warmPath c t)))) ∧
  (∀ (c : Carrier) (r : Restart) (t : Nat) (s : State), (spireGet s c).acq.restart = some { r with waitAt := some t } →
    exec (.waitSignalTimeout c) s = .next (finishRestart c (advanceTo t s))) ∧
  (∀ (pk : Packet) (c : Carrier) (s : State), starts 0x0226 pk s → plainLen 4 (ctxOf pk s) → modeOpen s → u8 pk.params 0 ≤ 1 →
    zeroAt pk.params 1 3 → c = carrierOf (u8 pk.params 0) → rxPowered s c → (spireGet s c).acq.sweep = none →
    exec (.runToneSearch pk) s = .next (accepts pk s (acqUpd c
      (fun a => { a with sweep := some ⟨some (refOf pk s), s.now + sweepNs s c⟩ }) (begun 0x0226 pk s)))) ∧
  (∀ (c : Carrier) (bins : List (List (Nat × Nat))) (t : Nat) (r : Ref) (s : State), (spireGet s c).acq.sweep = some ⟨some r, t⟩ →
    t ≤ s.now → acqState s c ≠ .tone →
    exec (.toneSweepDone c bins) s = .next (complete r stOk
      (le 1 (b2n (toneResult bins).1) ++ le 1 0 ++ le 2 (2 * toneK s c + 1) ++ leS 4 (toneResult bins).2.1
        ++ le 2 (toneResult bins).2.2 ++ le 2 0) (acqUpd c (fun a => { a with sweep := none }) s)))

/-- Where the steps of acquisition complete (R99, R100, R106, R107, R113 to R116): a scan loads its value or the fixed centre and goes on
with FREQ_COARSE, from the fourth attempt with TONE, on a warm path with TIMING; each further measurement leads from its state to
the next, a singular equaliser starts EQ_BLIND again, and a phase error below 0.15 rad gives LOCKED; a state's timeout fails the
attempt, and 5 ms end the warm path; each condition of R116 loses lock. -/
def Obligations.AcquisitionStepsComplete : Prop :=
  (∀ (c : Carrier) (obs : CdObs) (s : State), acqState s c = .cdScan → (spireGet s c).acq.warmFine = false →
    (spireGet s c).eq.use.cdMode ≠ 2 → ∀ t : State, t = acqUpd c (fun a => { a with
        cdStatic := scanValue s c obs
        cands := scanCands s c obs }) s →
      ((spireGet s c).acq.attempt ≠ 4 → exec (.cdScanDone c obs) s = .next (acqEnter c .freqCoarse t)) ∧
      ((spireGet s c).acq.attempt = 4 → exec (.cdScanDone c obs) s = .next (enterTone c t))) ∧
  (∀ (c : Carrier) (obs : CdObs) (m : Nat) (s : State), acqState s c = .cdScan → (spireGet s c).acq.warmFine = false →
    (spireGet s c).eq.use.cdMode = 2 → (spireGet s c).acq.attempt ≠ 4 → cdMax s c = some m →
    exec (.cdScanDone c obs) s = .next (acqEnter c .freqCoarse (acqUpd c (fun a => { a with
      cdStatic := clampInt (-m) m (spireGet s c).eq.use.centre
      cdClipped := if m < (spireGet s c).eq.use.centre.natAbs then satAdd 16 a.cdClipped 1 else a.cdClipped }) s))) ∧
  (∀ (c : Carrier) (obs : CdObs) (s : State), acqState s c = .cdScan → (spireGet s c).acq.warmFine →
    (spireGet s c).eq.use.cdMode ≠ 2 →
    exec (.cdScanDone c obs) s = .next (warmTiming c (acqUpd c (fun a => { a with cdStatic := scanValue s c obs }) s))) ∧
  (∀ (c : Carrier) (k : Int) (s : State), acqState s c = .freqCoarse →
    exec (.freqCoarseDone c k) s =
      .next (enterTiming c (acqUpd c (fun a => { a with coarseKhz := clampInt (-(freqMax s c)) (freqMax s c) k }) s))) ∧
  (∀ (c : Carrier) (o : Int) (s : State), acqState s c = .timing → (spireGet s c).rx.timingLimit = false →
    exec (.timingAcquired c o) s =
      .next (acqEnter c .eqBlind (setTiming c .track (rxUpd c (fun r => { r with clockOffset := o }) s)))) ∧
  (∀ (c : Carrier) (g : Nat) (s : State), acqState s c = .eqBlind →
    exec (.eqConverged c false g) s = .next (acqEnter c .sfSync
      (eqUpd c (fun e => { e with dgd16 := g, engaged := e.engaged || bulkEngages s c g }) s)) ∧
    exec (.eqConverged c true g) s = .next (acqEnter c .eqBlind
      (eqUpd c (fun e => { e with tapGen := e.tapGen + 1, singular := satAdd 16 e.singular 1 }) s))) ∧
  (∀ (c : Carrier) (x y : Bool) (s : State), acqState s c = .sfSync →
    exec (.sfSyncFound c x y) s = .next (acqEnter c .freqFine (acqUpd c (fun a => { a with swapped := x, iqSwapped := y })
      (rxUpd c (fun r => { r with grp := 256, pilots := [], data := [] }) s)))) ∧
  (∀ (c : Carrier) (k : Int) (s : State), acqState s c = .freqFine → clampFine s c k = k →
    exec (.freqFineDone c k) s = .next (acqEnter c .phase (acqUpd c (fun a => { a with fineKhz := k }) s))) ∧
  (∀ (c : Carrier) (e : EstObs) (s : State), acqState s c = .phase → (spireGet s c).rx.timingLimit = false → e.phaseErr < 150 →
    ∃ t u, exec (.locked c e) s = .next (noteSpacing (noteNeighbours u)) ∧
      t = finishRestart c (takeEstimates c e (acqEnter c .locked
        (acqUpd c (fun a => { a with loc := false, fullRange := false, warm := none, warmFine := false }) s))) ∧
      u = if domOn t (fecDom c) then beginHunt c t else t) ∧
  (∀ (c : Carrier) (t : Nat) (s : State), (spireGet s c).acq.deadline = some t →
    exec (.acquisitionTimeout c) s = .next (failAttempt c (advanceTo t s))) ∧
  (∀ (c : Carrier) (t : Nat) (s : State), (spireGet s c).acq.warm = some t → acqTimeout (acqState s c) ≠ none →
    exec (.warmPathTimeout c) s = .next (fullCycle c (advanceTo (t + 5 * msNs) s))) ∧
  (∀ (c : Carrier) (s : State), lockedOn s c →
    exec (.lossOfLock c .phase) s = .next (noteNeighbours (loseLock c false s)) ∧
    exec (.lossOfLock c .lag) s = .next (noteNeighbours (loseLock c false s)) ∧
    exec (.lossOfLock c .singular) s = .next (noteNeighbours (loseLock c false (singularEq c s))) ∧
    ((spireGet s c).rx.timingLimit → exec (.lossOfLock c .timing) s = .next (noteNeighbours (loseLock c false s))) ∧
    ((lineGet s c).frm.los → exec (.lossOfLock c .los) s = .next (noteNeighbours (loseLock c true s))))

/-- Where the rows of equalisation complete (R32, R38, R72 to R74, R99 to R112, R117, R138): the outputs of a working equaliser are compared, and a
singular one loses lock; the spacing is judged; a block moves the resampler within the clamp of its correction, and the bulk
stage of a working equaliser; a group adapts the equaliser and its symbols are taken; EQ_LIMIT is raised, and cleared 10 ms free;
a crosstalk fallback happens and ends; a superframe loads the settings and decides its fill count; a turbo pass ends. -/
def Obligations.EqualiserRowsComplete : Prop :=
  (∀ (c : Carrier) (e : EstObs) (s : State), rxPowered s c → lockedOn s c →
    exec (.eqSingularCheck c false e) s = .next (noteSpacing (takeEstimates c e s)) ∧
    exec (.eqSingularCheck c true e) s = .next (noteNeighbours (loseLock c false (singularEq c s)))) ∧
  (∀ s : State, s.plan.fibre = 1 → lockedOn s .a → lockedOn s .b → (spireGet s .a).eq.est.freq = (spireGet s .b).eq.est.freq →
    s.plan.err = false →
    exec .spacingErr s = .next (noteNeighbours { s with
      plan := { s.plan with measured := s.plan.spacingUse, measValid := true, err := false } })) ∧
  (∀ (c : Carrier) (o : OsaObs) (s : State), rxPowered s c → (spireGet s c).rx.timing = .track →
    ∀ r : Rx, r = resamplerStep (planOf s c).rs256 { (spireGet s c).rx with
        correction := clampInt (-400000) 400000 o.correction
        clockOffset := o.clockOffset
        timingLimit := decide (400000 ≤ o.correction.natAbs) } →
    ∃ t, exec (.overlapSaveBlock c o) s = .next t ∧ (spireGet t c).rx = r ∧
      (acqState s c = .timing → (spireGet t c).eq = (spireGet s c).eq) ∧
      (acqState s c = .locked → (spireGet t c).eq = bulkStep (planOf s c).rs256 o (spireGet s c).eq)) ∧
  (∀ (c : Carrier) (o : GroupObs) (s : State), rxPowered s c →
    ∀ f : Bool, f = decide ((spireGet s c).rx.use.clipThr ≤ min 15 o.clipped) →
      exec (.symbolGroupReceive c o) s = .next (takeGroup c f o (adaptGroup c f o
        (rxUpd c (fun r => { r with groupClip := min 15 o.clipped, groupFlag := f }) (captureFeed 1 c (symBytes o.samples) s))))) ∧
  (∀ (c : Carrier) (s : State), eqActive s c → (spireGet s c).eq.limit = false →
    exec (.eqLimit c true) s =
      .next (post 0x020C true [carrierNum c] (eqUpd c (fun e => { e with limit := true, limitFree := none }) s))) ∧
  (∀ (c : Carrier) (t : Nat) (s : State), eqActive s c → (spireGet s c).eq.limit → (spireGet s c).eq.limitFree = some t →
    (spireGet s c).eq.dgd16 * (planOf s c).rs256 ≤ periods16 36 →
    exec (.eqLimit c false) s = .next (post 0x020C false [carrierNum c]
      (eqUpd c (fun e => { e with limit := false, limitFree := none }) (advanceTo (t + 10 * msNs) s)))) ∧
  (∀ (c : Carrier) (n : Nat) (s : State), s.mode.cur = .twin → rxPowered s c →
    ∀ t : State, t = noteNeighbour c (eqUpd c (fun e => { e with parity := satAdd 32 e.parity n, parityMs := n }) s) →
      crossActs t c → soundNeighbour t (otherCarrier c) = false →
      exec (.xtalkFallback c n) s = .next (postEv 0x020D [carrierNum c] (eqUpd c (fun e => { e with
        crossOn := false, crossGen := 0, fallbacks := satAdd 16 e.fallbacks 1 }) t))) ∧
  (∀ (c : Carrier) (n : Nat) (s : State), s.mode.cur = .twin → rxPowered s c →
    ∀ t : State, t = noteNeighbour c s → (spireGet t c).eq.nbLockedAt = some n → (spireGet t c).eq.crossOn = false →
      (spireGet t c).eq.use.cross →
      exec (.xtalkResume c) s = .next (postEv 0x020E [carrierNum c] (eqUpd c (fun e => { e with crossOn := true, crossGen := 0 })
        (advanceTo (n + msNs) t)))) ∧
  (∀ (c : Carrier) (s : State), rxPowered s c →
    (sfAligned s c = false → exec (.superframeReceive c) s = .next (superframeSettings c s)) ∧
    (sfAligned s c → 256 ≤ (spireGet s c).rx.pilots.length →
      exec (.superframeReceive c) s = .next (rxUpd c (takeFill (planOf s c) (lockedOn s c)) (superframeSettings c s)))) ∧
  (∀ (c : Carrier) (b p : Nat) (r : TurboRun) (s : State), (spireGet s c).eq.turbo = [r] → r.block = b → r.pass = p →
    r.due ≤ s.now → lockedOn s c → (lineGet s c).frm.los = false → (spireGet s c).acq.loc = false →
    exec (.turboPass c b p) s = .next (fecUpd c (refreshBlock b r.fresh)
      (eqUpd c (fun e => { e with turbo := [], turboDone := satAdd 32 e.turboDone 1 }) s)))

/-! The FEC and the framer. -/

/-- Where the rows of the FEC complete (R133 to R149): the settings of R147 are stored, the effective limit is posted when it changes, and
a changed L_dec starts a full hunt of a decoder that is aligned or hunts; thresholds are stored and their runs restart; the status is
read and its counters clear; a block whose two successors have arrived enters the window, iterates there and leaves after L_dec
periods; a hunt ends at a score of at most 1,840, or goes on; a neutral window of FEC-DEG keeps the defect and its runs, one above
the threshold can raise it, and a window of FEC-FAIL can raise that; a throttle step lowers the reduction after the warning. -/
def Obligations.FecRowsComplete : Prop :=
  (∀ (pk : Packet) (k : Carrier) (s : State), starts 0x0301 pk s → plainLen 8 (ctxOf pk s) → modeOpen s → u8 pk.params 0 ≤ 1 →
    1 ≤ u8 pk.params 1 → u8 pk.params 1 ≤ u8 pk.params 2 → 4 ≤ u8 pk.params 2 → u8 pk.params 2 ≤ 16 → 4 ≤ u8 pk.params 3 →
    u8 pk.params 3 ≤ 16 → u8 pk.params 4 ≤ 16 → u8 pk.params 5 ≤ 3 → zeroAt pk.params 6 2 → k = carrierOf (u8 pk.params 0) →
    (u8 pk.params 2 = (lineGet s k).fec.set.lDec ∨ domOn s (fecDom k) = false ∨ trafficMode s.mode.cur = false) →
    ∀ t : State, t = noteIEff k (iEff (lineGet s k).fec)
      (followThrottle k (lineGet s k).fec.set.throttle (fecUpd k (fun f => { f with set := { f.set with
        iMax := u8 pk.params 1
        lDec := u8 pk.params 2
        iFloor := u8 pk.params 3
        clipW := u8 pk.params 4
        early := (u8 pk.params 5).testBit 0
        throttle := (u8 pk.params 5).testBit 1 } }) (begun 0x0301 pk s))) →
    exec (.setFec pk) s = .next (endsOk pk [] s
      (if u8 pk.params 2 ≠ (lineGet s k).fec.set.lDec ∧ ((lineGet s k).fec.aligned ∨ (lineGet s k).fec.hunting) then beginHunt k t
        else t))) ∧
  (∀ (pk : Packet) (s : State), starts 0x0302 pk s → plainLen 20 (ctxOf pk s) → modeOpen s → u8 pk.params 0 ≤ 1 →
    zeroAt pk.params 1 3 → 100 ≤ u32 pk.params 4 → u32 pk.params 4 ≤ 24000 → 50 ≤ u32 pk.params 8 →
    u32 pk.params 8 < u32 pk.params 4 → 1 ≤ u8 pk.params 12 → u8 pk.params 12 ≤ 100 → 1 ≤ u8 pk.params 13 →
    u8 pk.params 13 ≤ 100 → 1 ≤ u16 pk.params 14 → u16 pk.params 14 ≤ 1000 → 1 ≤ u16 pk.params 16 → zeroAt pk.params 18 2 →
    exec (.setFecDefects pk) s = .next (endsOk pk [] s (fecUpd (carrierOf (u8 pk.params 0)) (fun f => { f with
      set := { f.set with
        degSet := u32 pk.params 4
        degClr := u32 pk.params 8
        degWin := u8 pk.params 12
        failSet := u8 pk.params 13
        failClr := u16 pk.params 14
        failCount := u16 pk.params 16 }
      degW := { f.degW with neutral := true, high := 0, low := 0 }
      failW := { f.failW with neutral := true, failing := 0, clean := 0 } }) (begun 0x0302 pk s)))) ∧
  (∀ (pk : Packet) (s : State), starts 0x0303 pk s → plainLen 4 (ctxOf pk s) → modeOpen s → u8 pk.params 0 ≤ 1 →
    zeroAt pk.params 1 3 →
    ∃ res, exec (.getFecStatus pk) s = .next (endsOk pk res s
        (fecUpd (carrierOf (u8 pk.params 0)) (fun f => { f with cnt := {} }) (begun 0x0303 pk s))) ∧
      res.length = 124 ∧ u8 res 1 = iEff (lineGet s (carrierOf (u8 pk.params 0))).fec % 256) ∧
  (∀ (c : Carrier) (x y z : ChanBlock) (r : List ChanBlock) (s : State), alignedOn s c → (lineGet s c).fec.chan = x :: y :: z :: r →
    ∃ t b, exec (.ldpcBlockEnter c) s = .next t ∧ (lineGet t c).fec.window = (lineGet s c).fec.window ++ [b] ∧
      b.num = (lineGet s c).fec.nextBlock ∧ b.iEff = iEff (lineGet s c).fec ∧ b.age = 0 ∧ b.chan = x ∧
      (lineGet t c).fec.nextBlock = (lineGet s c).fec.nextBlock + 1 ∧ (lineGet t c).fec.chan = y :: z :: r) ∧
  (∀ (c : Carrier) (r : DecMem × List DecBlock) (s : State), alignedOn s c →
    (∀ b ∈ (lineGet s c).fec.window, b.age < (lineGet s c).fec.set.lDec) →
    r = iterateWindow (lineGet s c).fec.mem (lineGet s c).fec.window →
    exec (.decoderIterationPeriod c) s = .next (r.2.foldl (fun t b => turboAt c 2 b (turboAt c 1 b t))
      (fecUpd c (fun f => { f with mem := r.1, window := r.2 }) s))) ∧
  (∀ (c : Carrier) (b : DecBlock) (r : List DecBlock) (s : State), (lineGet s c).fec.window = b :: r →
    (lineGet s c).fec.aligned → (lineGet s c).fec.set.lDec ≤ b.age → (leaveObs (lineGet s c).fec b).unsatisfied ≤ 460 →
    ∃ t, exec (.blockLeave c) s = .next t ∧ (lineGet t c).fec.window = r ∧ (lineGet t c).fec.badRun = 0 ∧
      (lineGet t c).fec.aligned = true ∧ (lineGet t c).fec.cnt.blocks = satAdd 64 (lineGet s c).fec.cnt.blocks 1) ∧
  (∀ (c : Carrier) (q : Nat × Nat) (s : State), (lineGet s c).fec.hunting → rawSpan ≤ (lineGet s c).fec.rawLen →
    q = huntBest (lineGet s c).fec →
    (q.2 ≤ 1840 → exec (.fullHuntDone c) s = .next (fecUpd c (fun f => { (takeGrid q.1 f) with hunting := false }) s)) ∧
    (1840 < q.2 → exec (.fullHuntDone c) s = .next (fecUpd c (fun f => { f with
      cnt := { f.cnt with hunts := satAdd 16 f.cnt.hunts 1 } }) s))) ∧
  (∀ (c : Carrier) (t : Nat) (s : State), (lineGet s c).fec.degW.endAt = some t → t ≤ s.now → (lineGet s c).fec.degW.neutral →
    ∃ u, exec (.fecDegWindow c) s = .next u ∧ (lineGet u c).fec.deg = (lineGet s c).fec.deg ∧
      (lineGet u c).fec.degW.endAt = some (t + 10 * msNs) ∧ (lineGet u c).fec.degW.high = (lineGet s c).fec.degW.high ∧
      (lineGet u c).fec.degW.low = (lineGet s c).fec.degW.low ∧ (lineGet u c).fec.degUse = (lineGet s c).fec.set) ∧
  (∀ (c : Carrier) (t : Nat) (f : Fec) (s : State), f = (lineGet s c).fec → f.degW.endAt = some t → t ≤ s.now →
    f.degW.neutral = false → fecSound s c → f.degUse.degSet * f.degW.bits < f.degW.errors * 1000000 →
    f.degUse.degWin ≤ f.degW.high + 1 →
    ∃ u, exec (.fecDegWindow c) s = .next u ∧ (lineGet u c).fec.deg = true ∧
      (lineGet u c).fec.degW.endAt = some (t + 10 * msNs) ∧ (lineGet u c).fec.degW.bits = 0) ∧
  (∀ (c : Carrier) (t : Nat) (f : Fec) (s : State), f = (lineGet s c).fec → f.failW.endAt = some t → t ≤ s.now →
    f.failW.neutral = false → fecSound s c → f.failUse.failCount ≤ f.failW.count → f.failUse.failSet ≤ f.failW.failing + 1 →
    ∃ u, exec (.fecFailWindow c) s = .next u ∧ (lineGet u c).fec.fail = true ∧
      (lineGet u c).fec.failW.endAt = some (t + msNs) ∧ (lineGet u c).fec.failW.count = 0) ∧
  (∀ (c : Carrier) (t : Nat) (s : State), (lineGet s c).fec.throttleAt = some t → t ≤ s.now → s.therm.warn = false →
    ∃ u, exec (.fecThrottle c) s = .next (noteIEff c (iEff (lineGet s c).fec) u) ∧
      (lineGet u c).fec.delta = (lineGet s c).fec.delta - 2)

/-- Where the rows of the framer complete (R153 to R169, R175 to R177): settings and traces are stored and the trace is compared
anew; the status is read and its counters clear; both carriers send the next frame; a good header in HUNT leads to PRESYNC, after
a bad one the search goes on at the next position; the flywheel counts on; an announcement two multiframes ahead comes one nearer
at a boundary. -/
def Obligations.FrameRowsComplete : Prop :=
  (∀ (pk : Packet) (s : State), starts 0x0401 pk s → plainLen 144 (ctxOf pk s) → modeOpen s → u8 pk.params 0 ≤ 1 →
    u8 pk.params 1 ≤ 7 → -500 ≤ i16 pk.params 2 → i16 pk.params 2 ≤ -200 → i16 pk.params 2 + 10 ≤ i16 pk.params 4 →
    i16 pk.params 4 ≤ -150 → 1 ≤ u8 pk.params 6 → u8 pk.params 6 ≤ 100 → zeroAt pk.params 7 1 → 10 ≤ u16 pk.params 8 →
    u16 pk.params 8 ≤ 10000 → zeroAt pk.params 10 6 →
    exec (.setFrameConfig pk) s = .next (endsOk pk [] s (noteTti (carrierOf (u8 pk.params 0))
      (frmUpd (carrierOf (u8 pk.params 0)) (fun f => { f with
        set := {
          losSet := i16 pk.params 2
          losClr := i16 pk.params 4
          tSet := u8 pk.params 6
          tClr := u16 pk.params 8
          bdiIns := (u8 pk.params 1).testBit 0
          ttiCmp := (u8 pk.params 1).testBit 1
          carCheck := (u8 pk.params 1).testBit 2 }
        txTti := slice pk.params 16 64
        expTti := slice pk.params 80 64 }) (begun 0x0401 pk s))))) ∧
  (∀ (pk : Packet) (s : State), starts 0x0402 pk s → plainLen 4 (ctxOf pk s) → modeOpen s → u8 pk.params 0 ≤ 1 →
    zeroAt pk.params 1 3 → ∀ f : Machine.Frm, f = (lineGet s (carrierOf (u8 pk.params 0))).frm →
    ∃ res, exec (.getFrameStatus pk) s = .next (endsOk pk res s
        (frmUpd (carrierOf (u8 pk.params 0)) (fun f => { f with cnt := {} }) (begun 0x0402 pk s))) ∧
      res.length = 64 + (f.trace.accepted.getD (List.replicate 64 0)).length ∧ u8 res 0 = alignCode f.align) ∧
  (∀ s : State, domOn s 2 → s.mode.cur ≠ .regenerate → lineLoop s .a ≠ some 1 → lineLoop s .b ≠ some 1 →
    exec .frameTransmit s = .next (sendFrames 1 (sendOwn .b s.txFc false (sendOwn .a s.txFc false s)))) ∧
  (∀ (c : Carrier) (s : State), framerFed s c → headerReady s c → (lineGet s c).frm.align = .hunt →
    (headerGood (planOf s c).n (nextHeader s c) →
      ∃ t, exec (.frameReceive c) s = .next t ∧ (lineGet t c).frm.align = .presync ∧ (lineGet t c).frm.goodRun = 1 ∧
        (lineGet t c).frm.lastFc = headerFc (nextHeader s c) ∧ (lineGet t c).frm.pos = (lineGet s c).frm.pos) ∧
    (headerGood (planOf s c).n (nextHeader s c) = false →
      ∃ t, exec (.frameReceive c) s = .next t ∧ (lineGet t c).frm.align = .hunt ∧
        (lineGet t c).frm.words = (lineGet s c).frm.words.drop (((lineGet s c).frm.pos + 1) / 16) ∧
        (lineGet t c).frm.pos = ((lineGet s c).frm.pos + 1) % 16)) ∧
  (∀ (c : Carrier) (s : State), domOn s 2 → syncOn s c = false →
    ∃ t, exec (.flywheelTick c) s = .next (noteLegs (countCopy c false (evalDefects c t))) ∧
      (lineGet t c).frm.expFc = ((lineGet s c).frm.expFc + 1) % 2 ^ 24 ∧ (lineGet t c).frm.use = (lineGet s c).frm.set) ∧
  (∀ (c : Carrier) (a : Nat) (s : State), domOn s 2 → (lineGet s c).frm.annPend = some (a, 2) →
    exec (.multiframeBoundaryRx c) s = .next (calUpd c ageWindows (frmUpd c (fun f => { f with annPend := some (a, 1) }) s)))


/-! The host side. -/

/-- Where the commands of the host lanes, PHYs, groups and clients complete (R200 to R208): each stores its settings; a quad whose
lanes follow; a PHY and a binding start afresh; a group with both calendars at 0x0000; the calendar that is not in use takes the
entries; a switch is accepted; the status is read and its counters clear. -/
def Obligations.HostCommandsComplete : Prop :=
  (∀ (pk : Packet) (s : State), starts 0x0E01 pk s → checkSetHostQuad (ctxOf pk s) (begun 0x0E01 pk s) = stOk →
    s.host.quads.length = 10 →
    ∃ t, exec (.setHostQuad pk) s = .next (endsOk pk [] s (applyUsed (settleQuad (u8 pk.params 0)
        (u8 pk.params 1 != (quadGet s (u8 pk.params 0)).rate || u8 pk.params 2 != (quadGet s (u8 pk.params 0)).iface) t))) ∧
      quadGet t (u8 pk.params 0) = { rate := u8 pk.params 1
                                     iface := u8 pk.params 2
                                     enable := u8 pk.params 3
                                     polarity := u8 pk.params 4
                                     precode := u8 pk.params 5 } ∧
      (s.host.rclk.length = 4 → (u8 pk.params 6).testBit 7 →
        t.host.rclk.getD (bits (u8 pk.params 6) 6 5) none = some (u8 pk.params 0, bits (u8 pk.params 6) 1 0)) ∧
      t.host.lanes = s.host.lanes) ∧
  (∀ (pk : Packet) (s : State), starts 0x0E02 pk s → checkSetHostLaneTx (ctxOf pk s) (begun 0x0E02 pk s) = stOk →
    exec (.setHostLaneTx pk) s = .next (endsOk pk [] s (laneUpd (u8 pk.params 0) (fun h => { h with
      taps := [i8 pk.params 1, i8 pk.params 2, i8 pk.params 3, i8 pk.params 4]
      swing := u16 pk.params 6 }) (begun 0x0E02 pk s)))) ∧
  (∀ (pk : Packet) (s : State), starts 0x0E03 pk s → checkSetHostPhy (ctxOf pk s) (begun 0x0E03 pk s) = stOk → u8 pk.params 1 ≠ 0 →
    ∃ t, exec (.setHostPhy pk) s = .next (endsOk pk [] s (applyUsed (notePhy (u8 pk.params 0) t))) ∧
      t.host.phys = tset {} s.host.phys (u8 pk.params 0) { kind := u8 pk.params 1
                                                           type := u8 pk.params 2
                                                           lanes := u8 pk.params 3 } ∧
      t.host.lanes = s.host.lanes) ∧
  (∀ (pk : Packet) (s : State), starts 0x0E04 pk s → checkSetClient (ctxOf pk s) (begun 0x0E04 pk s) = stOk →
    u8 pk.params 0 ≠ 0 → (clientOf s pk.tenant).kind = 0 →
    ∃ t, exec (.setClient pk) s = .next (endsOk pk [] s (pmDrop (pmTen pk.tenant) t)) ∧
      t.host.clients = tset {} s.host.clients pk.tenant { kind := u8 pk.params 0
                                                          place := u8 pk.params 1
                                                          id := u16 pk.params 2
                                                          rfInsert := (u8 pk.params 4).testBit 0 }) ∧
  (∀ (pk : Packet) (s : State), starts 0x0E05 pk s → checkSetFlexeGroup (ctxOf pk s) (begun 0x0E05 pk s) = stOk →
    u8 pk.params 1 ≠ 0 → (groupOf s (u8 pk.params 0)).switch = none → s.host.groups.length = 16 →
    ∃ t, exec (.setFlexeGroup pk) s = .next (endsOk pk [] s t) ∧
      groupOf t (u8 pk.params 0) = { groupOf s (u8 pk.params 0) with
        number := u32 pk.params 4
        phys := listedPhys pk.params
        calA := List.replicate (20 * (instanceNumbers s (listedPhys pk.params)).length) 0
        calB := List.replicate (20 * (instanceNumbers s (listedPhys pk.params)).length) 0 }) ∧
  (∀ (pk : Packet) (s : State), starts 0x0E06 pk s → checkSetFlexeCalendar (ctxOf pk s) (begun 0x0E06 pk s) = stOk →
    ((groupOf s (u8 pk.params 0)).inUse = 0 → s.host.groups.length = 16 →
      ∃ t, exec (.setFlexeCalendar pk) s = .next (endsOk pk [] s t) ∧
        groupOf t (u8 pk.params 0) = { groupOf s (u8 pk.params 0) with calB := writtenCal pk.params }) ∧
    ((groupOf s (u8 pk.params 0)).inUse = 1 → s.host.groups.length = 16 →
      ∃ t, exec (.setFlexeCalendar pk) s = .next (endsOk pk [] s t) ∧
        groupOf t (u8 pk.params 0) = { groupOf s (u8 pk.params 0) with calA := writtenCal pk.params })) ∧
  (∀ (pk : Packet) (s : State), starts 0x0E07 pk s → checkSwitchFlexeCalendar (ctxOf pk s) (begun 0x0E07 pk s) = stOk →
    s.host.groups.length = 16 →
    ∃ t, exec (.switchFlexeCalendar pk) s = .next (accepts pk s t) ∧
      (groupOf t (u8 pk.params 0)).switch = some ⟨refOf pk s, !(u8 pk.params 1).testBit 0,
        (begun 0x0E07 pk s).now + u16 pk.params 2 * msNs, (u8 pk.params 1).testBit 0⟩ ∧
      (groupOf t (u8 pk.params 0)).inUse = (groupOf s (u8 pk.params 0)).inUse) ∧
  (∀ (pk : Packet) (s : State), starts 0x0E08 pk s → checkGetHostStatus (ctxOf pk s) (begun 0x0E08 pk s) = stOk →
    ∃ res t, exec (.getHostStatus pk) s = .next (endsOk pk res s t) ∧ res.length = 72 ∧
      u8 res 0 = b2n (domOn s (quadDom (u8 pk.params 0))) ∧ u8 res 1 = (quadGet s (u8 pk.params 0)).rate % 256 ∧
      (s.host.lanes.length = 40 → ∀ i, i < 4 → (laneGet t (4 * u8 pk.params 0 + i)).failed = 0)) ∧
  (∀ (pk : Packet) (s : State), starts 0x0E09 pk s → checkGetClientStatus (ctxOf pk s) (begun 0x0E09 pk s) = stOk →
    ∃ res t, exec (.getClientStatus pk) s = .next (endsOk pk res s t) ∧ res.length = 32 ∧
      u8 res 0 = (clientOf s pk.tenant).kind % 256 ∧ (tblWf {} s.host.phys → ∀ p, phyFail t p = phyFail s p))

/-- Where the events of the host side complete (R182, R183, R185, R186, R192, R193, R196, R198): foreground adaptation hands over to
background; a window that an open defect spoils is discarded; an accepted value is applied; the defects of a lane and the fault
indications of a client are taken as declared; a codeword received over the lanes of a PHY is decoded, and counts its corrected symbols
or as uncorrectable; a bad overhead frame ends the run of CA; the third CA in a row accepts a switch; an accepted switch changes the calendar; a switch
without CA ends UNREACHABLE. -/
def Obligations.HostEventsComplete : Prop :=
  (∀ (l : Nat) (vs : List (List Int)) (s : State), (laneGet s l).adapt = .foreground → l < s.host.lanes.length →
    ∃ t, exec (.laneForegroundAdaptDone l vs) s = .next (noteLane l t) ∧ (laneGet t l).adapt = .background ∧
      (laneGet t l).fgEnd = none ∧ (laneGet t l).spoiled = false ∧ (laneGet t l).taps = (laneGet s l).taps) ∧
  (∀ (l : Nat) (o : LaneObs) (s : State), (laneGet s l).adapt = .background → laneSpoiled s l →
    exec (.laneAdaptWindow l o) s = .next (laneUpd l (fun h => { h with
      discarded := satAdd 16 h.discarded 1
      spoiled := false
      old := []
      lastMse := none }) s)) ∧
  (∀ (l : Nat) (k : Nat) (v : Int) (s : State), (laneGet s l).adapt = .background → (phyAt s l).isSome → l < s.host.lanes.length →
    (laneGet s l).next = [(k, some v)] →
    ∃ t, exec (.laneAdaptApply l) s = .next t ∧ (laneGet t l).next = [] ∧ (laneGet t l).vals = tset 0 (laneGet s l).vals k v ∧
      (laneGet t l).old = tset none (laneGet s l).old k (some (tget 0 (laneGet s l).vals k))) ∧
  (∀ (l d i : Nat) (s : State), (laneGet s l).adapt ≠ .off →
    exec (.hostDefect (.lane l) d i) s = .next (noteLane l (laneUpd l (fun h => { h with
      los := d.testBit 0
      cdrLol := d.testBit 1
      spoiled := h.spoiled || d.testBit 0 || d.testBit 1 }) s))) ∧
  (∀ (t d i : Nat) (s : State), (clientOf s t).kind ≠ 0 →
    ∃ u, exec (.hostDefect (.client t) d i) s = .next u ∧
      clientOf u t = { clientOf s t with lfRx := i.testBit 0, rfRx := i.testBit 1 }) ∧
  (∀ (p n : Nat) (r : List (List Nat)) (bits : List (List Bool × Nat)) (d : List Nat × Option Nat) (s : State),
    (phyOf s p).kind ≠ 0 → domOn s (quadDom (p / 4)) → (phyOf s p).declared.testBit 2 = false → s.test.laneLoop = [] →
    bits = ((List.range (phyOf s p).lanes).map fun i =>
      takeLevels ((quadGet s ((p + i) / 4)).precode.testBit ((p + i) % 4)) ((quadGet s ((p + i) / 4)).polarity.testBit ((p + i) % 4))
        ((phyOf s p).rxLast.getD i 0) (r.getD i [])) →
    d = hostDecode (fromLanes (phyOf s p).type ((phyOf s p).marks.map fun m => (m.getD (0, 0)).1) (bits.map (·.1))) →
    ∃ t, exec (.rsFecCodeword p r) s = .next t ∧
      (d.2 = some n → 1 ≤ n → (phyOf t p).cwCorr = satAdd 64 (phyOf s p).cwCorr 1 ∧
        (phyOf t p).symCorr = satAdd 64 (phyOf s p).symCorr n ∧ (phyOf t p).cwUncorr = (phyOf s p).cwUncorr) ∧
      (d.2 = none → (phyOf t p).cwCorr = (phyOf s p).cwCorr ∧ (phyOf t p).cwUncorr = satAdd 32 (phyOf s p).cwUncorr 1)) ∧
  (∀ (p : Nat) (oh : FlexeOh) (s : State), (phyOf s p).kind = 2 → oh.ok = false →
    ∃ t, exec (.flexeOverheadFrameRx p oh) s = .next t ∧ (phyOf t p).caRun = 0 ∧ t.ev = s.ev) ∧
  (∀ (p g : Nat) (oh : FlexeOh) (w : FlexSwitch) (s : State), (phyOf s p).kind = 2 → oh.ok → oh.ca → oh.idOk → oh.cal = none →
    oh.ssm = none → (phyOf s p).declared.testBit 6 = false → 2 ≤ (phyOf s p).caRun → groupOfPhy s p = some g →
    (groupOf s g).switch = some w →
    ∃ t, exec (.flexeOverheadFrameRx p oh) s = .next t ∧ (groupOf t g).switch = some { w with accepted := true } ∧
      (groupOf t g).inUse = (groupOf s g).inUse) ∧
  (∀ (g : Nat) (w : FlexSwitch) (s : State), (groupOf s g).switch = some w → w.accepted → (groupOf s g).inUse ≤ 1 →
    exec (.flexeMultiframeBoundary g) s = .next (complete w.ref stOk (le 1 (1 - (groupOf s g).inUse) ++ le 3 0)
      (sendOverhead g (groupUpd g (fun x => { x with inUse := 1 - (groupOf s g).inUse, switch := none }) s)))) ∧
  (∀ (g : Nat) (w : FlexSwitch) (s : State), (groupOf s g).switch = some w → w.accepted = false → w.deadline ≤ s.now →
    exec (.flexeCaTimeout g) s = .next (complete w.ref stUnreachable []
      (sendOverhead g (groupUpd g (fun x => { x with switch := none }) s))))

/-! Tributary mapping. -/

/-- Where the rows of the calendars complete (R227 to R230, R234 to R236): the free buffer of each named carrier takes its 640
entries; a swap that the rules of R229 allow is announced, and one that they forbid names the first failing slot; at the boundary
the named transmitters change buffer; a buffer is read whole. -/
def Obligations.CalendarRowsComplete : Prop :=
  (∀ (pk : Packet) (s : State), starts 0x0410 pk s → checkSetCalendar (ctxOf pk s) (begun 0x0410 pk s) = stOk →
    ∃ res t, exec (.setCalendar pk) s = .next (endsOk pk res s t) ∧ res.length = 2 ∧ t.cal.tx = s.cal.tx ∧ t.cal.rx = s.cal.rx ∧
      (∀ b, (u8 pk.params 0).testBit 0 → bufToWrite s .a = some b → b < 256 →
        u8 res 0 = b ∧ calBuf t .a b = (writtenEntries pk.params 4).filter fun x => x.2 != 0) ∧
      (∀ b, (u8 pk.params 0).testBit 1 → bufToWrite s .b = some b → b < 256 →
        u8 res 1 = b ∧ calBuf t .b b = (writtenEntries pk.params (4 + 1280 * b2n ((u8 pk.params 0).testBit 0))).filter
          fun x => x.2 != 0) ∧
      ((u8 pk.params 0).testBit 0 = false → u8 res 0 = 0xFF ∧ t.cal.t0.a = s.cal.t0.a ∧ t.cal.t1.a = s.cal.t1.a) ∧
      ((u8 pk.params 0).testBit 1 = false → u8 res 1 = 0xFF ∧ t.cal.t0.b = s.cal.t0.b ∧ t.cal.t1.b = s.cal.t1.b)) ∧
  (∀ (pk : Packet) (s : State), starts 0x0411 pk s → checkSwapCalendar (ctxOf pk s) (begun 0x0411 pk s) = stOk →
    (swapFailure s (u8 pk.params 0) = none →
      ∃ t, exec (.swapCalendar pk) s = .next (accepts pk s t) ∧ t.cal = { s.cal with
        swap := some ⟨(u8 pk.params 0).testBit 0, (u8 pk.params 0).testBit 1, refOf pk s, some (boundaryAfter s.txFc)⟩ }) ∧
    (∀ r c i e, swapFailure s (u8 pk.params 0) = some (r, c, i, e) →
      exec (.swapCalendar pk) s = .next (complete (refOf pk s) stBadState
        (le 1 r ++ le 1 (carrierNum c) ++ le 2 i ++ le 2 (entryTen e) ++ le 2 0) (begun 0x0411 pk s)))) ∧
  (∀ (pk : Packet) (s : State), starts 0x0412 pk s → checkGetCalendar (ctxOf pk s) (begun 0x0412 pk s) = stOk →
    ∃ res, exec (.getCalendar pk) s = .next (endsOk pk res s (begun 0x0412 pk s)) ∧ res.length = 1284 ∧
      ∀ i, i < 640 → u16 res (4 + 2 * i) =
        tget 0 (calBuf s (carrierOf (u8 pk.params 0)) (u8 pk.params 1)) i % 65536) ∧
  (∀ (w : Swap) (b : Nat) (s : State), s.cal.swap = some w → w.boundary = some b →
    ∃ t, exec .calendarSwapBoundary s = .next (applyUsed t) ∧ t.cal.swap = none ∧ t.cal.rx = s.cal.rx ∧
      t.cal.tx.a = (if w.carA then 1 - s.cal.tx.a else s.cal.tx.a) ∧
      t.cal.tx.b = (if w.carB then 1 - s.cal.tx.b else s.cal.tx.b))

/-- Where the rows of the tenants complete (R215 to R226, R237, R238): AIS is forced; the status is read and its counters clear; a
period leaves with the pointer of R215 and takes its words from the store; the tenth clean window ends TC-FREQ; a matching period keeps the
interpreter in NORM and advances its expectation; a tag that verifies ends a run of failures. -/
def Obligations.TenantRowsComplete : Prop :=
  (∀ (pk : Packet) (s : State), starts 0x0413 pk s → checkSetTenantControl (ctxOf pk s) (begun 0x0413 pk s) = stOk →
    exec (.setTenantControl pk) s = .next (endsOk pk [] s
      (tenUpd pk.tenant (fun x => { x with forceAis := u8 pk.params 0 == 1 }) (begun 0x0413 pk s)))) ∧
  (∀ (pk : Packet) (s : State), starts 0x0414 pk s → checkGetTenantStatus (ctxOf pk s) (begun 0x0414 pk s) = stOk →
    ∃ res, exec (.getTenantStatus pk) s = .next (endsOk pk res s
        (tenUpd pk.tenant (fun v => { v with cnt := {} }) (begun 0x0414 pk s))) ∧ res.length = 48 ∧
      u8 res 0 = ptrCode (tenGet s pk.tenant).rx.state ∧ u16 res 4 = sizeTx s pk.tenant % 65536 ∧
      u16 res 6 = sizeRx s pk.tenant % 65536 ∧ u32 res 44 = (tenGet s pk.tenant).cnt.jcErr % 2 ^ 32) ∧
  (∀ (t : Nat) (l : List Block66) (v : TenTx) (b : Nat) (s : State), t < 1024 → domOn s 2 → sizeTx s t ≠ 0 →
    (tenGet s t).tx.freq = false → (tenGet s t).tx.resize = 0 → 0 < (tenGet s t).tx.c → v = (tenGet (offerBlocks t l s) t).tx →
    2 * v.c < v.level → v.level < 14 * v.c → b = dataBits v.c (s.txFc / 8 % 256) (chooseJc v.c v.level v.since 0) →
    ∃ u, exec (.pointerPeriodTransmit t l) s = .next u ∧ (tenGet u t).tx.ptr = nextPtr (tenGet s t).tx.ptr b ∧
      (tenGet u t).tx.level = v.level + v.inflow.length - b / 64 ∧ (tenGet u t).tx.fresh = false ∧ (tenGet u t).rx = (tenGet s t).rx) ∧
  (∀ (t : Nat) (o : Int) (s : State), t < 1024 → (clientOf s t).kind ≠ 0 → (tenGet s t).tx.freq → 0 < (tenGet s t).tx.c →
    ∃ u, exec (.tcFreqOffsetWindow t o) s = .next u ∧ (clientOf u t).offset = o ∧
      (19500 < o.natAbs → (tenGet u t).tx.freq = true ∧ (tenGet u t).tx.clean = 0) ∧
      (o.natAbs ≤ 19500 → (tenGet s t).tx.clean < 9 → (tenGet u t).tx.freq = true ∧
        (tenGet u t).tx.clean = (tenGet s t).tx.clean + 1) ∧
      (o.natAbs ≤ 19500 → 9 ≤ (tenGet s t).tx.clean → (tenGet u t).tx.freq = false ∧
        (tenGet u t).tx.level = 8 * (tenGet s t).tx.c)) ∧
  (∀ (t : Nat) (h : Word64 × Bool) (s : State), t < 1024 → domOn s 2 → (tenGet s t).rx.state = .norm →
    (tenGet s t).rx.suppressed = false → h = rxHeader (tenGet s t).rx → acceptH s t h.1 h.2 →
    bits h.1.toNat 47 39 = (tenGet s t).rx.expected →
    ∃ u, exec (.pointerPeriodReceive t) s = .next u ∧ (tenGet u t).rx.state = .norm ∧ (tenGet u t).rx.noMatch = 0 ∧
      (tenGet u t).rx.misRun = 0 ∧ (tenGet u t).rx.expected = nextPtr (tenGet s t).rx.expected
        (dataBits (tenGet s t).rx.c (rxPeriodFc s t / 8 % 256) (majorityJc h.1).1)) ∧
  (∀ (t : Nat) (g : Word64) (m : PeriodMark) (l : List Nat) (s : State), (tenGet s t).rx.held = some m →
    periodTag (tenGet s t).rx m = some g → (tenGet s t).rx.state = .norm → (tenGet s t).rx.suppressed = false →
    l = tagCandidates (keySlot s t) m g → (tagVerdict t l s).1 → (tagVerdict t l s).2.1 = false →
    ∃ u, exec (.tagCheckResult t) s = .next u ∧ (tenGet u t).rx.held = none ∧ (tenGet u t).rx.authFails = 0 ∧
      (tenGet u t).cnt.authFail = (tenGet s t).cnt.authFail)


/-! Skew buffers and merge. -/

/-- Where the rows of the skew buffers complete (R239 to R245, R258, R259, R261): settings wait for the next multiframe; the status
is read and its counters clear; a skew beyond the limit of the mode enters EXCESS, and 100 ms within it end EXCESS; an ALIGNED
pair holds its schedule where no arrival is known, and with equal arrivals on its target it reads one period later. -/
def Obligations.SkewRowsComplete : Prop :=
  (∀ (pk : Packet) (s : State), starts 0x0501 pk s → checkSetSkewConfig (ctxOf pk s) (begun 0x0501 pk s) = stOk →
    ∃ t, exec (.setSkewConfig pk) s = .next (endsOk pk [] s t) ∧ t.skew = { s.skew with
      set := { s.skew.set with
        guard := u16 pk.params 0
        ramp := u8 pk.params 2
        jump := u8 pk.params 3 == 1 } }) ∧
  (∀ (pk : Packet) (s : State), starts 0x0503 pk s → checkGetSkewStatus (ctxOf pk s) (begun 0x0503 pk s) = stOk →
    ∃ res t, exec (.getSkewStatus pk) s = .next (endsOk pk res s t) ∧ res.length = 32 ∧ u8 res 0 = groupCode s.skew.state ∧
      i32 res 4 = (BitVec.ofInt 32 s.skew.value).toInt ∧ u16 res 20 = s.skew.steps % 65536 ∧ t.skew = { s.skew with
        steps := 0
        excess := 0
        unaligned := 0
        domeUncorr := 0 }) ∧
  (∀ (x : Int) (s : State), domOn s 2 → syncOn s .a → syncOn s .b → trafficMode s.mode.cur →
    ((roundDiv x 256).natAbs ≤ skewLimit s.mode.cur → s.skew.state ≠ .excess →
      ∃ t, exec (.skewUpdate x) s = .next t ∧ t.skew = { s.skew with use := s.skew.set, value := roundDiv x 256, valid := true }) ∧
    (skewLimit s.mode.cur < (roundDiv x 256).natAbs → s.skew.state ≠ .off → s.skew.state ≠ .excess →
      ∃ t, exec (.skewUpdate x) s = .next (enterExcess t) ∧ t.skew = { s.skew with
        use := s.skew.set
        value := roundDiv x 256
        valid := true
        within := none })) ∧
  (∀ (t : Nat) (s : State), s.skew.state = .excess → s.skew.within = some t → t + 100 * msNs ≤ s.now → s.skew.alarm →
    ∃ u, exec .excessEnd s = .next u ∧ u.skew = { s.skew with state := .ramp, alarm := false, within := none }) ∧
  (∀ (fc : Nat) (t : Int) (s : State), domOn s 2 → s.mode.cur ≠ .merge → rampingDown s = false → s.skew.state = .aligned →
    s.skew.sched.a = some t →
    ∃ u, exec (.scheduleFrameRead fc none none) s = .next u ∧ u.skew.state = .aligned ∧
      u.skew.readFc = ⟨fc % 2 ^ 24, fc % 2 ^ 24⟩ ∧
      u.skew.sched.a = some (t + fcDist s.skew.readFc.a (fc % 2 ^ 24) * frameUnits) ∧ u.skew.sched.b = u.skew.sched.a) ∧
  (∀ (fc : Nat) (t arr : Int) (s : State), domOn s 2 → syncOn s .a → syncOn s .b → s.mode.cur ≠ .merge → rampingDown s = false →
    s.skew.state = .aligned → s.skew.sched.a = some t → fcDist s.skew.readFc.a (fc % 2 ^ 24) = 1 →
    arr * unitNs + guardUnits s = t + frameUnits →
    ∃ u, exec (.scheduleFrameRead fc (some arr) (some arr)) s = .next u ∧ u.skew.state = .aligned ∧
      u.skew.sched = ⟨some (t + frameUnits), some (t + frameUnits)⟩ ∧ u.skew.toTarget = 0)

/-- Where the rows of the merge complete (R249 to R253, R260, R262): mode and wait-to-restore apply at once; the status is read and
its counters clear; a good copy on the selected leg is taken and the FC moves on; the hold of a leg and the wait-to-restore
end. -/
def Obligations.MergeRowsComplete : Prop :=
  (∀ (pk : Packet) (s : State), starts 0x0502 pk s → checkSetMergeConfig (ctxOf pk s) (begun 0x0502 pk s) = stOk →
    ∃ t, exec (.setMergeConfig pk) s = .next (endsOk pk [] s t) ∧ t.skew.use.mode = u8 pk.params 0 ∧
      t.skew.use.wtr = u16 pk.params 2 ∧ t.skew.set.mode = u8 pk.params 0 ∧ t.skew.set.wtr = u16 pk.params 2 ∧
      t.skew.use.guard = s.skew.use.guard ∧ t.mrg.prefA = false ∧ t.mrg.selB = s.mrg.selB) ∧
  (∀ (pk : Packet) (s : State), starts 0x0504 pk s → checkGetMergeStatus (ctxOf pk s) (begun 0x0504 pk s) = stOk →
    ∃ res t, exec (.getMergeStatus pk) s = .next (endsOk pk res s t) ∧ res.length = 48 ∧
      (s.mode.cur ≠ .merge → ∀ i, i < 8 → u8 res i = 0) ∧
      (s.mode.cur = .merge → u8 res 0 = b2n s.mrg.selB ∧ u8 res 2 = s.mrg.legs.a.reason % 256) ∧
      t.mrg = { s.mrg with
        switches := 0
        slips := 0
        losses := 0
        skipped := 0
        absent := 0
        badTaken := 0 }) ∧
  (∀ (fc l : Nat) (x : HeldFrame) (s : State), s.mode.cur = .merge → domOn s 2 → slipDue s = false → s.mrg.lastFc = some l →
    0 < fcDist l (fc % 2 ^ 24) → s.skew.use.mode = 0 → s.mrg.selB = false → s.mrg.legs.a.eligible →
    heldFrame s .a (fc % 2 ^ 24) = some x → x.good → x.ann = none → s.mrg.loss = false →
    ∃ t, exec (.mergeFrameSelect fc) s = .next t ∧ t.mrg = { s.mrg with
      lastFc := some (fc % 2 ^ 24)
      absentRun := 0
      goodRun := s.mrg.goodRun + 1 }) ∧
  (∀ (c : Carrier) (t : Nat) (s : State), (legGet s c).holdAt = some t → t ≤ s.now →
    ∃ u, exec (.legQualificationHoldExpiry c) s = .next u ∧ legGet u c = { legGet s c with holdAt := none } ∧
      legGet u (otherCarrier c) = legGet s (otherCarrier c)) ∧
  (∀ (t : Nat) (s : State), s.mrg.legs.a.eligSince = some t → s.mode.cur = .merge → s.skew.use.mode = 1 →
    t + s.skew.use.wtr * secNs ≤ s.now →
    ∃ u, exec .mergeWtrExpiry s = .next u ∧ u.mrg = { s.mrg with prefA := true } ∧ u.skew = s.skew)

/-! Performance monitoring. -/

/-- Where the commands of performance monitoring complete (R283 to R288): settings, thresholds and profiles are stored; the open bins
of an entity, a closed one and the link quality are read. -/
def Obligations.PmCommandsComplete : Prop :=
  (∀ (pk : Packet) (s : State), starts 0x0601 pk s → checkSetPmConfig (ctxOf pk s) (begun 0x0601 pk s) = stOk →
    ∃ t, exec (.setPmConfig pk) s = .next (endsOk pk [] s t) ∧ t.pm = { s.pm with
      dma := u8 pk.params 0
      delivery := (u8 pk.params 1).testBit 0
      history := (u8 pk.params 1).testBit 1
      dayOff := u16 pk.params 2
      snrTrx := ⟨u16 pk.params 4, u16 pk.params 6⟩ }) ∧
  (∀ (pk : Packet) (s : State), starts 0x0602 pk s → checkSetPmThresholds (ctxOf pk s) (begun 0x0602 pk s) = stOk →
    tblWf 0 s.pm.thr →
    ∃ t, exec (.setPmThresholds pk) s = .next (endsOk pk [] s t) ∧
      (∀ i, i < 16 → tget 0 t.pm.thr (16 * u8 pk.params 0 + i) = u32 pk.params (4 + 4 * i)) ∧
      (∀ k, k / 16 ≠ u8 pk.params 0 → tget 0 t.pm.thr k = tget 0 s.pm.thr k)) ∧
  (∀ (pk : Packet) (s : State), starts 0x0603 pk s → checkSetPmProfile (ctxOf pk s) (begun 0x0603 pk s) = stOk →
    ∃ t, exec (.setPmProfile pk) s = .next (endsOk pk [] s t) ∧ t.pm = { s.pm with
      profile := tset 0 s.pm.profile (if u8 pk.params 0 = 0 then u8 pk.params 1 else 2 + pk.tenant) (u8 pk.params 2) }) ∧
  (∀ (pk : Packet) (s : State), starts 0x0604 pk s → checkGetPmCurrent (ctxOf pk s) (begun 0x0604 pk s) = stOk →
    ∃ res, exec (.getPmCurrent pk) s = .next (endsOk pk res s (begun 0x0604 pk s)) ∧ res.length = 256 ∧
      u8 res 0 = u8 pk.params 0 ∧ u8 res 1 = 0 ∧ u8 res 129 = 1) ∧
  (∀ (pk : Packet) (s : State) (r : List Byte), starts 0x0605 pk s →
    checkGetPmHistory (ctxOf pk s) (begun 0x0605 pk s) = stOk →
    historyRead s (if u8 pk.params 0 = 0 then u8 pk.params 1 else 2 + pk.tenant) (u8 pk.params 2) (u16 pk.params 4) = some r →
    exec (.getPmHistory pk) s = .next (endsOk pk r s (historyTaken (begun 0x0605 pk s)))) ∧
  (∀ (pk : Packet) (s : State), starts 0x0606 pk s → checkGetLinkQuality (ctxOf pk s) (begun 0x0606 pk s) = stOk →
    ∃ res t, exec (.getLinkQuality pk) s = .next (endsOk pk res s t) ∧ res.length = 32 ∧ t.pm = s.pm ∧
      (u8 res 0).testBit 0 = (pget s.pm.lq (carrierOf (u8 pk.params 0))).valid ∧
      ((pget s.pm.lq (carrierOf (u8 pk.params 0))).valid →
        u16 res 2 = (pget s.pm.lq (carrierOf (u8 pk.params 0))).snrX % 65536 ∧
        u32 res 16 = (pget s.pm.lq (carrierOf (u8 pk.params 0))).ber % 2 ^ 32))

/-- Where the events of performance monitoring complete (R264, R268 to R270, R275): a second ends and the next one runs, counted or
frozen; a pending second settles into its bins; a bin whose time has come is posted with the next sequence number and leaves. -/
def Obligations.PmEventsComplete : Prop :=
  (∀ (ax ay bx byy : Nat) (s : State), domOn s 2 → s.pm.frozen = false →
    ∃ t, exec (.pmSecondEnd ax ay bx byy) s = .next t ∧ t.pm.curSec = s.pm.curSec + 1 ∧ (lineGet t .a).fec.sec = {} ∧
      (lineGet t .b).fec.sec = {} ∧ t.pm.lq.a.iEff = iEff (lineGet s .a).fec ∧ t.pm.seq = s.pm.seq) ∧
  (∀ (ax ay bx byy : Nat) (s : State), domOn s 2 → s.pm.frozen → s.pm.resumeAt = none →
    ∃ t, exec (.pmSecondEnd ax ay bx byy) s = .next t ∧ t.pm = { s.pm with curSec := s.pm.curSec + 1 }) ∧
  (∀ (e : Nat) (x : PmEntity) (p : PmSecond) (s : State), s.pm.ents = [(e, x)] → x.pend = [p] → s.pm.thr = [] →
    (p.sec + 11) * secNs ≤ s.tod →
    ∃ t, exec .pmSecondSettle s = .next t ∧ (tget {} t.pm.ents e).pend = [] ∧
      (tget {} t.pm.ents e).bins15 = updBin p.sec (addSecond (decide (e < 2)) p) x.bins15 ∧
      (tget {} t.pm.ents e).bins24 = updBin p.sec (addSecond (decide (e < 2)) p) x.bins24) ∧
  (∀ (e : Nat) (x : PmEntity) (b : PmBin) (s : State), s.pm.ents = [(e, x)] → x.pend = [] → x.bins15 = [b] → x.bins24 = [] →
    b.endAt ≤ s.pm.curSec → b.elapsed ≠ 0 → (b.endAt + 10) * secNs ≤ s.tod →
    ∃ t, exec .pmBinClose s = .next t ∧ (tget {} t.pm.ents e).bins15 = [] ∧ t.pm.seq = (s.pm.seq + 1) % 2 ^ 32)

/-! The Turret. -/

/-- Where the commands of the Turret complete (R314 to R321): an exchange, a generation and a rotation are accepted and wait; a wrapped
key is loaded with both counts at 0 and its salts as the peer flag says; registers are zeroised; settings are stored; the status
of a slot and of the Turret is read and its counters clear. -/
def Obligations.TurretCommandsComplete : Prop :=
  (∀ (pk : Packet) (s : State), starts 0x0701 pk s → checkEstablishKek (ctxOf pk s) (begun 0x0701 pk s) = stOk →
    ∃ t, exec (.establishKek pk) s = .next (accepts pk s t) ∧ t.turret = { s.turret with
      jobs := s.turret.jobs ++ [⟨refOf pk s, true, 0, pk.params, s.now + 100 * msNs⟩] }) ∧
  (∀ (pk : Packet) (s : State) (l : List Byte), starts 0x0702 pk s → checkLoadKey (ctxOf pk s) (begun 0x0702 pk s) = stOk →
    keyUnwrap (kekAt s (u8 pk.params 1)).k1 (slice pk.params 4 56) = some l →
    ∃ t r, exec (.loadKey pk) s = .next (endsOk pk [] s t) ∧
      r = keyReg (keySlot t pk.tenant) (targetReg (keySlot s pk.tenant) (u8 pk.params 0)) ∧
      r.state = 1 ∧ r.k1 = l.take 32 ∧ r.wTx = 0 ∧ r.wRx = 0 ∧ r.invoc = 0 ∧ r.keyId = beNat (slice l 44 4) ∧
      ((u8 pk.params 2).testBit 0 = false → r.saltTx = beNat (slice l 32 4) ∧ r.saltRx = beNat (slice l 36 4)) ∧
      ((u8 pk.params 2).testBit 0 → r.saltTx = beNat (slice l 36 4) ∧ r.saltRx = beNat (slice l 32 4))) ∧
  (∀ (pk : Packet) (s : State), starts 0x0703 pk s → checkGenerateKey (ctxOf pk s) (begun 0x0703 pk s) = stOk →
    ∃ t, exec (.generateKey pk) s = .next (accepts pk s t) ∧ t.turret = { s.turret with
      jobs := s.turret.jobs ++ [⟨refOf pk s, false, pk.tenant, pk.params, s.now + 100 * msNs⟩] }) ∧
  (∀ (pk : Packet) (s : State), starts 0x0704 pk s → checkRotateKey (ctxOf pk s) (begun 0x0704 pk s) = stOk →
    ∃ t, exec (.rotateKey pk) s = .next (accepts pk s t) ∧ t.turret = { s.turret with
      rotations := s.turret.rotations ++ [⟨pk.tenant, u64 pk.params 0, refOf pk s⟩] }) ∧
  (∀ (pk : Packet) (s : State), starts 0x0705 pk s → checkEraseKey (ctxOf pk s) (begun 0x0705 pk s) = stOk →
    (u8 pk.params 0 = 0 → exec (.eraseKey pk) s = .next (endsOk pk [] s
      (keyUpd pk.tenant (fun k => setReg k (1 - k.pTx) {}) (begun 0x0705 pk s)))) ∧
    (u8 pk.params 0 ≠ 0 → exec (.eraseKey pk) s = .next (endsOk pk [] s
      (keyUpd pk.tenant (fun k => { k with r0 := {}, r1 := {} }) (begun 0x0705 pk s))))) ∧
  (∀ (pk : Packet) (s : State), starts 0x0706 pk s → checkSetTenantCipher (ctxOf pk s) (begun 0x0706 pk s) = stOk →
    ∃ t, exec (.setTenantCipher pk) s = .next (endsOk pk [] s t) ∧ t.turret = { s.turret with
      cipher := tset {} s.turret.cipher pk.tenant ⟨u8 pk.params 0, u8 pk.params 1⟩ }) ∧
  (∀ (pk : Packet) (s : State), starts 0x0707 pk s → checkGetKeyStatus (ctxOf pk s) (begun 0x0707 pk s) = stOk →
    ∃ res, exec (.getKeyStatus pk) s = .next (endsOk pk res s
        (keyUpd (u16 pk.params 0) (fun k => { k with hunts := 0, missing := 0 }) (begun 0x0707 pk s))) ∧ res.length = 40 ∧
      u8 res 0 = ((keySlot s (u16 pk.params 0)).r0.state + 4 * (keySlot s (u16 pk.params 0)).r1.state) % 256 ∧
      (1024 ≤ u16 pk.params 0 → u64 res 28 = 0)) ∧
  (∀ (pk : Packet) (s : State), starts 0x0708 pk s → checkGetTurretStatus (ctxOf pk s) (begun 0x0708 pk s) = stOk →
    ∃ res t, exec (.getTurretStatus pk) s = .next (endsOk pk res s t) ∧ res.length = 48 ∧ u8 res 0 = s.turret.rng % 256 ∧
      u8 res 2 = s.turret.fenced.length % 256 ∧ t.turret = { s.turret with
        healthFails := 0
        entropy := 0
        miss := 0
        keepCorr := 0
        keepUncorr := 0 })

/-- Where the events of the Turret complete (R291, R292, R295, R300, R302, R305, R307, R310, R311): a served period counts an
invocation; a missed one is counted; a pipeline is fenced; an error in the Keep is corrected, or the register is at fault; a
rotation flips the phase; a KEK is established and a key generated; 100 ms without entropy end a command; raw samples run
through the health tests, whose failure blocks; the third retest fails and a pass unblocks; the masks are rekeyed. -/
def Obligations.TurretEventsComplete : Prop :=
  (∀ (t : Nat) (x : Bool) (s : State), t < 1024 → (domOn s 25 || domOn s 26) →
    ∃ u, exec (.framerCipherRequest t x false) s = .next u ∧ u.turret = { s.turret with miss := satAdd 32 s.turret.miss 1 }) ∧
  (∀ (t : Nat) (s : State), t < 1024 → (domOn s 25 || domOn s 26) → (keyReg (keySlot s t) (keySlot s t).pTx).state = 1 →
    ∃ u, exec (.framerCipherRequest t true true) s = .next u ∧ (keySlot u t).pTx = (keySlot s t).pTx ∧
      (keyReg (keySlot u t) (keySlot s t).pTx).invoc = ((keyReg (keySlot s t) (keySlot s t).pTx).invoc + 1) % 2 ^ 64 ∧
      u.turret.miss = s.turret.miss) ∧
  (∀ (p : Nat) (s : State), p < 128 → s.turret.fenced.contains p = false → domOn s (if p < 64 then 25 else 26) →
    ∃ u, exec (.pipeFenced p) s = .next (noteCapacity (postEv 0x0701 [p] u)) ∧
      u.turret = { s.turret with fenced := s.turret.fenced ++ [p] }) ∧
  (∀ (k r : Nat) (s : State), k < 1056 → r < 2 → (domOn s 25 || domOn s 26) →
    (∃ u, exec (.keepEccError k r .corrected) s = .next u ∧
      u.turret = { s.turret with keepCorr := satAdd 32 s.turret.keepCorr 1 }) ∧
    (∃ u, exec (.keepEccError k r .bothCopies) s = .next (postEv 0x0703 [k] u) ∧ (keyReg (keySlot u k) r).state = 2) ∧
    (turretOn s → ∃ u, exec (.keepEccError k r .oneCopy) s = .next u ∧
      u.turret = { s.turret with keepUncorr := satAdd 32 s.turret.keepUncorr 1 })) ∧
  (∀ (t fc : Nat) (r : Rotation) (s : State), s.turret.rotations = [r] → r.tenant = t → r.at_ * secNs ≤ s.tod →
    (keySlot s t).pTx ≤ 1 →
    ∃ u, exec (.keyRotated t fc) s = .next (postEv 0x0705 [t, fc % 2 ^ 24]
        (complete r.ref stOk (le 4 (fc % 2 ^ 24) ++ le 1 (1 - (keySlot s t).pTx) ++ le 3 0) u)) ∧
      (keySlot u t).pTx = 1 - (keySlot s t).pTx ∧ (keyReg (keySlot u t) (1 - (keySlot s t).pTx)).wTx = 0 ∧
      u.turret.rotations = []) ∧
  (∀ (j : KeyJob) (s : State), s.turret.jobs = [j] → j.kek → s.turret.rng = 0 →
    ∃ res u, exec .kekEstablished s = .next (complete j.ref stOk res u) ∧ u.turret.jobs = [] ∧ u.turret.calls = 1 ∧
      (kekAt u (u8 j.params 0)).state = 1 ∧ res.drop 100 = kekCheck (kekAt u (u8 j.params 0)).k1) ∧
  (∀ (t : Nat) (j : KeyJob) (s : State), s.turret.jobs = [j] → j.kek = false → j.tenant = t → s.turret.rng = 0 →
    ∃ res u r, exec (.keyGenerated t) s = .next (complete j.ref stOk res u) ∧ u.turret.jobs = [] ∧ 3 ≤ u.turret.calls ∧
      r = keyReg (keySlot u t) (targetReg (keySlot s t) (u8 j.params 0)) ∧ r.state = 1 ∧ r.keyId = u32 j.params 4 ∧
      r.saltTx ≠ r.saltRx ∧ res = keyWrap (kekAt s (u8 j.params 1)).k1
        (r.k1 ++ be 4 r.saltTx ++ be 4 r.saltRx ++ be 4 t ++ be 4 r.keyId)) ∧
  (∀ (j : KeyJob) (s : State), s.turret.jobs = [j] → s.turret.rng ≠ 0 → s.turret.domeDraw = none → j.deadline ≤ s.now →
    ∃ u, exec .entropyTimeout s = .next (complete j.ref stEntropy [] u) ∧
      u.turret = { s.turret with jobs := [], entropy := satAdd 32 s.turret.entropy 1 }) ∧
  (∀ (l : List Bool) (s : State),
    ((noiseRun l s.turret.noise).2 = false → ∃ u, exec (.trngHealthFail l) s = .next u ∧
      u.turret = { s.turret with noise := (noiseRun l s.turret.noise).1 }) ∧
    ((noiseRun l s.turret.noise).2 → s.turret.rng = 0 → s.turret.degraded → ∃ u, exec (.trngHealthFail l) s = .next u ∧
      u.turret = { s.turret with
        rng := 1
        retests := 0
        retestAt := some (s.now + 10 * msNs)
        healthFails := satAdd 32 s.turret.healthFails 1
        fixed := true
        noise := {}
        orders := u.turret.orders })) ∧
  (∀ (t : Nat) (l : List Bool) (s : State), s.turret.retestAt = some t → t ≤ s.now → s.turret.rng = 1 → s.turret.domeDraw = none →
    (startupOk l → ∃ u, exec (.trngRetest l) s = .next u ∧
      u.turret = { s.turret with rng := 0, retests := 0, retestAt := none, calls := 0, drbg := u.turret.drbg }) ∧
    (startupOk l = false → s.turret.retests < 2 → ∃ u, exec (.trngRetest l) s = .next u ∧
      u.turret = { s.turret with retests := s.turret.retests + 1, retestAt := some (t + 10 * msNs) }) ∧
    (startupOk l = false → 2 ≤ s.turret.retests → ∃ u, exec (.trngRetest l) s = .next u ∧ u.turret.rng = 2 ∧
      u.turret.retestAt = some (t + 10 * secNs))) ∧
  (∀ s : State, domOn s 25 → domOn s 26 → s.turret.rng = 0 → s.turret.drbg.1 ≠ [] → s.turret.calls < 4094 → s.turret.degraded = false →
    s.turret.maskAt + msNs ≤ s.now →
    ∃ u, exec .maskRekey s = .next u ∧ u.turret.calls = s.turret.calls + 2 ∧ u.turret.maskAt = s.now ∧
      (keySlot u slotMask).r0.state = 1 ∧ (keySlot u (slotMask + 1)).r0.state = 1)

/-! Stored data. -/

/-- Where the commands of stored-data protection complete (R345 to R349): settings are stored; the status of a target and the log of
a stack are read and cleared; an entry is released and a line or word remapped; a row repair is accepted. -/
def Obligations.MemoryCommandsComplete : Prop :=
  (∀ (pk : Packet) (s : State), starts 0x0801 pk s → checkSetMemoryConfig (ctxOf pk s) (begun 0x0801 pk s) = stOk →
    ∃ t, exec (.setMemoryConfig pk) s = .next (endsOk pk [] s t) ∧ t.mem = { s.mem with
      domePeriod := u32 pk.params 0
      sramPeriod := u16 pk.params 4
      thr := u8 pk.params 6
      domeScrub := (u8 pk.params 7).testBit 0
      sramScrub := (u8 pk.params 7).testBit 1
      autoRemap := (u8 pk.params 7).testBit 2 }) ∧
  (∀ (pk : Packet) (s : State), starts 0x0802 pk s → checkGetMemoryStatus (ctxOf pk s) (begun 0x0802 pk s) = stOk →
    ∃ res, exec (.getMemoryStatus pk) s = .next (endsOk pk res s (scrubUpd (u8 pk.params 0) (fun x => { x with
        corrected := 0
        uncorr := 0
        passes := 0
        retiredCount := 0
        overflow := 0 }) (begun 0x0802 pk s))) ∧ res.length = 32 ∧
      (u8 res 0).testBit 0 = domOn s (targetDom (u8 pk.params 0)) ∧
      u32 res 4 = (targetScrub s (u8 pk.params 0)).corrected % 2 ^ 32) ∧
  (∀ (pk : Packet) (s : State), starts 0x0803 pk s → checkGetCeLog (ctxOf pk s) (begun 0x0803 pk s) = stOk →
    ∃ res t, exec (.getCeLog pk) s = .next (endsOk pk res s t) ∧ res.length = 260 ∧
      u8 res 0 = (domeGet s (u8 pk.params 0)).log.length % 256 ∧
      (domeGet t (u8 pk.params 0)).log = (if (u8 pk.params 1).testBit 0 then [] else (domeGet s (u8 pk.params 0)).log)) ∧
  (∀ (pk : Packet) (s : State), starts 0x0804 pk s → checkSetRemap (ctxOf pk s) (begun 0x0804 pk s) = stOk →
    ∃ t, exec (.setRemap pk) s = .next (endsOk pk [] s t) ∧
      (u8 pk.params 0 ≤ 1 → (domeGet s (u8 pk.params 0)).remap.length = 16 →
        (u8 pk.params 1 = 0 → (domeGet t (u8 pk.params 0)).remap.getD (u8 pk.params 2) {} = {}) ∧
        (u8 pk.params 1 = 1 → (domeEntry t (u8 pk.params 0) (u32 pk.params 4)).isSome)) ∧
      (1 < u8 pk.params 0 → s.mem.regions.length = 14 → (regionGet s (u8 pk.params 0 - 16)).remap.length = 8 →
        (u8 pk.params 1 = 0 → (regionGet t (u8 pk.params 0 - 16)).remap.getD (u8 pk.params 2) {} = {}) ∧
        (u8 pk.params 1 = 1 → (regionGet t (u8 pk.params 0 - 16)).remap.any fun e => e.valid && e.addr == u32 pk.params 4))) ∧
  (∀ (pk : Packet) (s : State), starts 0x0805 pk s → checkRepairRow (ctxOf pk s) (begun 0x0805 pk s) = stOk →
    ∃ t, exec (.repairRow pk) s = .next (accepts pk s t) ∧ t.mem = { s.mem with
      repair := some ⟨refOf pk s, u8 pk.params 0, u8 pk.params 1, u8 pk.params 2, u16 pk.params 4⟩ })

/-- Where the events of stored-data protection complete (R308, R322, R329, R331, R332, R334, R338, R340, R342): a sector is written
and read whole, or given as lost; lines are written and read; a stack becomes ready and is refreshed; a scrub pass starts, visits
and is late; an uncorrectable on-die word is remapped; a row repair ends. -/
def Obligations.MemoryEventsComplete : Prop :=
  (∀ (k : Nat) (d : List Byte) (s : State), k < 2097152 → sectorUsable s k →
    (∃ t, exec (.domeCipherRequest k true d) s = .next (sectorWrite k d t) ∧ t.mem = s.mem) ∧
    (sectorPoisoned s k = false → ∃ t, exec (.domeCipherRequest k false d) s = .next t ∧
      t.mem = { s.mem with given := some ⟨k, sectorPlain s k, false⟩ }) ∧
    (sectorPoisoned s k → ∃ t, exec (.domeCipherRequest k false d) s = .next (frameSectorLost k t) ∧
      t.mem = { s.mem with given := some ⟨k, zeroBytes, true⟩ }) ∧
    (∃ t, exec (.domeSectorTimeout k) s = .next (frameSectorLost k t) ∧
      t.mem = { s.mem with given := some ⟨k, zeroBytes, true⟩ })) ∧
  (∀ (k a : Nat) (s : State), k < 2 → a < 2 ^ 26 → domOn s (stackDom k) → (domeGet s k).ready →
    (∀ d, exec (.domeLineOperation k a (.write d)) s = .next (lineWrite k a d s)) ∧
    ((domeEntry s k a).isNone → ∃ t, exec (.domeLineOperation k a (.read [])) s = .next t ∧ t.mem = s.mem)) ∧
  (∀ (k : Nat) (s : State), k < 2 → (domGet s (stackDom k)).state = .init → (domeKey s).state = 1 →
    ∃ t, exec (.domeStackReady k []) s = .next (domainUp (stackDom k) t) ∧ (domeGet t k).ready = true ∧
      (domeGet t k).refreshAt = s.now + 3900 ∧ (domeGet t k).remap = (domeGet s k).remap) ∧
  (∀ (k : Nat) (h : Bool) (s : State), k < 2 → domOn s (stackDom k) → (domeGet s k).refreshAt ≤ s.now →
    exec (.domeRefresh k h) s = .next (domeUpd k (fun d => { d with
      hot := h
      refreshAt := s.now + if h then 1950 else 3900 }) s)) ∧
  (∀ (k : Nat) (s : State), scrubbed s k → s.mem.regions.length = 14 → (targetScrub s k).passAt = none →
    ∃ t, exec (.scrubPassStart k) s = .next t ∧ targetScrub t k = { targetScrub s k with
      passAt := some s.now
      period := scrubPeriod s k
      pos := 0
      finished := false }) ∧
  (∀ (k a : Nat) (s : State), k ≤ 1 → scrubbed s k → a + 1 < 2 ^ 26 → (targetScrub s k).finished = false →
    (domeEntry s k a).isNone → ((domeGet s k).log.any fun e => e.addr == a) = false →
    ∃ t, exec (.scrubVisit k a []) s = .next t ∧ domeGet t k = { domeGet s k with
      scrub := { (domeGet s k).scrub with pos := a + 1 } }) ∧
  (∀ (k t : Nat) (s : State), targetOk k → s.mem.regions.length = 14 → (targetScrub s k).passAt = some t →
    (targetScrub s k).finished = false → (targetScrub s k).late = false → t + (targetScrub s k).period * 11 / 10 ≤ s.now →
    ∃ u, exec (.scrubLate k) s = .next (post 0x0804 true [k] u) ∧ targetScrub u k = { targetScrub s k with late := true }) ∧
  (∀ (r w : Nat) (x : SramUse) (s : State), r < 14 → w < regionWords r → useFits r x → domOn s (regionDom r) →
    s.mem.regions.length = 14 →
    ∃ t, exec (.sramUncorrectable r w x) s = .next (sramLoss r x (remapWord r w true (postEv 0x0802 [16 + r, w] t))) ∧
      regionGet t r = { regionGet s r with
        scrub := { (regionGet s r).scrub with uncorr := satAdd 32 (regionGet s r).scrub.uncorr 1 } }) ∧
  (∀ (r : RowRepair) (s : State), s.mem.repair = some r → (domeGet s r.stack).remap = List.replicate 16 {} →
    ∃ t, exec (.rowRepairDone []) s = .next (complete r.ref stOk (le 1 1 ++ le 1 0 ++ le 2 0) t) ∧ t.mem.repair = none ∧
      tget 0 t.mem.spareUsed (bankKey r.stack r.pc r.bank) = tget 0 s.mem.spareUsed (bankKey r.stack r.pc r.bank) + 1 ∧
      t.mem.d0 = s.mem.d0 ∧ t.mem.d1 = s.mem.d1)

/-! Test and diagnostics. -/

/-- Where the commands of loops, patterns, capture and buses complete (R538 to R545): a loop is set or removed; generators, checkers
and injections are set; a checker is read; a capture is armed or refused with the smallest valid k, triggered and stopped; a bus
transfer joins its bus. -/
def Obligations.TestCommandsComplete : Prop :=
  (∀ (pk : Packet) (s : State), starts 0x0C01 pk s → checkSetLoop (ctxOf pk s) (begun 0x0C01 pk s) = stOk →
    (u8 pk.params 2 = 1 → u8 pk.params 0 < 3 → ∃ t, exec (.setLoop pk) s = .next (endsOk pk [] s t) ∧
      (pget t.test.line (carrierOf (u8 pk.params 1))).loop = some (u8 pk.params 0) ∧
      (u8 pk.params 0 = 0 → (pget t.test.line (carrierOf (u8 pk.params 1))).timing = u8 pk.params 3) ∧
      (u8 pk.params 0 = 1 → (pget t.test.line (carrierOf (u8 pk.params 1))).timing = 1)) ∧
    (u8 pk.params 2 = 1 → 3 ≤ u8 pk.params 0 → u8 pk.params 0 < 5 → ∃ t, exec (.setLoop pk) s = .next (endsOk pk [] s t) ∧
      tget 0 t.test.laneLoop (u8 pk.params 1) = u8 pk.params 0) ∧
    (u8 pk.params 2 = 1 → u8 pk.params 0 = 5 →
      ∃ t, exec (.setLoop pk) s = .next (endsOk pk [] s (linkDown (portOf (u8 pk.params 1)) t)) ∧
        pget t.test.portLoop (carrierOf (u8 pk.params 1)) = true) ∧
    (u8 pk.params 2 = 0 → u8 pk.params 0 < 3 → loopOn s (u8 pk.params 0) (u8 pk.params 1) = some (u8 pk.params 0) →
      ∃ t, exec (.setLoop pk) s = .next (endsOk pk [] s t) ∧ (pget t.test.line (carrierOf (u8 pk.params 1))).loop = none) ∧
    (u8 pk.params 2 = 0 → 3 ≤ u8 pk.params 0 → u8 pk.params 0 < 5 → tblWf 0 s.test.laneLoop →
      loopOn s (u8 pk.params 0) (u8 pk.params 1) = some (u8 pk.params 0) →
      ∃ t, exec (.setLoop pk) s = .next (endsOk pk [] s t) ∧ tget 0 t.test.laneLoop (u8 pk.params 1) = 0) ∧
    (u8 pk.params 2 = 0 → u8 pk.params 0 = 5 → loopOn s (u8 pk.params 0) (u8 pk.params 1) = some (u8 pk.params 0) →
      ∃ t, exec (.setLoop pk) s = .next (endsOk pk [] s (linkDown (portOf (u8 pk.params 1)) t)) ∧
        pget t.test.portLoop (carrierOf (u8 pk.params 1)) = false) ∧
    (u8 pk.params 2 = 0 → loopOn s (u8 pk.params 0) (u8 pk.params 1) ≠ some (u8 pk.params 0) →
      exec (.setLoop pk) s = .next (endsOk pk [] s (begun 0x0C01 pk s)))) ∧
  (∀ (pk : Packet) (s : State), starts 0x0C02 pk s → checkSetLinePattern (ctxOf pk s) (begun 0x0C02 pk s) = stOk →
    ∃ t, (u8 pk.params 1 = 0 → exec (.setLinePattern pk) s = .next (endsOk pk [] s (stopTx (carrierOf (u8 pk.params 0)) t))) ∧
      (u8 pk.params 1 ≠ 0 → exec (.setLinePattern pk) s = .next (endsOk pk [] s (runTx (carrierOf (u8 pk.params 0)) t))) ∧
      (pget t.test.line (carrierOf (u8 pk.params 0))).prbs = (u8 pk.params 1 == 2) ∧
      (pget t.test.line (carrierOf (u8 pk.params 0))).m = u32 pk.params 4 ∧
      (pget t.test.line (carrierOf (u8 pk.params 0))).timing = u8 pk.params 3) ∧
  (∀ (pk : Packet) (s : State), starts 0x0C03 pk s → checkSetLanePattern (ctxOf pk s) (begun 0x0C03 pk s) = stOk →
    ∃ t, (u8 pk.params 0 = 0 ∨ u8 pk.params 3 % 4 = 0 → exec (.setLanePattern pk) s = .next (endsOk pk [] s t)) ∧
      (u8 pk.params 0 ≠ 0 → u8 pk.params 3 % 4 ≠ 0 →
        exec (.setLanePattern pk) s = .next (endsOk pk [] s (linkDown (portOf (u8 pk.params 1)) t))) ∧
      (u8 pk.params 0 = 0 → tblWf {} s.test.lanes → (tget {} t.test.lanes (u8 pk.params 1)).gen = (u8 pk.params 3).testBit 0 ∧
        (tget {} t.test.lanes (u8 pk.params 1)).k = u8 pk.params 4) ∧
      (u8 pk.params 0 ≠ 0 → (pget t.test.ports (carrierOf (u8 pk.params 1))).gen = (u8 pk.params 3).testBit 0 ∧
        (pget t.test.ports (carrierOf (u8 pk.params 1))).k = u8 pk.params 4)) ∧
  (∀ (pk : Packet) (s : State), starts 0x0C04 pk s → checkSetTenantPattern (ctxOf pk s) (begun 0x0C04 pk s) = stOk →
    ∃ t, exec (.setTenantPattern pk) s = .next (endsOk pk [] s t) ∧ t.test = { s.test with
      tens := tupd {} s.test.tens pk.tenant fun x => { x with
        genSet := (u8 pk.params 0).testBit 0
        chkSet := (u8 pk.params 0).testBit 1 } }) ∧
  (∀ (pk : Packet) (s : State), starts 0x0C05 pk s → checkGetPatternStatus (ctxOf pk s) (begun 0x0C05 pk s) = stOk →
    ∃ res t, exec (.getPatternStatus pk) s = .next (endsOk pk res s t) ∧ res.length = 32 ∧
      u8 res 0 = (checkerGet s (u8 pk.params 0) (if u8 pk.params 0 = 3 then pk.tenant else u8 pk.params 1)).state % 256 ∧
      u64 res 12 = (checkerGet s (u8 pk.params 0) (if u8 pk.params 0 = 3 then pk.tenant else u8 pk.params 1)).errors % 2 ^ 64) ∧
  (∀ (pk : Packet) (s : State) (k : Nat), starts 0x0C06 pk s → checkStartCapture (ctxOf pk s) (begun 0x0C06 pk s) = stOk →
    k = smallestKeep s (captureRate s (u8 pk.params 0) (u8 pk.params 2) (carrierOf (u8 pk.params 1))) →
    (k ≤ u16 pk.params 12 → ∃ t, exec (.startCapture pk) s = .next (accepts pk s t) ∧ t.test.cap.state = 1 ∧
      t.test.cap.ref = some (refOf pk s) ∧ t.test.cap.length = u32 pk.params 4 ∧ t.test.cap.pre = u32 pk.params 8 ∧
      t.test.cap.trig = u8 pk.params 3 ∧ t.test.cap.extents = s.test.cap.extents) ∧
    (u16 pk.params 12 < k → exec (.startCapture pk) s = .next (complete (refOf pk s) stBadParam (le 4 k) (begun 0x0C06 pk s)))) ∧
  (∀ (pk : Packet) (s : State), starts 0x0C07 pk s → checkTriggerCapture (ctxOf pk s) (begun 0x0C07 pk s) = stOk →
    ∃ t, exec (.triggerCapture pk) s = .next (endsOk pk [] s t) ∧
      (s.test.cap.state = 1 → t.test.cap.state = 2 ∧ t.test.cap.trigTod = s.tod ∧
        t.test.cap.preHeld = min (capIndex s) s.test.cap.pre)) ∧
  (∀ (pk : Packet) (s : State), starts 0x0C08 pk s → checkStopCapture (ctxOf pk s) (begun 0x0C08 pk s) = stOk →
    ∃ t, exec (.stopCapture pk) s = .next (endsOk pk [] s t) ∧ t.test.cap.state = 0) ∧
  (∀ (pk : Packet) (s : State), starts 0x0C09 pk s → checkBusTransfer (ctxOf pk s) (begun 0x0C09 pk s) = stOk →
    ∃ t, exec (.busTransfer pk) s = .next t ∧ t.test.buses = s.test.buses ++
      [⟨refOf pk s, u8 pk.params 0, u8 pk.params 1, pk.params.drop 4, u8 pk.params 3⟩])

/-- Where the events of test and diagnostics complete (R526, R528, R531 to R535): a trigger starts the run after it; the run and what
ends it early end the capture; a checker of a lane or a port
takes its bits and posts each change of its lock, which the 1,024th correct bit in a row gains; a lost clock falls back; a bus transfer ends, or as
stuck. -/
def Obligations.TestEventsComplete : Prop :=
  (∀ (c : Nat) (s : State), s.test.cap.state = 1 → s.test.cap.trig = 1 → s.test.cap.arg64 = c →
    ∃ t, exec (.captureTrigger (.event c)) s = .next t ∧ t.test.cap.state = 2 ∧ t.test.cap.trigPos = some (capIndex s) ∧
      t.test.cap.trigTod = s.tod) ∧
  (∀ (p : Nat) (s : State), s.test.cap.state = 2 → s.test.cap.trigPos = some p →
    ∃ t, exec .capturePostDone s = .next t ∧ t.test.cap.state = 0 ∧ t.test.cap.gen = s.test.cap.gen) ∧
  (∀ s : State, captureRuns s →
    (∃ t, exec (.captureEndEarly 2) s = .next t ∧ t.test.cap.state = 0) ∧
    ((domOn s 23 && domOn s 24) = false → ∃ t, exec (.captureEndEarly 3) s = .next t ∧ t.test.cap.state = 0 ∧
      t.test.cap.extents = []) ∧
    (captureMode s.mode.cur = false → ∃ t, exec (.captureEndEarly 4) s = .next t ∧ t.test.cap.state = 0)) ∧
  (∀ (k i : Nat) (l : List Bool) (r : Checker × List Bool) (s : State), k ≤ 1 → (checkerGet s k i).state ≠ 0 →
    r = checkerBits l (checkerGet s k i) →
    ∃ t, exec (.patternLock k i l) s = .next (r.2.foldl (fun u lock => postEv 0x0C03 [k, i, b2n lock] u) t) ∧
      checkerGet t k i = r.1) ∧
  (∀ (k i : Nat) (s : State), k ≤ 1 → (checkerGet s k i).state = 1 → (checkerGet s k i).run = 1023 →
    ∃ t, exec (.patternLock k i [false]) s = .next (postEv 0x0C03 [k, i, 1] t) ∧ (checkerGet t k i).state = 2 ∧
      (checkerGet t k i).bits = (checkerGet s k i).bits) ∧
  (∀ (c : Carrier) (s : State), s.mode.cur = .maintain → (pget s.test.line c).timing = 1 → trackOn s c = false →
    (pget s.test.line c).fallback = false →
    ∃ t, exec (.timingFallback c) s = .next (postEv 0x0C04 [carrierNum c] t) ∧ pget t.test.line c = { pget s.test.line c with
      fallback := true
      fallbacks := satAdd 32 (pget s.test.line c).fallbacks 1 }) ∧
  (∀ (j : BusJob) (st : Nat) (l : List Byte) (s : State), s.test.buses = [j] → st ≤ 2 →
    (∃ t, exec (.busTransferDone j.bus st l) s = .next (complete j.ref stOk
        (le 1 st ++ if st = 0 then slice l 0 j.read else le j.read 0) t) ∧ t.test = { s.test with buses := [] }) ∧
    (∃ t, exec (.busStuckRelease j.bus) s = .next (complete j.ref stOk (le 1 3 ++ le j.read 0) t) ∧
      t.test = { s.test with buses := [] }))

/-! Belfry. -/

/-- Where the commands of Belfry complete (R370 to R379): settings are stored until the next evaluation or second; a phase step is
immediate or joins the slew; a time is accepted; the status is read and its counters clear; the learned model is kept or
cleared. -/
def Obligations.BelfryCommandsComplete : Prop :=
  (∀ (pk : Packet) (s : State), starts 0x0901 pk s → checkSetRefConfig (ctxOf pk s) (begun 0x0901 pk s) = stOk →
    s.bel.refs.length = 10 →
    ∃ t, exec (.setRefConfig pk) s = .next (endsOk pk [] s t) ∧ (refGet t (u8 pk.params 0)).use = (refGet s (u8 pk.params 0)).use ∧
      (refGet t (u8 pk.params 0)).set = { enable := (u8 pk.params 1).testBit 0
                                          priority := u8 pk.params 2
                                          written := (u8 pk.params 1).testBit 1
                                          ql := u8 pk.params 3
                                          wtr := u16 pk.params 4
                                          jump := u16 pk.params 6
                                          freq := if u8 pk.params 0 = 6 ∨ u8 pk.params 0 = 7 then u32 pk.params 8 else 10000000 }) ∧
  (∀ (pk : Packet) (s : State), starts 0x0902 pk s → checkSetDpllConfig (ctxOf pk s) (begun 0x0902 pk s) = stOk →
    ∃ t, exec (.setDpllConfig pk) s = .next (endsOk pk [] s t) ∧ t.bel = { s.bel with
      set := { option := u8 pk.params 0
               qlOn := (u8 pk.params 1).testBit 0
               revert := (u8 pk.params 1).testBit 1
               learn := (u8 pk.params 1).testBit 2
               tempCorr := (u8 pk.params 1).testBit 3
               ageCorr := (u8 pk.params 1).testBit 4
               bw := u8 pk.params 2
               own := u8 pk.params 3
               holdOff := u16 pk.params 4
               fMon := u16 pk.params 6
               slew := u16 pk.params 8 } }) ∧
  (∀ (pk : Packet) (s : State), starts 0x0903 pk s → checkSetSelection (ctxOf pk s) (begun 0x0903 pk s) = stOk →
    ∃ t, exec (.setSelection pk) s = .next (endsOk pk [] s t) ∧ t.bel = { s.bel with
      selMode := u8 pk.params 0
      selRef := if u8 pk.params 1 = 0xFF then none else some (u8 pk.params 1) }) ∧
  (∀ (pk : Packet) (s : State), starts 0x0904 pk s → checkStepPhase (ctxOf pk s) (begun 0x0904 pk s) = stOk →
    (u8 pk.params 4 = 0 → exec (.stepPhase pk) s = .next (endsOk pk [] s (shiftTod (psUnits (i32 pk.params 0)) (begun 0x0904 pk s)))) ∧
    (u8 pk.params 4 ≠ 0 → ∃ t, exec (.stepPhase pk) s = .next (endsOk pk [] s t) ∧
      t.bel = { s.bel with slew := s.bel.slew + psUnits (i32 pk.params 0) })) ∧
  (∀ (pk : Packet) (s : State), starts 0x0905 pk s → checkSetTime (ctxOf pk s) (begun 0x0905 pk s) = stOk →
    ∃ t, exec (.setTime pk) s = .next (accepts pk s t) ∧ t.bel = { s.bel with
      setTime := some ⟨u8 pk.params 0, uField pk.params 2 6, refOf pk s, s.now + 2 * secNs⟩ }) ∧
  (∀ (pk : Packet) (s : State), starts 0x0906 pk s → checkSetTodConfig (ctxOf pk s) (begun 0x0906 pk s) = stOk →
    ∃ t, exec (.setTodConfig pk) s = .next (endsOk pk [] s t) ∧ t.bel = { s.bel with
      todSet := { source := u8 pk.params 0
                  out := (u8 pk.params 1).testBit 0
                  width := u16 pk.params 2
                  inComp := i32 pk.params 4
                  outComp := i32 pk.params 8 } }) ∧
  (∀ (pk : Packet) (s : State), starts 0x0907 pk s → checkBelPlain (ctxOf pk s) (begun 0x0907 pk s) = stOk →
    ∃ res t, exec (.getTimingStatus pk) s = .next (endsOk pk res s t) ∧ res.length = 144 ∧ u8 res 0 = dpllCode s.bel.state ∧
      u8 res 2 = s.bel.selected.getD 0xFF % 256 ∧ t.bel.switches = 0 ∧ t.bel.rejects = 0 ∧ t.bel.state = s.bel.state) ∧
  (∀ (pk : Packet) (s : State), starts 0x0908 pk s → checkBelPlain (ctxOf pk s) (begun 0x0908 pk s) = stOk →
    ∃ res t, exec (.getTime pk) s = .next (endsOk pk res s t) ∧ res.length = 24 ∧ uField res 0 6 = s.tod / secNs % 2 ^ 48 ∧
      u32 res 8 = s.tod % secNs ∧ t.bel = { s.bel with outliers := 0 }) ∧
  (∀ (pk : Packet) (s : State), starts 0x0909 pk s → checkSetLearning (ctxOf pk s) (begun 0x0909 pk s) = stOk →
    ∃ t, exec (.setLearning pk) s = .next (endsOk pk [] s (journalModel t)) ∧
      (u8 pk.params 0 = 0 → t.bel = { s.bel with model := {}, tMin := none, tMax := none, modelAt := none, fit := [] }) ∧
      (u8 pk.params 0 ≠ 0 → t.bel = s.bel))

/-- Where the events of the references, of the DPLL and of its model complete (R350 to R364): a phase is followed or found to jump;
frequency and signal checks, the end of a wait-to-restore and of a hold-off call for an evaluation; the DPLL locks, fails to lock
and becomes ready; holdover is corrected; the model learns, takes a fit and is journalled. -/
def Obligations.ReferenceEventsComplete : Prop :=
  (∀ (r : Nat) (x ppb : Int) (s : State), r < 10 → s.bel.refs.length = 10 → domOn s 1 → (refGet s r).valid →
    ((refGet s r).hist = [] → s.bel.selected = some r → s.bel.state = .locked →
      ∃ t, exec (.refPhaseMeasure r x ppb) s = .next t ∧ t.bel.phaseErr = x ∧
        t.bel.nco = max (-250000000) (min 250000000 (ppb * 1000)) ∧
        refGet t r = { refGet s r with
          offset := ppb
          hist := [x]
          out := decide (1000 * s.bel.use.fMon < ppb.natAbs)
          outAt := if decide (1000 * s.bel.use.fMon < ppb.natAbs) = (refGet s r).out then (refGet s r).outAt else s.now }) ∧
    (∀ e, (refGet s r).hist = [e] → (refGet s r).use.jump * 1000 < (x - e).natAbs →
      ∃ t, exec (.refPhaseMeasure r x ppb) s = .next (evaluateRef 2 (startWtr r (postEv 0x0901 [r, sArg (x - e)] t))) ∧
        refGet t r = { refGet s r with
          offset := ppb
          hist := [x]
          out := decide (1000 * s.bel.use.fMon < ppb.natAbs)
          outAt := if decide (1000 * s.bel.use.fMon < ppb.natAbs) = (refGet s r).out then (refGet s r).outAt else s.now
          jumps := satAdd 16 (refGet s r).jumps 1
          jumped := true })) ∧
  (∀ (r : Nat) (s : State), r < 10 → domOn s 1 → (refGet s r).valid →
    ((refGet s r).freqOk = false → (refGet s r).out = false → (refGet s r).outAt + secNs ≤ s.now →
      exec (.refFreqCheck r) s = .next (evaluateRef 3 (refRecover r (refUpd r (fun v => { v with freqOk := true }) s)))) ∧
    ((refGet s r).freqOk = true → (refGet s r).out = true → (refGet s r).outAt + 100 * msNs ≤ s.now →
      exec (.refFreqCheck r) s = .next (evaluateRef 3 (refFail r (refUpd r (fun v => { v with freqOk := false }) s))))) ∧
  (∀ (r : Nat) (v : Bool) (s : State),
    (6 ≤ r → r ≤ 9 → exec (.refSignalChange r v) s = .next (evaluateRef 4 (refUpd r (fun x => { x with raw := v }) s))) ∧
    (r < 6 → exec (.refSignalChange r v) s = .next (evaluateRef 4 s))) ∧
  (∀ (r t : Nat) (s : State), (refGet s r).wtrAt = some t → t ≤ s.now →
    exec (.refWtrExpiry r) s = .next (evaluateRef 5 (refUpd r (fun v => { v with wtrAt := none, jumped := false }) s))) ∧
  (∀ (t : Nat) (s : State), s.bel.holdOffAt = some t → t ≤ s.now →
    exec .holdOffExpiry s = .next (evaluateRef 6 (belUpd (fun b => { b with holdOffAt := none }) s))) ∧
  (∀ s : State, domOn s 1 →
    ∃ t, exec .selectionEvaluation s = .next (evaluateRef 0 t) ∧ t.bel.use = s.bel.set ∧
      ∀ r, (refGet t r).use = (refGet t r).set) ∧
  (∀ s : State, domOn s 1 → s.bel.state = .acquiring → s.bel.selAt + 2 * secNs ≤ s.now →
    ∃ t, exec .dpllLock s = .next t ∧ t.bel.state = .locked ∧ t.bel.cause = 0 ∧ t.bel.lockedSince = some s.now ∧
      t.bel.selected = s.bel.selected) ∧
  (∀ (r : Nat) (s t : State), domOn s 1 → s.bel.state = .acquiring → s.bel.selected = some r → s.bel.selAt + 60 * secNs ≤ s.now →
    t = evaluateRef 7 (startWtr r (refUpd r (fun v => { v with lockFail := satAdd 16 v.lockFail 1 }) s)) →
    (t.bel.selected ≠ some r → exec .lockFail s = .next t) ∧
    (t.bel.selected = some r → exec .lockFail s = .next (belUpd (fun b => { b with selAt := t.now }) t))) ∧
  (∀ (t : Nat) (s : State), domOn s 1 → s.bel.ready = false → s.bel.lockedSince = some t →
    t + (10 * secNs - s.bel.lockedSum) ≤ s.now →
    ∃ u, exec .holdoverReady s = .next u ∧ u.bel = { s.bel with ready := true }) ∧
  (∀ (x : Int) (s : State), domOn s 1 →
    (s.bel.state = .holdover → ∃ t, exec (.holdoverCorrectionUpdate x) s = .next t ∧
      t.bel.nco = s.bel.holdFreq - predicted { s.bel with temp := x } s.now ∧ t.bel.temp = x) ∧
    (s.bel.state = .freeRun → ∃ t, exec (.holdoverCorrectionUpdate x) s = .next t ∧
      t.bel.nco = freeRunNco { s.bel with temp := x } ∧ t.bel.temp = x)) ∧
  (∀ (f x : Int) (s : State), domOn s 1 →
    (learns s → ∃ t, exec (.learningSample f x) s = .next t ∧ t.bel.nco = f ∧ t.bel.temp = x ∧
      t.bel.model.samples = min (s.bel.model.samples + 1) (2 ^ 32 - 1)) ∧
    (learns s = false → ∃ t, exec (.learningSample f x) s = .next t ∧ t.bel.temp = x ∧ t.bel.model = s.bel.model)) ∧
  (∀ (m : ModelFit) (s : State), domOn s 1 → s.bel.use.learn → s.bel.model.samples ≠ 0 →
    fitSolve s.bel.fit (s.now / secNs) = some m →
    ∃ t, exec .modelUpdate s = .next t ∧ t.bel.model.a0 = m.a0 ∧ t.bel.model.a0Ok = true ∧
      t.bel.model.c1 = (if m.c1.natAbs ≤ 50000 then m.c1 else s.bel.model.c1) ∧
      t.bel.model.c2 = (if m.c2.natAbs ≤ 2000 then m.c2 else s.bel.model.c2) ∧
      t.bel.model.a1 = (if m.a1.natAbs ≤ 10000 then m.a1 else s.bel.model.a1)) ∧
  (∀ (t : Nat) (s : State), domOn s 1 → s.bel.use.learn → s.bel.modelAt = some t → t ≤ s.now →
    ∃ u, exec .modelJournal s = .next (journalModel u) ∧ u.bel = { s.bel with modelAt := some (s.now + 3600 * secNs) })

/-- Where the events of the time of day and of ESMC complete (R352, R365 to R369, R375): a slew ends; a second applies the settings
and a waiting time; an edge corrects the time or finds none; loss of 1PPS and of ring timing are declared; a group without a PDU
loses its code, and the information PDU is sent. -/
def Obligations.TimeEventsComplete : Prop :=
  (∀ s : State, domOn s 1 → s.bel.slew ≠ 0 → 0 < s.bel.use.slew →
    ∃ t, exec .slewDone s = .next t ∧ t.bel.slew = 0 ∧
      t.now = s.now + (s.bel.slew.natAbs + s.bel.use.slew - 1) / s.bel.use.slew) ∧
  (∀ s : State, domOn s 1 → s.tod % secNs = 0 → s.tod / secNs ≠ s.bel.lastSec → s.bel.setTime = none →
    ∃ t, exec .todSecond s = .next t ∧ t.bel.todUse = s.bel.todSet ∧ t.bel.lastSec = s.tod / secNs ∧
      t.bel.ppsRise = (if s.bel.todSet.out then some s.now else none) ∧ t.tod = s.tod) ∧
  (∀ (j : TimeJob) (s : State), domOn s 1 → s.tod % secNs = 0 → s.tod / secNs ≠ s.bel.lastSec → s.bel.setTime = some j →
    j.mode = 0 ∨ j.mode = 2 →
    ∃ t, exec .todSecond s = .next (complete j.ref stOk [] t) ∧ t.bel.setTime = none ∧ t.bel.coarse = false ∧
      t.pm.todUnset = false) ∧
  (∀ (j : TimeJob) (s : State), s.bel.setTime = some j → j.mode = 1 → j.deadline ≤ s.now →
    exec .setTimeEdgeTimeout s = .next (complete j.ref stBadState [] (belUpd (fun b => { b with setTime := none }) s))) ∧
  (∀ (x : Int) (s : State), domOn s 1 → s.bel.todUse.source = 1 → s.bel.todUse.inComp = 0 → s.bel.setTime = none →
    x.natAbs ≤ 1000000 →
    ∃ t, exec (.ppsInEdge x) s = .next t ∧ t.bel.ppsOffset = x ∧ t.bel.ppsLast = some s.now ∧ t.bel.cands = [] ∧
      t.bel.coarse = false) ∧
  (∀ (t : Nat) (s : State), domOn s 1 → s.bel.todUse.source = 1 → s.bel.ppsLoss = false → s.bel.ppsLast = some t →
    t + 3 * secNs ≤ s.now →
    exec .ppsLoss s = .next (post 0x0904 true [] (belUpd (fun b => { b with ppsLoss := true, ppsGood := 0 }) s))) ∧
  (∀ (t : Nat) (s : State), domOn s 1 → s.bel.todUse.source = 2 → s.ring.role = 2 → s.ring.heardTiming = some t →
    t + 10 * secNs ≤ s.now → exec .ringTimingTimeout s = .next (belUpd (fun b => { b with coarse := true }) s)) ∧
  (∀ (g t : Nat) (s : State), (groupOf s g).ssmAt = some t → t ≤ s.now →
    exec (.esmcTimeout g) s = .next (belUpd (fun b => { b with esmcLost := satAdd 16 b.esmcLost 1 })
      (groupUpd g (fun x => { x with ssm := none, ssmAt := none }) s))) ∧
  (∀ (g : Nat) (s : State), g < 16 → (groupOf s g).number ≠ 0 → domOn s 1 →
    ∃ t, exec (.esmcInfoPdu g) s = .next t ∧ (tget {} t.bel.esmc g).last = some (groupQl s g) ∧
      (tget {} t.bel.esmc g).sent = (tget {} s.bel.esmc g).sent + 1)

/-! The ring. -/

/-- Where the commands of the ring complete (R455, R459 to R464): role, ceilings and sleep are stored, and a change of role ends the
number; a binding changes and the roster goes out; the status is read and its counters clear; the outcome of a relay tag is told;
both members of a pair are asked; a pair is read. -/
def Obligations.RingCommandsComplete : Prop :=
  (∀ (pk : Packet) (s : State), starts 0x0A01 pk s → checkSetRingRole (ctxOf pk s) (begun 0x0A01 pk s) = stOk →
    ∃ t, exec (.setRingRole pk) s = .next (endsOk pk [] s (applyUsed t)) ∧ t.ring.role = u8 pk.params 0 ∧
      t.ring.ceilE = u8 pk.params 1 ∧ t.ring.ceilW = u8 pk.params 2 ∧ t.ring.sleep = u8 pk.params 3 ∧
      t.ring.pmDma = u8 pk.params 4 ∧ (u8 pk.params 0 ≠ s.ring.role → t.ring.number = none)) ∧
  (∀ (pk : Packet) (s : State), starts 0x0A02 pk s → checkAssignWorker (ctxOf pk s) (begun 0x0A02 pk s) = stOk →
    ∃ t, exec (.assignWorker pk) s = .next (endsOk pk [] s (sendRoster (journalRing t))) ∧
      (u8 pk.params 1 = 1 → tget [] t.ring.bind (u8 pk.params 0) = slice pk.params 4 11) ∧
      (u8 pk.params 1 = 0 → t.ring.bind = terase s.ring.bind (u8 pk.params 0))) ∧
  (∀ (pk : Packet) (s : State), starts 0x0A03 pk s → checkGetRingStatus (ctxOf pk s) (begun 0x0A03 pk s) = stOk →
    ∃ res t, exec (.getRingStatus pk) s = .next (endsOk pk res s t) ∧ res.length = 160 ∧ u8 res 0 = s.ring.role % 256 ∧
      u16 res 2 = s.ring.epoch % 65536 ∧ (portGet t .east).crcBad = 0 ∧ (portGet t .west).downs = 0) ∧
  (∀ (pk : Packet) (s : State) (l : Option OutEntry), starts 0x0A04 pk s →
    checkGetOutcome (ctxOf pk s) (begun 0x0A04 pk s) = stOk →
    l = (begun 0x0A04 pk s).ring.log.reverse.find? (fun e => e.epoch == u16 pk.params 0 && e.tag == u16 pk.params 2) →
    (l = none → exec (.getOutcome pk) s = .next (endsOk pk (le 48 0) s (begun 0x0A04 pk s))) ∧
    (∀ e, l = some e → ∃ res, exec (.getOutcome pk) s = .next (endsOk pk res s (begun 0x0A04 pk s)) ∧ res.length = 48 ∧
      u8 res 0 = e.state % 256 ∧ u16 res 6 = e.status % 65536)) ∧
  (∀ (pk : Packet) (s t : State), starts 0x0A05 pk s → checkSetRingProtect (ctxOf pk s) (begun 0x0A05 pk s) = stOk →
    s.ring.role = 1 → t = acceptFrom 0 (refOf pk s) { begun 0x0A05 pk s with ring := { (begun 0x0A05 pk s).ring with
      pairJobs := (begun 0x0A05 pk s).ring.pairJobs ++
        [⟨refOf pk s, u8 pk.params 0, [u8 pk.params 4, u8 pk.params 5], stOk⟩] } } →
    exec (.setRingProtect pk) s = .next (pairMember (ctxOf pk s) (pairMember (ctxOf pk s) t (u8 pk.params 4)) (u8 pk.params 5))) ∧
  (∀ (pk : Packet) (s : State), starts 0x0A06 pk s → checkGetRingProtect (ctxOf pk s) (begun 0x0A06 pk s) = stOk →
    ∃ res, exec (.getRingProtect pk) s = .next (endsOk pk res s
        (pairUpd (u8 pk.params 0) (fun y => { y with switches := 0 }) (begun 0x0A06 pk s))) ∧ res.length = 8 ∧
      u8 res 0 = b2n (tget {} s.ring.pairs (u8 pk.params 0)).selP ∧
      u16 res 4 = (tget {} s.ring.pairs (u8 pk.params 0)).switches % 65536)

/-- Where the rows of the links, of delay and of time on the ring complete (R438, R441, R442, R445, R446, R453, R454): a signal leads
to ALIGN, alignment to UP, its lack to DOWN; a link steps up or returns; errors are counted or end it; a message is forwarded or
discarded; a ceiling is taken; delays are exchanged; time, status and roster go out and time is taken. -/
def Obligations.LinkRowsComplete : Prop :=
  (∀ (p : Port) (s : State), domOn s 31 → (portGet s p).state = .down → heldDown s p = false →
    exec (.ringSignalDetect p) s = .next (portUpd p (fun r => { r with
      state := .align
      rate := 0
      deadline := some (s.now + 10 * msNs) }) s)) ∧
  (∀ (p : Port) (s : State), (portGet s p).state = .align →
    (∃ t, exec (.ringAlignDone p) s = .next t ∧ (portGet t p).state = .up ∧ (portGet t p).rate = 0 ∧ (portGet t p).waiting = []) ∧
    (∀ d, (portGet s p).deadline = some d → d ≤ s.now → ∃ t, exec (.ringAlignTimeout p) s = .next t ∧
      (portGet t p).state = .down ∧ (portGet t p).downs = satAdd 16 (portGet s p).downs 1)) ∧
  (∀ (p : Port) (d : Nat) (s : State), (portGet s p).state = .up → (portGet s p).deadline = some d → d ≤ s.now → stepsOn s p →
    exec (.ringStepStart p) s = .next (portUpd p (fun r => { r with
      state := .step
      deadline := some (s.now + 20 * msNs)
      delays := []
      t1 := none }) s)) ∧
  (∀ (p : Port) (s : State), (portGet s p).state = .step →
    (∃ t, exec (.ringStepEnd p true) s = .next t ∧ (portGet t p).state = .up ∧ (portGet t p).rate = (portGet s p).rate + 1) ∧
    (∀ d, (portGet s p).deadline = some d → d ≤ s.now → ∃ t, exec (.ringStepEnd p false) s = .next t ∧
      (portGet t p).state = .up ∧ (portGet t p).rate = (portGet s p).rate ∧ (portGet t p).linkCeil = (portGet s p).rate)) ∧
  (∀ (p : Port) (n : Nat) (s : State), (portGet s p).state = .up →
    (1 ≤ n → n < 16 → exec (.ringLink p n) s = .next (portUpd p (fun r => { r with codeErr := satAdd 16 r.codeErr n }) s)) ∧
    (n = 0 ∨ 16 ≤ n → ∃ t, exec (.ringLink p n) s = .next t ∧ (portGet t p).state = .down ∧
      (portGet t p).downs = satAdd 16 (portGet s p).downs 1)) ∧
  (∀ (p : Port) (l : List Byte) (s : State), arrives s p →
    (parseMsg l = none → exec (.ringMessageForward p l) s =
      .next (portUpd p (fun r => { r with crcBad := satAdd 16 r.crcBad 1 }) (countIn p l.length s))) ∧
    (∀ m, parseMsg l = some m → m.dst ≠ 0xFF → m.dst ≠ ringSelf s →
      (m.hops < 15 → m.src ≠ ringSelf s → (portGet s (otherPort p)).state = .up →
        exec (.ringMessageForward p l) s = .next (sendMsg (otherPort p) { m with hops := m.hops + 1 } (countIn p l.length s))) ∧
      (15 ≤ m.hops ∨ m.src = ringSelf s ∨ (portGet s (otherPort p)).state ≠ .up → exec (.ringMessageForward p l) s =
        .next (portUpd p (fun r => { r with dropped := satAdd 16 r.dropped 1 }) (countIn p l.length s))))) ∧
  (∀ (p : Port) (c : Nat) (s : State), arrives s p →
    ∃ t, exec (.negReceive p c) s = .next t ∧ (portGet t p).farCeil = some (min 3 c) ∧
      (portGet t p).deadline = (if stepsOn t p then some (s.now + msNs) else none)) ∧
  (∀ (p : Port) (a b : Nat) (s : State), arrives s p →
    exec (.delayExchange p a) s = .next (sendNear p 0x04 [] (portUpd p (fun r => { r with t1 := some a }) s)) ∧
    exec (.delayReqReceive p a b) s = .next (sendNear p 0x05 (timeBytes a ++ timeBytes b) (countIn p 20 s))) ∧
  (∀ (p : Port) (t1 t2 t3 t4 : Nat) (s : State), arrives s p → (portGet s p).t1 = some t1 →
    ∃ u, exec (.delayRespReceive p t2 t3 t4) s = .next u ∧ (portGet u p).t1 = none ∧ (portGet u p).delays =
      ((((t4 : Int) - t1) - ((t3 : Int) - t2)) / 2 :: (portGet s p).delays).take 16) ∧
  (∀ s : State, domOn s 31 → (portGet s .east).state = .up → (portGet s .west).state = .down →
    ∃ t m, exec .timingSend s = .next t ∧ m.type = 0x06 ∧ m.body.length = 16 ∧ m.dst = 0xFF ∧
      (portGet t .east).sent = (if pget s.test.portLoop (portSlot .east) then (portGet s .east).sent
        else portChars (msgBytes m) :: (portGet s .east).sent) ∧
      (portGet t .west).sent = (portGet s .west).sent) ∧
  (∀ (p : Port) (m : RingMsg) (sec ns : Nat) (s : State), arrives s p → s.ring.role ≠ 2 →
    ∃ t, exec (.timingReceive p m sec ns) s = .next t ∧ (portGet t p).timing = some ⟨u8 m.body 13, u8 m.body 12, u8 m.body 14,
      ((sec * secNs + ns : Nat) : Int) - ((beNat (slice m.body 0 6) * secNs + beNat (slice m.body 6 4) : Nat) : Int)
        - roundDiv (linkDelay (portGet s p)) 10, s.now⟩) ∧
  (∀ s : State, domOn s 31 →
    exec .statusSend s = .next (sendAll 0x01 (fusedIdentity s.fw.fuses ++ le 1 s.ring.role ++ le 1 (ringSelf s) ++
      le 1 (b2n s.ctl.ready + 2 * b2n (s.mode.cur == .dormant) + 4 * b2n s.ring.conflict.isSome)) s) ∧
    (s.ring.role = 1 → exec .rosterSend s = .next (sendAll 0x02 (rosterBody s) s)))

/-- Where the rows of managers and workers and of protection complete (R438, R439, R447 to R452, R456, R457): a status is heard, or a
worker is gone; a number is taken; a request starts at its worker and its answers end the relay; copies are repeated or given up;
records of events and bins are taken once, acknowledged and repeated; a pair follows its rule. -/
def Obligations.RelayRowsComplete : Prop :=
  (∀ (p : Port) (m : RingMsg) (s : State), arrives s p → s.ring.role = 1 → u8 m.body 11 ≠ 1 → 1 ≤ u8 m.body 12 →
    u8 m.body 12 ≤ 15 → m.src = u8 m.body 12 → tget [] s.ring.bind m.src = slice m.body 0 11 →
    ∃ t, exec (.ringStatusReceive p m) s = .next t ∧ (tget {} t.ring.workers m.src).joined = true ∧
      (tget {} t.ring.workers m.src).ready = (u8 m.body 13).testBit 0 ∧ tget 0 (portGet t p).heard m.src = s.now + 1) ∧
  (∀ (t : Nat) (s : State), s.ring.conflict = some t → t ≤ s.now →
    ∃ u, exec .managerResume s = .next u ∧ u.ring = { s.ring with conflict := none }) ∧
  (∀ (w t : Nat) (s : State), (tget {} s.ring.workers w).goneAt = some t → (tget {} s.ring.workers w).joined → unreachable s w →
    t + 100 * msNs ≤ s.now →
    exec (.workerLeft w) s = .next (postEv 0x0A02 [w, 0] (workerUpd w (fun k => { k with joined := false }) s))) ∧
  (∀ (w : Nat) (p : Port) (s : State), tget 0 (portGet s p).heard w ≠ 0 → tget 0 (portGet s p).heard w + 30 * msNs ≤ s.now →
    exec (.workerReachabilityTimeout w p) s = .next (noteGone s)) ∧
  (∀ (m : RingMsg) (s : State), domOn s 31 → s.ring.role = 2 → m.src = 0 →
    ∃ t, exec (.rosterReceive m) s = .next t ∧ t.ring.epoch = m.epoch ∧
      t.ring.number = ((List.range 15).find? fun i => slice m.body (11 * i) 11 == fusedIdentity s.fw.fuses).map (· + 1)) ∧
  (∀ (p : Port) (m : RingMsg) (s : State), arrives s p → s.ring.role = 2 → s.ring.number = some m.dst → m.epoch = s.ring.epoch →
    (s.ring.log.find? fun e => e.epoch == m.epoch && e.tag == m.tag) = none → tagStale s m = false →
    linesFor m.body.length ≤ linesFree s .relay →
    ∃ t, exec (.requestReceive p m) s = .next (sendReceipt p m false t) ∧
      (qget t .relay).waiting = (qget s .relay).waiting ++ [⟨m.body, m.epoch * 2 ^ 16 + m.tag⟩] ∧
      t.ring.highest = some (m.epoch, m.tag)) ∧
  (∀ (p : Port) (w g : Nat) (s : State), arrives s p → s.ring.role = 1 →
    exec (.receiptReceive p w g false) s = .next (nextRelay w (relayUpd w g (fun r => { r with
      receipt := true
      nextAt := none }) (countIn p 21 s))) ∧
    exec (.receiptReceive p w g true) s = .next (relayUpd w g (fun r => { r with
      copies := r.copies - 1
      nextAt := some (s.now + 2 * msNs) }) (countIn p 21 s))) ∧
  (∀ (w d : Nat) (r : Relay) (s : State), (s.ring.relays.find? fun r => r.worker == w && !r.receipt) = some r →
    r.nextAt = some d → d ≤ s.now → s.ring.conflict = none →
    (8 ≤ r.copies → exec (.relayRetry w) s = .next (giveUp s r)) ∧
    (∀ p, 1 ≤ r.copies → r.copies < 8 → retryDir s r = some p → exec (.relayRetry w) s = .next (sendCopy p w r.tag s)) ∧
    (r.copies = 0 → unreachable s w = false → exec (.relayRetry w) s = .next (sendCopy (firstDir s w r.anyDir) w r.tag s))) ∧
  (∀ (w t : Nat) (s : State), (tget {} s.ring.workers w).goneAt = some t → unreachable s w → t + 50 * msNs ≤ s.now →
    exec (.relayUnreachableTimeout w) s = .next ((s.ring.relays.filter fun r => r.worker == w).foldl giveUp s)) ∧
  (∀ (p : Port) (m : RingMsg) (r : Relay) (s : State), arrives s p → s.ring.role = 1 → m.epoch = s.ring.epoch →
    relayOf s m.src m.tag = some r → u8 m.body 14 ≠ 1 →
    ∃ t, exec (.responseReceive p m) s = .next (endRelay r (u16 m.body 4) (slice m.body 16 (u16 m.body 6)) t)) ∧
  (∀ (p : Port) (o : RespOut) (s : State), arrives s p → s.ring.role = 2 → s.ring.resp = [o] →
    (∃ t, exec (.respAckReceive p o.tag o.epoch) s = .next t ∧ t.ring.resp = []) ∧
    exec .responseResend s = .next (sendResponse { o with dir := otherPort o.dir }
      { s with ring := { s.ring with resp := [{ o with dir := otherPort o.dir }] } })) ∧
  (∀ (p : Port) (m : RingMsg) (s : State), arrives s p → s.ring.role = 1 →
    (seqNew (tget {} s.ring.workers m.src).evSeq (u32 m.body 4) →
      ∃ t, exec (.eventReceive p m) s = .next (deliverEvent (eventOf m.src m.body) t) ∧
        (tget {} t.ring.workers m.src).evSeq = some (u32 m.body 4)) ∧
    (seqNew (tget {} s.ring.workers m.src).pmSeq (u32 m.body 20) →
      ∃ t, exec (.pmReceive p m) s = .next t ∧ (tget {} t.ring.workers m.src).pmSeq = some (u32 m.body 20) ∧
        t.ring.rseq = (s.ring.rseq + 1) % 2 ^ 32)) ∧
  (∀ (p : Port) (q : Nat) (s : State), arrives s p → s.ring.role = 2 →
    (∃ t, exec (.streamAckReceive p 0x20 q) s = .next t ∧ t.ring.evOut = s.ring.evOut.filter fun e => e.seq != q) ∧
    (∃ t, exec (.streamAckReceive p 0x21 q) s = .next t ∧ t.ring.pmOut = s.ring.pmOut.filter fun e => e.1 != q)) ∧
  (∀ (e : EvRec) (s t : State), ringWorker s → s.ring.evOut = [e] → s.ring.pmOut = [] →
    t = { s with ring := { s.ring with resendWest := !s.ring.resendWest } } →
    exec .streamResend s = .next (sendEither (if s.ring.resendWest then .west else .east)
      (mkMsg t 0x20 0 0 (eventBytes e false)) t)) ∧
  (∀ (m : RingMsg) (x : PPair) (s : State), domOn s 31 → tget {} s.ring.pairs (u8 m.body 0) = x → x.held → x.lost = false →
    m.src = (if pairIsW s x then x.pDev else x.wDev) → u8 m.body 1 = b2n (pairIsW s x) →
    ∃ t, exec (.protectReceive m) s = .next (pairRule (u8 m.body 0) false t) ∧
      tget {} t.ring.pairs (u8 m.body 0) = { x with partnerSf := u8 m.body 2 != 0, heardAt := some s.now }) ∧
  (∀ (k : Nat) (s : State), exec (.protectSend k) s = .next (sendProtect k (pairRule k false s))) ∧
  (∀ (k t : Nat) (s : State), (tget {} s.ring.pairs k).wtrAt = some t → t ≤ s.now →
    exec (.protectWtrExpiry k) s = .next (pairRule k true s)) ∧
  (∀ (k t : Nat) (s : State), (tget {} s.ring.pairs k).heardAt = some t → (tget {} s.ring.pairs k).held →
    (tget {} s.ring.pairs k).lost = false → t + 5 * msNs ≤ s.now →
    exec (.protectPartner k) s = .next (postEv 0x0A06 [k, 1] (pairUpd k (fun y => { y with lost := true }) s)))

/-! Rules over all commands. -/

/-- A command packet that starts and fails a check of its own chapter is answered with the status of that check, without a result
and with no other effect (R382 step 7). -/
def Obligations.FailedChecksRefuse : Prop :=
  ∀ (i : Instr) (op : Nat) (pk : Packet) (c : Ctx → State → Nat) (s : State), commandOf i = some (op, pk, c) → starts op pk s →
    c (ctxOf pk s) (begun op pk s) ≠ stOk →
    exec i s = .next (refusedWith (c (ctxOf pk s) (begun op pk s)) pk s (begun op pk s))

/-- In RECOVERY every command of another group than 0x00 and 0x0D is answered BAD_STATE (R486), and while an activation runs the
commands that R488 names are answered NOT_READY; neither has any other effect. -/
def Obligations.GatedGroupsRefuse : Prop :=
  ∀ (i : Instr) (op : Nat) (pk : Packet) (c : Ctx → State → Nat) (s : State), commandOf i = some (op, pk, c) → reaches op pk s →
    (s.fw.recovery → op / 256 ≠ 0 → op / 256 ≠ 0x0D → exec i s = .next (refusedWith stBadState pk s (begun op pk s))) ∧
    (s.fw.recovery = false → s.fw.activation.isSome → heldByActivation op →
      exec i s = .next (refusedWith stNotReady pk s (begun op pk s)))

/-- A step runs the command at the front of the queue with the queue's rest; on an empty queue 1 ns passes (the model's choice, log
2). -/
def Obligations.StepTakesFront : Prop :=
  (∀ (c : Instr) (r : List Instr) (s : State), step { s with pending := c :: r } = exec c { s with pending := r }) ∧
  (∀ s : State, s.pending = [] → step s = .next (idle s))

/-- No command touches the queue of waiting commands. -/
def Obligations.CommandsKeepQueue : Prop :=
  ∀ (c : Instr) (s t : State), exec c s = .next t → t.pending = s.pending

/-- The block never stops: from every state, as many steps as commands wait answer a next state with an empty queue. -/
def Obligations.QueueDrains : Prop :=
  ∀ s : State, ∃ t : State, Sys2Proof.core.run s.pending.length s = .next t ∧ t.pending = []

/-- Every step keeps the rules that a stored line plan obeys in every mode (R27, R28, R33, R34, R36, R41). -/
def Obligations.EveryStepKeepsThePlanRules : Prop :=
  ∀ s t : State, PlanOk s → step s = .next t → PlanOk t

/-- The state after reset: PORESET_N asserted, the mode DORMANT with no transition, every domain OFF, no command waiting or running,
no line plan, no vector pending, both transmitters OFF, memory with nothing listed and in canonical form. -/
def Obligations.ResetState : Prop :=
  PlanOk State.reset ∧ State.reset.plan.car = ⟨{}, {}⟩ ∧ memoryOk State.reset ∧ State.reset.pending = [] ∧
  State.reset.mode.cur = .dormant ∧
  State.reset.mode.trans = none ∧ (∀ d, d < 32 → (domGet State.reset d).state = .off) ∧ State.reset.ctl.ready = false ∧
  (∀ q, (qget State.reset q).waiting = [] ∧ (qget State.reset q).running = []) ∧ State.reset.pcie.pba = 0 ∧
  (∀ c, (txGet State.reset c).state = .off) ∧ State.reset.hostMem = []

/-! Single rules. -/

/-- NOP takes 0 to 4,080 bytes of any content and returns OK with its parameters unchanged (R402). -/
def Obligations.NopReturnsItsParameters : Prop :=
  ∀ (pk : Packet) (s : State), starts 0x0000 pk s → pk.tenant = 0xFFFFFFFF → pk.params.length ≤ 4080 →
    exec (.nop pk) s = .next (endsOk pk pk.params s (begun 0x0000 pk s))

/-- CLEAR_PAIR_FAULT (R497): no parameters, no result; OK when the latch is cleared or already clear, BAD_STATE while either input is
asserted. -/
def Obligations.ClearPairFaultRule : Prop :=
  ∀ (pk : Packet) (s : State), starts 0x0105 pk s → pk.tenant = 0xFFFFFFFF → pk.params = [] →
    ((s.pins.safeA ∨ s.pins.safeB) → exec (.clearPairFault pk) s = .next (refusedWith stBadState pk s (begun 0x0105 pk s))) ∧
    (s.pins.safeA = false → s.pins.safeB = false →
      ∃ t, exec (.clearPairFault pk) s = .next (endsOk pk [] s t) ∧ t.pins.pairFault = false ∧
        (s.pins.pairFault = false → t = begun 0x0105 pk s))

/-- TRIGGER_CAPTURE and STOP_CAPTURE (R544): no parameters, no result; OK, or BAD_STATE when no capture is ARMED or RUNNING. -/
def Obligations.CaptureCommandsRule : Prop :=
  ∀ (pk : Packet) (s : State), pk.tenant = 0xFFFFFFFF → pk.params = [] → s.mode.cur ≠ .dormant → s.mode.trans = none →
    (starts 0x0C07 pk s →
      (s.test.cap.state = 0 → exec (.triggerCapture pk) s = .next (refusedWith stBadState pk s (begun 0x0C07 pk s))) ∧
      (s.test.cap.state ≠ 0 → ∃ t, exec (.triggerCapture pk) s = .next (endsOk pk [] s t))) ∧
    (starts 0x0C08 pk s →
      (s.test.cap.state = 0 → exec (.stopCapture pk) s = .next (refusedWith stBadState pk s (begun 0x0C08 pk s))) ∧
      (s.test.cap.state ≠ 0 → ∃ t, exec (.stopCapture pk) s = .next (endsOk pk [] s t)))

/-- The symbol rate of a used carrier is an integer Rs x 256 from 15,360 to 86,016 (R28): SET_LINE_PLAN refuses a value outside with
BAD_PARAM, keeps the held plan, and names no symbol-rate reason for a value inside. -/
def Obligations.SymbolRateRange : Prop :=
  ∀ (pk : Packet) (s : State), starts 0x0201 pk s → checkSetLinePlan (ctxOf pk s) (begun 0x0201 pk s) = stOk →
    (∀ o, (o = 0 ∨ o = 8) → planField pk.params o ≠ {} → (u32 pk.params (o + 4) ≤ 15359 ∨ 86017 ≤ u32 pk.params (o + 4)) →
      ∃ r, exec (.setLinePlan pk) s = .next (complete (refOf pk s) stBadParam r (begun 0x0201 pk s)) ∧ r.length = 16 ∧
        1 ≤ u8 r 12 ∧ u8 r 12 ≤ 4) ∧
    ((∀ o, (o = 0 ∨ o = 8) → 15360 ≤ u32 pk.params (o + 4) ∧ u32 pk.params (o + 4) ≤ 86016) →
      (planReason s (planField pk.params 0) (planField pk.params 8) (i32 pk.params 16) (u8 pk.params 20)
        (!zeroAt pk.params 21 3)).1 ≠ 4)

/-- FEC-FAIL over consecutive windows that are judged (R144), each with its count of uncorrectable outer codewords: failing windows
declare it from the fail_set-th on, clean ones clear it from the fail_clr-th on, and any other window ends both runs. -/
def Obligations.FecFailFollowsRuns : Prop :=
  ∀ (f : Fec) (l : List Nat), 1 ≤ f.failUse.failCount → 1 ≤ f.failUse.failSet → 1 ≤ f.failUse.failClr → l ≠ [] →
    f.failW.neutral = false →
    ((∀ n ∈ l, f.failUse.failCount ≤ n) → ∀ g, g = l.foldl (fun h n => judgeFail true { h with failW := { h.failW with count := n } }) f →
      g.failW.failing = f.failW.failing + l.length ∧ g.failW.clean = 0 ∧
      g.fail = (if f.failUse.failSet ≤ f.failW.failing + l.length then true else f.fail)) ∧
    ((∀ n ∈ l, n = 0) → ∀ g, g = l.foldl (fun h n => judgeFail true { h with failW := { h.failW with count := n } }) f →
      g.failW.clean = f.failW.clean + l.length ∧ g.failW.failing = 0 ∧
      g.fail = (if f.failUse.failClr ≤ f.failW.clean + l.length then false else f.fail)) ∧
    ((∀ n ∈ l, 0 < n ∧ n < f.failUse.failCount) →
      ∀ g, g = l.foldl (fun h n => judgeFail true { h with failW := { h.failW with count := n } }) f →
      g.failW.clean = 0 ∧ g.failW.failing = 0 ∧ g.fail = f.fail)

/-- The justification of a period (R216): NEG where the level at its start lies above 9c, POS below 7c, each only 4 periods or more after the
last one, else none; the level at the next start has gained the words that came in the period and lost those that the period carries. -/
def Obligations.JustificationRule : Prop :=
  ∀ (t c l : Nat) (arrived : List Block66) (v : TenTx) (s : State), t < 1024 → domOn s 2 → sizeTx s t ≠ 0 →
    (tenGet s t).tx.freq = false → (tenGet s t).tx.resize = 0 → v = (tenGet (offerBlocks t arrived s) t).tx → v.c = c → v.level = l →
    2 * c < l → l < 14 * c →
    ∃ u, exec (.pointerPeriodTransmit t arrived) s = .next u ∧
      (tenGet u t).tx.jc = (if 4 ≤ v.since ∧ 8 * c + c < l then 2 else if 4 ≤ v.since ∧ l < 8 * c - c then 1 else 0) ∧
      (tenGet u t).tx.level = l + v.inflow.length - dataBits c (s.txFc / 8 % 256) (tenGet u t).tx.jc / 64 ∧
      (tenGet u t).tx.since = (if (tenGet u t).tx.jc ≠ 0 then 1 else min 4 (v.since + 1))

/-- A counter that passes 2^48 - 1 (R429): it wraps, its OVF bit is set, the high counter of a chained pair counts one, vector 20 is
raised where its overflow interrupt is set, and SET_COUNTER clears its value and its OVF bit. -/
def Obligations.CountersWrap : Prop :=
  (∀ (i n : Nat) (s : State), i < 128 → (tget {} s.cnt.cfg i).enable → (tget {} s.cnt.cfg i).chain = false →
    tblWf 0 s.cnt.val → tget 0 s.cnt.val i < 2 ^ 48 → n ≤ 2 ^ 48 → 2 ^ 48 ≤ tget 0 s.cnt.val i + n →
    tget 0 s.cnt.val (i + 1) + 1 < 2 ^ 48 →
    ∃ t, exec (.counterWrap i n) s = .next t ∧ tget 0 t.cnt.val i = tget 0 s.cnt.val i + n - 2 ^ 48 ∧ t.cnt.ovf.testBit i ∧
      tget 0 t.cnt.val (i + 1) = tget 0 s.cnt.val (i + 1)
        + (if i % 2 = 0 ∧ (tget {} s.cnt.cfg (i + 1)).chain ∧ (tget {} s.cnt.cfg (i + 1)).enable then 1 else 0) ∧
      t.pcie = (if (tget {} s.cnt.cfg i).irq then signalVector 20 s else s).pcie ∧
      ∀ j, j ≠ i → j ≠ i + 1 → tget 0 t.cnt.val j = tget 0 s.cnt.val j ∧ t.cnt.ovf.testBit j = s.cnt.ovf.testBit j) ∧
  (∀ (pk : Packet) (s : State), starts 0x0B01 pk s → checkSetCounter (ctxOf pk s) (begun 0x0B01 pk s) = stOk →
    tblWf 0 (begun 0x0B01 pk s).cnt.val →
    ∃ t, exec (.setCounter pk) s = .next (endsOk pk [] s t) ∧ tget 0 t.cnt.val (u8 pk.params 0) = 0 ∧
      t.cnt.ovf.testBit (u8 pk.params 0) = false)

/-- The final record of a command of a PCIe queue with room (R384, R385): the padded record lies in host memory from the ring's tail
on, the tail and the queue's seq advance, the command runs no more, and every other byte of host memory reads as before. -/
def Obligations.FinalRecordIsStored : Prop :=
  ∀ (pk : Packet) (st : Nat) (res : List Byte) (s t : State) (c : Running) (r : Rec) (v : Queue),
    pk.queue = .q0 ∨ pk.queue = .q1 ∨ pk.queue = .q2 → v = qget t pk.queue → tblWf 0 t.hostMem → res.length ≤ 4080 →
    runningOf t (refOf pk s) = some c → c.flags.testBit 1 = false → c.withheld = false →
    r = ⟨c.opcode, c.tag, st, 0, 0, res, c.sub, true, c.accepted⟩ → v.hold = [] → recordRoom pk.queue r t →
    ∀ u, u = complete (refOf pk s) st res t →
      memGet u.hostMem (v.ring.base + v.ring.tail) (recordLength r) = recordBytes r v.seq v.epoch ∧
      (qget u pk.queue).ring.tail = (v.ring.tail + recordLength r) % ringSize v.ring ∧
      (qget u pk.queue).seq = (v.seq + 1) % 2 ^ 32 ∧ (qget u pk.queue).running = v.running.filter (·.sub != c.sub) ∧
      ∀ a, (∀ i, i < recordLength r → a ≠ (v.ring.base + v.ring.tail + i) % 2 ^ 64) → tget 0 u.hostMem a = tget 0 t.hostMem a

/-- Where the lines of the Dome's sectors lie (R324): the fields of a line address, and that no two lines of all sectors share one. -/
def Obligations.SectorLinesLie : Prop :=
  (∀ s j : Nat, s < 2097152 → j < 64 →
    bits (lineOf s j) 25 21 = j % 32 ∧ bits (lineOf s j) 20 16 = bits (2 * (s / 2) + j / 32) 8 4 ∧
    bits (lineOf s j) 15 4 = bits (2 * (s / 2) + j / 32) 20 9 ∧ bits (lineOf s j) 3 0 = bits (2 * (s / 2) + j / 32) 3 0 ∧
    lineOf s j < 2 ^ 26 ∧ sectorOf (s % 2) (lineOf s j) = s) ∧
  (∀ s j r k : Nat, s < 2097152 → r < 2097152 → j < 64 → k < 64 → s % 2 = r % 2 → lineOf s j = lineOf r k → s = r ∧ j = k)

/-! Frames. `outer` is the state without queues, records, events, endpoint, counters, pages and ring, through which every command
is answered. -/

/-- What the commands that only read leave alone (R380, R402 to R404, R422, R502): everything but the queue that carries them, its
records and what counts and signals them; the statistics and free values that a status read takes or clears are its chapter's
own. -/
def Obligations.ReadCommandsFrame : Prop :=
  (∀ (i : Instr) (pk : Packet) (s t : State), i ∈ [
      .nop pk, .getIdentity pk, .getQueueStatus pk, .getLinePlan pk, .getCalendar pk, .getPmCurrent pk, .getRingStatus pk,
      .getOutcome pk, .getRingProtect pk, .readCounters pk, .getFwStatus pk] →
    exec i s = .next t →
    outer t = outer s ∧ t.ev = s.ev ∧ t.cnt.cfg = s.cnt.cfg ∧
      (pk.queue = .q3 → t.hostMem = s.hostMem) ∧ ∀ q, q ≠ pk.queue → qget t q = qget s q) ∧
  (∀ (i : Instr) (pk : Packet) (s t : State), i ∈ [
      .getLinkQuality pk, .getPcieStatus pk] →
    exec i s = .next t → outer { t with free := s.free } = outer s ∧ t.ev = s.ev) ∧
  (∀ (pk : Packet) (s t : State), exec (.getPowerStatus pk) s = .next t →
    outer { t with power := s.power } = outer s ∧ t.ev = s.ev) ∧
  (∀ (pk : Packet) (s t : State), exec (.getJournalStatus pk) s = .next t →
    outer { t with journal := s.journal } = outer s ∧ t.ev = s.ev) ∧
  (∀ (i : Instr) (pk : Packet) (s t : State), i ∈ [
      .getTxStatus pk, .getRxStatus pk, .getCalStatus pk, .getChannelEstimates pk] →
    exec i s = .next t → outer { t with spire := s.spire } = outer s ∧ t.ev = s.ev) ∧
  (∀ (i : Instr) (pk : Packet) (s t : State), i ∈ [
      .getFecStatus pk, .getFrameStatus pk] →
    exec i s = .next t → outer { t with line := s.line } = outer s ∧ t.ev = s.ev) ∧
  (∀ (pk : Packet) (s t : State), exec (.getTenantStatus pk) s = .next t →
    outer { t with ten := s.ten } = outer s ∧ t.ev = s.ev) ∧
  (∀ (pk : Packet) (s t : State), exec (.getSkewStatus pk) s = .next t →
    outer { t with skew := s.skew } = outer s ∧ t.ev = s.ev) ∧
  (∀ (pk : Packet) (s t : State), exec (.getMergeStatus pk) s = .next t →
    outer { t with mrg := s.mrg } = outer s ∧ t.ev = s.ev) ∧
  (∀ (pk : Packet) (s t : State), exec (.getClientStatus pk) s = .next t →
    outer { t with host := s.host } = outer s ∧ t.ev = s.ev) ∧
  (∀ (i : Instr) (pk : Packet) (s t : State), i ∈ [
      .getKeyStatus pk, .getTurretStatus pk] →
    exec i s = .next t → outer { t with turret := s.turret } = outer s ∧ t.ev = s.ev) ∧
  (∀ (i : Instr) (pk : Packet) (s t : State), i ∈ [
      .getMemoryStatus pk, .getCeLog pk] →
    exec i s = .next t → outer { t with mem := s.mem } = outer s ∧ t.ev = s.ev) ∧
  (∀ (pk : Packet) (s t : State), exec (.getTime pk) s = .next t → outer { t with bel := s.bel } = outer s ∧ t.ev = s.ev) ∧
  (∀ (pk : Packet) (s t : State), exec (.getHostStatus pk) s = .next t →
    outer { t with free := s.free, host := s.host } = outer s ∧ t.ev = s.ev) ∧
  (∀ (pk : Packet) (s t : State), exec (.getPmHistory pk) s = .next t →
    outer { t with free := s.free, turret := s.turret } = outer s ∧ t.ev = s.ev) ∧
  (∀ (pk : Packet) (s t : State), exec (.getTimingStatus pk) s = .next t →
    outer { t with free := s.free, bel := s.bel } = outer s ∧ t.ev = s.ev) ∧
  (∀ (pk : Packet) (s t : State), exec (.getPatternStatus pk) s = .next t →
    outer { t with free := s.free, test := s.test } = outer s ∧ t.ev = s.ev)

/-- What the commands that write leave alone: everything outside the part of the state that their own chapter gives them, and the
queues, events, counters and ring through which they are answered. -/
def Obligations.WriteCommandsFrame : Prop :=
  (∀ (i : Instr) (pk : Packet) (s t : State), i ∈ [
      .fence pk, .resetQueue pk, .setQueueConfig pk, .setRingProtect pk, .setCounter pk, .grantCounters pk,
      .setBwWindow pk] →
    exec i s = .next t → outer t = outer s) ∧
  (∀ (pk : Packet) (s t : State), exec (.assignWorker pk) s = .next t → outer { t with journal := s.journal } = outer s) ∧
  (∀ (i : Instr) (pk : Packet) (s t : State), i ∈ [
      .fwPrepare pk, .fwVerify pk, .fwActivate pk] →
    exec i s = .next t → outer { t with fw := s.fw } = outer s) ∧
  (∀ (i : Instr) (pk : Packet) (s t : State), i ∈ [
      .setTxShaping pk, .setTxCorrection pk, .setTxOutput pk, .setTxState pk, .setRxFrontEnd pk, .setMonitor pk,
      .monitorControl pk, .runToneSearch pk, .setRxDsp pk] →
    exec i s = .next t → outer { t with spire := s.spire } = outer s) ∧
  (∀ (i : Instr) (pk : Packet) (s t : State), i ∈ [
      .setFecDefects pk, .setFrameConfig pk] →
    exec i s = .next t → outer { t with line := s.line } = outer s) ∧
  (∀ (i : Instr) (pk : Packet) (s t : State), i ∈ [
      .setCalendar pk, .swapCalendar pk] →
    exec i s = .next t → outer { t with cal := s.cal } = outer s) ∧
  (∀ (pk : Packet) (s t : State), exec (.setTenantControl pk) s = .next t → outer { t with ten := s.ten } = outer s) ∧
  (∀ (pk : Packet) (s t : State), exec (.setSkewConfig pk) s = .next t → outer { t with skew := s.skew } = outer s) ∧
  (∀ (i : Instr) (pk : Packet) (s t : State), i ∈ [
      .setHostLaneTx pk, .setFlexeGroup pk, .setFlexeCalendar pk, .switchFlexeCalendar pk] →
    exec i s = .next t → outer { t with host := s.host } = outer s) ∧
  (∀ (i : Instr) (pk : Packet) (s t : State), i ∈ [
      .setPmConfig pk, .setPmThresholds pk, .setPmProfile pk] →
    exec i s = .next t → outer { t with pm := s.pm } = outer s) ∧
  (∀ (i : Instr) (pk : Packet) (s t : State), i ∈ [
      .establishKek pk, .loadKey pk, .generateKey pk, .rotateKey pk, .eraseKey pk, .setTenantCipher pk] →
    exec i s = .next t → outer { t with turret := s.turret } = outer s) ∧
  (∀ (i : Instr) (pk : Packet) (s t : State), i ∈ [
      .setMemoryConfig pk, .repairRow pk] →
    exec i s = .next t → outer { t with mem := s.mem } = outer s) ∧
  (∀ (i : Instr) (pk : Packet) (s t : State), i ∈ [
      .setRefConfig pk, .setDpllConfig pk, .setSelection pk, .setTime pk, .setTodConfig pk] →
    exec i s = .next t → outer { t with bel := s.bel } = outer s) ∧
  (∀ (i : Instr) (pk : Packet) (s t : State), i ∈ [
      .setLanePattern pk, .setTenantPattern pk, .startCapture pk, .triggerCapture pk, .busTransfer pk] →
    exec i s = .next t → outer { t with test := s.test } = outer s) ∧
  (∀ (pk : Packet) (s t : State), exec (.stopCapture pk) s = .next t →
    outer { t with free := s.free, test := s.test } = outer s) ∧
  (∀ (pk : Packet) (s t : State), exec (.setMode pk) s = .next t →
    outer { t with mode := s.mode, power := s.power } = outer s) ∧
  (∀ (pk : Packet) (s t : State), exec (.setSupervision pk) s = .next t →
    outer { t with power := s.power, pins := s.pins } = outer s) ∧
  (∀ (pk : Packet) (s t : State), exec (.clearPairFault pk) s = .next t →
    outer { t with pins := s.pins, spire := s.spire } = outer s) ∧
  (∀ (pk : Packet) (s t : State), exec (.fwCommit pk) s = .next t →
    outer { t with journal := s.journal, fw := s.fw } = outer s) ∧
  (∀ (pk : Packet) (s t : State), exec (.setRemap pk) s = .next t →
    outer { t with journal := s.journal, mem := s.mem } = outer s) ∧
  (∀ (pk : Packet) (s t : State), exec (.setLearning pk) s = .next t →
    outer { t with journal := s.journal, bel := s.bel } = outer s) ∧
  (∀ (pk : Packet) (s t : State), exec (.setLinePattern pk) s = .next t →
    outer { t with spire := s.spire, test := s.test } = outer s) ∧
  (∀ (pk : Packet) (s t : State), exec (.setMergeConfig pk) s = .next t →
    outer { t with skew := s.skew, mrg := s.mrg } = outer s) ∧
  (∀ (pk : Packet) (s t : State), exec (.setClient pk) s = .next t → outer { t with host := s.host, pm := s.pm } = outer s) ∧
  (∀ (pk : Packet) (s t : State), exec (.setFec pk) s = .next t →
    outer { t with spire := s.spire, line := s.line, pm := s.pm } = outer s) ∧
  (∀ (pk : Packet) (s t : State), exec (.setLoop pk) s = .next t →
    outer { t with spire := s.spire, line := s.line, test := s.test } = outer s) ∧
  (∀ (pk : Packet) (s t : State), exec (.setCalControl pk) s = .next t →
    outer { t with plan := s.plan, spire := s.spire, line := s.line, pm := s.pm } = outer s) ∧
  (∀ (pk : Packet) (s t : State), exec (.stepPhase pk) s = .next t →
   outer { t with tod := s.tod, subns := s.subns, free := s.free, pm := s.pm, turret := s.turret, mem := s.mem, bel := s.bel
      } = outer s) ∧
  (∀ (pk : Packet) (s t : State), exec (.restartAcquisition pk) s = .next t →
   outer { t with journal := s.journal, plan := s.plan, spire := s.spire, line := s.line, pm := s.pm, bel := s.bel } = outer
      s)

/-- What the events of pins, host, ring and the block's own engines leave alone: everything outside the part of the state that
they act on, and the queues, events, counters, endpoint and ring; those that wait for a deadline move the time. -/
def Obligations.EventsFrame : Prop :=
  (∀ (i : Instr) (x0 : QueueId) (x1 : List Byte) (x2 : Byte) (x3 : MemErr) (x4 : Nat) (x5 : Nat) (x6 : Bool) (x7 : Bool) (x8
    : Access) (x9 : Port) (x10 : RingMsg) (x11 : Nat) (s t : State), i ∈ [
      .invalidPacket x0 x1, .relayRequest x0 x1, .twiQdataWrite x2 x3, .twiQendWrite x1, .twiRspRead, .responseWrite x0,
      .fenceComplete x0, .pcieLink x4 x5, .evtLostRead, .bwPeakRead x4 x6 x7, .counterLowRead x6 x4, .bar2CounterRead x4 x6,
      .violation x8, .eventRingWrite, .counterWrap x4 x5, .ringSignalDetect x9, .ringAlignDone x9, .ringLink x9 x4,
      .ringMessageForward x9 x1, .ringStatusReceive x9 x10, .rosterReceive x10, .negReceive x9 x4, .statusSend, .rosterSend,
      .delayExchange x9 x4, .delayReqReceive x9 x4 x5, .delayRespReceive x9 x4 x5 x11, .timingSend, .requestReceive x9 x10,
      .receiptReceive x9 x4 x5 x6, .responseReceive x9 x10, .respAckReceive x9 x4 x5, .responseResend, .eventReceive x9 x10,
      .streamAckReceive x9 x4 x5, .streamResend, .protectReceive x10, .protectSend x4, .perstNDeassert] →
    exec i s = .next t → outer t = outer s) ∧
  (∀ (x0 : CfgAccess) (s t : State), exec (.configRequest x0) s = .next t → outer { t with free := s.free } = outer s) ∧
  (∀ (i : Instr) (x0 : QueueId) (x1 : BitVec 32) (x2 : MemErr) (x3 : Nat) (x4 : List Host.Cell) (x5 : Bool) (x6 : Port) (x7
    : RingMsg) (s t : State), i ∈ [
      .qdataWrite x0 x1 x2, .queueWriteResume x0, .qend x0 x3 x2, .functionLevelReset, .perstNAssert, .qrspSizeWrite x0 x1,
      .qrspHeadWrite x0 x1, .evtSizeWrite x1, .evtHeadWrite x1, .msixUnmask x3, .dmaDoorbell x3 x4 x5, .dmaAbort x3,
      .dmaCplHeadWrite x3 x1, .cntSnapshot x1, .cntOvfClear x3 x1, .violationClear x1, .registerWrite x3 x1,
      .pmReceive x6 x7] →
    exec i s = .next t → outer { t with dma := s.dma } = outer s) ∧
  (∀ (i : Instr) (s t : State), i ∈ [
      .modeAnnounce, .rampDownDone] →
    exec i s = .next t → outer { t with mode := s.mode } = outer s) ∧
  (∀ (s t : State), exec .controllerRestartDone s = .next t → outer { t with ctl := s.ctl } = outer s) ∧
  (∀ (i : Instr) (x0 : Nat) (s t : State), i ∈ [
      .engineFailed x0, .engineFailover x0, .engineCheckpoint x0] →
    exec i s = .next t → outer { t with eng := s.eng } = outer s) ∧
  (∀ (x0 : Nat) (s t : State), exec (.domainReturnStart x0) s = .next t → outer { t with power := s.power } = outer s) ∧
  (∀ (s t : State), exec .journalWrite s = .next t → outer { t with journal := s.journal } = outer s) ∧
  (∀ (i : Instr) (s t : State), i ∈ [
      .fwSlotErased, .fwVerifyDone] →
    exec i s = .next t → outer { t with fw := s.fw } = outer s) ∧
  (∀ (i : Instr) (x0 : Carrier) (x1 : Nat) (x2 : OsaObs) (x3 : Bool) (x4 : Bool) (x5 : Int) (s t : State), i ∈ [
      .txClipInterval x0 x1, .agcSettleFail x0, .agcLimit x0, .rxClipInterval x0 x1, .overlapSaveBlock x0 x2,
      .calApply x0 x1, .txCalApply x0, .eqConverged x0 x3 x1, .sfSyncFound x0 x3 x4, .freqFineDone x0 x5,
      .xtalkFallback x0 x1] →
    exec i s = .next t → outer { t with spire := s.spire } = outer s) ∧
  (∀ (x0 : Carrier) (s t : State), exec (.fullHuntDone x0) s = .next t → outer { t with line := s.line } = outer s) ∧
  (∀ (i : Instr) (x0 : Nat) (x1 : List (List Int)) (x2 : LaneObs) (x3 : HostScope) (x4 : Nat) (s t : State), i ∈ [
      .laneForegroundAdaptDone x0 x1, .laneAdaptWindow x0 x2, .laneAdaptApply x0, .hostDefect x3 x0 x4,
      .flexeMultiframeBoundary x0] →
    exec i s = .next t → outer { t with host := s.host } = outer s) ∧
  (∀ (i : Instr) (x0 : Nat) (x1 : Nat) (x2 : EccKind) (s t : State), i ∈ [
      .pipeFenced x0, .keepEccError x0 x1 x2] →
    exec i s = .next t → outer { t with turret := s.turret } = outer s) ∧
  (∀ (i : Instr) (x0 : Nat) (x1 : Int) (x2 : Int) (s t : State), i ∈ [
      .esmcInfoPdu x0, .holdoverCorrectionUpdate x1, .learningSample x1 x2] →
    exec i s = .next t → outer { t with bel := s.bel } = outer s) ∧
  (∀ (i : Instr) (x0 : Nat) (x1 : Nat) (x2 : List Bool) (x3 : Carrier) (x4 : List Byte) (s t : State), i ∈ [
      .patternLock x0 x1 x2, .timingFallback x3, .busTransferDone x0 x1 x4, .busStuckRelease x0] →
    exec i s = .next t → outer { t with test := s.test } = outer s) ∧
  (∀ (i : Instr) (x0 : QueueId) (x1 : Bool) (x2 : Nat) (x3 : Port) (s t : State), i ∈ [
      .twiStretchExpiry, .pointerWindowClose x0 x1, .bwWindowEnd x2, .slewDone, .setTimeEdgeTimeout, .ppsLoss,
      .ringAlignTimeout x3, .ringStepStart x3, .ringStepEnd x3 x1, .managerResume, .workerLeft x2,
      .workerReachabilityTimeout x2 x3, .relayRetry x2, .relayUnreachableTimeout x2, .protectWtrExpiry x2,
      .protectPartner x2, .ringTimingTimeout, .holdoverReady] →
    exec i s = .next t → outer { t with now := s.now, tod := s.tod, subns := s.subns, bel := s.bel } = outer s) ∧
  (∀ (i : Instr) (x0 : Nat) (x1 : List Bool) (s t : State), i ∈ [
      .kekEstablished, .keyGenerated x0, .trngHealthFail x1] →
    exec i s = .next t → outer { t with free := s.free, turret := s.turret } = outer s) ∧
  (∀ (s t : State), exec .modelUpdate s = .next t → outer { t with free := s.free, bel := s.bel } = outer s) ∧
  (∀ (x0 : Nat) (s t : State), exec (.captureEndEarly x0) s = .next t →
    outer { t with free := s.free, test := s.test } = outer s) ∧
  (∀ (x0 : FlashRead) (s t : State), exec (.firmwareVerified x0) s = .next t →
    outer { t with ctl := s.ctl, fw := s.fw } = outer s) ∧
  (∀ (x0 : Nat) (s t : State), exec (.fwClusterSwitch x0) s = .next t → outer { t with eng := s.eng, fw := s.fw } = outer s) ∧
  (∀ (s t : State), exec .pfailNDeassert s = .next t → outer { t with pins := s.pins, pm := s.pm } = outer s) ∧
  (∀ (x0 : List Nat) (s t : State), exec (.rowRepairDone x0) s = .next t →
    outer { t with journal := s.journal, mem := s.mem } = outer s) ∧
  (∀ (i : Instr) (x0 : Nat) (x1 : Int) (x2 : Int) (x3 : Bool) (s t : State), i ∈ [
      .refPhaseMeasure x0 x1 x2, .refSignalChange x0 x3, .selectionEvaluation] →
    exec i s = .next t → outer { t with journal := s.journal, bel := s.bel } = outer s) ∧
  (∀ (s t : State), exec .spacingErr s = .next t → outer { t with plan := s.plan, spire := s.spire } = outer s) ∧
  (∀ (i : Instr) (x0 : Carrier) (x1 : Nat) (x2 : List Int) (s t : State), i ∈ [
      .calWindowClose x0 x1 x2, .ldpcBlockEnter x0, .losClear x0] →
    exec i s = .next t → outer { t with spire := s.spire, line := s.line } = outer s) ∧
  (∀ (x0 : Nat) (x1 : FlexeOh) (s t : State), exec (.flexeOverheadFrameRx x0 x1) s = .next t →
    outer { t with host := s.host, bel := s.bel } = outer s) ∧
  (∀ (x0 : Nat) (s t : State), exec (.receiveFlushTimeout x0) s = .next t →
    outer { t with now := s.now, tod := s.tod, subns := s.subns, dma := s.dma, bel := s.bel } = outer s) ∧
  (∀ (x0 : Nat) (s t : State), exec (.fifoWindowClose x0) s = .next t →
    outer { t with now := s.now, tod := s.tod, subns := s.subns, power := s.power, bel := s.bel } = outer s) ∧
  (∀ (i : Instr) (x0 : Nat) (s t : State), i ∈ [
      .refFreqCheck x0, .refWtrExpiry x0, .holdOffExpiry, .dpllLock, .lockFail, .modelJournal] →
    exec i s = .next t →
    outer { t with now := s.now, tod := s.tod, subns := s.subns, journal := s.journal, bel := s.bel } = outer s) ∧
  (∀ (i : Instr) (x0 : Carrier) (x1 : Bool) (s t : State), i ∈ [
      .settleExpiry x0, .txCalTimeout x0, .warmPathTimeout x0, .eqLimit x0 x1, .xtalkResume x0, .waitSignalTimeout x0] →
    exec i s = .next t →
    outer { t with now := s.now, tod := s.tod, subns := s.subns, spire := s.spire, bel := s.bel } = outer s) ∧
  (∀ (i : Instr) (x0 : Carrier) (s t : State), i ∈ [
      .fecDegWindow x0, .fecFailWindow x0, .fecThrottle x0] →
    exec i s = .next t →
    outer { t with now := s.now, tod := s.tod, subns := s.subns, line := s.line, bel := s.bel } = outer s) ∧
  (∀ (s t : State), exec .excessEnd s = .next t →
    outer { t with now := s.now, tod := s.tod, subns := s.subns, skew := s.skew, bel := s.bel } = outer s) ∧
  (∀ (i : Instr) (x0 : Carrier) (s t : State), i ∈ [
      .legQualificationHoldExpiry x0, .mergeWtrExpiry] →
    exec i s = .next t → outer { t with now := s.now, tod := s.tod, subns := s.subns, mrg := s.mrg, bel := s.bel } = outer s) ∧
  (∀ (i : Instr) (x0 : Nat) (s t : State), i ∈ [
      .flexeCaTimeout x0, .esmcTimeout x0] →
    exec i s = .next t →
    outer { t with now := s.now, tod := s.tod, subns := s.subns, host := s.host, bel := s.bel } = outer s) ∧
  (∀ (s t : State), exec .pmSecondSettle s = .next t →
    outer { t with now := s.now, tod := s.tod, subns := s.subns, pm := s.pm, bel := s.bel } = outer s) ∧
  (∀ (x0 : Nat) (x1 : Nat) (s t : State), exec (.keyRotated x0 x1) s = .next t →
    outer { t with now := s.now, tod := s.tod, subns := s.subns, turret := s.turret, bel := s.bel } = outer s) ∧
  (∀ (i : Instr) (x0 : Nat) (x1 : Bool) (s t : State), i ∈ [
      .domeRefresh x0 x1, .scrubPassStart x0, .scrubLate x0] →
    exec i s = .next t → outer { t with now := s.now, tod := s.tod, subns := s.subns, mem := s.mem, bel := s.bel } = outer s) ∧
  (∀ (x0 : CapSource) (s t : State), exec (.captureTrigger x0) s = .next t →
    outer { t with now := s.now, tod := s.tod, subns := s.subns, bel := s.bel, test := s.test } = outer s) ∧
  (∀ (x0 : Carrier) (x1 : Nat) (s t : State), exec (.monitorRecordClose x0 x1) s = .next t →
    outer { t with free := s.free, dma := s.dma, spire := s.spire } = outer s) ∧
  (∀ (x0 : Carrier) (x1 : FifoLevel) (s t : State), exec (.superframeTransmit x0 x1) s = .next t →
    outer { t with free := s.free, spire := s.spire, test := s.test } = outer s) ∧
  (∀ (x0 : Nat) (x1 : Bool) (x2 : Bool) (s t : State), exec (.framerCipherRequest x0 x1 x2) s = .next t →
    outer { t with free := s.free, ten := s.ten, turret := s.turret } = outer s) ∧
  (∀ (s t : State), exec .controllerMismatch s = .next t → outer { t with ctl := s.ctl, eng := s.eng, fw := s.fw } = outer s) ∧
  (∀ (i : Instr) (x0 : Carrier) (s t : State), i ∈ [
      .txsafeAssert x0, .txsafeDeassert x0] →
    exec i s = .next t → outer { t with power := s.power, pins := s.pins, spire := s.spire } = outer s) ∧
  (∀ (x0 : Option (List Byte)) (s t : State), exec (.flashOperationDone x0) s = .next t →
    outer { t with journal := s.journal, fw := s.fw, mem := s.mem } = outer s) ∧
  (∀ (i : Instr) (x0 : Carrier) (x1 : CdObs) (x2 : Int) (s t : State), i ∈ [
      .cdScanDone x0 x1, .freqCoarseDone x0 x2, .timingAcquired x0 x2] →
    exec i s = .next t → outer { t with journal := s.journal, spire := s.spire, bel := s.bel } = outer s) ∧
  (∀ (x0 : Carrier) (s t : State), exec (.superframeReceive x0) s = .next t →
    outer { t with plan := s.plan, spire := s.spire, line := s.line } = outer s) ∧
  (∀ (i : Instr) (x0 : Carrier) (s t : State), i ∈ [
      .decoderIterationPeriod x0, .blockLeave x0] →
    exec i s = .next t → outer { t with spire := s.spire, line := s.line, pm := s.pm } = outer s) ∧
  (∀ (x0 : Carrier) (x1 : GroupObs) (s t : State), exec (.symbolGroupReceive x0 x1) s = .next t →
    outer { t with spire := s.spire, line := s.line, test := s.test } = outer s) ∧
  (∀ (i : Instr) (x0 : Nat) (x1 : Int) (x2 : List (List Nat)) (s t : State), i ∈ [
      .tcFreqOffsetWindow x0 x1, .rsFecCodeword x0 x2] →
    exec i s = .next t → outer { t with ten := s.ten, host := s.host, pm := s.pm } = outer s) ∧
  (∀ (i : Instr) (x0 : List Bool) (s t : State), i ∈ [
      .trngRetest x0, .maskRekey] →
    exec i s = .next t →
   outer { t with now := s.now, tod := s.tod, subns := s.subns, free := s.free, turret := s.turret, bel := s.bel } = outer s) ∧
  (∀ (s t : State), exec .capturePostDone s = .next t →
    outer { t with now := s.now, tod := s.tod, subns := s.subns, free := s.free, bel := s.bel, test := s.test } = outer s) ∧
  (∀ (s t : State), exec .pairFault s = .next t →
    outer { t with now := s.now, tod := s.tod, subns := s.subns, pins := s.pins, spire := s.spire, bel := s.bel } = outer s) ∧
  (∀ (i : Instr) (x0 : Carrier) (x1 : List (List Int)) (s t : State), i ∈ [
      .foregroundCalDone x0 x1, .calDeferred x0] →
    exec i s = .next t →
   outer { t with now := s.now, tod := s.tod, subns := s.subns, journal := s.journal, spire := s.spire, bel := s.bel } =
      outer s) ∧
  (∀ (x0 : Carrier) (x1 : Nat) (x2 : Nat) (s t : State), exec (.turboPass x0 x1 x2) s = .next t →
    outer { t with now := s.now, tod := s.tod, subns := s.subns, spire := s.spire, line := s.line, bel := s.bel } = outer s) ∧
  (∀ (x0 : Nat) (x1 : Nat) (x2 : Nat) (x3 : Nat) (s t : State), exec (.pmSecondEnd x0 x1 x2 x3) s = .next t →
    outer { t with now := s.now, tod := s.tod, subns := s.subns, line := s.line, pm := s.pm, bel := s.bel } = outer s) ∧
  (∀ (x0 : Nat) (x1 : FifoRef) (s t : State), exec (.fifoMismatch x0 x1) s = .next t →
    outer { t with power := s.power, spire := s.spire, ten := s.ten, skew := s.skew, host := s.host } = outer s)
end

