-- ==== Sys2Proof/Laws/Crypto.lean ====
section
/-! SUPPORT. The inverse AES cipher over tables that Lean has compared with the field arithmetic, and one wrapped key whose unwrapping
the kernel computes with them: the key of the witness of LOAD_KEY. -/

namespace Sys2Proof.Machine
set_option maxRecDepth 100000

/-- Byte `a` is the inverse S-box of `a`. -/
def aesTabS : Nat :=
    ((((0x7d0c2155631469e126d677ba7e042b17619953833cbbebc8b0f52aae4d3be0a0ef9cc993) <<< 440 +
    0x9f7ae52d0d4ab519a97f51605fec8027591012b131c7078833a8dd1ff45acd78fec0db9a2079d2c64b3e56fc1bbe18aa0e62b76f89c529) <<< 440 +
    0x1d711af1476edf751ce837f9e28535ade72274ac9673e6b4f0cecff297eadc674f4111913a6b8a130103bdafc1020f3fca8f1e2cd00645) <<< 440 +
    0xb3b80558e4f70ad3bc8c00abd890849d8da75746155edab9edfd5048706c92b6655dcc5ca4d41698688664f6f87225d18b6d49a25b76b2) <<< 440 +
    0x24d92866a12e084ec3fa420b954cee3d23c2a632947b54cbe9dec444438e3487ff2f9b8239e37cfbd7f3819ea340bf38a53630d56a0952

/-- Byte `a` is the product by 14 of `a`. -/
def aesTab14 : Nat :=
    ((((0x8d83919fb5bba9a7fdf3e1efc5cbd9d76d63717f555b49471d13010f252b393756584a44) <<< 440 +
    0x6e60727c26283a341e10020cb6b8aaa48e80929cc6c8dad4fef0e2ec202e3c321816040a505e4c426866747ac0cedcd2f8f6e4eab0beac) <<< 440 +
    0xa28886949afbf5e7e9c3cddfd18b859799b3bdafa11b150709232d3f316b657779535d4f41ccc2d0def4fae8e6bcb2a0ae848a98962c22) <<< 440 +
    0x303e141a08065c52404e646a787617190b052f21333d67697b755f51434df7f9ebe5cfc1d3dd87899b95bfb1a3ad616f7d735957454b11) <<< 440 +
    0x1f0d032927353b818f9d93b9b7a5abf1ffede3c9c7d5dbbab4a6a8828c9e90cac4d6d8f2fceee05a544648626c7e702a243638121c0e00

/-- Byte `a` is the product by 11 of `a`. -/
def aesTab11 : Nat :=
    ((((0xa3a8b5be8f849992fbf0ede6d7dcc1ca1318050e3f3429224b405d56676c717ad8d3cec5) <<< 440 +
    0xf4ffe2e9808b969daca7bab168637e75444f5259303b262d1c170a01555e434879726f640d061b10212a373ce5eef3f8c9c2dfd4bdb6ab) <<< 440 +
    0xa0919a878c2e2538330209141f767d606b5a514c479e958883b2b9a4afc6cdd0dbeae1fcf7545f424978736e650c071a11202b363de4ef) <<< 440 +
    0xf2f9c8c3ded5bcb7aaa1909b868d2f2439320308151e777c616a5b504d469f948982b3b8a5aec7ccd1daebe0fdf6a2a9b4bf8e859893fa) <<< 440 +
    0xf1ece7d6ddc0cb1219040f3e3528234a415c57666d707bd9d2cfc4f5fee3e8818a979cada6bbb069627f74454e5358313a272c1d160b00

/-- Byte `a` is the product by 13 of `a`. -/
def aesTab13 : Nat :=
    ((((0x979a8d80a3aeb9b4fff2e5e8cbc6d1dc474a5d50737e69642f2235381b16010c2c21363b) <<< 440 +
    0x1815020f44495e53707d6a67fcf1e6ebc8c5d2df94998e83a0adbab7faf7e0edcec3d4d9929f8885a6abbcb12a27303d1e130409424f58) <<< 440 +
    0x55767b6c61414c5b5675786f622924333e1d10070a919c8b86a5a8bfb2f9f4e3eecdc0d7da4d40575a7974636e25283f32111c0b069d90) <<< 440 +
    0x878aa9a4b3bef5f8efe2c1ccdbd6f6fbece1c2cfd8d59e938489aaa7b0bd262b3c31121f08054e4354597a77606d202d3a3714190e0348) <<< 440 +
    0x45525f7c71666bf0fdeae7c4c9ded39895828faca1b6bb9b96818cafa2b5b8f3fee9e4c7caddd04b46515c7f726568232e3934171a0d00

/-- Byte `a` is the product by 9 of `a`. -/
def aesTab9 : Nat :=
    ((((0x464f545d626b70790e071c152a233831d6dfc4cdf2fbe0e99e978c85bab3a8a17d746f66) <<< 440 +
    0x59504b42353c272e1118030aede4fff6c9c0dbd2a5acb7be8188939a3039222b141d060f78716a635c554e47a0a9b2bb848d969fe8e1fa) <<< 440 +
    0xf3ccc5ded70b0219102f263d34434a5158676e757c9b928980bfb6ada4d3dac1c8f7fee5ecaaa3b8b18e879c95e2ebf0f9c6cfd4dd3a33) <<< 440 +
    0x28211e170c05727b6069565f444d9198838ab5bca7aed9d0cbc2fdf4efe60108131a252c373e49405b526d647f76dcd5cec7f8f1eae394) <<< 440 +
    0x9d868fb0b9a2ab4c455e5768617a73040d161f2029323be7eef5fcc3cad1d8afa6bdb48b829990777e656c535a41483f362d241b120900

/-- A byte of a table. -/
def aesLook (t : Nat) (b : Byte) : Byte := BitVec.ofNat 8 (t >>> (8 * b.toNat))

theorem gfMul_14 : ∀ a : BitVec 8, gfMul 14 a = aesLook aesTab14 a := by decide +kernel
theorem gfMul_11 : ∀ a : BitVec 8, gfMul 11 a = aesLook aesTab11 a := by decide +kernel
theorem gfMul_13 : ∀ a : BitVec 8, gfMul 13 a = aesLook aesTab13 a := by decide +kernel
theorem gfMul_9 : ∀ a : BitVec 8, gfMul 9 a = aesLook aesTab9 a := by decide +kernel
theorem aesSubInv_look : ∀ a : BitVec 8, aesSubInv a = aesLook aesTabS a := by decide +kernel

/-- The inverse mix over tables. -/
def aesMixLook (l : List Byte) : List Byte :=
  (List.range 16).map fun i =>
    let c (j : Nat) : Byte := l.getD (4 * (i / 4) + (i + j) % 4) 0
    aesLook aesTab14 (c 0) ^^^ aesLook aesTab11 (c 1) ^^^ aesLook aesTab13 (c 2) ^^^ aesLook aesTab9 (c 3)

/-- The inverse cipher over tables. -/
def aesDecryptLook (ks : List (List Byte)) (b : List Byte) : List Byte :=
  let s := (((ks.drop 1).take 13).reverse).foldl
    (fun x k => aesMixLook (xorBytes ((aesShift 3 x).map (aesLook aesTabS)) k)) (xorBytes b (ks.getD 14 []))
  xorBytes ((aesShift 3 s).map (aesLook aesTabS)) (ks.headD [])

theorem aesDecrypt_look : aesDecrypt = aesDecryptLook := by
  have hS : aesSubInv = aesLook aesTabS := funext aesSubInv_look
  have hM : aesMix 14 11 13 9 = aesMixLook := by
    funext l
    simp only [aesMix, aesMixLook, gfMul_14, gfMul_11, gfMul_13, gfMul_9]
  funext ks b
  rw [aesDecrypt, aesDecryptLook, hS, hM]

/-- One step of the unwrap over tables. -/
def kwBackLook (ks : List (List Byte)) (n : Nat) (st : List Byte × List (List Byte)) (t : Nat) : List Byte × List (List Byte) :=
  let i := (t - 1) % n
  let b := aesDecryptLook ks (xorBytes st.1 (be 8 t) ++ st.2.getD i [])
  (b.take 8, st.2.set i (b.drop 8))

theorem kwBack_look : kwBack = kwBackLook := by
  funext ks n st t
  rw [kwBack, kwBackLook, aesDecrypt_look]

/-- The round keys of a key of zeros. -/
def keysZero : List (List Byte) :=
  let w := (((0x62636363626363636263636362636363aafbfbfbaafbfbfbaafbfbfbaafbfbfb6f6c6ccf0d0f0fac6f6c6c) <<< 440 +
    0xcf0d0f0fac7d8d8d6ad77676917d8d8d6ad77676915354edc15e5be26d31378ea23c38810e968a81c141fcf7503c717a3aeb070cab9eaa) <<< 440 +
    0x8f28c0f16d45f1c6e3e7cdfe62e92b312bdf6acddc8f56bca6b5bdbbaa1e6406fd52a4f79017553173f098cf11196dbba90b0776758451) <<< 440 +
    0xcad331ec71792fe7b0e89c4347788b16760b7b8eb91a6274ed0ba1739b7e252251ad14ce20d43b10f80a1753bf729c45c979e7cb706385
  (List.range 15).map fun i => slice (be 240 w) (16 * i) 16

theorem aesKeys_zero : aesKeys (List.replicate 32 0) = keysZero := by decide +kernel

/-- A blob of 56 bytes. -/
def blobSample : List Byte := be 56 (
    (0x11) <<< 440 +
    0xe0a0f2f26b8be0b95a4cbf2f962f5ccdd59ba84b6638a52336ab6b3e9c3c90a91aedc14745a034c50d65f5937930c01ccf98982489389f)

/-- What it carries: a key of zeros, salts 1 and 2, tenant 1,023 and key 0. -/
def blobSamplePlain : List Byte := List.replicate 32 0 ++ be 4 1 ++ be 4 2 ++ be 4 1023 ++ be 4 0

theorem keyUnwrap_sample_steps :
    ((List.range 36).map (36 - ·)).foldl (kwBackLook keysZero 6) (blobSample.take 8, semiblocks (blobSample.drop 8)) =
      (List.replicate 8 0xA6#8, semiblocks blobSamplePlain) := by
  decide +kernel

/-- The blob unwraps under a KEK of zeros. -/
theorem keyUnwrap_sample : keyUnwrap (List.replicate 32 0) blobSample = some blobSamplePlain := by
  have hn : blobSample.length / 8 - 1 = 6 := by decide
  have hf : (semiblocks blobSamplePlain).flatten = blobSamplePlain := by decide +kernel
  simp only [keyUnwrap, aesKeys_zero, hn, kwBack_look, Nat.reduceMul, keyUnwrap_sample_steps, hf, if_true]

end Sys2Proof.Machine
end

