-- ==== Sys2Proof/Laws/Kept.lean ====
section
/-! SUPPORT. The relation "the queue of waiting commands and the held line plan are the same", with the laws that let simp carry it through
conditionals and folds. -/

namespace Sys2Proof.Machine

/-- The second state has the first one's queue of waiting commands and held line plan. -/
abbrev Kept (s t : State) : Prop :=
  t.pending = s.pending ∧ t.plan.car = s.plan.car ∧ t.plan.spacing = s.plan.spacing ∧ t.plan.fibre = s.plan.fibre

theorem Kept.refl (s : State) : Kept s s := ⟨rfl, rfl, rfl, rfl⟩

theorem Kept.trans {s t u : State} (h : Kept s t) (k : Kept t u) : Kept s u :=
  ⟨k.1.trans h.1, k.2.1.trans h.2.1, k.2.2.1.trans h.2.2.1, k.2.2.2.trans h.2.2.2⟩

@[simp] theorem pending_ite {c : Prop} [Decidable c] (a b : State) :
    (if c then a else b).pending = if c then a.pending else b.pending := apply_ite State.pending c a b

@[simp] theorem plan_ite {c : Prop} [Decidable c] (a b : State) :
    (if c then a else b).plan = if c then a.plan else b.plan := apply_ite State.plan c a b

@[simp] theorem car_ite {c : Prop} [Decidable c] (a b : LinePlan) :
    (if c then a else b).car = if c then a.car else b.car := apply_ite LinePlan.car c a b

@[simp] theorem spacing_ite {c : Prop} [Decidable c] (a b : LinePlan) :
    (if c then a else b).spacing = if c then a.spacing else b.spacing := apply_ite LinePlan.spacing c a b

@[simp] theorem fibre_ite {c : Prop} [Decidable c] (a b : LinePlan) :
    (if c then a else b).fibre = if c then a.fibre else b.fibre := apply_ite LinePlan.fibre c a b

/-- A fold of steps that each keep both keeps both. -/
@[simp] theorem foldl_kept {α : Type} (f : State → α → State) (h : ∀ t x, Kept t (f t x)) (l : List α) (s : State) :
    Kept s (l.foldl f s) := by
  induction l generalizing s with
  | nil => simp [Kept]
  | cons x r ih =>
    obtain ⟨a, b, c, d⟩ := h s x
    obtain ⟨a', b', c', d'⟩ := ih (f s x)
    exact ⟨a'.trans a, b'.trans b, c'.trans c, d'.trans d⟩

end Sys2Proof.Machine
end

