-- ==== Sys2Proof/Laws/KeptFlags.lean ====
section
/-! SUPPORT. What the definitions of Machine/Flags.lean keep: the queue of waiting commands and the held line plan. -/

namespace Sys2Proof.Machine

@[simp] theorem qset_kept (s : State) (q : QueueId) (v : Queue) : Kept s (qset s q v) := by
  unfold Kept qset
  (repeat' split) <;> simp

@[simp] theorem qupd_kept (s : State) (q : QueueId) (f : Queue → Queue) : Kept s (qupd s q f) := by
  simp [Kept, qupd]

end Sys2Proof.Machine
end

