-- ==== Sys2Proof/Laws/KeptOps.lean ====
section
/-! SUPPORT. What the definitions of Machine/Ops.lean keep: the queue of waiting commands and the held line plan. -/

namespace Sys2Proof.Machine

@[simp] theorem drawNat_kept (p : ℕ) (n : ℕ) (s : State) : Kept s (drawNat p n s).2 := by
  simp [Kept, drawNat]

@[simp] theorem drawBool_kept (p : ℕ) (s : State) : Kept s (drawBool p s).2 := by
  simp [Kept, drawBool]

@[simp] theorem drawBytes_kept (p : ℕ) (n : ℕ) (s : State) : Kept s (drawBytes p n s).2 := by
  simp [Kept, drawBytes]

@[simp] theorem signalVector_kept (v : ℕ) (s : State) : Kept s (signalVector v s) := by
  simp [Kept, signalVector]

@[simp] theorem countOwn_kept (i : ℕ) (n : ℕ) (s : State) : Kept s (countOwn i n s) := by
  unfold Kept countOwn
  (repeat' split) <;> simp

@[simp] theorem countOne_kept (i : ℕ) (n : ℕ) (s : State) : Kept s (countOne i n s) := by
  unfold Kept countOne
  (repeat' split) <;> simp

@[simp] theorem countWindow_kept (source : ℕ) (port : ℕ) (n : ℕ) (s : State) : Kept s (countWindow source port n s) := by
  simp [Kept, countWindow]

@[simp] theorem countSrc_kept (source : ℕ) (object : ℕ) (n : ℕ) (s : State) : Kept s (countSrc source object n s) := by
  unfold Kept countSrc
  (repeat' split) <;> simp (disch := (intros; (repeat' split) <;> simp [Kept]))

@[simp] theorem raiseVector_kept (v : ℕ) (s : State) : Kept s (raiseVector v s) := by
  unfold Kept raiseVector
  (repeat' split) <;> simp

@[simp] theorem addTod_kept (d : ℤ) (s : State) : Kept s (addTod d s) := by
  simp [Kept, addTod]

@[simp] theorem slewTime_kept (n : ℕ) (s : State) : Kept s (slewTime n s) := by
  unfold Kept slewTime
  (repeat' split) <;> simp

@[simp] theorem advanceTo_kept (t : ℕ) (s : State) : Kept s (advanceTo t s) := by
  unfold Kept advanceTo
  (repeat' split) <;> simp

@[simp] theorem advanceTod_kept (goal : ℕ) (s : State) : Kept s (advanceTod goal s) := by
  unfold Kept advanceTod
  (repeat' split) <;> simp

@[simp] theorem idle_kept (s : State) : Kept s (idle s) := by
  simp [Kept, idle]

@[simp] theorem advanceOpt_kept (t : Option ℕ) (s : State) : Kept s (advanceOpt t s) := by
  unfold Kept advanceOpt
  (repeat' split) <;> simp

@[simp] theorem hostStore_kept (a : ℕ) (l : List Byte) (s : State) : Kept s (hostStore a l s) := by
  simp [Kept, hostStore]

@[simp] theorem hostCells_kept (l : List (ℕ × Byte)) (s : State) : Kept s (hostCells l s) := by
  simp [Kept, hostCells]

@[simp] theorem writeEvent_kept (e : EvRec) (s : State) : Kept s (writeEvent e s) := by
  simp [Kept, writeEvent]

@[simp] theorem deliverEvent_kept (e : EvRec) (s : State) : Kept s (deliverEvent e s) := by
  unfold Kept deliverEvent
  (repeat' split) <;> simp

@[simp] theorem flushEvent_kept (s : State) : Kept s (flushEvent s) := by
  unfold Kept flushEvent
  (repeat' split) <;> simp

@[simp] theorem portUpd_kept (p : Port) (f : RingPort → RingPort) (s : State) : Kept s (portUpd p f s) := by
  simp [Kept, portUpd]

@[simp] theorem sendMsg_kept (p : Port) (m : RingMsg) (s : State) : Kept s (sendMsg p m s) := by
  simp only [Kept, sendMsg]
  (repeat' split) <;> simp

@[simp] theorem streamEvent_kept (e : EvRec) (s : State) : Kept s (streamEvent e s) := by
  unfold Kept streamEvent
  (repeat' split) <;> simp

@[simp] theorem post_kept (code : ℕ) (set : Bool) (args : List ℕ) (s : State) : Kept s (post code set args s) := by
  simp [Kept, post]

@[simp] theorem postEv_kept (code : ℕ) (args : List ℕ) (s : State) : Kept s (postEv code args s) := by
  simp [Kept, postEv]

@[simp] theorem noteStatus_kept (old : State) (s : State) : Kept s (noteStatus old s) := by
  unfold Kept noteStatus
  (repeat' split) <;> simp

@[simp] theorem violation_kept (last : ℕ) (s : State) : Kept s (violation last s) := by
  simp [Kept, violation]

@[simp] theorem writeRingRecord_kept (qi : QueueId) (r : Rec) (s : State) : Kept s (writeRingRecord qi r s) := by
  simp [Kept, writeRingRecord]

@[simp] theorem writePad_kept (qi : QueueId) (r : Rec) (s : State) : Kept s (writePad qi r s) := by
  unfold Kept writePad
  (repeat' split) <;> simp

@[simp] theorem sendResponse_kept (o : RespOut) (s : State) : Kept s (sendResponse o s) := by
  simp [Kept, sendResponse]

@[simp] theorem writeRelayRecord_kept (r : Rec) (s : State) : Kept s (writeRelayRecord r s) := by
  unfold Kept writeRelayRecord
  (repeat' split) <;> simp

@[simp] theorem writeRecord_kept (qi : QueueId) (r : Rec) (s : State) : Kept s (writeRecord qi r s) := by
  unfold Kept writeRecord
  (repeat' split) <;> simp

@[simp] theorem emit_kept (qi : QueueId) (r : Rec) (s : State) : Kept s (emit qi r s) := by
  unfold Kept emit
  (repeat' split) <;> simp

@[simp] theorem flushRecord_kept (qi : QueueId) (s : State) : Kept s (flushRecord qi s) := by
  simp only [Kept, flushRecord]
  (repeat' split) <;> simp

@[simp] theorem completeFrom_kept (src : ℕ) (r : Ref) (status : ℕ) (result : List Byte) (s : State) : Kept s (completeFrom src r status result s) := by
  unfold Kept completeFrom
  (repeat' split) <;> simp

@[simp] theorem complete_kept (r : Ref) (status : ℕ) (result : List Byte) (s : State) : Kept s (complete r status result s) := by
  simp [Kept, complete]

@[simp] theorem acceptFrom_kept (src : ℕ) (r : Ref) (s : State) : Kept s (acceptFrom src r s) := by
  simp only [Kept, acceptFrom]
  (repeat' split) <;> simp

@[simp] theorem done_kept (s : State) : Kept s (done s).s := by
  simp [Kept, done]

@[simp] theorem doneWith_kept (s : State) (result : List Byte) : Kept s (doneWith s result).s := by
  simp [Kept, doneWith]

@[simp] theorem later_kept (s : State) : Kept s (later s).s := by
  simp [Kept, later]

end Sys2Proof.Machine
end

