-- ==== Sys2Proof/Laws/KeptQueue.lean ====
section
/-! SUPPORT. What the definitions of Machine/Queue.lean keep: the queue of waiting commands and the held line plan. -/

namespace Sys2Proof.Machine

@[simp] theorem resetQueue_kept (q : QueueId) (cause : ℕ) (own : Option Ref) (s : State) : Kept s (resetQueue q cause own s) := by
  simp [Kept, resetQueue]
  (repeat' split) <;> simp

/-- A line access keeps both where what it does on success keeps both. -/
@[simp] theorem lineCheck_kept (q : QueueId) (err : MemErr) (ok : State → State) (s : State) (h : ∀ t, Kept t (ok t)) :
    Kept s (lineCheck q err ok s) := by
  obtain ⟨a, b, c, d⟩ := h s
  obtain ⟨a', b', c', d'⟩ := h (qupd s q fun v => { v with corrected := satAdd 32 v.corrected 1 })
  cases err <;> simp [Kept, lineCheck, a, b, c, d, a', b', c', d'] <;> (try split) <;> simp_all

@[simp] theorem appendOpen_kept (q : QueueId) (l : List Byte) (s : State) : Kept s (appendOpen q l s) := by
  simp [Kept, appendOpen]

@[simp] theorem closePacket_kept (q : QueueId) (len : ℕ) (unit : ℕ) (s : State) : Kept s (closePacket q len unit s) := by
  simp [Kept, closePacket]

@[simp] theorem takeWord_kept (q : QueueId) (w : BitVec 32) (err : MemErr) (s : State) : Kept s (takeWord q w err s) := by
  simp [Kept, takeWord]

@[simp] theorem takeHead_kept (q : QueueId) (w : WaitPk) (s : State) : Kept s (takeHead q w s) := by
  simp [Kept, takeHead]

@[simp] theorem sendCopy_kept (p : Port) (w : ℕ) (tag : ℕ) (s : State) : Kept s (sendCopy p w tag s) := by
  unfold Kept sendCopy
  (repeat' split) <;> simp

@[simp] theorem pairAnswer_kept (k : ℕ) (w : ℕ) (st : ℕ) (s : State) : Kept s (pairAnswer k w st s) := by
  unfold Kept pairAnswer
  (repeat' split) <;> simp

@[simp] theorem relayAnswer_kept (r : Relay) (st : ℕ) (res : List Byte) (s : State) : Kept s (relayAnswer r st res s) := by
  unfold Kept relayAnswer
  (repeat' split) <;> simp

@[simp] theorem relayStart_kept (w : ℕ) (bytes : List Byte) (ref : Ref) (pair : Option ℕ) (s : State) : Kept s (relayStart w bytes ref pair s) := by
  simp [Kept, relayStart]

/-- An answer keeps what the command's own part keeps. -/
@[simp] theorem answer_kept (ref : Ref) (r : Res) : Kept r.s (answer ref r) := by
  simp only [Kept, answer]
  (repeat' split) <;> simp

/-- A started command keeps both where its own part does. -/
@[simp] theorem runCommand_kept (op : ℕ) (check : Ctx → State → ℕ) (run : Ctx → State → Res) (c : Ctx) (s : State)
    (h : ∀ c s, Kept s (run c s).s) : Kept s (runCommand op check run c s) := by
  obtain ⟨h1, h2, h3, h4⟩ := h c s
  simp only [Kept, runCommand]
  split <;> simp_all

@[simp] theorem refuseHeader_kept (ref : Ref) (w : WaitPk) (st : ℕ) (s : State) : Kept s (refuseHeader ref w st s) := by
  simp [Kept, refuseHeader]

/-- The start of a command keeps both where its own part does. -/
@[simp] theorem startCommand_kept (op : ℕ) (check : Ctx → State → ℕ) (run : Ctx → State → Res) (pk : Packet) (w : WaitPk) (s : State)
    (h : ∀ c s, Kept s (run c s).s) : Kept s (startCommand op check run pk w s) := by
  obtain ⟨h1, h2, h3, h4⟩ := runCommand_kept op check run ⟨pk, ⟨pk.queue, w.sub⟩⟩ (takeHead pk.queue w s) h
  simp only [Kept, startCommand]
  (repeat' split) <;> simp_all

@[simp] theorem submit_kept (q : QueueId) (bytes : List Byte) (s : State) : Kept s (submit q bytes s) := by
  simp [Kept, submit]

/-- A command at the front of the block's input keeps what its own part keeps: a property that follows both fields of
Kept. -/
theorem serve_keeps (P : State → Prop) (hP : ∀ s t, Kept s t → P s → P t) (op : ℕ) (check : Ctx → State → ℕ)
    (run : Ctx → State → Res) (pk : Packet) (s : State) (h : ∀ c s, P s → P (run c s).s) (hs : P s) :
    P (serve op check run pk s) := by
  have k1 : ∀ s1, P s1 → ∀ w, P (startCommand op check run pk w s1) := by
    intro s1 h1 w
    have h2 : P (takeHead pk.queue w s1) := hP _ _ (takeHead_kept _ _ _) h1
    simp only [startCommand]
    generalize (if pk.queue = QueueId.relay then stOk else headerStatus w.bytes (takeHead pk.queue w s1)) = st
    split
    · exact hP _ _ (refuseHeader_kept _ _ _ _) h2
    · split
      · exact hP _ _ (relayStart_kept _ _ _ _ _) h2
      · simp only [runCommand]
        split
        · exact hP _ _ (answer_kept _ _) (h _ _ h2)
        · exact hP _ _ (complete_kept _ _ _ _) h2
  have k2 : P (if (qget s pk.queue).waiting.any (fun w => w.bytes == packetBytes op pk) || pk.queue = .relay then s
      else submit pk.queue (packetBytes op pk) s) := by
    split
    · exact hs
    · exact hP _ _ (submit_kept _ _ _) hs
  simp only [serve]
  generalize (if (((qget s pk.queue).waiting.any fun w => w.bytes == packetBytes op pk) || decide (pk.queue = QueueId.relay)) = true
      then s else submit pk.queue (packetBytes op pk) s) = s1 at k2 ⊢
  split
  · exact k2
  · split
    · exact k1 _ k2 _
    · exact k2

/-- A command at the front of the block's input keeps both where its own part does. -/
@[simp] theorem serve_kept (op : ℕ) (check : Ctx → State → ℕ) (run : Ctx → State → Res) (pk : Packet) (s : State)
    (h : ∀ c s, Kept s (run c s).s) : Kept s (serve op check run pk s) :=
  serve_keeps (Kept s) (fun _ _ k h => Kept.trans h k) op check run pk s (fun c t k => Kept.trans k (h c t)) (Kept.refl s)

end Sys2Proof.Machine
end

