-- ==== Sys2Proof/Laws/KeptTables.lean ====
section
/-! SUPPORT. What the definitions of Machine/Tables.lean keep: the queue of waiting commands and the held line plan. -/

namespace Sys2Proof.Machine

@[simp] theorem spireUpd_kept (c : Carrier) (f : Spire → Spire) (s : State) : Kept s (spireUpd c f s) := by
  simp [Kept, spireUpd]

@[simp] theorem fecUpd_kept (c : Carrier) (f : Fec → Fec) (s : State) : Kept s (fecUpd c f s) := by
  simp [Kept, fecUpd]

@[simp] theorem frmUpd_kept (c : Carrier) (f : Frm → Frm) (s : State) : Kept s (frmUpd c f s) := by
  simp [Kept, frmUpd]

@[simp] theorem tenUpd_kept (t : ℕ) (f : Tenant → Tenant) (s : State) : Kept s (tenUpd t f s) := by
  simp [Kept, tenUpd]

@[simp] theorem groupUpd_kept (g : ℕ) (f : FlexGroup → FlexGroup) (s : State) : Kept s (groupUpd g f s) := by
  simp [Kept, groupUpd]

@[simp] theorem pmCount_kept (e : ℕ) (f : PmAcc → PmAcc) (s : State) : Kept s (pmCount e f s) := by
  simp [Kept, pmCount]

@[simp] theorem pmDrop_kept (e : ℕ) (s : State) : Kept s (pmDrop e s) := by
  simp [Kept, pmDrop]

@[simp] theorem pmSpoil_kept (c : Carrier) (s : State) : Kept s (pmSpoil c s) := by
  simp [Kept, pmSpoil]

end Sys2Proof.Machine
end

