-- ==== Sys2Proof/Laws/KeptHostOps.lean ====
section
/-! SUPPORT. What the definitions of Machine/HostOps.lean keep: the queue of waiting commands and the held line plan. -/

namespace Sys2Proof.Machine

@[simp] theorem laneUpd_kept (l : ℕ) (f : HostLane → HostLane) (s : State) : Kept s (laneUpd l f s) := by
  simp [Kept, laneUpd]

@[simp] theorem phyUpd_kept (p : ℕ) (f : Phy → Phy) (s : State) : Kept s (phyUpd p f s) := by
  simp [Kept, phyUpd]

@[simp] theorem phySend_kept (p : ℕ) (blocks : List (List Bool)) (offset : ℤ) (s : State) : Kept s (phySend p blocks offset s) := by
  simp [Kept, phySend]

@[simp] theorem sendOverhead_kept (g : ℕ) (s : State) : Kept s (sendOverhead g s) := by
  simp [Kept, sendOverhead]

@[simp] theorem phyIdle_kept (t : ℕ) (s : State) : Kept s (phyIdle t s) := by
  simp [Kept, phyIdle]

@[simp] theorem notePhy_kept (p : ℕ) (s : State) : Kept s (notePhy p s) := by
  simp [Kept, notePhy]

@[simp] theorem noteLane_kept (l : ℕ) (s : State) : Kept s (noteLane l s) := by
  unfold Kept noteLane
  (repeat' split) <;> simp

@[simp] theorem noteStuck_kept (l : ℕ) (old : ℕ) (s : State) : Kept s (noteStuck l old s) := by
  simp [Kept, noteStuck]

@[simp] theorem startLane_kept (l : ℕ) (s : State) : Kept s (startLane l s) := by
  simp [Kept, startLane]

@[simp] theorem stopLane_kept (l : ℕ) (s : State) : Kept s (stopLane l s) := by
  simp [Kept, stopLane]

@[simp] theorem settleLane_kept (force : Bool) (s : State) (l : ℕ) : Kept s (settleLane force s l) := by
  simp [Kept, settleLane]

@[simp] theorem settleQuad_kept (q : ℕ) (force : Bool) (s : State) : Kept s (settleQuad q force s) := by
  simp [Kept, settleQuad]

@[simp] theorem spoilQuad_kept (q : ℕ) (s : State) : Kept s (spoilQuad q s) := by
  simp [Kept, spoilQuad]

@[simp] theorem spoilPhy_kept (p : ℕ) (s : State) : Kept s (spoilPhy p s) := by
  simp [Kept, spoilPhy]

@[simp] theorem endSwitch_kept (g : ℕ) (st : ℕ) (s : State) : Kept s (endSwitch g st s) := by
  unfold Kept endSwitch
  (repeat' split) <;> simp

end Sys2Proof.Machine
end

