-- ==== Sys2Proof/Laws/KeptDefects.lean ====
section
/-! SUPPORT. What the definitions of Machine/Defects.lean keep: the queue of waiting commands and the held line plan. -/

namespace Sys2Proof.Machine

@[simp] theorem noteNeighbour_kept (c : Carrier) (s : State) : Kept s (noteNeighbour c s) := by
  simp [Kept, noteNeighbour]

@[simp] theorem noteNeighbours_kept (s : State) : Kept s (noteNeighbours s) := by
  simp [Kept, noteNeighbours]

end Sys2Proof.Machine
end

