-- ==== Sys2Proof/Laws/KeptJournalOps.lean ====
section
/-! SUPPORT. What the definitions of Machine/JournalOps.lean keep: the queue of waiting commands and the held line plan. -/

namespace Sys2Proof.Machine

@[simp] theorem journalAdd_kept (type : ℕ) (key : ℕ) (body : List Byte) (ref : Option Ref) (s : State) : Kept s (journalAdd type key body ref s) := by
  simp [Kept, journalAdd]

end Sys2Proof.Machine
end

