-- ==== Sys2Proof/Laws/KeptTurretOps.lean ====
section
/-! SUPPORT. What the definitions of Machine/TurretOps.lean keep: the queue of waiting commands and the held line plan. -/

namespace Sys2Proof.Machine

@[simp] theorem keyUpd_kept (k : ℕ) (f : KeySlot → KeySlot) (s : State) : Kept s (keyUpd k f s) := by
  simp [Kept, keyUpd]

@[simp] theorem noteCapacity_kept (s : State) : Kept s (noteCapacity s) := by
  simp [Kept, noteCapacity]

@[simp] theorem txPeriod_kept (t : ℕ) (s : State) : Kept s (txPeriod t s) := by
  simp [Kept, txPeriod]

@[simp] theorem mapKeep_kept (f : ℕ → KeySlot → KeySlot) (s : State) : Kept s (mapKeep f s) := by
  simp [Kept, mapKeep]

@[simp] theorem wrapTx_kept (s : State) : Kept s (wrapTx s) := by
  simp [Kept, wrapTx]

@[simp] theorem framerRestart_kept (s : State) : Kept s (framerRestart s) := by
  simp [Kept, framerRestart]

@[simp] theorem wrapRx_kept (counted : ℕ → Bool) (s : State) : Kept s (wrapRx counted s) := by
  simp [Kept, wrapRx]

@[simp] theorem startHunt_kept (t : ℕ) (s : State) : Kept s (startHunt t s) := by
  simp [Kept, startHunt]

@[simp] theorem rxPeriod_kept (t : ℕ) (kp : Option ℕ) (s : State) : Kept s (rxPeriod t kp s) := by
  simp [Kept, rxPeriod]

@[simp] theorem tagVerdict_kept (t : ℕ) (verifies : List ℕ) (s : State) : Kept s (tagVerdict t verifies s).2.2 := by
  simp only [Kept, tagVerdict]
  (repeat' split) <;> simp

@[simp] theorem reseed_kept (s : State) : Kept s (reseed s) := by
  simp [Kept, reseed]

@[simp] theorem generate_kept (n : ℕ) (s : State) : Kept s (generate n s).2 := by
  simp [Kept, generate]

@[simp] theorem generateOther_kept (old : List Byte) (f : ℕ) (s : State) : Kept s (generateOther old f s).2 := by
  induction f generalizing s with
  | zero => simp [Kept, generateOther]
  | succ k ih =>
    simp only [generateOther]
    split
    · exact Kept.trans (generate_kept _ _) (ih _)
    · exact generate_kept _ _

@[simp] theorem drawDomeKey_kept (s : State) : Kept s (drawDomeKey s) := by
  simp [Kept, drawDomeKey]

@[simp] theorem zeroDomeKey_kept (s : State) : Kept s (zeroDomeKey s) := by
  simp [Kept, zeroDomeKey]

@[simp] theorem endKeyJobs_kept (s : State) : Kept s (endKeyJobs s) := by
  simp [Kept, endKeyJobs]

@[simp] theorem endRotations_kept (s : State) : Kept s (endRotations s) := by
  simp [Kept, endRotations]

@[simp] theorem turretHalfOff_kept (s : State) : Kept s (turretHalfOff s) := by
  simp [Kept, turretHalfOff]

@[simp] theorem drawOf_kept (n : ℕ) (l : List ℕ) (s : State) : Kept s (drawOf n l s).2 := by
  induction n generalizing l s with
  | zero => simp [Kept, drawOf]
  | succ k ih =>
    simp only [drawOf]
    exact Kept.trans (drawNat_kept _ _ _) (ih _ _)

@[simp] theorem drawOrders_kept (s : State) : Kept s (drawOrders s) := by
  simp [Kept, drawOrders]

@[simp] theorem maskBlocks_kept (n : ℕ) (s : State) : Kept s (maskBlocks n s) := by
  simp [Kept, maskBlocks]

@[simp] theorem countBlocks_kept (n : ℕ) (s : State) : Kept s (countBlocks n s) := by
  simp [Kept, countBlocks]

end Sys2Proof.Machine
end

