-- ==== Sys2Proof/Laws/KeptDomeOps.lean ====
section
/-! SUPPORT. What the definitions of Machine/DomeOps.lean keep: the queue of waiting commands and the held line plan. -/

namespace Sys2Proof.Machine

@[simp] theorem domeUpd_kept (d : ℕ) (f : Dome → Dome) (s : State) : Kept s (domeUpd d f s) := by
  simp [Kept, domeUpd]

@[simp] theorem lineWrite_kept (stack : ℕ) (addr : ℕ) (b : List Byte) (s : State) : Kept s (lineWrite stack addr b s) := by
  simp [Kept, lineWrite]

@[simp] theorem sectorWrite_kept (sector : ℕ) (data : List Byte) (s : State) : Kept s (sectorWrite sector data s) := by
  simp [Kept, sectorWrite]

@[simp] theorem domeCount_kept (stack : ℕ) (f : Scrub → Scrub) (s : State) : Kept s (domeCount stack f s) := by
  simp [Kept, domeCount]

@[simp] theorem raiseFull_kept (target : ℕ) (was : Bool) (s : State) : Kept s (raiseFull target was s) := by
  simp [Kept, raiseFull]

@[simp] theorem retireSector_kept (stack : ℕ) (addr : ℕ) (s : State) : Kept s (retireSector stack addr s) := by
  simp [Kept, retireSector]

@[simp] theorem remapLine_kept (stack : ℕ) (addr : ℕ) (poison : Bool) (s : State) : Kept s (remapLine stack addr poison s) := by
  unfold Kept remapLine
  (repeat' split) <;> simp

@[simp] theorem releaseLine_kept (stack : ℕ) (i : ℕ) (s : State) : Kept s (releaseLine stack i s) := by
  simp [Kept, releaseLine]

@[simp] theorem logCorrection_kept (stack : ℕ) (addr : ℕ) (symbol : ℕ) (cw1 : Bool) (s : State) : Kept s (logCorrection stack addr symbol cw1 s) := by
  simp [Kept, logCorrection]

@[simp] theorem noteCorrected_kept (stack : ℕ) (addr : ℕ) (symbol : ℕ) (cw1 : Bool) (s : State) : Kept s (noteCorrected stack addr symbol cw1 s) := by
  simp [Kept, noteCorrected]

@[simp] theorem noteUncorrectable_kept (stack : ℕ) (addr : ℕ) (s : State) : Kept s (noteUncorrectable stack addr s) := by
  simp [Kept, noteUncorrectable]

@[simp] theorem readLine_kept (stack : ℕ) (addr : ℕ) (flips : List (ℕ × Byte)) (s0 : State) : Kept s0 (readLine stack addr flips s0).2.2 := by
  simp only [Kept, readLine]
  (repeat' split) <;> simp

@[simp] theorem scrubBack_kept (stack : ℕ) (addr : ℕ) (flips : List (ℕ × Byte)) (s : State) : Kept s (scrubBack stack addr flips s) := by
  simp [Kept, scrubBack]

@[simp] theorem regionUpd_kept (r : ℕ) (f : Region → Region) (s : State) : Kept s (regionUpd r f s) := by
  simp [Kept, regionUpd]

@[simp] theorem remapWord_kept (r : ℕ) (word : ℕ) (poison : Bool) (s : State) : Kept s (remapWord r word poison s) := by
  simp only [Kept, remapWord]
  (repeat' split) <;> simp

@[simp] theorem releaseWord_kept (r : ℕ) (i : ℕ) (s : State) : Kept s (releaseWord r i s) := by
  simp [Kept, releaseWord]

@[simp] theorem stackOff_kept (stack : ℕ) (s : State) : Kept s (stackOff stack s) := by
  simp [Kept, stackOff]

@[simp] theorem regionOff_kept (r : ℕ) (s : State) : Kept s (regionOff r s) := by
  simp [Kept, regionOff]

@[simp] theorem historyWrite_kept (e : ℕ) (period : ℕ) (bytes : List Byte) (s : State) : Kept s (historyWrite e period bytes s) := by
  simp [Kept, historyWrite]

@[simp] theorem historyTaken_kept (s : State) : Kept s (historyTaken s) := by
  simp [Kept, historyTaken]

end Sys2Proof.Machine
end

