-- ==== Sys2Proof/Laws/KeptPmOps.lean ====
section
/-! SUPPORT. What the definitions of Machine/PmOps.lean keep: the queue of waiting commands and the held line plan. -/

namespace Sys2Proof.Machine

@[simp] theorem pmUpd_kept (e : ℕ) (f : PmEntity → PmEntity) (s : State) : Kept s (pmUpd e f s) := by
  simp [Kept, pmUpd]

@[simp] theorem judgeBin_kept (e : ℕ) (period : ℕ) (t : ℕ) (s : State) : Kept s (judgeBin e period t s) := by
  simp only [judgeBin]
  split
  · exact Kept.refl s
  · exact Kept.trans (pmUpd_kept _ _ s) (foldl_kept _ (fun _ _ => postEv_kept _ _ _) _ _)

@[simp] theorem settleOldest_kept (judge : Bool) (e : ℕ) (s : State) : Kept s (settleOldest judge e s) := by
  unfold Kept settleOldest
  (repeat' split) <;> simp

@[simp] theorem settleBefore_kept (judge : Bool) (t : ℕ) (s : State) (e : ℕ) : Kept s (settleBefore judge t s e) := by
  simp [Kept, settleBefore]

@[simp] theorem postBin_kept (e : ℕ) (period : ℕ) (flags : ℕ) (b : PmBin) (s : State) : Kept s (postBin e period flags b s) := by
  simp [Kept, postBin]

@[simp] theorem postEnd_kept (period : ℕ) (extra : ℕ) (endAt : ℕ) (force : Bool) (s : State) : Kept s (postEnd period extra endAt force s) := by
  unfold Kept postEnd
  (repeat' split) <;> simp (disch := (intros; (repeat' split) <;> simp [Kept]))

@[simp] theorem closeAllBins_kept (extra : ℕ) (s : State) : Kept s (closeAllBins extra s) := by
  simp [Kept, closeAllBins]

@[simp] theorem dropSecond_kept (s : State) : Kept s (dropSecond s) := by
  simp [Kept, dropSecond]

@[simp] theorem pmTimeStep_kept (s : State) : Kept s (pmTimeStep s) := by
  simp [Kept, pmTimeStep]

@[simp] theorem pmFreeze_kept (s : State) : Kept s (pmFreeze s) := by
  simp [Kept, pmFreeze]

@[simp] theorem pmThaw_kept (s : State) : Kept s (pmThaw s) := by
  simp [Kept, pmThaw]

@[simp] theorem pmPowerDown_kept (s : State) : Kept s (pmPowerDown s) := by
  simp [Kept, pmPowerDown]

@[simp] theorem pmLost_kept (byRail : Bool) (s : State) : Kept s (pmLost byRail s) := by
  simp [Kept, pmLost]

end Sys2Proof.Machine
end

