-- ==== Sys2Proof/Laws/KeptBelfryOps.lean ====
section
/-! SUPPORT. What the definitions of Machine/BelfryOps.lean keep: the queue of waiting commands and the held line plan. -/

namespace Sys2Proof.Machine

@[simp] theorem drawInt_kept (p : ℕ) (s : State) : Kept s (drawInt p s).2 := by
  simp [Kept, drawInt]

@[simp] theorem belUpd_kept (f : Belfry → Belfry) (s : State) : Kept s (belUpd f s) := by
  simp [Kept, belUpd]

@[simp] theorem refUpd_kept (r : ℕ) (f : BelRef → BelRef) (s : State) : Kept s (refUpd r f s) := by
  simp [Kept, refUpd]

@[simp] theorem noteQlCode_kept (code : ℕ) (s : State) : Kept s (noteQlCode code s) := by
  simp [Kept, noteQlCode]

@[simp] theorem sendEsmc_kept (g : ℕ) (s : State) : Kept s (sendEsmc g s) := by
  simp [Kept, sendEsmc]

@[simp] theorem noteQlOut_kept (s : State) : Kept s (noteQlOut s) := by
  simp [Kept, noteQlOut]

@[simp] theorem journalModel_kept (s : State) : Kept s (journalModel s) := by
  simp [Kept, journalModel]

@[simp] theorem endLocked_kept (s : State) : Kept s (endLocked s) := by
  unfold Kept endLocked
  (repeat' split) <;> simp

@[simp] theorem setDpll_kept (st : DpllState) (cause : ℕ) (s : State) : Kept s (setDpll st cause s) := by
  unfold Kept setDpll
  (repeat' split) <;> simp

@[simp] theorem selectRef_kept (r : ℕ) (kind : ℕ) (s : State) : Kept s (selectRef r kind s) := by
  simp [Kept, selectRef]

@[simp] theorem dropRef_kept (st : DpllState) (cause : ℕ) (s : State) : Kept s (dropRef st cause s) := by
  simp [Kept, dropRef]

@[simp] theorem applyBel_kept (s : State) : Kept s (applyBel s) := by
  simp [Kept, applyBel]

@[simp] theorem startWtr_kept (r : ℕ) (s : State) : Kept s (startWtr r s) := by
  simp [Kept, startWtr]

@[simp] theorem refFail_kept (r : ℕ) (s : State) : Kept s (refFail r s) := by
  simp [Kept, refFail]

@[simp] theorem refRecover_kept (r : ℕ) (s : State) : Kept s (refRecover r s) := by
  simp [Kept, refRecover]

@[simp] theorem syncRef_kept (s : State) (r : ℕ) : Kept s (syncRef s r) := by
  simp [Kept, syncRef]

@[simp] theorem endForced_kept (s : State) : Kept s (endForced s) := by
  unfold Kept endForced
  (repeat' split) <;> simp

@[simp] theorem takeTarget_kept (kind : ℕ) (s : State) : Kept s (takeTarget kind s) := by
  unfold Kept takeTarget
  (repeat' split) <;> simp

@[simp] theorem evaluateRef_kept (kind : ℕ) (s : State) : Kept s (evaluateRef kind s) := by
  simp [Kept, evaluateRef]

@[simp] theorem belfryUp_kept (s : State) : Kept s (belfryUp s) := by
  simp [Kept, belfryUp]

@[simp] theorem belfryDown_kept (s : State) : Kept s (belfryDown s) := by
  unfold Kept belfryDown
  (repeat' split) <;> simp

@[simp] theorem shiftTod_kept (d : ℤ) (s : State) : Kept s (shiftTod d s) := by
  simp [Kept, shiftTod]

@[simp] theorem todAligned_kept (s : State) : Kept s (todAligned s) := by
  simp [Kept, todAligned]

@[simp] theorem finishSetTime_kept (j : TimeJob) (d : ℤ) (s : State) : Kept s (finishSetTime j d s) := by
  simp [Kept, finishSetTime]

end Sys2Proof.Machine
end

