-- ==== Sys2Proof/Laws/KeptBelfry.lean ====
section
/-! SUPPORT. What the definitions of Machine/Belfry.lean keep: the queue of waiting commands and the held line plan. -/

namespace Sys2Proof.Machine

@[simp] theorem runSetRefConfig_kept (c : Ctx) (s : State) : Kept s (runSetRefConfig c s).s := by
  simp [Kept, runSetRefConfig]

theorem execSetRefConfig_kept (pk : Packet) (s : State) {t : State} (h : execSetRefConfig pk s = .next t) : Kept s t := by
  simp only [execSetRefConfig, Host.Outcome.next.injEq] at h
  subst h
  simp [Kept]

@[simp] theorem runSetDpllConfig_kept (c : Ctx) (s : State) : Kept s (runSetDpllConfig c s).s := by
  simp [Kept, runSetDpllConfig]

theorem execSetDpllConfig_kept (pk : Packet) (s : State) {t : State} (h : execSetDpllConfig pk s = .next t) : Kept s t := by
  simp only [execSetDpllConfig, Host.Outcome.next.injEq] at h
  subst h
  simp [Kept]

@[simp] theorem runSetSelection_kept (c : Ctx) (s : State) : Kept s (runSetSelection c s).s := by
  simp [Kept, runSetSelection]

theorem execSetSelection_kept (pk : Packet) (s : State) {t : State} (h : execSetSelection pk s = .next t) : Kept s t := by
  simp only [execSetSelection, Host.Outcome.next.injEq] at h
  subst h
  simp [Kept]

@[simp] theorem runSetTodConfig_kept (c : Ctx) (s : State) : Kept s (runSetTodConfig c s).s := by
  simp [Kept, runSetTodConfig]

theorem execSetTodConfig_kept (pk : Packet) (s : State) {t : State} (h : execSetTodConfig pk s = .next t) : Kept s t := by
  simp only [execSetTodConfig, Host.Outcome.next.injEq] at h
  subst h
  simp [Kept]

@[simp] theorem runStepPhase_kept (c : Ctx) (s : State) : Kept s (runStepPhase c s).s := by
  simp [Kept, runStepPhase]

theorem execStepPhase_kept (pk : Packet) (s : State) {t : State} (h : execStepPhase pk s = .next t) : Kept s t := by
  simp only [execStepPhase, Host.Outcome.next.injEq] at h
  subst h
  simp [Kept]

@[simp] theorem runSetTime_kept (c : Ctx) (s : State) : Kept s (runSetTime c s).s := by
  simp [Kept, runSetTime]

theorem execSetTime_kept (pk : Packet) (s : State) {t : State} (h : execSetTime pk s = .next t) : Kept s t := by
  simp only [execSetTime, Host.Outcome.next.injEq] at h
  subst h
  simp [Kept]

@[simp] theorem runGetTime_kept (x0 : Ctx) (s : State) : Kept s (runGetTime x0 s).s := by
  simp [Kept, runGetTime]

theorem execGetTime_kept (pk : Packet) (s : State) {t : State} (h : execGetTime pk s = .next t) : Kept s t := by
  simp only [execGetTime, Host.Outcome.next.injEq] at h
  subst h
  simp [Kept]

@[simp] theorem ncoNow_kept (s : State) : Kept s (ncoNow s).2 := by
  unfold Kept ncoNow
  (repeat' split) <;> simp

@[simp] theorem runGetTimingStatus_kept (x0 : Ctx) (s : State) : Kept s (runGetTimingStatus x0 s).s := by
  simp [Kept, runGetTimingStatus]

theorem execGetTimingStatus_kept (pk : Packet) (s : State) {t : State} (h : execGetTimingStatus pk s = .next t) : Kept s t := by
  simp only [execGetTimingStatus, Host.Outcome.next.injEq] at h
  subst h
  simp [Kept]

@[simp] theorem runSetLearning_kept (c : Ctx) (s : State) : Kept s (runSetLearning c s).s := by
  simp [Kept, runSetLearning]

theorem execSetLearning_kept (pk : Packet) (s : State) {t : State} (h : execSetLearning pk s = .next t) : Kept s t := by
  simp only [execSetLearning, Host.Outcome.next.injEq] at h
  subst h
  simp [Kept]

@[simp] theorem followRef_kept (r : ℕ) (phase : ℤ) (ppb : ℤ) (s : State) : Kept s (followRef r phase ppb s) := by
  unfold Kept followRef
  (repeat' split) <;> simp

theorem execRefPhaseMeasure_kept (ref : ℕ) (phasePs : ℤ) (ppb : ℤ) (s : State) {t : State} (h : execRefPhaseMeasure ref phasePs ppb s = .next t) : Kept s t := by
  simp only [execRefPhaseMeasure, Host.Outcome.next.injEq] at h
  subst h
  simp [Kept]

theorem execRefFreqCheck_kept (ref : ℕ) (s : State) {t : State} (h : execRefFreqCheck ref s = .next t) : Kept s t := by
  simp only [execRefFreqCheck, Host.Outcome.next.injEq] at h
  subst h
  simp [Kept]

theorem execRefSignalChange_kept (ref : ℕ) (valid : Bool) (s : State) {t : State} (h : execRefSignalChange ref valid s = .next t) : Kept s t := by
  simp only [execRefSignalChange, Host.Outcome.next.injEq] at h
  subst h
  simp [Kept]

theorem execRefWtrExpiry_kept (ref : ℕ) (s : State) {t : State} (h : execRefWtrExpiry ref s = .next t) : Kept s t := by
  simp only [execRefWtrExpiry, Host.Outcome.next.injEq] at h
  subst h
  unfold Kept
  (repeat' split) <;> simp

theorem execHoldOffExpiry_kept (s : State) {t : State} (h : execHoldOffExpiry s = .next t) : Kept s t := by
  simp only [execHoldOffExpiry, Host.Outcome.next.injEq] at h
  subst h
  unfold Kept
  (repeat' split) <;> simp

theorem execSelectionEvaluation_kept (s : State) {t : State} (h : execSelectionEvaluation s = .next t) : Kept s t := by
  simp only [execSelectionEvaluation, Host.Outcome.next.injEq] at h
  subst h
  simp [Kept]

theorem execDpllLock_kept (s : State) {t : State} (h : execDpllLock s = .next t) : Kept s t := by
  simp only [execDpllLock, Host.Outcome.next.injEq] at h
  subst h
  simp [Kept]

theorem execLockFail_kept (s : State) {t : State} (h : execLockFail s = .next t) : Kept s t := by
  simp only [execLockFail, Host.Outcome.next.injEq] at h
  subst h
  unfold Kept
  (repeat' split) <;> simp

theorem execHoldoverReady_kept (s : State) {t : State} (h : execHoldoverReady s = .next t) : Kept s t := by
  simp only [execHoldoverReady, Host.Outcome.next.injEq] at h
  subst h
  unfold Kept
  (repeat' split) <;> simp

theorem execHoldoverCorrectionUpdate_kept (temp : ℤ) (s : State) {t : State} (h : execHoldoverCorrectionUpdate temp s = .next t) : Kept s t := by
  simp only [execHoldoverCorrectionUpdate, Host.Outcome.next.injEq] at h
  subst h
  unfold Kept
  (repeat' split) <;> simp

theorem execLearningSample_kept (freq : ℤ) (temp : ℤ) (s : State) {t : State} (h : execLearningSample freq temp s = .next t) : Kept s t := by
  simp only [execLearningSample, Host.Outcome.next.injEq] at h
  subst h
  simp [Kept]

@[simp] theorem fitNow_kept (s : State) : Kept s (fitNow s).2 := by
  unfold Kept fitNow
  (repeat' split) <;> simp

theorem execModelUpdate_kept (s : State) {t : State} (h : execModelUpdate s = .next t) : Kept s t := by
  simp only [execModelUpdate, Host.Outcome.next.injEq] at h
  subst h
  simp [Kept]

theorem execModelJournal_kept (s : State) {t : State} (h : execModelJournal s = .next t) : Kept s t := by
  simp only [execModelJournal, Host.Outcome.next.injEq] at h
  subst h
  unfold Kept
  (repeat' split) <;> simp

theorem execSlewDone_kept (s : State) {t : State} (h : execSlewDone s = .next t) : Kept s t := by
  simp only [execSlewDone, Host.Outcome.next.injEq] at h
  subst h
  simp [Kept]

@[simp] theorem atSecond_kept (s : State) : Kept s (atSecond s) := by
  simp only [Kept, atSecond]
  (repeat' split) <;> simp

theorem execTodSecond_kept (s : State) {t : State} (h : execTodSecond s = .next t) : Kept s t := by
  simp only [execTodSecond, Host.Outcome.next.injEq] at h
  subst h
  simp [Kept]

theorem execSetTimeEdgeTimeout_kept (s : State) {t : State} (h : execSetTimeEdgeTimeout s = .next t) : Kept s t := by
  simp only [execSetTimeEdgeTimeout, Host.Outcome.next.injEq] at h
  subst h
  unfold Kept
  (repeat' split) <;> simp

@[simp] theorem countPulse_kept (s : State) : Kept s (countPulse s) := by
  simp [Kept, countPulse]

@[simp] theorem alignPps_kept (off : ℤ) (s : State) : Kept s (alignPps off s) := by
  simp [Kept, alignPps]

theorem execPpsInEdge_kept (offsetPs : ℤ) (s : State) {t : State} (h : execPpsInEdge offsetPs s = .next t) : Kept s t := by
  simp only [execPpsInEdge, Host.Outcome.next.injEq] at h
  subst h
  unfold Kept
  (repeat' split) <;> simp

theorem execPpsLoss_kept (s : State) {t : State} (h : execPpsLoss s = .next t) : Kept s t := by
  simp only [execPpsLoss, Host.Outcome.next.injEq] at h
  subst h
  simp [Kept]

theorem execRingTimingTimeout_kept (s : State) {t : State} (h : execRingTimingTimeout s = .next t) : Kept s t := by
  simp only [execRingTimingTimeout, Host.Outcome.next.injEq] at h
  subst h
  simp [Kept]

theorem execEsmcTimeout_kept (group : ℕ) (s : State) {t : State} (h : execEsmcTimeout group s = .next t) : Kept s t := by
  simp only [execEsmcTimeout, Host.Outcome.next.injEq] at h
  subst h
  unfold Kept
  (repeat' split) <;> simp

theorem execEsmcInfoPdu_kept (group : ℕ) (s : State) {t : State} (h : execEsmcInfoPdu group s = .next t) : Kept s t := by
  simp only [execEsmcInfoPdu, Host.Outcome.next.injEq] at h
  subst h
  simp [Kept]

end Sys2Proof.Machine
end

