-- ==== Sys2Proof/Laws/KeptRegs.lean ====
section
/-! SUPPORT. What the definitions of Machine/Regs.lean keep: the queue of waiting commands and the held line plan. -/

namespace Sys2Proof.Machine

@[simp] theorem writeQueueReg_kept (q : QueueId) (o : ℕ) (v : ℕ) (s : State) : Kept s (writeQueueReg q o v s) := by
  simp only [Kept, writeQueueReg]
  (repeat' split) <;> simp

@[simp] theorem sendPending_kept (v : ℕ) (s : State) : Kept s (sendPending v s) := by
  simp [Kept, sendPending]

@[simp] theorem sendAllPending_kept (s : State) : Kept s (sendAllPending s) := by
  simp [Kept, sendAllPending]

@[simp] theorem writeMsix_kept (o : ℕ) (v : ℕ) (s : State) : Kept s (writeMsix o v s) := by
  simp [Kept, writeMsix]

@[simp] theorem chanUpd_kept (c : ℕ) (f : Channel → Channel) (s : State) : Kept s (chanUpd c f s) := by
  simp [Kept, chanUpd]

@[simp] theorem doorbell_kept (c : ℕ) (err : Bool) (s : State) : Kept s (doorbell c err s) := by
  simp [Kept, doorbell]

@[simp] theorem writeCompletion_kept (c : ℕ) (status : ℕ) (residue : ℕ) (crc : ℕ) (irq : Bool) (s : State) : Kept s (writeCompletion c status residue crc irq s) := by
  simp [Kept, writeCompletion]

@[simp] theorem abortChannel_kept (c : ℕ) (s : State) : Kept s (abortChannel c s) := by
  simp only [Kept, abortChannel]
  (repeat' split) <;> simp

@[simp] theorem writeDmaReg_kept (c : ℕ) (o : ℕ) (v : ℕ) (s : State) : Kept s (writeDmaReg c o v s) := by
  simp [Kept, writeDmaReg]

@[simp] theorem takeSnapshot_kept (s : State) : Kept s (takeSnapshot s) := by
  simp [Kept, takeSnapshot]

@[simp] theorem writeReg_kept (off : ℕ) (v : ℕ) (s : State) : Kept s (writeReg off v s) := by
  unfold Kept writeReg
  (repeat' split) <;> simp

@[simp] theorem takePosted_kept (w : PostedWrite) (err : MemErr) (s : State) : Kept s (takePosted w err s) := by
  unfold Kept takePosted
  (repeat' split) <;> simp (disch := (intros; (repeat' split) <;> simp [Kept]))

@[simp] theorem inOrder_kept (w : PostedWrite) (err : MemErr) (s : State) : Kept s (inOrder w err s) := by
  simp [Kept, inOrder]

@[simp] theorem posted_kept (w : PostedWrite) (err : MemErr) (s : State) : Kept s (posted w err s) := by
  simp [Kept, posted]

@[simp] theorem resumePosted_kept (s : State) : Kept s (resumePosted s) := by
  simp [Kept, resumePosted]

@[simp] theorem twiHold_kept (h : TwiHeld) (s : State) : Kept s (twiHold h s) := by
  simp [Kept, twiHold]

@[simp] theorem twiByte_kept (b : Byte) (err : MemErr) (s : State) : Kept s (twiByte b err s) := by
  simp [Kept, twiByte]

@[simp] theorem twiClose_kept (bytes : List Byte) (s : State) : Kept s (twiClose bytes s) := by
  simp [Kept, twiClose]

@[simp] theorem twiResume_kept (s : State) : Kept s (twiResume s) := by
  unfold Kept twiResume
  (repeat' split) <;> simp

@[simp] theorem twiRead_kept (s : State) : Kept s (twiRead s) := by
  unfold Kept twiRead
  (repeat' split) <;> simp

@[simp] theorem clearRead_kept (off : ℕ) (s : State) : Kept s (clearRead off s) := by
  simp [Kept, clearRead]

@[simp] theorem readLatched_kept (off : ℕ) (s0 : State) : Kept s0 (readLatched off s0) := by
  simp only [Kept, readLatched]
  (repeat' split) <;> simp

@[simp] theorem endpointReset_kept (s : State) : Kept s (endpointReset s) := by
  simp [Kept, endpointReset]

end Sys2Proof.Machine
end

