-- ==== Sys2Proof/Laws/KeptSwiys.lean ====
section
/-! SUPPORT. What the definitions of Machine/Swiys.lean keep: the queue of waiting commands and the held line plan. -/

namespace Sys2Proof.Machine

@[simp] theorem runNop_kept (c : Ctx) (s : State) : Kept s (runNop c s).s := by
  simp [Kept, runNop]

theorem execNop_kept (pk : Packet) (s : State) {t : State} (h : execNop pk s = .next t) : Kept s t := by
  simp only [execNop, Host.Outcome.next.injEq] at h
  subst h
  simp [Kept]

@[simp] theorem runFence_kept (c : Ctx) (s : State) : Kept s (runFence c s).s := by
  simp [Kept, runFence]

theorem execFence_kept (pk : Packet) (s : State) {t : State} (h : execFence pk s = .next t) : Kept s t := by
  simp only [execFence, Host.Outcome.next.injEq] at h
  subst h
  simp [Kept]

@[simp] theorem runGetIdentity_kept (x0 : Ctx) (s : State) : Kept s (runGetIdentity x0 s).s := by
  simp [Kept, runGetIdentity]

theorem execGetIdentity_kept (pk : Packet) (s : State) {t : State} (h : execGetIdentity pk s = .next t) : Kept s t := by
  simp only [execGetIdentity, Host.Outcome.next.injEq] at h
  subst h
  simp [Kept]

@[simp] theorem runGetQueueStatus_kept (c : Ctx) (s : State) : Kept s (runGetQueueStatus c s).s := by
  simp [Kept, runGetQueueStatus]

theorem execGetQueueStatus_kept (pk : Packet) (s : State) {t : State} (h : execGetQueueStatus pk s = .next t) : Kept s t := by
  simp only [execGetQueueStatus, Host.Outcome.next.injEq] at h
  subst h
  simp [Kept]

@[simp] theorem runResetQueue_kept (c : Ctx) (s : State) : Kept s (runResetQueue c s).s := by
  simp only [Kept, runResetQueue]
  (repeat' split) <;> simp

theorem execResetQueue_kept (pk : Packet) (s : State) {t : State} (h : execResetQueue pk s = .next t) : Kept s t := by
  simp only [execResetQueue, Host.Outcome.next.injEq] at h
  subst h
  simp [Kept]

@[simp] theorem runSetQueueConfig_kept (c : Ctx) (s : State) : Kept s (runSetQueueConfig c s).s := by
  simp [Kept, runSetQueueConfig]

theorem execSetQueueConfig_kept (pk : Packet) (s : State) {t : State} (h : execSetQueueConfig pk s = .next t) : Kept s t := by
  simp only [execSetQueueConfig, Host.Outcome.next.injEq] at h
  subst h
  simp [Kept]

/-- A raw packet at the front of the block's input keeps both where what it starts does. -/
@[simp] theorem serveRaw_kept (q : QueueId) (bytes : List Byte) (f : WaitPk → State → State) (s : State)
    (h : ∀ w t, Kept t (f w t)) : Kept s (serveRaw q bytes f s) := by
  simp only [Kept] at h
  simp only [Kept, serveRaw]
  (repeat' split) <;> simp_all

theorem execInvalidPacket_kept (q : QueueId) (bytes : List Byte) (s : State) {t : State} (h : execInvalidPacket q bytes s = .next t) : Kept s t := by
  simp only [execInvalidPacket, Host.Outcome.next.injEq] at h
  subst h
  simp [Kept]

theorem execRelayRequest_kept (q : QueueId) (bytes : List Byte) (s : State) {t : State} (h : execRelayRequest q bytes s = .next t) : Kept s t := by
  simp only [execRelayRequest, Host.Outcome.next.injEq] at h
  subst h
  simp [Kept]

theorem execQdataWrite_kept (q : QueueId) (word : BitVec 32) (err : MemErr) (s : State) {t : State} (h : execQdataWrite q word err s = .next t) : Kept s t := by
  simp only [execQdataWrite, Host.Outcome.next.injEq] at h
  subst h
  unfold Kept
  (repeat' split) <;> simp

theorem execQueueWriteResume_kept (q : QueueId) (s : State) {t : State} (h : execQueueWriteResume q s = .next t) : Kept s t := by
  simp only [execQueueWriteResume, Host.Outcome.next.injEq] at h
  subst h
  unfold Kept
  (repeat' split) <;> simp

theorem execQend_kept (q : QueueId) (len : ℕ) (err : MemErr) (s : State) {t : State} (h : execQend q len err s = .next t) : Kept s t := by
  simp only [execQend, Host.Outcome.next.injEq] at h
  subst h
  unfold Kept
  (repeat' split) <;> simp

theorem execTwiQdataWrite_kept (byte : Byte) (err : MemErr) (s : State) {t : State} (h : execTwiQdataWrite byte err s = .next t) : Kept s t := by
  simp only [execTwiQdataWrite, Host.Outcome.next.injEq] at h
  subst h
  simp [Kept]

theorem execTwiQendWrite_kept (bytes : List Byte) (s : State) {t : State} (h : execTwiQendWrite bytes s = .next t) : Kept s t := by
  simp only [execTwiQendWrite, Host.Outcome.next.injEq] at h
  subst h
  simp [Kept]

theorem execTwiRspRead_kept (s : State) {t : State} (h : execTwiRspRead s = .next t) : Kept s t := by
  simp only [execTwiRspRead, Host.Outcome.next.injEq] at h
  subst h
  simp [Kept]

theorem execTwiStretchExpiry_kept (s : State) {t : State} (h : execTwiStretchExpiry s = .next t) : Kept s t := by
  simp only [execTwiStretchExpiry, Host.Outcome.next.injEq] at h
  subst h
  unfold Kept
  (repeat' split) <;> simp

theorem execResponseWrite_kept (q : QueueId) (s : State) {t : State} (h : execResponseWrite q s = .next t) : Kept s t := by
  simp only [execResponseWrite, Host.Outcome.next.injEq] at h
  subst h
  simp [Kept]

theorem execPointerWindowClose_kept (q : QueueId) (mismatch : Bool) (s : State) {t : State} (h : execPointerWindowClose q mismatch s = .next t) : Kept s t := by
  simp only [execPointerWindowClose, Host.Outcome.next.injEq] at h
  subst h
  unfold Kept
  (repeat' split) <;> simp

theorem execFenceComplete_kept (q : QueueId) (s : State) {t : State} (h : execFenceComplete q s = .next t) : Kept s t := by
  simp only [execFenceComplete, Host.Outcome.next.injEq] at h
  subst h
  unfold Kept
  (repeat' split) <;> simp

end Sys2Proof.Machine
end

