-- ==== Sys2Proof/Laws/KeptTxOps.lean ====
section
/-! SUPPORT. What the definitions of Machine/TxOps.lean keep: the queue of waiting commands and the held line plan. -/

namespace Sys2Proof.Machine

@[simp] theorem txUpd_kept (c : Carrier) (f : Tx → Tx) (s : State) : Kept s (txUpd c f s) := by
  simp [Kept, txUpd]

@[simp] theorem startRelease_kept (c : Carrier) (s : State) : Kept s (startRelease c s) := by
  simp [Kept, startRelease]

@[simp] theorem squelchTx_kept (c : Carrier) (s : State) : Kept s (squelchTx c s) := by
  simp [Kept, squelchTx]

@[simp] theorem noteSafety_kept (old : State) (s : State) : Kept s (noteSafety old s) := by
  simp [Kept, noteSafety]

@[simp] theorem boundaryTx_kept (c : Carrier) (s : State) : Kept s (boundaryTx c s) := by
  simp [Kept, boundaryTx]

@[simp] theorem runTx_kept (c : Carrier) (s : State) : Kept s (runTx c s) := by
  simp [Kept, runTx]

@[simp] theorem stopTx_kept (c : Carrier) (s : State) : Kept s (stopTx c s) := by
  simp [Kept, stopTx]

@[simp] theorem settleTx_kept (c : Carrier) (s : State) : Kept s (settleTx c s) := by
  simp [Kept, settleTx]

@[simp] theorem takeCoded_kept (c : Carrier) (n : ℕ) (s : State) : Kept s (takeCoded c n s).2 := by
  simp only [Kept, takeCoded]
  (repeat' split) <;> simp

end Sys2Proof.Machine
end

