-- ==== Sys2Proof/Laws/KeptLineOps.lean ====
section
/-! SUPPORT. What the definitions of Machine/LineOps.lean keep: the queue of waiting commands and the held line plan. -/

namespace Sys2Proof.Machine

@[simp] theorem rxUpd_kept (c : Carrier) (f : Rx → Rx) (s : State) : Kept s (rxUpd c f s) := by
  simp [Kept, rxUpd]

@[simp] theorem calUpd_kept (c : Carrier) (f : Cal → Cal) (s : State) : Kept s (calUpd c f s) := by
  simp [Kept, calUpd]

@[simp] theorem acqUpd_kept (c : Carrier) (f : Acq → Acq) (s : State) : Kept s (acqUpd c f s) := by
  simp [Kept, acqUpd]

@[simp] theorem eqUpd_kept (c : Carrier) (f : Eq → Eq) (s : State) : Kept s (eqUpd c f s) := by
  simp [Kept, eqUpd]

@[simp] theorem noteIEff_kept (c : Carrier) (old : ℕ) (s : State) : Kept s (noteIEff c old s) := by
  simp [Kept, noteIEff]

@[simp] theorem throttleStep_kept (c : Carrier) (s : State) : Kept s (throttleStep c s) := by
  simp only [Kept, throttleStep]
  (repeat' split) <;> simp

@[simp] theorem throttleRaise_kept (c : Carrier) (s : State) : Kept s (throttleRaise c s) := by
  simp [Kept, throttleRaise]

@[simp] theorem throttleClear_kept (c : Carrier) (s : State) : Kept s (throttleClear c s) := by
  simp [Kept, throttleClear]

@[simp] theorem throttleFull_kept (c : Carrier) (s : State) : Kept s (throttleFull c s) := by
  simp [Kept, throttleFull]

@[simp] theorem neutralize_kept (c : Carrier) (s : State) : Kept s (neutralize c s) := by
  simp [Kept, neutralize]

@[simp] theorem spoilCal_kept (c : Carrier) (s : State) : Kept s (spoilCal c s) := by
  simp [Kept, spoilCal]

@[simp] theorem deliver_kept (c : Carrier) (ws : List (ℕ × Bool)) (s : State) : Kept s (deliver c ws s) := by
  simp [Kept, deliver]

@[simp] theorem frmHunt_kept (c : Carrier) (s : State) : Kept s (frmHunt c s) := by
  simp [Kept, frmHunt]

@[simp] theorem unlockFec_kept (c : Carrier) (s : State) : Kept s (unlockFec c s) := by
  simp [Kept, unlockFec]

@[simp] theorem beginHunt_kept (c : Carrier) (s : State) : Kept s (beginHunt c s) := by
  simp [Kept, beginHunt]

@[simp] theorem acqEnter_kept (c : Carrier) (st : AcqState) (s : State) : Kept s (acqEnter c st s) := by
  simp [Kept, acqEnter]

@[simp] theorem finishRestart_kept (c : Carrier) (s : State) : Kept s (finishRestart c s) := by
  simp only [Kept, finishRestart]
  (repeat' split) <;> simp

@[simp] theorem setTiming_kept (c : Carrier) (t : TimingState) (s : State) : Kept s (setTiming c t s) := by
  simp [Kept, setTiming]

@[simp] theorem holdTiming_kept (c : Carrier) (s : State) : Kept s (holdTiming c s) := by
  simp [Kept, holdTiming]

@[simp] theorem declareLoc_kept (c : Carrier) (s : State) : Kept s (declareLoc c s) := by
  simp [Kept, declareLoc]

@[simp] theorem leaveLocked_kept (c : Carrier) (s : State) : Kept s (leaveLocked c s) := by
  simp [Kept, leaveLocked]

@[simp] theorem enterScan_kept (c : Carrier) (s : State) : Kept s (enterScan c s) := by
  simp [Kept, enterScan]

@[simp] theorem fullCycle_kept (c : Carrier) (s : State) : Kept s (fullCycle c s) := by
  simp [Kept, fullCycle]

@[simp] theorem warmTiming_kept (c : Carrier) (s : State) : Kept s (warmTiming c s) := by
  simp [Kept, warmTiming]

@[simp] theorem warmPath_kept (c : Carrier) (s : State) : Kept s (warmPath c s) := by
  simp [Kept, warmPath]

@[simp] theorem leaveWait_kept (c : Carrier) (s : State) : Kept s (leaveWait c s) := by
  simp [Kept, leaveWait]

@[simp] theorem enterWait_kept (c : Carrier) (s : State) : Kept s (enterWait c s) := by
  simp [Kept, enterWait]

@[simp] theorem startAcq_kept (c : Carrier) (s : State) : Kept s (startAcq c s) := by
  simp [Kept, startAcq]

@[simp] theorem acqIdle_kept (c : Carrier) (s : State) : Kept s (acqIdle c s) := by
  simp [Kept, acqIdle]

@[simp] theorem failCycle_kept (c : Carrier) (s : State) : Kept s (failCycle c s) := by
  simp [Kept, failCycle]

@[simp] theorem failAttempt_kept (c : Carrier) (s : State) : Kept s (failAttempt c s) := by
  simp [Kept, failAttempt]

@[simp] theorem loseLock_kept (c : Carrier) (byLos : Bool) (s : State) : Kept s (loseLock c byLos s) := by
  simp [Kept, loseLock]

@[simp] theorem acqLos_kept (c : Carrier) (s : State) : Kept s (acqLos c s) := by
  simp [Kept, acqLos]

@[simp] theorem armTxCal_kept (c : Carrier) (s : State) : Kept s (armTxCal c s) := by
  simp [Kept, armTxCal]

@[simp] theorem startForeground_kept (c : Carrier) (ref : Option Ref) (s : State) : Kept s (startForeground c ref s) := by
  simp [Kept, startForeground]

@[simp] theorem warnSpire_kept (c : Carrier) (s : State) : Kept s (warnSpire c s) := by
  simp [Kept, warnSpire]

@[simp] theorem clearSpire_kept (c : Carrier) (s : State) : Kept s (clearSpire c s) := by
  simp [Kept, clearSpire]

@[simp] theorem endForeground_kept (c : Carrier) (st : ℕ) (s : State) : Kept s (endForeground c st s) := by
  simp [Kept, endForeground]

end Sys2Proof.Machine
end

