-- ==== Sys2Proof/Laws/KeptTestOps.lean ====
section
/-! SUPPORT. What the definitions of Machine/TestOps.lean keep: the queue of waiting commands and the held line plan. -/

namespace Sys2Proof.Machine

@[simp] theorem linePatUpd_kept (c : Carrier) (f : LinePat → LinePat) (s : State) : Kept s (linePatUpd c f s) := by
  simp [Kept, linePatUpd]

@[simp] theorem switchFraming_kept (c : Carrier) (on : Bool) (s : State) : Kept s (switchFraming c on s) := by
  simp [Kept, switchFraming]

@[simp] theorem stopLinePattern_kept (c : Carrier) (s : State) : Kept s (stopLinePattern c s) := by
  simp [Kept, stopLinePattern]

@[simp] theorem checkerUpd_kept (kind : ℕ) (idx : ℕ) (f : Checker → Checker) (s : State) : Kept s (checkerUpd kind idx f s) := by
  unfold Kept checkerUpd
  (repeat' split) <;> simp

@[simp] theorem takeChecker_kept (kind : ℕ) (idx : ℕ) (r : Checker × List Bool) (s : State) : Kept s (takeChecker kind idx r s) := by
  simp [Kept, takeChecker]

@[simp] theorem feedPrbs_kept (kind : ℕ) (idx : ℕ) (l : List Word64) (s : State) : Kept s (feedPrbs kind idx l s) := by
  simp [Kept, feedPrbs]

@[simp] theorem injectLine_kept (c : Carrier) (blocks : ℕ) (width : ℕ) (s : State) : Kept s (injectLine c blocks width s).2 := by
  simp only [Kept, injectLine]
  (repeat' split) <;> simp

@[simp] theorem captureFeed_kept (source : ℕ) (c : Carrier) (l : List Byte) (s : State) : Kept s (captureFeed source c l s) := by
  simp [Kept, captureFeed]

@[simp] theorem captureResult_kept (reason : ℕ) (n : ℕ) (s : State) : Kept s (captureResult reason n s).2 := by
  simp only [Kept, captureResult]
  (repeat' split) <;> simp

@[simp] theorem endCapture_kept (reason : ℕ) (s : State) : Kept s (endCapture reason s) := by
  simp only [Kept, endCapture]
  (repeat' split) <;> simp

@[simp] theorem captureLost_kept (s : State) : Kept s (captureLost s) := by
  simp [Kept, captureLost]

@[simp] theorem testLineOff_kept (d : ℕ) (c : Carrier) (s : State) : Kept s (testLineOff d c s) := by
  simp [Kept, testLineOff]

@[simp] theorem testDomainOff_kept (d : ℕ) (s : State) : Kept s (testDomainOff d s) := by
  simp [Kept, testDomainOff]

@[simp] theorem leaveMaintain_kept (s : State) : Kept s (leaveMaintain s) := by
  simp [Kept, leaveMaintain]

end Sys2Proof.Machine
end

