-- ==== Sys2Proof/Laws/KeptTribOps.lean ====
section
/-! SUPPORT. What the definitions of Machine/TribOps.lean keep: the queue of waiting commands and the held line plan. -/

namespace Sys2Proof.Machine

@[simp] theorem settleTen_kept (t : ℕ) (s : State) : Kept s (settleTen t s) := by
  simp [Kept, settleTen]

@[simp] theorem tenAcq_kept (t : ℕ) (fresh : Bool) (s : State) : Kept s (tenAcq t fresh s) := by
  simp [Kept, tenAcq]

@[simp] theorem lineEffect_kept (s : State) (t : ℕ) : Kept s (lineEffect s t) := by
  simp [Kept, lineEffect]

@[simp] theorem lineEffects_kept (s : State) : Kept s (lineEffects s) := by
  simp [Kept, lineEffects]

@[simp] theorem evalDefects_kept (c : Carrier) (s : State) : Kept s (evalDefects c s) := by
  simp [Kept, evalDefects]

@[simp] theorem settleRxTen_kept (s : State) (t : ℕ) : Kept s (settleRxTen s t) := by
  simp [Kept, settleRxTen]

@[simp] theorem settleRx_kept (s : State) : Kept s (settleRx s) := by
  simp [Kept, settleRx]

@[simp] theorem settleTxTen_kept (s : State) (t : ℕ) : Kept s (settleTxTen s t) := by
  simp [Kept, settleTxTen]

@[simp] theorem settleTxAll_kept (s : State) : Kept s (settleTxAll s) := by
  simp [Kept, settleTxAll]

@[simp] theorem dropSwap_kept (s : State) : Kept s (dropSwap s) := by
  unfold Kept dropSwap
  (repeat' split) <;> simp

@[simp] theorem countClient_kept (source : ℕ) (t : ℕ) (bytes : ℕ) (s : State) : Kept s (countClient source t bytes s) := by
  unfold Kept countClient
  (repeat' split) <;> simp

@[simp] theorem feedStore_kept (t : ℕ) (blocks : List ℕ) (s : State) : Kept s (feedStore t blocks s) := by
  simp [Kept, feedStore]

@[simp] theorem takeStream_kept (t : ℕ) (blocks : List (List Bool)) (s : State) : Kept s (takeStream t blocks s) := by
  simp [Kept, takeStream]

@[simp] theorem offerBlocks_kept (t : ℕ) (arrived : List Block66) (s : State) : Kept s (offerBlocks t arrived s) := by
  simp [Kept, offerBlocks]

@[simp] theorem encodeFrame_kept (c : Carrier) (fc : ℕ) (msgs : List ℕ) (s : State) : Kept s (encodeFrame c fc msgs s) := by
  simp [Kept, encodeFrame]

@[simp] theorem skipEncoder_kept (n : ℕ) (c : Carrier) (s : State) : Kept s (skipEncoder n c s) := by
  simp [Kept, skipEncoder]

@[simp] theorem sendFrames_kept (n : ℕ) (s : State) : Kept s (sendFrames n s) := by
  simp [Kept, sendFrames]

@[simp] theorem toFrame_kept (fc : ℕ) (s : State) : Kept s (toFrame fc s) := by
  simp [Kept, toFrame]

@[simp] theorem leaveAligned_kept (g : GroupState) (s : State) : Kept s (leaveAligned g s) := by
  simp [Kept, leaveAligned]

@[simp] theorem enterExcess_kept (s : State) : Kept s (enterExcess s) := by
  simp [Kept, enterExcess]

@[simp] theorem clearExcess_kept (s : State) : Kept s (clearExcess s) := by
  simp [Kept, clearExcess]

@[simp] theorem groupMode_kept (m : Mode) (s0 : State) : Kept s0 (groupMode m s0) := by
  simp [Kept, groupMode]

@[simp] theorem mergeMode_kept (m : Mode) (s : State) : Kept s (mergeMode m s) := by
  simp [Kept, mergeMode]

@[simp] theorem framerUp_kept (s : State) : Kept s (framerUp s) := by
  simp [Kept, framerUp]

@[simp] theorem framerDown_kept (s : State) : Kept s (framerDown s) := by
  simp [Kept, framerDown]

end Sys2Proof.Machine
end

