-- ==== Sys2Proof/Laws/KeptRingOps.lean ====
section
/-! SUPPORT. What the definitions of Machine/RingOps.lean keep: the queue of waiting commands and the held line plan. -/

namespace Sys2Proof.Machine

@[simp] theorem workerUpd_kept (w : ℕ) (f : WorkerSt → WorkerSt) (s : State) : Kept s (workerUpd w f s) := by
  simp [Kept, workerUpd]

@[simp] theorem noteGone_kept (s : State) : Kept s (noteGone s) := by
  simp [Kept, noteGone]

@[simp] theorem linkDown_kept (p : Port) (s : State) : Kept s (linkDown p s) := by
  simp [Kept, linkDown]

@[simp] theorem sendNear_kept (p : Port) (type : ℕ) (body : List Byte) (s : State) : Kept s (sendNear p type body s) := by
  simp [Kept, sendNear]

@[simp] theorem planStep_kept (p : Port) (s : State) : Kept s (planStep p s) := by
  simp [Kept, planStep]

@[simp] theorem sendAll_kept (type : ℕ) (body : List Byte) (s : State) : Kept s (sendAll type body s) := by
  simp [Kept, sendAll]

@[simp] theorem sendEither_kept (p : Port) (m : RingMsg) (s : State) : Kept s (sendEither p m s) := by
  simp [Kept, sendEither]

@[simp] theorem linkUp_kept (p : Port) (rate : ℕ) (s : State) : Kept s (linkUp p rate s) := by
  simp [Kept, linkUp]

@[simp] theorem ringDormant_kept (entering : Bool) (s : State) : Kept s (ringDormant entering s) := by
  simp [Kept, ringDormant]

@[simp] theorem journalRing_kept (s : State) : Kept s (journalRing s) := by
  simp [Kept, journalRing]

@[simp] theorem sendRoster_kept (s : State) : Kept s (sendRoster s) := by
  simp [Kept, sendRoster]

@[simp] theorem nextEpoch_kept (s : State) : Kept s (nextEpoch s) := by
  simp [Kept, nextEpoch]

@[simp] theorem relayUpd_kept (w : ℕ) (tag : ℕ) (f : Relay → Relay) (s : State) : Kept s (relayUpd w tag f s) := by
  simp [Kept, relayUpd]

@[simp] theorem nextRelay_kept (w : ℕ) (s : State) : Kept s (nextRelay w s) := by
  unfold Kept nextRelay
  (repeat' split) <;> simp

@[simp] theorem endRelay_kept (r : Relay) (st : ℕ) (res : List Byte) (s : State) : Kept s (endRelay r st res s) := by
  simp [Kept, endRelay]

@[simp] theorem giveUp_kept (s : State) (r : Relay) : Kept s (giveUp s r) := by
  simp [Kept, giveUp]

@[simp] theorem dropRelays_kept (w : ℕ) (s : State) : Kept s (dropRelays w s) := by
  simp [Kept, dropRelays]

@[simp] theorem calondUp_kept (s : State) : Kept s (calondUp s) := by
  simp [Kept, calondUp]

@[simp] theorem calondDown_kept (s : State) : Kept s (calondDown s) := by
  simp [Kept, calondDown]

@[simp] theorem pairUpd_kept (k : ℕ) (f : PPair → PPair) (s : State) : Kept s (pairUpd k f s) := by
  simp [Kept, pairUpd]

@[simp] theorem pairRule_kept (k : ℕ) (wtrDone : Bool) (s : State) : Kept s (pairRule k wtrDone s) := by
  simp [Kept, pairRule]

@[simp] theorem sendProtect_kept (k : ℕ) (s : State) : Kept s (sendProtect k s) := by
  simp [Kept, sendProtect]

@[simp] theorem applyPair_kept (p : List Byte) (s : State) : Kept s (applyPair p s) := by
  unfold Kept applyPair
  (repeat' split) <;> simp

end Sys2Proof.Machine
end

