-- ==== Sys2Proof/Laws/KeptCtlOps.lean ====
section
/-! SUPPORT. What the definitions of Machine/CtlOps.lean keep: the queue of waiting commands and the held line plan. -/

namespace Sys2Proof.Machine

@[simp] theorem startRecord_kept (s : State) : Kept s (startRecord s) := by
  unfold Kept startRecord
  (repeat' split) <;> simp

@[simp] theorem putBank_kept (bank : ℕ) (l : List Byte) (s : State) : Kept s (putBank bank l s) := by
  simp [Kept, putBank]

@[simp] theorem copyWritten_kept (bank : ℕ) (p : JPend) (found : Option (List Byte)) (s : State) : Kept s (copyWritten bank p found s) := by
  simp [Kept, copyWritten]

@[simp] theorem tearCopy_kept (s : State) : Kept s (tearCopy s) := by
  unfold Kept tearCopy
  (repeat' split) <;> simp

@[simp] theorem finishCommit_kept (r : Ref) (s : State) : Kept s (finishCommit r s) := by
  simp [Kept, finishCommit]

@[simp] theorem journalDone_kept (p : JPend) (s : State) : Kept s (journalDone p s) := by
  unfold Kept journalDone
  (repeat' split) <;> simp

@[simp] theorem scanErrors_kept (bank : ℕ) (b : JBank) (s : State) : Kept s (scanErrors bank b s) := by
  simp [Kept, scanErrors]

@[simp] theorem restoreRecord_kept (s : State) (r : JRec) : Kept s (restoreRecord s r) := by
  simp [Kept, restoreRecord]

@[simp] theorem journalScan_kept (s : State) : Kept s (journalScan s) := by
  simp [Kept, journalScan]

@[simp] theorem inactiveUpd_kept (f : Slot → Slot) (s : State) : Kept s (inactiveUpd f s) := by
  simp [Kept, inactiveUpd]

@[simp] theorem tearSlot_kept (s : State) : Kept s (tearSlot s) := by
  simp [Kept, tearSlot]

@[simp] theorem programBytes_kept (off : ℕ) (l : List Byte) (s : State) : Kept s (programBytes off l s) := by
  simp [Kept, programBytes]

@[simp] theorem engPut_kept (e : ℕ) (v : EngState) (s : State) : Kept s (engPut e v s) := by
  simp [Kept, engPut]

@[simp] theorem rehost_kept (a : ℕ) (b : ℕ) (s : State) : Kept s (rehost a b s) := by
  simp [Kept, rehost]

@[simp] theorem shortageAlarm_kept (ts : List ℕ) (s : State) : Kept s (shortageAlarm ts s) := by
  simp [Kept, shortageAlarm]

@[simp] theorem engineFails_kept (e : ℕ) (s : State) : Kept s (engineFails e s) := by
  simp only [engineFails]
  split
  · exact Kept.refl s
  · generalize spareFor _ e = o
    cases o <;> simp [Kept]

@[simp] theorem checkpointEngine_kept (e : ℕ) (s : State) : Kept s (checkpointEngine e s) := by
  simp [Kept, checkpointEngine]

@[simp] theorem dropCheckpoint_kept (e : ℕ) (s : State) : Kept s (dropCheckpoint e s) := by
  simp [Kept, dropCheckpoint]

@[simp] theorem takeOver_kept (k : Takeover) (s : State) : Kept s (takeOver k s) := by
  simp [Kept, takeOver]

@[simp] theorem rollCluster_kept (k : ℕ) (version : ℕ) (s : State) : Kept s (rollCluster k version s).2 := by
  unfold Kept rollCluster
  (repeat' split) <;> simp (disch := (intros; (repeat' split) <;> simp [Kept]))

@[simp] theorem switchImage_kept (slot : ℕ) (h : ImageHdr) (s : State) : Kept s (switchImage slot h s) := by
  simp [Kept, switchImage]

@[simp] theorem endFwJob_kept (opcode : ℕ) (st : ℕ) (res : List Byte) (s : State) : Kept s (endFwJob opcode st res s) := by
  unfold Kept endFwJob
  (repeat' split) <;> simp

@[simp] theorem fwRevert_kept (slot : ℕ) (h : ImageHdr) (s : State) : Kept s (fwRevert slot h s) := by
  simp [Kept, fwRevert]
  (repeat' split) <;> simp

@[simp] theorem controllerMismatchOp_kept (s : State) : Kept s (controllerMismatchOp s) := by
  unfold Kept controllerMismatchOp
  (repeat' split) <;> simp

end Sys2Proof.Machine
end

