-- ==== Sys2Proof/Laws/KeptDomains.lean ====
section
/-! SUPPORT. What the definitions of Machine/Domains.lean keep: the queue of waiting commands and the held line plan. -/

namespace Sys2Proof.Machine

@[simp] theorem domUpd_kept (d : ℕ) (f : Dom → Dom) (s : State) : Kept s (domUpd d f s) := by
  simp [Kept, domUpd]

@[simp] theorem domPut_kept (d : ℕ) (v : DomState) (s : State) : Kept s (domPut d v s) := by
  simp [Kept, domPut]

@[simp] theorem pumpQueue_kept (s : State) : Kept s (pumpQueue s) := by
  simp [Kept, pumpQueue]

@[simp] theorem requestUp_kept (ds : List ℕ) (s : State) : Kept s (requestUp ds s) := by
  simp [Kept, requestUp]

@[simp] theorem adcLost_kept (c : Carrier) (s : State) : Kept s (adcLost c s) := by
  simp [Kept, adcLost]

@[simp] theorem rxdspLost_kept (c : Carrier) (s : State) : Kept s (rxdspLost c s) := by
  simp [Kept, rxdspLost]

@[simp] theorem rxLost_kept (c : Carrier) (s : State) : Kept s (rxLost c s) := by
  simp only [Kept, rxLost]
  (repeat' split) <;> simp

@[simp] theorem fecLost_kept (c : Carrier) (s : State) : Kept s (fecLost c s) := by
  simp [Kept, fecLost]

@[simp] theorem endRepair_kept (stack : ℕ) (s : State) : Kept s (endRepair stack s) := by
  unfold Kept endRepair
  (repeat' split) <;> simp

@[simp] theorem stackLost_kept (stack : ℕ) (s : State) : Kept s (stackLost stack s) := by
  simp [Kept, stackLost]

@[simp] theorem afterLoss_kept (d : ℕ) (byRail : Bool) (s : State) : Kept s (afterLoss d byRail s) := by
  simp [Kept, afterLoss]
  (repeat' split) <;> simp

@[simp] theorem loseDom_kept (d : ℕ) (byRail : Bool) (next : DomState) (s : State) : Kept s (loseDom d byRail next s) := by
  simp [Kept, loseDom]

@[simp] theorem powerDown_kept (ds : List ℕ) (s : State) : Kept s (powerDown ds s) := by
  unfold powerDown
  exact foldl_kept _ (fun t d => by split <;> simp [Kept]) _ s

@[simp] theorem failTrans_kept (step : ℕ) (st : ℕ) (s : State) : Kept s (failTrans step st s) := by
  unfold Kept failTrans
  (repeat' split) <;> simp

@[simp] theorem progressTrans_kept (s : State) : Kept s (progressTrans s) := by
  unfold Kept progressTrans
  (repeat' split) <;> simp

@[simp] theorem progressJob_kept (s : State) (j : DomJob) : Kept s (progressJob s j) := by
  simp [Kept, progressJob]

@[simp] theorem progressJobs_kept (s : State) : Kept s (progressJobs s) := by
  simp [Kept, progressJobs]

@[simp] theorem failDomains_kept (ds : List ℕ) (st : ℕ) (s : State) : Kept s (failDomains ds st s) := by
  simp [Kept, failDomains]

@[simp] theorem failDomeDraw_kept (s : State) : Kept s (failDomeDraw s) := by
  unfold Kept failDomeDraw
  (repeat' split) <;> simp

@[simp] theorem adcUp_kept (c : Carrier) (s : State) : Kept s (adcUp c s) := by
  simp [Kept, adcUp]

@[simp] theorem rxdspUp_kept (c : Carrier) (s : State) : Kept s (rxdspUp c s) := by
  simp [Kept, rxdspUp]

@[simp] theorem rxUp_kept (c : Carrier) (s : State) : Kept s (rxUp c s) := by
  simp [Kept, rxUp]

@[simp] theorem fecUp_kept (c : Carrier) (s : State) : Kept s (fecUp c s) := by
  simp [Kept, fecUp]

@[simp] theorem returnTx_kept (c : Carrier) (s : State) : Kept s (returnTx c s) := by
  simp only [Kept, returnTx]
  (repeat' split) <;> simp

@[simp] theorem afterUp_kept (d : ℕ) (s : State) : Kept s (afterUp d s) := by
  unfold Kept afterUp
  (repeat' split) <;> simp

@[simp] theorem domainUp_kept (d : ℕ) (s : State) : Kept s (domainUp d s) := by
  simp [Kept, domainUp]

@[simp] theorem pllLocked_kept (d : ℕ) (s : State) : Kept s (pllLocked d s) := by
  simp [Kept, pllLocked]

@[simp] theorem applyUsed_kept (s : State) : Kept s (applyUsed s) := by
  simp [Kept, applyUsed]

@[simp] theorem modeTx_kept (m : Mode) (started : List ℕ) (s : State) : Kept s (modeTx m started s) := by
  simp [Kept, modeTx]

@[simp] theorem enterMode_kept (m : Mode) (started : List ℕ) (s : State) : Kept s (enterMode m started s) := by
  simp [Kept, enterMode]

@[simp] theorem finishTrans_kept (t : Trans) (s : State) : Kept s (finishTrans t s) := by
  simp [Kept, finishTrans]

@[simp] theorem railUpd_kept (r : ℕ) (f : Rail → Rail) (s : State) : Kept s (railUpd r f s) := by
  simp [Kept, railUpd]

@[simp] theorem dropWaiting_kept (ds : List ℕ) (lost : Bool) (st : ℕ) (s : State) : Kept s (dropWaiting ds lost st s) := by
  unfold Kept dropWaiting
  (repeat' split) <;> simp

@[simp] theorem shutdownAll_kept (s : State) : Kept s (shutdownAll s) := by
  simp [Kept, shutdownAll]

end Sys2Proof.Machine
end

