-- ==== Sys2Proof/Laws/KeptCal.lean ====
section
/-! SUPPORT. What the definitions of Machine/Cal.lean keep: the queue of waiting commands and the held line plan. -/

namespace Sys2Proof.Machine

@[simp] theorem noteCalStuck_kept (c : Carrier) (old : ℕ) (s : State) : Kept s (noteCalStuck c old s) := by
  simp [Kept, noteCalStuck]

@[simp] theorem runSetCalControl_kept (c : Ctx) (s : State) : Kept s (runSetCalControl c s).s := by
  simp only [Kept, runSetCalControl]
  (repeat' split) <;> simp

theorem execSetCalControl_kept (pk : Packet) (s : State) {t : State} (h : execSetCalControl pk s = .next t) : Kept s t := by
  simp only [execSetCalControl, Host.Outcome.next.injEq] at h
  subst h
  simp [Kept]

@[simp] theorem runGetCalStatus_kept (c : Ctx) (s : State) : Kept s (runGetCalStatus c s).s := by
  simp [Kept, runGetCalStatus]

theorem execGetCalStatus_kept (pk : Packet) (s : State) {t : State} (h : execGetCalStatus pk s = .next t) : Kept s t := by
  simp only [execGetCalStatus, Host.Outcome.next.injEq] at h
  subst h
  simp [Kept]

@[simp] theorem afterForeground_kept (c : Carrier) (st : ℕ) (s : State) : Kept s (afterForeground c st s) := by
  simp [Kept, afterForeground]

theorem execForegroundCalDone_kept (c : Carrier) (values : List (List ℤ)) (s0 : State) {t : State} (h : execForegroundCalDone c values s0 = .next t) : Kept s0 t := by
  simp only [execForegroundCalDone, Host.Outcome.next.injEq] at h
  subst h
  unfold Kept
  (repeat' split) <;> simp

theorem execForegroundCalRepeat_kept (c : Carrier) (s : State) {t : State} (h : execForegroundCalRepeat c s = .next t) : Kept s t := by
  simp only [execForegroundCalRepeat, Host.Outcome.next.injEq] at h
  subst h
  unfold Kept
  (repeat' split) <;> simp

theorem execCalDeferred_kept (c : Carrier) (s0 : State) {t : State} (h : execCalDeferred c s0 = .next t) : Kept s0 t := by
  simp only [execCalDeferred, Host.Outcome.next.injEq] at h
  subst h
  unfold Kept
  (repeat' split) <;> simp

@[simp] theorem stageEstimate_kept (c : Carrier) (item : ℕ) (values : List ℤ) (s : State) : Kept s (stageEstimate c item values s) := by
  simp [Kept, stageEstimate]

theorem execCalWindowClose_kept (c : Carrier) (item : ℕ) (values : List ℤ) (s : State) {t : State} (h : execCalWindowClose c item values s = .next t) : Kept s t := by
  simp only [execCalWindowClose, Host.Outcome.next.injEq] at h
  subst h
  simp [Kept]

theorem execCalApply_kept (c : Carrier) (item : ℕ) (s : State) {t : State} (h : execCalApply c item s = .next t) : Kept s t := by
  simp only [execCalApply, Host.Outcome.next.injEq] at h
  subst h
  simp [Kept]

@[simp] theorem applyTerm_kept (c : Carrier) (est : List ℤ) (s : State) (e : ℕ × ℕ) : Kept s (applyTerm c est s e) := by
  simp [Kept, applyTerm]

theorem execTxCalApply_kept (c : Carrier) (s : State) {t : State} (h : execTxCalApply c s = .next t) : Kept s t := by
  simp only [execTxCalApply, Host.Outcome.next.injEq] at h
  subst h
  unfold Kept
  (repeat' split) <;> simp (disch := (intros; (repeat' split) <;> simp [Kept]))

theorem execTxCalTimeout_kept (c : Carrier) (s0 : State) {t : State} (h : execTxCalTimeout c s0 = .next t) : Kept s0 t := by
  simp only [execTxCalTimeout, Host.Outcome.next.injEq] at h
  subst h
  unfold Kept
  (repeat' split) <;> simp

end Sys2Proof.Machine
end

