-- ==== Sys2Proof/Laws/KeptDecoder.lean ====
section
/-! SUPPORT. What the definitions of Machine/Decoder.lean keep: the queue of waiting commands and the held line plan. -/

namespace Sys2Proof.Machine

@[simp] theorem passOn_kept (c : Carrier) (ws : List (ℕ × Bool)) (s : State) : Kept s (passOn c ws s) := by
  simp [Kept, passOn]

@[simp] theorem feedSoft_kept (c : Carrier) (place : ℕ) (l : List SoftBit) (bad : Bool) (s : State) : Kept s (feedSoft c place l bad s) := by
  simp only [Kept, feedSoft]
  (repeat' split) <;> simp

end Sys2Proof.Machine
end

