-- ==== Sys2Proof/Laws/KeptDma.lean ====
section
/-! SUPPORT. What the definitions of Machine/Dma.lean keep: the queue of waiting commands and the held line plan. -/

namespace Sys2Proof.Machine

@[simp] theorem dropRecord_kept (c : ℕ) (r : StreamRec) (s : State) : Kept s (dropRecord c r s) := by
  simp [Kept, dropRecord]

@[simp] theorem markStates_kept (served : ℕ) (s : State) : Kept s (markStates served s) := by
  simp [Kept, markStates]

@[simp] theorem haltChannel_kept (c : ℕ) (status : ℕ) (s : State) : Kept s (haltChannel c status s) := by
  simp [Kept, haltChannel]

@[simp] theorem endDesc_kept (c : ℕ) (status : ℕ) (residue : ℕ) (d : Desc) (s : State) : Kept s (endDesc c status residue d s) := by
  simp [Kept, endDesc]

@[simp] theorem hostReadFailed_kept (s : State) : Kept s (hostReadFailed s) := by
  simp [Kept, hostReadFailed]

@[simp] theorem fetchDesc_kept (c : ℕ) (hostErr : Bool) (s : State) : Kept s (fetchDesc c hostErr s) := by
  unfold Kept fetchDesc
  (repeat' split) <;> simp

@[simp] theorem movedBytes_kept (c : ℕ) (l : List Byte) (s : State) : Kept s (movedBytes c l s) := by
  simp [Kept, movedBytes]

@[simp] theorem burstRead_kept (c : ℕ) (d : Desc) (domeErr : Bool) (s : State) : Kept s (burstRead c d domeErr s) := by
  simp [Kept, burstRead]

@[simp] theorem burstWrite_kept (c : ℕ) (d : Desc) (hostErr : Bool) (s : State) : Kept s (burstWrite c d hostErr s) := by
  simp [Kept, burstWrite]

@[simp] theorem takeRecords_kept (f c : ℕ) (d : Desc) (sum : ℕ) (s : State) : Kept s (takeRecords f c d sum s) := by
  induction f generalizing sum s with
  | zero => simp [Kept, takeRecords]
  | succ n ih =>
    simp only [takeRecords]
    split
    · simp [Kept]
    · split
      · split <;> simp [Kept]
      · split
        · exact Kept.refl s
        · exact Kept.trans (by simp [Kept]) (ih _ _)

theorem execDmaBurst_kept (host : List Host.Cell) (hostErr : Bool) (domeErr : Bool) (s : State) {t : State} (h : execDmaBurst host hostErr domeErr s = .next t) : Kept s t := by
  simp only [execDmaBurst, Host.Outcome.next.injEq] at h
  subst h
  unfold Kept
  (repeat' split) <;> simp

theorem execReceiveFlushTimeout_kept (ch : ℕ) (s : State) {t : State} (h : execReceiveFlushTimeout ch s = .next t) : Kept s t := by
  simp only [execReceiveFlushTimeout, Host.Outcome.next.injEq] at h
  subst h
  unfold Kept
  (repeat' split) <;> simp

end Sys2Proof.Machine
end

