-- ==== Sys2Proof/Laws/KeptDsp.lean ====
section
/-! SUPPORT. What the definitions of Machine/Dsp.lean keep: the queue of waiting commands and the held line plan. -/

namespace Sys2Proof.Machine

@[simp] theorem runSetRxDsp_kept (c : Ctx) (s : State) : Kept s (runSetRxDsp c s).s := by
  simp [Kept, runSetRxDsp]

theorem execSetRxDsp_kept (pk : Packet) (s : State) {t : State} (h : execSetRxDsp pk s = .next t) : Kept s t := by
  simp only [execSetRxDsp, Host.Outcome.next.injEq] at h
  subst h
  simp [Kept]

@[simp] theorem runGetChannelEstimates_kept (c : Ctx) (s : State) : Kept s (runGetChannelEstimates c s).s := by
  simp [Kept, runGetChannelEstimates]

theorem execGetChannelEstimates_kept (pk : Packet) (s : State) {t : State} (h : execGetChannelEstimates pk s = .next t) : Kept s t := by
  simp only [execGetChannelEstimates, Host.Outcome.next.injEq] at h
  subst h
  simp [Kept]

@[simp] theorem runRestartAcquisition_kept (c : Ctx) (s : State) : Kept s (runRestartAcquisition c s).s := by
  simp [Kept, runRestartAcquisition]

theorem execRestartAcquisition_kept (pk : Packet) (s : State) {t : State} (h : execRestartAcquisition pk s = .next t) : Kept s t := by
  simp only [execRestartAcquisition, Host.Outcome.next.injEq] at h
  subst h
  simp [Kept]

theorem execWaitSignalTimeout_kept (c : Carrier) (s : State) {t : State} (h : execWaitSignalTimeout c s = .next t) : Kept s t := by
  simp only [execWaitSignalTimeout, Host.Outcome.next.injEq] at h
  subst h
  unfold Kept
  (repeat' split) <;> simp

@[simp] theorem runRunToneSearch_kept (c : Ctx) (s : State) : Kept s (runRunToneSearch c s).s := by
  simp [Kept, runRunToneSearch]

theorem execRunToneSearch_kept (pk : Packet) (s : State) {t : State} (h : execRunToneSearch pk s = .next t) : Kept s t := by
  simp only [execRunToneSearch, Host.Outcome.next.injEq] at h
  subst h
  simp [Kept]

@[simp] theorem enterTone_kept (c : Carrier) (s : State) : Kept s (enterTone c s) := by
  simp [Kept, enterTone]

@[simp] theorem enterTiming_kept (c : Carrier) (s : State) : Kept s (enterTiming c s) := by
  simp [Kept, enterTiming]

theorem execToneSweepDone_kept (c : Carrier) (bins : List (List (ℕ × ℕ))) (s0 : State) {t : State} (h : execToneSweepDone c bins s0 = .next t) : Kept s0 t := by
  simp only [execToneSweepDone, Host.Outcome.next.injEq] at h
  subst h
  unfold Kept
  (repeat' split) <;> simp

theorem execCdScanDone_kept (c : Carrier) (obs : CdObs) (s : State) {t : State} (h : execCdScanDone c obs s = .next t) : Kept s t := by
  simp only [execCdScanDone, Host.Outcome.next.injEq] at h
  subst h
  simp [Kept]

theorem execFreqCoarseDone_kept (c : Carrier) (khz : ℤ) (s : State) {t : State} (h : execFreqCoarseDone c khz s = .next t) : Kept s t := by
  simp only [execFreqCoarseDone, Host.Outcome.next.injEq] at h
  subst h
  simp [Kept]

theorem execTimingAcquired_kept (c : Carrier) (clockOffset : ℤ) (s : State) {t : State} (h : execTimingAcquired c clockOffset s = .next t) : Kept s t := by
  simp only [execTimingAcquired, Host.Outcome.next.injEq] at h
  subst h
  simp [Kept]

@[simp] theorem singularEq_kept (c : Carrier) (s : State) : Kept s (singularEq c s) := by
  simp [Kept, singularEq]

theorem execEqConverged_kept (c : Carrier) (correlated : Bool) (dgd16 : ℕ) (s : State) {t : State} (h : execEqConverged c correlated dgd16 s = .next t) : Kept s t := by
  simp only [execEqConverged, Host.Outcome.next.injEq] at h
  subst h
  simp [Kept]

theorem execSfSyncFound_kept (c : Carrier) (swapped : Bool) (iqSwapped : Bool) (s : State) {t : State} (h : execSfSyncFound c swapped iqSwapped s = .next t) : Kept s t := by
  simp only [execSfSyncFound, Host.Outcome.next.injEq] at h
  subst h
  simp [Kept]

theorem execFreqFineDone_kept (c : Carrier) (khz : ℤ) (s : State) {t : State} (h : execFreqFineDone c khz s = .next t) : Kept s t := by
  simp only [execFreqFineDone, Host.Outcome.next.injEq] at h
  subst h
  simp [Kept]

@[simp] theorem noteSpacing_kept (s : State) : Kept s (noteSpacing s) := by
  simp [Kept, noteSpacing]

@[simp] theorem takeEstimates_kept (c : Carrier) (o : EstObs) (s : State) : Kept s (takeEstimates c o s) := by
  simp [Kept, takeEstimates]

theorem execLocked_kept (c : Carrier) (est : EstObs) (s : State) {t : State} (h : execLocked c est s = .next t) : Kept s t := by
  simp only [execLocked, Host.Outcome.next.injEq] at h
  subst h
  simp [Kept]

theorem execAcquisitionTimeout_kept (c : Carrier) (s : State) {t : State} (h : execAcquisitionTimeout c s = .next t) : Kept s t := by
  simp only [execAcquisitionTimeout, Host.Outcome.next.injEq] at h
  subst h
  unfold Kept
  (repeat' split) <;> simp

theorem execWarmPathTimeout_kept (c : Carrier) (s : State) {t : State} (h : execWarmPathTimeout c s = .next t) : Kept s t := by
  simp only [execWarmPathTimeout, Host.Outcome.next.injEq] at h
  subst h
  unfold Kept
  (repeat' split) <;> simp

theorem execLossOfLock_kept (c : Carrier) (cause : LockLoss) (s : State) {t : State} (h : execLossOfLock c cause s = .next t) : Kept s t := by
  simp only [execLossOfLock, Host.Outcome.next.injEq] at h
  subst h
  unfold Kept
  (repeat' split) <;> simp

theorem execEqSingularCheck_kept (c : Carrier) (correlated : Bool) (est : EstObs) (s : State) {t : State} (h : execEqSingularCheck c correlated est s = .next t) : Kept s t := by
  simp only [execEqSingularCheck, Host.Outcome.next.injEq] at h
  subst h
  simp [Kept]

theorem execSpacingErr_kept (s : State) {t : State} (h : execSpacingErr s = .next t) : Kept s t := by
  simp only [execSpacingErr, Host.Outcome.next.injEq] at h
  subst h
  simp [Kept]

theorem execOverlapSaveBlock_kept (c : Carrier) (obs : OsaObs) (s : State) {t : State} (h : execOverlapSaveBlock c obs s = .next t) : Kept s t := by
  simp only [execOverlapSaveBlock, Host.Outcome.next.injEq] at h
  subst h
  simp [Kept]

@[simp] theorem adaptGroup_kept (c : Carrier) (flag : Bool) (obs : GroupObs) (s : State) : Kept s (adaptGroup c flag obs s) := by
  simp [Kept, adaptGroup]

@[simp] theorem demapData_kept (c : Carrier) (v : ℕ × ℕ) (l : List HeldSym) (s : State) : Kept s (demapData c v l s) := by
  simp [Kept, demapData]

@[simp] theorem takeBlock_kept (c : Carrier) (v : ℕ × ℕ) (l : List HeldSym) (s : State) : Kept s (takeBlock c v l s) := by
  simp [Kept, takeBlock]

@[simp] theorem takeGroup_kept (c : Carrier) (flag : Bool) (obs : GroupObs) (s : State) : Kept s (takeGroup c flag obs s) := by
  simp [Kept, takeGroup]

theorem execSymbolGroupReceive_kept (c : Carrier) (obs : GroupObs) (s : State) {t : State} (h : execSymbolGroupReceive c obs s = .next t) : Kept s t := by
  simp only [execSymbolGroupReceive, Host.Outcome.next.injEq] at h
  subst h
  simp [Kept]

theorem execEqLimit_kept (c : Carrier) (energyOver : Bool) (s : State) {t : State} (h : execEqLimit c energyOver s = .next t) : Kept s t := by
  simp only [execEqLimit, Host.Outcome.next.injEq] at h
  subst h
  unfold Kept
  (repeat' split) <;> simp

theorem execXtalkFallback_kept (c : Carrier) (parity : ℕ) (s : State) {t : State} (h : execXtalkFallback c parity s = .next t) : Kept s t := by
  simp only [execXtalkFallback, Host.Outcome.next.injEq] at h
  subst h
  simp [Kept]

theorem execXtalkResume_kept (c : Carrier) (s : State) {t : State} (h : execXtalkResume c s = .next t) : Kept s t := by
  simp only [execXtalkResume, Host.Outcome.next.injEq] at h
  subst h
  unfold Kept
  (repeat' split) <;> simp

@[simp] theorem superframeSettings_kept (c : Carrier) (s : State) : Kept s (superframeSettings c s) := by
  simp [Kept, superframeSettings]

theorem execSuperframeReceive_kept (c : Carrier) (s : State) {t : State} (h : execSuperframeReceive c s = .next t) : Kept s t := by
  simp only [execSuperframeReceive, Host.Outcome.next.injEq] at h
  subst h
  simp [Kept]

theorem execTurboPass_kept (c : Carrier) (block : ℕ) (pass : ℕ) (s0 : State) {t : State} (h : execTurboPass c block pass s0 = .next t) : Kept s0 t := by
  simp only [execTurboPass, Host.Outcome.next.injEq] at h
  subst h
  unfold Kept
  (repeat' split) <;> simp

end Sys2Proof.Machine
end

