-- ==== Sys2Proof/Laws/KeptFec.lean ====
section
/-! SUPPORT. What the definitions of Machine/Fec.lean keep: the queue of waiting commands and the held line plan. -/

namespace Sys2Proof.Machine

@[simp] theorem followThrottle_kept (c : Carrier) (was : Bool) (s : State) : Kept s (followThrottle c was s) := by
  simp [Kept, followThrottle]

@[simp] theorem runSetFec_kept (c : Ctx) (s : State) : Kept s (runSetFec c s).s := by
  simp [Kept, runSetFec]

theorem execSetFec_kept (pk : Packet) (s : State) {t : State} (h : execSetFec pk s = .next t) : Kept s t := by
  simp only [execSetFec, Host.Outcome.next.injEq] at h
  subst h
  simp [Kept]

@[simp] theorem runSetFecDefects_kept (c : Ctx) (s : State) : Kept s (runSetFecDefects c s).s := by
  simp [Kept, runSetFecDefects]

theorem execSetFecDefects_kept (pk : Packet) (s : State) {t : State} (h : execSetFecDefects pk s = .next t) : Kept s t := by
  simp only [execSetFecDefects, Host.Outcome.next.injEq] at h
  subst h
  simp [Kept]

@[simp] theorem runGetFecStatus_kept (c : Ctx) (s : State) : Kept s (runGetFecStatus c s).s := by
  simp [Kept, runGetFecStatus]

theorem execGetFecStatus_kept (pk : Packet) (s : State) {t : State} (h : execGetFecStatus pk s = .next t) : Kept s t := by
  simp only [execGetFecStatus, Host.Outcome.next.injEq] at h
  subst h
  simp [Kept]

@[simp] theorem openWindow_kept (c : Carrier) (x : ChanBlock) (y : ChanBlock) (z : ChanBlock) (s : State) : Kept s (openWindow c x y z s) := by
  simp [Kept, openWindow]

theorem execLdpcBlockEnter_kept (c : Carrier) (s : State) {t : State} (h : execLdpcBlockEnter c s = .next t) : Kept s t := by
  simp only [execLdpcBlockEnter, Host.Outcome.next.injEq] at h
  subst h
  unfold Kept
  (repeat' split) <;> simp

@[simp] theorem turboAt_kept (c : Carrier) (p : ℕ) (b : DecBlock) (s : State) : Kept s (turboAt c p b s) := by
  simp [Kept, turboAt]

@[simp] theorem passLost_kept (c : Carrier) (back : Bool) (f : Fec) (s : State) : Kept s (passLost c back f s) := by
  simp [Kept, passLost]

@[simp] theorem alignLoss_kept (c : Carrier) (s : State) : Kept s (alignLoss c s) := by
  simp [Kept, alignLoss]

@[simp] theorem countSources_kept (c : Carrier) (old : Fec) (new : Fec) (s : State) : Kept s (countSources c old new s) := by
  simp [Kept, countSources]

@[simp] theorem leaveWindow_kept (c : Carrier) (b : DecBlock) (rest : List DecBlock) (s : State) : Kept s (leaveWindow c b rest s) := by
  simp [Kept, leaveWindow]

@[simp] theorem leaveDue_kept (c : Carrier) (s : State) : Kept s (leaveDue c s) := by
  simp only [Kept, leaveDue]
  (repeat' split) <;> simp

theorem execBlockLeave_kept (c : Carrier) (s : State) {t : State} (h : execBlockLeave c s = .next t) : Kept s t := by
  simp only [execBlockLeave, Host.Outcome.next.injEq] at h
  subst h
  unfold Kept
  (repeat' split) <;> simp

@[simp] theorem leaveAll_kept (n : ℕ) (c : Carrier) (s : State) : Kept s (leaveAll n c s) := by
  induction n generalizing s with
  | zero => simp [Kept, leaveAll]
  | succ k ih =>
    simp only [leaveAll]
    exact Kept.trans (leaveDue_kept c s) (ih _)

theorem execDecoderIterationPeriod_kept (c : Carrier) (s0 : State) {t : State} (h : execDecoderIterationPeriod c s0 = .next t) : Kept s0 t := by
  simp only [execDecoderIterationPeriod, Host.Outcome.next.injEq] at h
  subst h
  simp [Kept]

theorem execFullHuntDone_kept (c : Carrier) (s : State) {t : State} (h : execFullHuntDone c s = .next t) : Kept s t := by
  simp only [execFullHuntDone, Host.Outcome.next.injEq] at h
  subst h
  simp [Kept]

theorem execFecDegWindow_kept (c : Carrier) (s0 : State) {t : State} (h : execFecDegWindow c s0 = .next t) : Kept s0 t := by
  simp only [execFecDegWindow, Host.Outcome.next.injEq] at h
  subst h
  unfold Kept
  (repeat' split) <;> simp

theorem execFecFailWindow_kept (c : Carrier) (s0 : State) {t : State} (h : execFecFailWindow c s0 = .next t) : Kept s0 t := by
  simp only [execFecFailWindow, Host.Outcome.next.injEq] at h
  subst h
  unfold Kept
  (repeat' split) <;> simp

theorem execFecThrottle_kept (c : Carrier) (s : State) {t : State} (h : execFecThrottle c s = .next t) : Kept s t := by
  simp only [execFecThrottle, Host.Outcome.next.injEq] at h
  subst h
  simp [Kept]

end Sys2Proof.Machine
end

