-- ==== Sys2Proof/Laws/KeptPower.lean ====
section
/-! SUPPORT. What the definitions of Machine/Power.lean keep: the queue of waiting commands and the held line plan. -/

namespace Sys2Proof.Machine

@[simp] theorem runSetMode_kept (c : Ctx) (s : State) : Kept s (runSetMode c s).s := by
  simp [Kept, runSetMode]

theorem execSetMode_kept (pk : Packet) (s : State) {t : State} (h : execSetMode pk s = .next t) : Kept s t := by
  simp only [execSetMode, Host.Outcome.next.injEq] at h
  subst h
  simp [Kept]

theorem execModeAnnounce_kept (s : State) {t : State} (h : execModeAnnounce s = .next t) : Kept s t := by
  simp only [execModeAnnounce, Host.Outcome.next.injEq] at h
  subst h
  unfold Kept
  (repeat' split) <;> simp

theorem execModeBoundary_kept (s : State) {t : State} (h : execModeBoundary s = .next t) : Kept s t := by
  simp only [execModeBoundary, Host.Outcome.next.injEq] at h
  subst h
  unfold Kept
  (repeat' split) <;> simp

theorem execRampDownDone_kept (s : State) {t : State} (h : execRampDownDone s = .next t) : Kept s t := by
  simp only [execRampDownDone, Host.Outcome.next.injEq] at h
  subst h
  unfold Kept
  (repeat' split) <;> simp

@[simp] theorem runSetDomains_kept (c : Ctx) (s : State) : Kept s (runSetDomains c s).s := by
  simp only [runSetDomains]
  have k : Kept s ((maskDoms (u32 c.pk.params 0)).foldl (fun t d => domUpd d (fun x => { x with wanted := u8 c.pk.params 4 == 1 }) t) s) :=
    foldl_kept _ (fun _ _ => domUpd_kept _ _ _) _ _
  generalize (maskDoms (u32 c.pk.params 0)).foldl _ s = s1 at k ⊢
  refine Kept.trans k ?_
  (repeat' split) <;> simp [Kept, later]

theorem execSetDomains_kept (pk : Packet) (s : State) {t : State} (h : execSetDomains pk s = .next t) : Kept s t := by
  simp only [execSetDomains, Host.Outcome.next.injEq] at h
  subst h
  simp [Kept]

theorem execDomainPllLock_kept (dom : ℕ) (s : State) {t : State} (h : execDomainPllLock dom s = .next t) : Kept s t := by
  simp only [execDomainPllLock, Host.Outcome.next.injEq] at h
  subst h
  simp [Kept]

theorem execDomainInitDone_kept (dom : ℕ) (s : State) {t : State} (h : execDomainInitDone dom s = .next t) : Kept s t := by
  simp only [execDomainInitDone, Host.Outcome.next.injEq] at h
  subst h
  simp [Kept]

@[simp] theorem flushFifo_kept (f : FifoRef) (s : State) : Kept s (flushFifo f s) := by
  unfold Kept flushFifo
  (repeat' split) <;> simp

theorem execFifoMismatch_kept (dom : ℕ) (fifo : FifoRef) (s : State) {t : State} (h : execFifoMismatch dom fifo s = .next t) : Kept s t := by
  simp only [execFifoMismatch, Host.Outcome.next.injEq] at h
  subst h
  simp [Kept]

theorem execFifoWindowClose_kept (dom : ℕ) (s : State) {t : State} (h : execFifoWindowClose dom s = .next t) : Kept s t := by
  simp only [execFifoWindowClose, Host.Outcome.next.injEq] at h
  subst h
  unfold Kept
  (repeat' split) <;> simp

@[simp] theorem runGetPowerStatus_kept (c : Ctx) (s : State) : Kept s (runGetPowerStatus c s).s := by
  simp [Kept, runGetPowerStatus]

theorem execGetPowerStatus_kept (pk : Packet) (s : State) {t : State} (h : execGetPowerStatus pk s = .next t) : Kept s t := by
  simp only [execGetPowerStatus, Host.Outcome.next.injEq] at h
  subst h
  simp [Kept]

@[simp] theorem runSetSupervision_kept (c : Ctx) (s : State) : Kept s (runSetSupervision c s).s := by
  simp [Kept, runSetSupervision]

theorem execSetSupervision_kept (pk : Packet) (s : State) {t : State} (h : execSetSupervision pk s = .next t) : Kept s t := by
  simp only [execSetSupervision, Host.Outcome.next.injEq] at h
  subst h
  simp [Kept]

@[simp] theorem runClearPairFault_kept (c : Ctx) (s : State) : Kept s (runClearPairFault c s).s := by
  unfold Kept runClearPairFault
  (repeat' split) <;> simp

theorem execClearPairFault_kept (pk : Packet) (s : State) {t : State} (h : execClearPairFault pk s = .next t) : Kept s t := by
  simp only [execClearPairFault, Host.Outcome.next.injEq] at h
  subst h
  simp [Kept]

@[simp] theorem noteDiscrepancy_kept (s : State) : Kept s (noteDiscrepancy s) := by
  simp [Kept, noteDiscrepancy]

@[simp] theorem takeSafe_kept (inp : Carrier) (v : Bool) (s : State) : Kept s (takeSafe inp v s) := by
  simp [Kept, takeSafe]

theorem execTxsafeAssert_kept (inp : Carrier) (s : State) {t : State} (h : execTxsafeAssert inp s = .next t) : Kept s t := by
  simp only [execTxsafeAssert, Host.Outcome.next.injEq] at h
  subst h
  simp [Kept]

theorem execTxsafeDeassert_kept (inp : Carrier) (s : State) {t : State} (h : execTxsafeDeassert inp s = .next t) : Kept s t := by
  simp only [execTxsafeDeassert, Host.Outcome.next.injEq] at h
  subst h
  simp [Kept]

@[simp] theorem latchPairFault_kept (s : State) : Kept s (latchPairFault s) := by
  simp [Kept, latchPairFault]

theorem execPairFault_kept (s : State) {t : State} (h : execPairFault s = .next t) : Kept s t := by
  simp only [execPairFault, Host.Outcome.next.injEq] at h
  subst h
  unfold Kept
  (repeat' split) <;> simp

theorem execSettleExpiry_kept (c : Carrier) (s : State) {t : State} (h : execSettleExpiry c s = .next t) : Kept s t := by
  simp only [execSettleExpiry, Host.Outcome.next.injEq] at h
  subst h
  unfold Kept
  (repeat' split) <;> simp

theorem execPfailNAssert_kept (s : State) {t : State} (h : execPfailNAssert s = .next t) : Kept s t := by
  simp only [execPfailNAssert, Host.Outcome.next.injEq] at h
  subst h
  simp [Kept]

theorem execPfailNDeassert_kept (s : State) {t : State} (h : execPfailNDeassert s = .next t) : Kept s t := by
  simp only [execPfailNDeassert, Host.Outcome.next.injEq] at h
  subst h
  simp [Kept]

@[simp] theorem warnRail_kept (rail : ℕ) (mv : ℕ) (s : State) : Kept s (warnRail rail mv s) := by
  simp [Kept, warnRail]

theorem execRailWarn_kept (rail : ℕ) (mv : ℕ) (s : State) {t : State} (h : execRailWarn rail mv s = .next t) : Kept s t := by
  simp only [execRailWarn, Host.Outcome.next.injEq] at h
  subst h
  simp [Kept]

theorem execRailWarnClear_kept (rail : ℕ) (mv : ℕ) (s : State) {t : State} (h : execRailWarnClear rail mv s = .next t) : Kept s t := by
  simp only [execRailWarnClear, Host.Outcome.next.injEq] at h
  subst h
  simp [Kept]

/-- A reset of the whole device keeps the queue of waiting commands and forgets the line plan (R50, R470). -/
@[simp] theorem coldReset_pending (s : State) : (coldReset s).pending = s.pending :=
  (tearSlot_kept _).1.trans (tearCopy_kept s).1

@[simp] theorem coldReset_plan (s : State) : (coldReset s).plan = {} := rfl

@[simp] theorem railDown_kept (rail : ℕ) (s : State) : Kept s (railDown rail s) := by
  simp only [railDown]
  split <;> simp [Kept, -List.foldl_reverse, -List.filter_reverse, -List.foldl_filter]

/-- A rail below its reset level keeps the queue of waiting commands; a Cupola rail forgets the line plan. -/
theorem execRailReset_kept (rail mv : ℕ) (s : State) {t : State} (h : execRailReset rail mv s = .next t) :
    t.pending = s.pending ∧ (t.plan = {} ∨ Kept s t) := by
  simp only [execRailReset, Host.Outcome.next.injEq] at h
  subst h
  have w : Kept s (warnRail rail mv (railUpd rail (fun x => { x with mv := mv }) s)) :=
    Kept.trans (railUpd_kept _ _ _) (warnRail_kept _ _ _)
  split
  · exact ⟨rfl, .inr (Kept.refl s)⟩
  · split
    · exact ⟨(coldReset_pending _).trans w.1, .inl (coldReset_plan _)⟩
    · have k := Kept.trans w (railDown_kept rail _)
      exact ⟨k.1, .inr k⟩

theorem execDomainReturnStart_kept (rail : ℕ) (s : State) {t : State} (h : execDomainReturnStart rail s = .next t) : Kept s t := by
  simp only [execDomainReturnStart, Host.Outcome.next.injEq] at h
  subst h
  simp [Kept]

@[simp] theorem oscLost_kept (s : State) : Kept s (oscLost s) := by
  simp [Kept, oscLost]

theorem execLocalOscWindowEnd_kept (ppb : Option ℤ) (s : State) {t : State} (h : execLocalOscWindowEnd ppb s = .next t) : Kept s t := by
  simp only [execLocalOscWindowEnd, Host.Outcome.next.injEq] at h
  subst h
  simp [Kept]

theorem execLocalOscEdgeLoss_kept (s : State) {t : State} (h : execLocalOscEdgeLoss s = .next t) : Kept s t := by
  simp only [execLocalOscEdgeLoss, Host.Outcome.next.injEq] at h
  subst h
  simp [Kept]

/-- PORESET_N keeps the queue of waiting commands and forgets the line plan. -/
theorem execPoresetNAssert_kept (s : State) {t : State} (h : execPoresetNAssert s = .next t) :
    t.pending = s.pending ∧ (t.plan = {} ∨ Kept s t) := by
  simp only [execPoresetNAssert, Host.Outcome.next.injEq] at h
  subst h
  exact ⟨coldReset_pending s, .inl (coldReset_plan s)⟩

theorem execPoresetNDeassert_kept (s : State) {t : State} (h : execPoresetNDeassert s = .next t) : Kept s t := by
  simp only [execPoresetNDeassert, Host.Outcome.next.injEq] at h
  subst h
  simp [Kept]

@[simp] theorem enterRecovery_kept (s : State) : Kept s (enterRecovery s) := by
  simp [Kept, enterRecovery]

theorem execFirmwareVerified_kept (read : FlashRead) (s : State) {t : State} (h : execFirmwareVerified read s = .next t) : Kept s t := by
  simp only [execFirmwareVerified, Host.Outcome.next.injEq] at h
  subst h
  simp [Kept]

theorem execReady_kept (s : State) {t : State} (h : execReady s = .next t) : Kept s t := by
  simp only [execReady, Host.Outcome.next.injEq] at h
  subst h
  simp [Kept]

@[simp] theorem takeReadings_kept (l : List ℤ) (s : State) : Kept s (takeReadings l s) := by
  simp [Kept, takeReadings]

@[simp] theorem warnChange_kept (old : Bool) (s : State) : Kept s (warnChange old s) := by
  simp [Kept, warnChange]

@[simp] theorem criticalChange_kept (old : Bool) (s : State) : Kept s (criticalChange old s) := by
  simp [Kept, criticalChange]

@[simp] theorem lowChange_kept (old : Bool) (s : State) : Kept s (lowChange old s) := by
  simp [Kept, lowChange]

@[simp] theorem shutdownChange_kept (s : State) : Kept s (shutdownChange s) := by
  simp [Kept, shutdownChange]

theorem execTempSample_kept (readings : List ℤ) (s : State) {t : State} (h : execTempSample readings s = .next t) : Kept s t := by
  simp only [execTempSample, Host.Outcome.next.injEq] at h
  subst h
  simp [Kept]

end Sys2Proof.Machine
end

