-- ==== Sys2Proof/Laws/KeptFirmware.lean ====
section
/-! SUPPORT. What the definitions of Machine/Firmware.lean keep: the queue of waiting commands and the held line plan. -/

namespace Sys2Proof.Machine

@[simp] theorem fwJob_kept (op : ℕ) (raise : Bool) (c : Ctx) (s : State) : Kept s (fwJob op raise c s) := by
  simp [Kept, fwJob]

@[simp] theorem runFwPrepare_kept (c : Ctx) (s : State) : Kept s (runFwPrepare c s).s := by
  simp [Kept, runFwPrepare]

theorem execFwPrepare_kept (pk : Packet) (s : State) {t : State} (h : execFwPrepare pk s = .next t) : Kept s t := by
  simp only [execFwPrepare, Host.Outcome.next.injEq] at h
  subst h
  simp [Kept]

theorem execFwSlotErased_kept (s : State) {t : State} (h : execFwSlotErased s = .next t) : Kept s t := by
  simp only [execFwSlotErased, Host.Outcome.next.injEq] at h
  subst h
  simp [Kept]

@[simp] theorem runFwVerify_kept (c : Ctx) (s : State) : Kept s (runFwVerify c s).s := by
  simp [Kept, runFwVerify]

theorem execFwVerify_kept (pk : Packet) (s : State) {t : State} (h : execFwVerify pk s = .next t) : Kept s t := by
  simp only [execFwVerify, Host.Outcome.next.injEq] at h
  subst h
  simp [Kept]

theorem execFwVerifyDone_kept (s : State) {t : State} (h : execFwVerifyDone s = .next t) : Kept s t := by
  simp only [execFwVerifyDone, Host.Outcome.next.injEq] at h
  subst h
  simp [Kept]

@[simp] theorem runFwActivate_kept (c : Ctx) (s : State) : Kept s (runFwActivate c s).s := by
  simp [Kept, runFwActivate]

theorem execFwActivate_kept (pk : Packet) (s : State) {t : State} (h : execFwActivate pk s = .next t) : Kept s t := by
  simp only [execFwActivate, Host.Outcome.next.injEq] at h
  subst h
  simp [Kept]

@[simp] theorem endActivation_kept (a : Activation) (s : State) : Kept s (endActivation a s) := by
  simp [Kept, endActivation]

theorem execFwControllerSwitch_kept (s : State) {t : State} (h : execFwControllerSwitch s = .next t) : Kept s t := by
  simp only [execFwControllerSwitch, Host.Outcome.next.injEq] at h
  subst h
  unfold Kept
  (repeat' split) <;> simp

theorem execFwClusterSwitch_kept (cluster : ℕ) (s : State) {t : State} (h : execFwClusterSwitch cluster s = .next t) : Kept s t := by
  simp only [execFwClusterSwitch, Host.Outcome.next.injEq] at h
  subst h
  unfold Kept
  (repeat' split) <;> simp

@[simp] theorem runFwCommit_kept (c : Ctx) (s : State) : Kept s (runFwCommit c s).s := by
  simp only [Kept, runFwCommit]
  (repeat' split) <;> simp

theorem execFwCommit_kept (pk : Packet) (s : State) {t : State} (h : execFwCommit pk s = .next t) : Kept s t := by
  simp only [execFwCommit, Host.Outcome.next.injEq] at h
  subst h
  simp [Kept]

@[simp] theorem runGetFwStatus_kept (c : Ctx) (s : State) : Kept s (runGetFwStatus c s).s := by
  simp [Kept, runGetFwStatus]

theorem execGetFwStatus_kept (pk : Packet) (s : State) {t : State} (h : execGetFwStatus pk s = .next t) : Kept s t := by
  simp only [execGetFwStatus, Host.Outcome.next.injEq] at h
  subst h
  simp [Kept]

@[simp] theorem runGetJournalStatus_kept (c : Ctx) (s : State) : Kept s (runGetJournalStatus c s).s := by
  simp [Kept, runGetJournalStatus]

theorem execGetJournalStatus_kept (pk : Packet) (s : State) {t : State} (h : execGetJournalStatus pk s = .next t) : Kept s t := by
  simp only [execGetJournalStatus, Host.Outcome.next.injEq] at h
  subst h
  simp [Kept]

@[simp] theorem nextCopy_kept (p : JPend) (bank : ℕ) (s : State) : Kept s (nextCopy p bank s) := by
  simp [Kept, nextCopy]

theorem execJournalWrite_kept (s : State) {t : State} (h : execJournalWrite s = .next t) : Kept s t := by
  simp only [execJournalWrite, Host.Outcome.next.injEq] at h
  subst h
  unfold Kept
  (repeat' split) <;> simp

theorem execFlashOperationDone_kept (found : Option (List Byte)) (s : State) {t : State} (h : execFlashOperationDone found s = .next t) : Kept s t := by
  simp only [execFlashOperationDone, Host.Outcome.next.injEq] at h
  subst h
  unfold Kept
  (repeat' split) <;> simp

theorem execControllerMismatch_kept (s : State) {t : State} (h : execControllerMismatch s = .next t) : Kept s t := by
  simp only [execControllerMismatch, Host.Outcome.next.injEq] at h
  subst h
  simp [Kept]

theorem execControllerRestartDone_kept (s : State) {t : State} (h : execControllerRestartDone s = .next t) : Kept s t := by
  simp only [execControllerRestartDone, Host.Outcome.next.injEq] at h
  subst h
  simp [Kept]

theorem execEngineFailed_kept (e : ℕ) (s : State) {t : State} (h : execEngineFailed e s = .next t) : Kept s t := by
  simp only [execEngineFailed, Host.Outcome.next.injEq] at h
  subst h
  simp [Kept]

theorem execEngineFailover_kept (e : ℕ) (s : State) {t : State} (h : execEngineFailover e s = .next t) : Kept s t := by
  simp only [execEngineFailover, Host.Outcome.next.injEq] at h
  subst h
  unfold Kept
  (repeat' split) <;> simp

theorem execEngineCheckpoint_kept (e : ℕ) (s : State) {t : State} (h : execEngineCheckpoint e s = .next t) : Kept s t := by
  simp only [execEngineCheckpoint, Host.Outcome.next.injEq] at h
  subst h
  simp [Kept]

end Sys2Proof.Machine
end

