-- ==== Sys2Proof/Laws/KeptSkewOps.lean ====
section
/-! SUPPORT. What the definitions of Machine/SkewOps.lean keep: the queue of waiting commands and the held line plan. -/

namespace Sys2Proof.Machine

@[simp] theorem legUpd_kept (c : Carrier) (f : Leg → Leg) (s : State) : Kept s (legUpd c f s) := by
  simp [Kept, legUpd]

@[simp] theorem noteLeg_kept (c : Carrier) (s : State) : Kept s (noteLeg c s) := by
  simp [Kept, noteLeg]

@[simp] theorem noteLossEnd_kept (s : State) : Kept s (noteLossEnd s) := by
  simp [Kept, noteLossEnd]

@[simp] theorem noteLegs_kept (s : State) : Kept s (noteLegs s) := by
  simp [Kept, noteLegs]

@[simp] theorem countCopy_kept (c : Carrier) (good : Bool) (s : State) : Kept s (countCopy c good s) := by
  simp [Kept, countCopy]

@[simp] theorem takeAnn_kept (c : Carrier) (ann : ℕ) (s : State) : Kept s (takeAnn c ann s) := by
  simp [Kept, takeAnn]

@[simp] theorem annBoundary_kept (c : Carrier) (s : State) : Kept s (annBoundary c s) := by
  simp only [Kept, annBoundary]
  (repeat' split) <;> simp

@[simp] theorem holdFrame_kept (c : Carrier) (x : HeldFrame) (s : State) : Kept s (holdFrame c x s) := by
  simp [Kept, holdFrame]

@[simp] theorem dropHeld_kept (fc : ℕ) (s : State) : Kept s (dropHeld fc s) := by
  simp [Kept, dropHeld]

@[simp] theorem extractFrame_kept (fc : ℕ) (a : Option HeldFrame) (b : Option HeldFrame) (s : State) : Kept s (extractFrame fc a b s) := by
  unfold Kept extractFrame
  (repeat' split) <;> simp (disch := (intros; (repeat' split) <;> simp [Kept]))

end Sys2Proof.Machine
end

