-- ==== Sys2Proof/Laws/KeptFrame.lean ====
section
/-! SUPPORT. What the definitions of Machine/Frame.lean keep: the queue of waiting commands and the held line plan. -/

namespace Sys2Proof.Machine

@[simp] theorem noteTti_kept (c : Carrier) (s : State) : Kept s (noteTti c s) := by
  simp [Kept, noteTti]

@[simp] theorem runSetFrameConfig_kept (c : Ctx) (s : State) : Kept s (runSetFrameConfig c s).s := by
  simp [Kept, runSetFrameConfig]

theorem execSetFrameConfig_kept (pk : Packet) (s : State) {t : State} (h : execSetFrameConfig pk s = .next t) : Kept s t := by
  simp only [execSetFrameConfig, Host.Outcome.next.injEq] at h
  subst h
  simp [Kept]

@[simp] theorem runGetFrameStatus_kept (c : Ctx) (s : State) : Kept s (runGetFrameStatus c s).s := by
  simp [Kept, runGetFrameStatus]

theorem execGetFrameStatus_kept (pk : Packet) (s : State) {t : State} (h : execGetFrameStatus pk s = .next t) : Kept s t := by
  simp only [execGetFrameStatus, Host.Outcome.next.injEq] at h
  subst h
  simp [Kept]

@[simp] theorem emitFrame_kept (c : Carrier) (fc : ℕ) (h : BitVec 64) (ann : ℕ) (ssm : ℕ) (tti : Byte) (p : Payload) (s : State) : Kept s (emitFrame c fc h ann ssm tti p s) := by
  simp [Kept, emitFrame]

@[simp] theorem sendOwn_kept (c : Carrier) (fc : ℕ) (fdi : Bool) (s : State) : Kept s (sendOwn c fc fdi s) := by
  simp [Kept, sendOwn]

theorem execFrameTransmit_kept (s : State) {t : State} (h : execFrameTransmit s = .next t) : Kept s t := by
  simp only [execFrameTransmit, Host.Outcome.next.injEq] at h
  subst h
  unfold Kept
  (repeat' split) <;> simp

@[simp] theorem regenerate_kept (src : Carrier) (fr : RxFrame) (fc : ℕ) (fdi : Bool) (s : State) : Kept s (regenerate src fr fc fdi s) := by
  simp [Kept, regenerate]

@[simp] theorem takeHeader_kept (c : Carrier) (h : BitVec 64) (s : State) : Kept s (takeHeader c h s) := by
  simp [Kept, takeHeader]

@[simp] theorem takeCalret_kept (c : Carrier) (l : List Byte) (s : State) : Kept s (takeCalret c l s) := by
  simp [Kept, takeCalret]

@[simp] theorem takeBlock0_kept (c : Carrier) (fc : ℕ) (b : List Byte) (s : State) : Kept s (takeBlock0 c fc b s) := by
  simp [Kept, takeBlock0]

@[simp] theorem takeUnits_kept (c : Carrier) (fr : RxFrame) (s : State) : Kept s (takeUnits c fr s) := by
  simp [Kept, takeUnits]

@[simp] theorem applyFrmSettings_kept (c : Carrier) (s : State) : Kept s (applyFrmSettings c s) := by
  simp [Kept, applyFrmSettings]

@[simp] theorem declareLom_kept (c : Carrier) (s : State) : Kept s (declareLom c s) := by
  simp [Kept, declareLom]

@[simp] theorem enterSync_kept (c : Carrier) (fc : ℕ) (rising : Bool) (s : State) : Kept s (enterSync c fc rising s) := by
  simp [Kept, enterSync]

@[simp] theorem judgeMulti_kept (c : Carrier) (fc : Option ℕ) (s : State) : Kept s (judgeMulti c fc s) := by
  unfold Kept judgeMulti
  (repeat' split) <;> simp

@[simp] theorem examine_kept (c : Carrier) (good : Bool) (fc : ℕ) (s : State) : Kept s (examine c good fc s) := by
  simp only [Kept, examine]
  (repeat' split) <;> simp

@[simp] theorem takeFrame_kept (c : Carrier) (fr : RxFrame) (good : Bool) (s : State) : Kept s (takeFrame c fr good s) := by
  simp [Kept, takeFrame]

@[simp] theorem movePosition_kept (c : Carrier) (p : ℕ) (s : State) : Kept s (movePosition c p s) := by
  simp [Kept, movePosition]

@[simp] theorem afterHeader_kept (c : Carrier) (was : AlignState) (p : ℕ) (n : ℕ) (s : State) : Kept s (afterHeader c was p n s) := by
  simp only [Kept, afterHeader]
  (repeat' split) <;> simp

theorem execFrameReceive_kept (c : Carrier) (s0 : State) {t : State} (h : execFrameReceive c s0 = .next t) : Kept s0 t := by
  simp only [execFrameReceive, Host.Outcome.next.injEq] at h
  subst h
  simp [Kept]

theorem execFlywheelTick_kept (c : Carrier) (s0 : State) {t : State} (h : execFlywheelTick c s0 = .next t) : Kept s0 t := by
  simp only [execFlywheelTick, Host.Outcome.next.injEq] at h
  subst h
  simp [Kept]

theorem execMultiframeBoundaryRx_kept (c : Carrier) (s : State) {t : State} (h : execMultiframeBoundaryRx c s = .next t) : Kept s t := by
  simp only [execMultiframeBoundaryRx, Host.Outcome.next.injEq] at h
  subst h
  simp [Kept]

end Sys2Proof.Machine
end

