-- ==== Sys2Proof/Laws/KeptHost.lean ====
section
/-! SUPPORT. What the definitions of Machine/Host.lean keep: the queue of waiting commands and the held line plan. -/

namespace Sys2Proof.Machine

@[simp] theorem storeQuad_kept (p : List Byte) (s : State) : Kept s (storeQuad p s) := by
  simp [Kept, storeQuad]

@[simp] theorem runSetHostQuad_kept (c : Ctx) (s : State) : Kept s (runSetHostQuad c s).s := by
  simp [Kept, runSetHostQuad]

theorem execSetHostQuad_kept (pk : Packet) (s : State) {t : State} (h : execSetHostQuad pk s = .next t) : Kept s t := by
  simp only [execSetHostQuad, Host.Outcome.next.injEq] at h
  subst h
  simp [Kept]

@[simp] theorem runSetHostLaneTx_kept (c : Ctx) (s : State) : Kept s (runSetHostLaneTx c s).s := by
  simp [Kept, runSetHostLaneTx]

theorem execSetHostLaneTx_kept (pk : Packet) (s : State) {t : State} (h : execSetHostLaneTx pk s = .next t) : Kept s t := by
  simp only [execSetHostLaneTx, Host.Outcome.next.injEq] at h
  subst h
  simp [Kept]

@[simp] theorem storePhy_kept (p : List Byte) (s : State) : Kept s (storePhy p s) := by
  simp [Kept, storePhy]

@[simp] theorem runSetHostPhy_kept (c : Ctx) (s : State) : Kept s (runSetHostPhy c s).s := by
  simp [Kept, runSetHostPhy]

theorem execSetHostPhy_kept (pk : Packet) (s : State) {t : State} (h : execSetHostPhy pk s = .next t) : Kept s t := by
  simp only [execSetHostPhy, Host.Outcome.next.injEq] at h
  subst h
  simp [Kept]

@[simp] theorem runSetClient_kept (c : Ctx) (s : State) : Kept s (runSetClient c s).s := by
  simp [Kept, runSetClient]

theorem execSetClient_kept (pk : Packet) (s : State) {t : State} (h : execSetClient pk s = .next t) : Kept s t := by
  simp only [execSetClient, Host.Outcome.next.injEq] at h
  subst h
  simp [Kept]

@[simp] theorem runSetFlexeGroup_kept (c : Ctx) (s : State) : Kept s (runSetFlexeGroup c s).s := by
  simp [Kept, runSetFlexeGroup]

theorem execSetFlexeGroup_kept (pk : Packet) (s : State) {t : State} (h : execSetFlexeGroup pk s = .next t) : Kept s t := by
  simp only [execSetFlexeGroup, Host.Outcome.next.injEq] at h
  subst h
  simp [Kept]

@[simp] theorem runSetFlexeCalendar_kept (c : Ctx) (s : State) : Kept s (runSetFlexeCalendar c s).s := by
  simp [Kept, runSetFlexeCalendar]

theorem execSetFlexeCalendar_kept (pk : Packet) (s : State) {t : State} (h : execSetFlexeCalendar pk s = .next t) : Kept s t := by
  simp only [execSetFlexeCalendar, Host.Outcome.next.injEq] at h
  subst h
  simp [Kept]

@[simp] theorem runSwitchFlexeCalendar_kept (c : Ctx) (s : State) : Kept s (runSwitchFlexeCalendar c s).s := by
  simp [Kept, runSwitchFlexeCalendar]

theorem execSwitchFlexeCalendar_kept (pk : Packet) (s : State) {t : State} (h : execSwitchFlexeCalendar pk s = .next t) : Kept s t := by
  simp only [execSwitchFlexeCalendar, Host.Outcome.next.injEq] at h
  subst h
  simp [Kept]

@[simp] theorem laneStatus_kept (l : ℕ) (s : State) : Kept s (laneStatus l s).2 := by
  simp [Kept, laneStatus]

@[simp] theorem lanesStatus_kept (l : List ℕ) (s : State) : Kept s (lanesStatus l s).2 := by
  induction l generalizing s with
  | nil => exact Kept.refl s
  | cons x r ih => exact Kept.trans (laneStatus_kept x s) (ih _)

@[simp] theorem runGetHostStatus_kept (c : Ctx) (s : State) : Kept s (runGetHostStatus c s).s := by
  simp [Kept, runGetHostStatus]

theorem execGetHostStatus_kept (pk : Packet) (s : State) {t : State} (h : execGetHostStatus pk s = .next t) : Kept s t := by
  simp only [execGetHostStatus, Host.Outcome.next.injEq] at h
  subst h
  simp [Kept]

@[simp] theorem runGetClientStatus_kept (c : Ctx) (s : State) : Kept s (runGetClientStatus c s).s := by
  simp [Kept, runGetClientStatus]

theorem execGetClientStatus_kept (pk : Packet) (s : State) {t : State} (h : execGetClientStatus pk s = .next t) : Kept s t := by
  simp only [execGetClientStatus, Host.Outcome.next.injEq] at h
  subst h
  simp [Kept]

theorem execLaneForegroundAdaptDone_kept (lane : ℕ) (values : List (List ℤ)) (s : State) {t : State} (h : execLaneForegroundAdaptDone lane values s = .next t) : Kept s t := by
  simp only [execLaneForegroundAdaptDone, Host.Outcome.next.injEq] at h
  subst h
  simp [Kept]

theorem execLaneAdaptWindow_kept (lane : ℕ) (obs : LaneObs) (s : State) {t : State} (h : execLaneAdaptWindow lane obs s = .next t) : Kept s t := by
  simp only [execLaneAdaptWindow, Host.Outcome.next.injEq] at h
  subst h
  simp [Kept]

theorem execLaneAdaptApply_kept (lane : ℕ) (s : State) {t : State} (h : execLaneAdaptApply lane s = .next t) : Kept s t := by
  simp only [execLaneAdaptApply, Host.Outcome.next.injEq] at h
  subst h
  simp [Kept]

theorem execHostDefect_kept (scope : HostScope) (declared : ℕ) (indications : ℕ) (s : State) {t : State} (h : execHostDefect scope declared indications s = .next t) : Kept s t := by
  simp only [execHostDefect, Host.Outcome.next.injEq] at h
  subst h
  unfold Kept
  (repeat' split) <;> simp

@[simp] theorem countCodeword_kept (phy : ℕ) (corrected : Option ℕ) (s : State) : Kept s (countCodeword phy corrected s) := by
  unfold Kept countCodeword
  (repeat' split) <;> simp (disch := (intros; (repeat' split) <;> simp [Kept]))

theorem execRsFecCodeword_kept (phy : ℕ) (received : List (List ℕ)) (s : State) {t : State}
    (h : execRsFecCodeword phy received s = .next t) : Kept s t := by
  simp only [execRsFecCodeword, Host.Outcome.next.injEq] at h
  subst h
  split
  · exact Kept.refl s
  · refine Kept.trans ?_ (foldl_kept _ (fun _ _ => takeStream_kept _ _ _) _ _)
    exact Kept.trans (countCodeword_kept _ _ s) (phyUpd_kept _ _ _)

@[simp] theorem takePeerCal_kept (g : ℕ) (letter : Bool) (cal : List ℕ) (s : State) : Kept s (takePeerCal g letter cal s) := by
  simp [Kept, takePeerCal]

@[simp] theorem takePeerCr_kept (g : ℕ) (oh : FlexeOh) (s : State) : Kept s (takePeerCr g oh s) := by
  simp [Kept, takePeerCr]

theorem execFlexeOverheadFrameRx_kept (phy : ℕ) (oh : FlexeOh) (s : State) {t : State} (h : execFlexeOverheadFrameRx phy oh s = .next t) : Kept s t := by
  simp only [execFlexeOverheadFrameRx, Host.Outcome.next.injEq] at h
  subst h
  unfold Kept
  (repeat' split) <;> simp

theorem execFlexeMultiframeBoundary_kept (group : ℕ) (s : State) {t : State} (h : execFlexeMultiframeBoundary group s = .next t) : Kept s t := by
  simp only [execFlexeMultiframeBoundary, Host.Outcome.next.injEq] at h
  subst h
  unfold Kept
  (repeat' split) <;> simp

theorem execFlexeCaTimeout_kept (group : ℕ) (s : State) {t : State} (h : execFlexeCaTimeout group s = .next t) : Kept s t := by
  simp only [execFlexeCaTimeout, Host.Outcome.next.injEq] at h
  subst h
  unfold Kept
  (repeat' split) <;> simp

end Sys2Proof.Machine
end

