-- ==== Sys2Proof/Laws/KeptTurret.lean ====
section
/-! SUPPORT. What the definitions of Machine/Turret.lean keep: the queue of waiting commands and the held line plan. -/

namespace Sys2Proof.Machine

@[simp] theorem loadReg_kept (t : ℕ) (target : ℕ) (k1 : List Byte) (saltTx : ℕ) (saltRx : ℕ) (keyId : ℕ) (s : State) : Kept s (loadReg t target k1 saltTx saltRx keyId s) := by
  simp [Kept, loadReg]

@[simp] theorem runEstablishKek_kept (c : Ctx) (s : State) : Kept s (runEstablishKek c s).s := by
  simp [Kept, runEstablishKek]

theorem execEstablishKek_kept (pk : Packet) (s : State) {t : State} (h : execEstablishKek pk s = .next t) : Kept s t := by
  simp only [execEstablishKek, Host.Outcome.next.injEq] at h
  subst h
  simp [Kept]

@[simp] theorem runLoadKey_kept (c : Ctx) (s : State) : Kept s (runLoadKey c s).s := by
  simp [Kept, runLoadKey]

theorem execLoadKey_kept (pk : Packet) (s : State) {t : State} (h : execLoadKey pk s = .next t) : Kept s t := by
  simp only [execLoadKey, Host.Outcome.next.injEq] at h
  subst h
  simp [Kept]

@[simp] theorem runGenerateKey_kept (c : Ctx) (s : State) : Kept s (runGenerateKey c s).s := by
  simp [Kept, runGenerateKey]

theorem execGenerateKey_kept (pk : Packet) (s : State) {t : State} (h : execGenerateKey pk s = .next t) : Kept s t := by
  simp only [execGenerateKey, Host.Outcome.next.injEq] at h
  subst h
  simp [Kept]

@[simp] theorem runRotateKey_kept (c : Ctx) (s : State) : Kept s (runRotateKey c s).s := by
  simp [Kept, runRotateKey]

theorem execRotateKey_kept (pk : Packet) (s : State) {t : State} (h : execRotateKey pk s = .next t) : Kept s t := by
  simp only [execRotateKey, Host.Outcome.next.injEq] at h
  subst h
  simp [Kept]

@[simp] theorem runEraseKey_kept (c : Ctx) (s : State) : Kept s (runEraseKey c s).s := by
  simp [Kept, runEraseKey]

theorem execEraseKey_kept (pk : Packet) (s : State) {t : State} (h : execEraseKey pk s = .next t) : Kept s t := by
  simp only [execEraseKey, Host.Outcome.next.injEq] at h
  subst h
  simp [Kept]

@[simp] theorem runSetTenantCipher_kept (c : Ctx) (s : State) : Kept s (runSetTenantCipher c s).s := by
  simp [Kept, runSetTenantCipher]

theorem execSetTenantCipher_kept (pk : Packet) (s : State) {t : State} (h : execSetTenantCipher pk s = .next t) : Kept s t := by
  simp only [execSetTenantCipher, Host.Outcome.next.injEq] at h
  subst h
  simp [Kept]

@[simp] theorem runGetKeyStatus_kept (c : Ctx) (s : State) : Kept s (runGetKeyStatus c s).s := by
  simp [Kept, runGetKeyStatus]

theorem execGetKeyStatus_kept (pk : Packet) (s : State) {t : State} (h : execGetKeyStatus pk s = .next t) : Kept s t := by
  simp only [execGetKeyStatus, Host.Outcome.next.injEq] at h
  subst h
  simp [Kept]

@[simp] theorem runGetTurretStatus_kept (x0 : Ctx) (s : State) : Kept s (runGetTurretStatus x0 s).s := by
  simp [Kept, runGetTurretStatus]

theorem execGetTurretStatus_kept (pk : Packet) (s : State) {t : State} (h : execGetTurretStatus pk s = .next t) : Kept s t := by
  simp only [execGetTurretStatus, Host.Outcome.next.injEq] at h
  subst h
  simp [Kept]

@[simp] theorem noteLife_kept (t : ℕ) (i : ℕ) (s : State) : Kept s (noteLife t i s) := by
  simp [Kept, noteLife]

theorem execFramerCipherRequest_kept (tenant : ℕ) (transmit : Bool) (served : Bool) (s : State) {t : State} (h : execFramerCipherRequest tenant transmit served s = .next t) : Kept s t := by
  simp only [execFramerCipherRequest, Host.Outcome.next.injEq] at h
  subst h
  simp [Kept]

theorem execPipeFenced_kept (pipe : ℕ) (s : State) {t : State} (h : execPipeFenced pipe s = .next t) : Kept s t := by
  simp only [execPipeFenced, Host.Outcome.next.injEq] at h
  subst h
  simp [Kept]

theorem execKeepEccError_kept (slot : ℕ) (reg : ℕ) (kind : EccKind) (s : State) {t : State} (h : execKeepEccError slot reg kind s = .next t) : Kept s t := by
  simp only [execKeepEccError, Host.Outcome.next.injEq] at h
  subst h
  unfold Kept
  (repeat' split) <;> simp

@[simp] theorem flipKey_kept (r : Rotation) (tenant : ℕ) (fc : ℕ) (s : State) : Kept s (flipKey r tenant fc s) := by
  simp [Kept, flipKey]

theorem execKeyRotated_kept (tenant : ℕ) (fc : ℕ) (s : State) {t : State} (h : execKeyRotated tenant fc s = .next t) : Kept s t := by
  simp only [execKeyRotated, Host.Outcome.next.injEq] at h
  subst h
  unfold Kept
  (repeat' split) <;> simp

theorem execKekEstablished_kept (s : State) {t : State} (h : execKekEstablished s = .next t) : Kept s t := by
  simp only [execKekEstablished, Host.Outcome.next.injEq] at h
  subst h
  unfold Kept
  (repeat' split) <;> simp

theorem execKeyGenerated_kept (tenant : ℕ) (s : State) {t : State} (h : execKeyGenerated tenant s = .next t) : Kept s t := by
  simp only [execKeyGenerated, Host.Outcome.next.injEq] at h
  subst h
  unfold Kept
  (repeat' split) <;> simp

theorem execEntropyTimeout_kept (s : State) {t : State} (h : execEntropyTimeout s = .next t) : Kept s t := by
  simp only [execEntropyTimeout, Host.Outcome.next.injEq] at h
  subst h
  unfold Kept
  (repeat' split) <;> simp

theorem execTrngHealthFail_kept (samples : List Bool) (s0 : State) {t : State} (h : execTrngHealthFail samples s0 = .next t) : Kept s0 t := by
  simp only [execTrngHealthFail, Host.Outcome.next.injEq] at h
  subst h
  simp [Kept]

theorem execTrngRetest_kept (samples : List Bool) (s : State) {t : State} (h : execTrngRetest samples s = .next t) : Kept s t := by
  simp only [execTrngRetest, Host.Outcome.next.injEq] at h
  subst h
  unfold Kept
  (repeat' split) <;> simp

@[simp] theorem rekeyMask_kept (s0 : State) : Kept s0 (rekeyMask s0) := by
  simp [Kept, rekeyMask]

theorem execMaskRekey_kept (s : State) {t : State} (h : execMaskRekey s = .next t) : Kept s t := by
  simp only [execMaskRekey, Host.Outcome.next.injEq] at h
  subst h
  simp [Kept]

end Sys2Proof.Machine
end

