-- ==== Sys2Proof/Laws/KeptMemory.lean ====
section
/-! SUPPORT. What the definitions of Machine/Memory.lean keep: the queue of waiting commands and the held line plan. -/

namespace Sys2Proof.Machine

@[simp] theorem runSetMemoryConfig_kept (c : Ctx) (s : State) : Kept s (runSetMemoryConfig c s).s := by
  simp [Kept, runSetMemoryConfig]

theorem execSetMemoryConfig_kept (pk : Packet) (s : State) {t : State} (h : execSetMemoryConfig pk s = .next t) : Kept s t := by
  simp only [execSetMemoryConfig, Host.Outcome.next.injEq] at h
  subst h
  simp [Kept]

@[simp] theorem scrubUpd_kept (t : ℕ) (f : Scrub → Scrub) (s : State) : Kept s (scrubUpd t f s) := by
  simp [Kept, scrubUpd]

@[simp] theorem runGetMemoryStatus_kept (c : Ctx) (s : State) : Kept s (runGetMemoryStatus c s).s := by
  simp [Kept, runGetMemoryStatus]

theorem execGetMemoryStatus_kept (pk : Packet) (s : State) {t : State} (h : execGetMemoryStatus pk s = .next t) : Kept s t := by
  simp only [execGetMemoryStatus, Host.Outcome.next.injEq] at h
  subst h
  simp [Kept]

@[simp] theorem runGetCeLog_kept (c : Ctx) (s : State) : Kept s (runGetCeLog c s).s := by
  simp [Kept, runGetCeLog]

theorem execGetCeLog_kept (pk : Packet) (s : State) {t : State} (h : execGetCeLog pk s = .next t) : Kept s t := by
  simp only [execGetCeLog, Host.Outcome.next.injEq] at h
  subst h
  simp [Kept]

@[simp] theorem runSetRemap_kept (c : Ctx) (s : State) : Kept s (runSetRemap c s).s := by
  simp only [Kept, runSetRemap]
  (repeat' split) <;> simp

theorem execSetRemap_kept (pk : Packet) (s : State) {t : State} (h : execSetRemap pk s = .next t) : Kept s t := by
  simp only [execSetRemap, Host.Outcome.next.injEq] at h
  subst h
  simp [Kept]

@[simp] theorem runRepairRow_kept (c : Ctx) (s : State) : Kept s (runRepairRow c s).s := by
  simp [Kept, runRepairRow]

theorem execRepairRow_kept (pk : Packet) (s : State) {t : State} (h : execRepairRow pk s = .next t) : Kept s t := by
  simp only [execRepairRow, Host.Outcome.next.injEq] at h
  subst h
  simp [Kept]

theorem execRowRepairDone_kept (failed : List ℕ) (s : State) {t : State} (h : execRowRepairDone failed s = .next t) : Kept s t := by
  simp only [execRowRepairDone, Host.Outcome.next.injEq] at h
  subst h
  split
  · exact Kept.refl s
  · refine Kept.trans ?_ (complete_kept _ _ _ _)
    refine Kept.trans ?_ (foldl_kept _ (fun t i => remapLine_kept _ _ _ t) _ _)
    refine Kept.trans ?_ (foldl_kept _ (fun t i => releaseLine_kept _ _ t) _ _)
    exact ⟨rfl, rfl, rfl, rfl⟩

@[simp] theorem frameSectorLost_kept (sector : ℕ) (s : State) : Kept s (frameSectorLost sector s) := by
  simp [Kept, frameSectorLost]

theorem execDomeCipherRequest_kept (sector : ℕ) (write : Bool) (data : List Byte) (s : State) {t : State} (h : execDomeCipherRequest sector write data s = .next t) : Kept s t := by
  simp only [execDomeCipherRequest, Host.Outcome.next.injEq] at h
  subst h
  simp [Kept]

theorem execDomeSectorTimeout_kept (sector : ℕ) (s : State) {t : State} (h : execDomeSectorTimeout sector s = .next t) : Kept s t := by
  simp only [execDomeSectorTimeout, Host.Outcome.next.injEq] at h
  subst h
  split
  · exact Kept.refl s
  · exact Kept.trans ⟨rfl, rfl, rfl, rfl⟩ (frameSectorLost_kept sector _)

theorem execDomeLineOperation_kept (stack : ℕ) (addr : ℕ) (op : LineOp) (s : State) {t : State} (h : execDomeLineOperation stack addr op s = .next t) : Kept s t := by
  simp only [execDomeLineOperation, Host.Outcome.next.injEq] at h
  subst h
  unfold Kept
  (repeat' split) <;> simp

theorem execDomeRefresh_kept (stack : ℕ) (hot : Bool) (s : State) {t : State} (h : execDomeRefresh stack hot s = .next t) : Kept s t := by
  simp only [execDomeRefresh, Host.Outcome.next.injEq] at h
  subst h
  simp [Kept]

theorem execDomeStackReady_kept (stack : ℕ) (failing : List ℕ) (s : State) {t : State} (h : execDomeStackReady stack failing s = .next t) : Kept s t := by
  simp only [execDomeStackReady, Host.Outcome.next.injEq] at h
  subst h
  simp [Kept]

theorem execScrubPassStart_kept (target : ℕ) (s : State) {t : State} (h : execScrubPassStart target s = .next t) : Kept s t := by
  simp only [execScrubPassStart, Host.Outcome.next.injEq] at h
  subst h
  unfold Kept
  (repeat' split) <;> simp

theorem execScrubLate_kept (target : ℕ) (s : State) {t : State} (h : execScrubLate target s = .next t) : Kept s t := by
  simp only [execScrubLate, Host.Outcome.next.injEq] at h
  subst h
  unfold Kept
  (repeat' split) <;> simp

@[simp] theorem scrubStep_kept (target : ℕ) (addr : ℕ) (s : State) : Kept s (scrubStep target addr s) := by
  simp [Kept, scrubStep]

@[simp] theorem visitLine_kept (stack : ℕ) (addr : ℕ) (fixed : Bool) (s : State) : Kept s (visitLine stack addr fixed s) := by
  unfold Kept visitLine
  (repeat' split) <;> simp

@[simp] theorem visitWord_kept (r : ℕ) (word : ℕ) (n : ℕ) (s : State) : Kept s (visitWord r word n s) := by
  simp [Kept, visitWord]

theorem execScrubVisit_kept (target : ℕ) (addr : ℕ) (flips : List (ℕ × Byte)) (s : State) {t : State} (h : execScrubVisit target addr flips s = .next t) : Kept s t := by
  simp only [execScrubVisit, Host.Outcome.next.injEq] at h
  subst h
  simp [Kept]

@[simp] theorem reloadModel_kept (s : State) : Kept s (reloadModel s) := by
  unfold Kept reloadModel
  (repeat' split) <;> simp

@[simp] theorem loseTenantWord_kept (s : State) (t : ℕ) : Kept s (loseTenantWord s t) := by
  simp [Kept, loseTenantWord]

@[simp] theorem sramLoss_kept (region : ℕ) (use : SramUse) (s : State) : Kept s (sramLoss region use s) := by
  cases use <;> simp [Kept, sramLoss]

theorem execSramUncorrectable_kept (region : ℕ) (word : ℕ) (use : SramUse) (s : State) {t : State} (h : execSramUncorrectable region word use s = .next t) : Kept s t := by
  simp only [execSramUncorrectable, Host.Outcome.next.injEq] at h
  subst h
  simp [Kept]

end Sys2Proof.Machine
end

