-- ==== Sys2Proof/Laws/KeptPcie.lean ====
section
/-! SUPPORT. What the definitions of Machine/Pcie.lean keep: the queue of waiting commands and the held line plan. -/

namespace Sys2Proof.Machine

@[simp] theorem cfgRead_kept (off : ℕ) (s : State) : Kept s (cfgRead off s).2 := by
  unfold Kept cfgRead
  (repeat' split) <;> simp

theorem execConfigRequest_kept (w : CfgAccess) (s : State) {t : State} (h : execConfigRequest w s = .next t) : Kept s t := by
  simp only [execConfigRequest, Host.Outcome.next.injEq] at h
  subst h
  unfold Kept
  (repeat' split) <;> simp

theorem execFunctionLevelReset_kept (s : State) {t : State} (h : execFunctionLevelReset s = .next t) : Kept s t := by
  simp only [execFunctionLevelReset, Host.Outcome.next.injEq] at h
  subst h
  simp [Kept]

theorem execPerstNAssert_kept (s : State) {t : State} (h : execPerstNAssert s = .next t) : Kept s t := by
  simp only [execPerstNAssert, Host.Outcome.next.injEq] at h
  subst h
  simp [Kept]

theorem execPerstNDeassert_kept (s : State) {t : State} (h : execPerstNDeassert s = .next t) : Kept s t := by
  simp only [execPerstNDeassert, Host.Outcome.next.injEq] at h
  subst h
  simp [Kept]

theorem execPcieLink_kept (speed : ℕ) (width : ℕ) (s : State) {t : State} (h : execPcieLink speed width s = .next t) : Kept s t := by
  simp only [execPcieLink, Host.Outcome.next.injEq] at h
  subst h
  simp [Kept]

theorem execQrspSizeWrite_kept (q : QueueId) (value : BitVec 32) (s : State) {t : State} (h : execQrspSizeWrite q value s = .next t) : Kept s t := by
  simp only [execQrspSizeWrite, Host.Outcome.next.injEq] at h
  subst h
  unfold Kept
  (repeat' split) <;> simp

theorem execQrspHeadWrite_kept (q : QueueId) (value : BitVec 32) (s : State) {t : State} (h : execQrspHeadWrite q value s = .next t) : Kept s t := by
  simp only [execQrspHeadWrite, Host.Outcome.next.injEq] at h
  subst h
  unfold Kept
  (repeat' split) <;> simp

theorem execEvtSizeWrite_kept (value : BitVec 32) (s : State) {t : State} (h : execEvtSizeWrite value s = .next t) : Kept s t := by
  simp only [execEvtSizeWrite, Host.Outcome.next.injEq] at h
  subst h
  simp [Kept]

theorem execEvtHeadWrite_kept (value : BitVec 32) (s : State) {t : State} (h : execEvtHeadWrite value s = .next t) : Kept s t := by
  simp only [execEvtHeadWrite, Host.Outcome.next.injEq] at h
  subst h
  simp [Kept]

theorem execEvtLostRead_kept (s : State) {t : State} (h : execEvtLostRead s = .next t) : Kept s t := by
  simp only [execEvtLostRead, Host.Outcome.next.injEq] at h
  subst h
  simp [Kept]

theorem execMsixUnmask_kept (vector : ℕ) (s : State) {t : State} (h : execMsixUnmask vector s = .next t) : Kept s t := by
  simp only [execMsixUnmask, Host.Outcome.next.injEq] at h
  subst h
  simp [Kept]

theorem execDmaDoorbell_kept (ch : ℕ) (host : List Host.Cell) (err : Bool) (s : State) {t : State} (h : execDmaDoorbell ch host err s = .next t) : Kept s t := by
  simp only [execDmaDoorbell, Host.Outcome.next.injEq] at h
  subst h
  simp [Kept]

theorem execDmaAbort_kept (ch : ℕ) (s : State) {t : State} (h : execDmaAbort ch s = .next t) : Kept s t := by
  simp only [execDmaAbort, Host.Outcome.next.injEq] at h
  subst h
  simp [Kept]

theorem execDmaCplHeadWrite_kept (ch : ℕ) (value : BitVec 32) (s : State) {t : State} (h : execDmaCplHeadWrite ch value s = .next t) : Kept s t := by
  simp only [execDmaCplHeadWrite, Host.Outcome.next.injEq] at h
  subst h
  simp [Kept]

theorem execCntSnapshot_kept (value : BitVec 32) (s : State) {t : State} (h : execCntSnapshot value s = .next t) : Kept s t := by
  simp only [execCntSnapshot, Host.Outcome.next.injEq] at h
  subst h
  simp [Kept]

theorem execCntOvfClear_kept (idx : ℕ) (value : BitVec 32) (s : State) {t : State} (h : execCntOvfClear idx value s = .next t) : Kept s t := by
  simp only [execCntOvfClear, Host.Outcome.next.injEq] at h
  subst h
  simp [Kept]

theorem execBwPeakRead_kept (port : ℕ) (out : Bool) (wide : Bool) (s0 : State) {t : State} (h : execBwPeakRead port out wide s0 = .next t) : Kept s0 t := by
  simp only [execBwPeakRead, Host.Outcome.next.injEq] at h
  subst h
  simp [Kept]

@[simp] theorem readBar2_kept (off : ℕ) (wide : Bool) (s0 : State) : Kept s0 (readBar2 off wide s0) := by
  simp [Kept, readBar2]

theorem execCounterLowRead_kept (bar2 : Bool) (offset : ℕ) (s : State) {t : State} (h : execCounterLowRead bar2 offset s = .next t) : Kept s t := by
  simp only [execCounterLowRead, Host.Outcome.next.injEq] at h
  subst h
  simp [Kept]

theorem execViolationClear_kept (value : BitVec 32) (s : State) {t : State} (h : execViolationClear value s = .next t) : Kept s t := by
  simp only [execViolationClear, Host.Outcome.next.injEq] at h
  subst h
  simp [Kept]

theorem execBar2CounterRead_kept (offset : ℕ) (wide : Bool) (s : State) {t : State} (h : execBar2CounterRead offset wide s = .next t) : Kept s t := by
  simp only [execBar2CounterRead, Host.Outcome.next.injEq] at h
  subst h
  simp [Kept]

theorem execViolation_kept (acc : Access) (s : State) {t : State} (h : execViolation acc s = .next t) : Kept s t := by
  simp only [execViolation, Host.Outcome.next.injEq] at h
  subst h
  simp [Kept]

theorem execRegisterWrite_kept (offset : ℕ) (value : BitVec 32) (s : State) {t : State} (h : execRegisterWrite offset value s = .next t) : Kept s t := by
  simp only [execRegisterWrite, Host.Outcome.next.injEq] at h
  subst h
  simp [Kept]

theorem execEventRingWrite_kept (s : State) {t : State} (h : execEventRingWrite s = .next t) : Kept s t := by
  simp only [execEventRingWrite, Host.Outcome.next.injEq] at h
  subst h
  simp [Kept]

theorem execCounterWrap_kept (idx : ℕ) (n : ℕ) (s : State) {t : State} (h : execCounterWrap idx n s = .next t) : Kept s t := by
  simp only [execCounterWrap, Host.Outcome.next.injEq] at h
  subst h
  simp [Kept]

theorem execBwWindowEnd_kept (port : ℕ) (s : State) {t : State} (h : execBwWindowEnd port s = .next t) : Kept s t := by
  simp only [execBwWindowEnd, Host.Outcome.next.injEq] at h
  subst h
  unfold Kept
  (repeat' split) <;> simp

@[simp] theorem runSetCounter_kept (c : Ctx) (s : State) : Kept s (runSetCounter c s).s := by
  simp [Kept, runSetCounter]

theorem execSetCounter_kept (pk : Packet) (s : State) {t : State} (h : execSetCounter pk s = .next t) : Kept s t := by
  simp only [execSetCounter, Host.Outcome.next.injEq] at h
  subst h
  simp [Kept]

@[simp] theorem runGrantCounters_kept (c : Ctx) (s : State) : Kept s (runGrantCounters c s).s := by
  simp [Kept, runGrantCounters]

theorem execGrantCounters_kept (pk : Packet) (s : State) {t : State} (h : execGrantCounters pk s = .next t) : Kept s t := by
  simp only [execGrantCounters, Host.Outcome.next.injEq] at h
  subst h
  simp [Kept]

@[simp] theorem runSetBwWindow_kept (c : Ctx) (s : State) : Kept s (runSetBwWindow c s).s := by
  simp [Kept, runSetBwWindow]

theorem execSetBwWindow_kept (pk : Packet) (s : State) {t : State} (h : execSetBwWindow pk s = .next t) : Kept s t := by
  simp only [execSetBwWindow, Host.Outcome.next.injEq] at h
  subst h
  simp [Kept]

@[simp] theorem runReadCounters_kept (c : Ctx) (s : State) : Kept s (runReadCounters c s).s := by
  simp [Kept, runReadCounters]

theorem execReadCounters_kept (pk : Packet) (s : State) {t : State} (h : execReadCounters pk s = .next t) : Kept s t := by
  simp only [execReadCounters, Host.Outcome.next.injEq] at h
  subst h
  simp [Kept]

@[simp] theorem linkErrors_kept (s : State) : Kept s (linkErrors s) := by
  simp [Kept, linkErrors]

@[simp] theorem runGetPcieStatus_kept (x0 : Ctx) (s0 : State) : Kept s0 (runGetPcieStatus x0 s0).s := by
  simp [Kept, runGetPcieStatus]

theorem execGetPcieStatus_kept (pk : Packet) (s : State) {t : State} (h : execGetPcieStatus pk s = .next t) : Kept s t := by
  simp only [execGetPcieStatus, Host.Outcome.next.injEq] at h
  subst h
  simp [Kept]

end Sys2Proof.Machine
end

