-- ==== Sys2Proof/Laws/KeptPm.lean ====
section
/-! SUPPORT. What the definitions of Machine/Pm.lean keep: the queue of waiting commands and the held line plan. -/

namespace Sys2Proof.Machine

@[simp] theorem endSecond_kept (lq : Pair (Option LqSecond)) (t : ℕ) (s : State) (e : ℕ) : Kept s (endSecond lq t s e) := by
  simp [Kept, endSecond]

@[simp] theorem applyDayOffset_kept (endAt : ℕ) (s : State) : Kept s (applyDayOffset endAt s) := by
  simp [Kept, applyDayOffset]

@[simp] theorem endFecSecond_kept (c : Carrier) (s : State) : Kept s (endFecSecond c s) := by
  simp [Kept, endFecSecond]

@[simp] theorem frozenSecond_kept (t : ℕ) (s : State) : Kept s (frozenSecond t s) := by
  simp only [frozenSecond]
  have k : Kept s (endFecSecond .b (endFecSecond .a s)) := Kept.trans (endFecSecond_kept _ s) (endFecSecond_kept _ _)
  refine Kept.trans k ?_
  generalize endFecSecond .b (endFecSecond .a s) = u
  split
  · simp [Kept]
  · split
    · exact Kept.trans (by simp [Kept]) (foldl_kept _ (fun _ _ => pmUpd_kept _ _ _) _ _)
    · simp [Kept]

@[simp] theorem countedSecond_kept (t : ℕ) (ax : ℕ) (ay : ℕ) (bx : ℕ) (byy : ℕ) (s : State) : Kept s (countedSecond t ax ay bx byy s) := by
  simp [Kept, countedSecond]

/-- A second ends at its own end: the decoders' second, and the counts of a running or a frozen second. -/
theorem execPmSecondEnd_cases {ax ay bx byy : ℕ} {s t : State} (h : execPmSecondEnd ax ay bx byy s = .next t) :
    ∃ u, u = advanceTod ((s.pm.curSec + 1) * secNs) s ∧
      t = if !domOn s 2 then endFecSecond .b (endFecSecond .a { u with pm := { u.pm with curSec := s.pm.curSec + 1 } })
        else if u.pm.frozen then frozenSecond s.pm.curSec u else countedSecond s.pm.curSec ax ay bx byy u := by
  simp only [execPmSecondEnd, Host.Outcome.next.injEq] at h
  exact ⟨_, rfl, h.symm⟩

theorem execPmSecondEnd_kept (ax : ℕ) (ay : ℕ) (bx : ℕ) (byy : ℕ) (s : State) {t : State}
    (h : execPmSecondEnd ax ay bx byy s = .next t) : Kept s t := by
  obtain ⟨u, hu, rfl⟩ := execPmSecondEnd_cases h
  have a : Kept s u := by rw [hu]; exact advanceTod_kept _ _
  have b : Kept u { u with pm := { u.pm with curSec := s.pm.curSec + 1 } } := ⟨rfl, rfl, rfl, rfl⟩
  split
  · exact a.trans ((b.trans (endFecSecond_kept _ _)).trans (endFecSecond_kept _ _))
  · split
    · exact a.trans (frozenSecond_kept _ _)
    · exact a.trans (countedSecond_kept _ _ _ _ _ _)

theorem execPmSecondSettle_kept (s : State) {t : State} (h : execPmSecondSettle s = .next t) : Kept s t := by
  simp only [execPmSecondSettle, Host.Outcome.next.injEq] at h
  subst h
  unfold Kept
  (repeat' split) <;> simp (disch := (intros; (repeat' split) <;> simp [Kept]))

theorem execPmBinClose_kept (s : State) {t : State} (h : execPmBinClose s = .next t) : Kept s t := by
  simp only [execPmBinClose, Host.Outcome.next.injEq] at h
  subst h
  unfold Kept
  (repeat' split) <;> simp (disch := (intros; (repeat' split) <;> simp [Kept]))

@[simp] theorem runSetPmConfig_kept (c : Ctx) (s : State) : Kept s (runSetPmConfig c s).s := by
  simp [Kept, runSetPmConfig]

theorem execSetPmConfig_kept (pk : Packet) (s : State) {t : State} (h : execSetPmConfig pk s = .next t) : Kept s t := by
  simp only [execSetPmConfig, Host.Outcome.next.injEq] at h
  subst h
  simp [Kept]

@[simp] theorem runSetPmThresholds_kept (c : Ctx) (s : State) : Kept s (runSetPmThresholds c s).s := by
  simp [Kept, runSetPmThresholds]

theorem execSetPmThresholds_kept (pk : Packet) (s : State) {t : State} (h : execSetPmThresholds pk s = .next t) : Kept s t := by
  simp only [execSetPmThresholds, Host.Outcome.next.injEq] at h
  subst h
  simp [Kept]

@[simp] theorem runSetPmProfile_kept (c : Ctx) (s : State) : Kept s (runSetPmProfile c s).s := by
  simp only [Kept, runSetPmProfile]
  (repeat' split) <;> simp

theorem execSetPmProfile_kept (pk : Packet) (s : State) {t : State} (h : execSetPmProfile pk s = .next t) : Kept s t := by
  simp only [execSetPmProfile, Host.Outcome.next.injEq] at h
  subst h
  simp [Kept]

@[simp] theorem runGetPmCurrent_kept (c : Ctx) (s : State) : Kept s (runGetPmCurrent c s).s := by
  simp only [Kept, runGetPmCurrent]
  (repeat' split) <;> simp

theorem execGetPmCurrent_kept (pk : Packet) (s : State) {t : State} (h : execGetPmCurrent pk s = .next t) : Kept s t := by
  simp only [execGetPmCurrent, Host.Outcome.next.injEq] at h
  subst h
  simp [Kept]

@[simp] theorem runGetPmHistory_kept (c : Ctx) (s : State) : Kept s (runGetPmHistory c s).s := by
  simp only [Kept, runGetPmHistory]
  (repeat' split) <;> simp

theorem execGetPmHistory_kept (pk : Packet) (s : State) {t : State} (h : execGetPmHistory pk s = .next t) : Kept s t := by
  simp only [execGetPmHistory, Host.Outcome.next.injEq] at h
  subst h
  simp [Kept]

@[simp] theorem runGetLinkQuality_kept (c : Ctx) (s : State) : Kept s (runGetLinkQuality c s).s := by
  simp only [Kept, runGetLinkQuality]
  (repeat' split) <;> simp

theorem execGetLinkQuality_kept (pk : Packet) (s : State) {t : State} (h : execGetLinkQuality pk s = .next t) : Kept s t := by
  simp only [execGetLinkQuality, Host.Outcome.next.injEq] at h
  subst h
  simp [Kept]

end Sys2Proof.Machine
end

