-- ==== Sys2Proof/Laws/KeptRing.lean ====
section
/-! SUPPORT. What the definitions of Machine/Ring.lean keep: the queue of waiting commands and the held line plan. -/

namespace Sys2Proof.Machine

@[simp] theorem changeRole_kept (role : ℕ) (s : State) : Kept s (changeRole role s) := by
  simp [Kept, changeRole]

@[simp] theorem settlePort_kept (old : ℕ) (s : State) (p : Port) : Kept s (settlePort old s p) := by
  simp [Kept, settlePort]

@[simp] theorem runSetRingRole_kept (c : Ctx) (s : State) : Kept s (runSetRingRole c s).s := by
  simp [Kept, runSetRingRole]

theorem execSetRingRole_kept (pk : Packet) (s : State) {t : State} (h : execSetRingRole pk s = .next t) : Kept s t := by
  simp only [execSetRingRole, Host.Outcome.next.injEq] at h
  subst h
  simp [Kept]

@[simp] theorem forgetWorker_kept (w : ℕ) (s : State) : Kept s (forgetWorker w s) := by
  simp [Kept, forgetWorker]

@[simp] theorem runAssignWorker_kept (c : Ctx) (s : State) : Kept s (runAssignWorker c s).s := by
  simp [Kept, runAssignWorker]

theorem execAssignWorker_kept (pk : Packet) (s : State) {t : State} (h : execAssignWorker pk s = .next t) : Kept s t := by
  simp only [execAssignWorker, Host.Outcome.next.injEq] at h
  subst h
  simp [Kept]

@[simp] theorem runGetRingStatus_kept (x0 : Ctx) (s : State) : Kept s (runGetRingStatus x0 s).s := by
  simp [Kept, runGetRingStatus]

theorem execGetRingStatus_kept (pk : Packet) (s : State) {t : State} (h : execGetRingStatus pk s = .next t) : Kept s t := by
  simp only [execGetRingStatus, Host.Outcome.next.injEq] at h
  subst h
  simp [Kept]

@[simp] theorem runGetOutcome_kept (c : Ctx) (s : State) : Kept s (runGetOutcome c s).s := by
  simp only [Kept, runGetOutcome]
  (repeat' split) <;> simp

theorem execGetOutcome_kept (pk : Packet) (s : State) {t : State} (h : execGetOutcome pk s = .next t) : Kept s t := by
  simp only [execGetOutcome, Host.Outcome.next.injEq] at h
  subst h
  simp [Kept]

@[simp] theorem pairMember_kept (c : Ctx) (s : State) (d : ℕ) : Kept s (pairMember c s d) := by
  simp [Kept, pairMember]

@[simp] theorem runSetRingProtect_kept (c : Ctx) (s : State) : Kept s (runSetRingProtect c s).s := by
  unfold Kept runSetRingProtect
  (repeat' split) <;> simp

theorem execSetRingProtect_kept (pk : Packet) (s : State) {t : State} (h : execSetRingProtect pk s = .next t) : Kept s t := by
  simp only [execSetRingProtect, Host.Outcome.next.injEq] at h
  subst h
  simp [Kept]

@[simp] theorem runGetRingProtect_kept (c : Ctx) (s : State) : Kept s (runGetRingProtect c s).s := by
  simp [Kept, runGetRingProtect]

theorem execGetRingProtect_kept (pk : Packet) (s : State) {t : State} (h : execGetRingProtect pk s = .next t) : Kept s t := by
  simp only [execGetRingProtect, Host.Outcome.next.injEq] at h
  subst h
  simp [Kept]

theorem execRingSignalDetect_kept (p : Port) (s : State) {t : State} (h : execRingSignalDetect p s = .next t) : Kept s t := by
  simp only [execRingSignalDetect, Host.Outcome.next.injEq] at h
  subst h
  simp [Kept]

theorem execRingAlignDone_kept (p : Port) (s : State) {t : State} (h : execRingAlignDone p s = .next t) : Kept s t := by
  simp only [execRingAlignDone, Host.Outcome.next.injEq] at h
  subst h
  simp [Kept]

theorem execRingAlignTimeout_kept (p : Port) (s : State) {t : State} (h : execRingAlignTimeout p s = .next t) : Kept s t := by
  simp only [execRingAlignTimeout, Host.Outcome.next.injEq] at h
  subst h
  simp [Kept]

theorem execRingStepStart_kept (p : Port) (s : State) {t : State} (h : execRingStepStart p s = .next t) : Kept s t := by
  simp only [execRingStepStart, Host.Outcome.next.injEq] at h
  subst h
  simp [Kept]

theorem execRingStepEnd_kept (p : Port) (ok : Bool) (s : State) {t : State} (h : execRingStepEnd p ok s = .next t) : Kept s t := by
  simp only [execRingStepEnd, Host.Outcome.next.injEq] at h
  subst h
  simp [Kept]

theorem execRingLink_kept (p : Port) (codeErrors : ℕ) (s : State) {t : State} (h : execRingLink p codeErrors s = .next t) : Kept s t := by
  simp only [execRingLink, Host.Outcome.next.injEq] at h
  subst h
  simp [Kept]

@[simp] theorem countIn_kept (p : Port) (n : ℕ) (s : State) : Kept s (countIn p n s) := by
  simp [Kept, countIn]

theorem execRingMessageForward_kept (p : Port) (bytes : List Byte) (s0 : State) {t : State} (h : execRingMessageForward p bytes s0 = .next t) : Kept s0 t := by
  simp only [execRingMessageForward, Host.Outcome.next.injEq] at h
  subst h
  unfold Kept
  (repeat' split) <;> simp

@[simp] theorem otherManager_kept (id : List Byte) (s : State) : Kept s (otherManager id s) := by
  simp [Kept, otherManager]

@[simp] theorem dropUnready_kept (w : ℕ) (s : State) : Kept s (dropUnready w s) := by
  simp [Kept, dropUnready]

@[simp] theorem heardWorker_kept (p : Port) (w : ℕ) (hops : ℕ) (flags : ℕ) (s : State) : Kept s (heardWorker p w hops flags s) := by
  simp [Kept, heardWorker]

theorem execRingStatusReceive_kept (p : Port) (m : RingMsg) (s : State) {t : State} (h : execRingStatusReceive p m s = .next t) : Kept s t := by
  simp only [execRingStatusReceive, Host.Outcome.next.injEq] at h
  subst h
  simp [Kept]

theorem execManagerResume_kept (s : State) {t : State} (h : execManagerResume s = .next t) : Kept s t := by
  simp only [execManagerResume, Host.Outcome.next.injEq] at h
  subst h
  unfold Kept
  (repeat' split) <;> simp

theorem execWorkerLeft_kept (w : ℕ) (s : State) {t : State} (h : execWorkerLeft w s = .next t) : Kept s t := by
  simp only [execWorkerLeft, Host.Outcome.next.injEq] at h
  subst h
  unfold Kept
  (repeat' split) <;> simp

theorem execWorkerReachabilityTimeout_kept (w : ℕ) (p : Port) (s : State) {t : State} (h : execWorkerReachabilityTimeout w p s = .next t) : Kept s t := by
  simp only [execWorkerReachabilityTimeout, Host.Outcome.next.injEq] at h
  subst h
  simp [Kept]

@[simp] theorem takeEpoch_kept (e : ℕ) (s : State) : Kept s (takeEpoch e s) := by
  simp [Kept, takeEpoch]

theorem execRosterReceive_kept (m : RingMsg) (s : State) {t : State} (h : execRosterReceive m s = .next t) : Kept s t := by
  simp only [execRosterReceive, Host.Outcome.next.injEq] at h
  subst h
  simp [Kept]

theorem execNegReceive_kept (p : Port) (ceil : ℕ) (s0 : State) {t : State} (h : execNegReceive p ceil s0 = .next t) : Kept s0 t := by
  simp only [execNegReceive, Host.Outcome.next.injEq] at h
  subst h
  simp [Kept]

theorem execStatusSend_kept (s : State) {t : State} (h : execStatusSend s = .next t) : Kept s t := by
  simp only [execStatusSend, Host.Outcome.next.injEq] at h
  subst h
  simp [Kept]

theorem execRosterSend_kept (s : State) {t : State} (h : execRosterSend s = .next t) : Kept s t := by
  simp only [execRosterSend, Host.Outcome.next.injEq] at h
  subst h
  simp [Kept]

theorem execDelayExchange_kept (p : Port) (t1 : ℕ) (s : State) {t : State} (h : execDelayExchange p t1 s = .next t) : Kept s t := by
  simp only [execDelayExchange, Host.Outcome.next.injEq] at h
  subst h
  simp [Kept]

theorem execDelayReqReceive_kept (p : Port) (t2 : ℕ) (t3 : ℕ) (s : State) {t : State} (h : execDelayReqReceive p t2 t3 s = .next t) : Kept s t := by
  simp only [execDelayReqReceive, Host.Outcome.next.injEq] at h
  subst h
  simp [Kept]

theorem execDelayRespReceive_kept (p : Port) (t2 : ℕ) (t3 : ℕ) (t4 : ℕ) (s0 : State) {t : State} (h : execDelayRespReceive p t2 t3 t4 s0 = .next t) : Kept s0 t := by
  simp only [execDelayRespReceive, Host.Outcome.next.injEq] at h
  subst h
  unfold Kept
  (repeat' split) <;> simp

theorem execTimingSend_kept (s : State) {t : State} (h : execTimingSend s = .next t) : Kept s t := by
  simp only [execTimingSend, Host.Outcome.next.injEq] at h
  subst h
  simp [Kept]

@[simp] theorem chooseTimePort_kept (s : State) : Kept s (chooseTimePort s) := by
  simp [Kept, chooseTimePort]

@[simp] theorem correctTime_kept (off : ℤ) (elapsed : ℕ) (s : State) : Kept s (correctTime off elapsed s) := by
  simp [Kept, correctTime]

theorem execTimingReceive_kept (p : Port) (m : RingMsg) (rxSec : ℕ) (rxNs : ℕ) (s0 : State) {t : State} (h : execTimingReceive p m rxSec rxNs s0 = .next t) : Kept s0 t := by
  simp only [execTimingReceive, Host.Outcome.next.injEq] at h
  subst h
  simp [Kept]

@[simp] theorem sendReceipt_kept (p : Port) (m : RingMsg) (refused : Bool) (s : State) : Kept s (sendReceipt p m refused s) := by
  simp [Kept, sendReceipt]

@[simp] theorem logRequest_kept (p : Port) (m : RingMsg) (state : ℕ) (s : State) : Kept s (logRequest p m state s) := by
  simp [Kept, logRequest]

theorem execRequestReceive_kept (p : Port) (m : RingMsg) (s0 : State) {t : State} (h : execRequestReceive p m s0 = .next t) : Kept s0 t := by
  simp only [execRequestReceive, Host.Outcome.next.injEq] at h
  subst h
  unfold Kept
  (repeat' split) <;> simp

theorem execReceiptReceive_kept (p : Port) (w : ℕ) (tag : ℕ) (refused : Bool) (s0 : State) {t : State} (h : execReceiptReceive p w tag refused s0 = .next t) : Kept s0 t := by
  simp only [execReceiptReceive, Host.Outcome.next.injEq] at h
  subst h
  simp [Kept]

theorem execRelayRetry_kept (w : ℕ) (s : State) {t : State} (h : execRelayRetry w s = .next t) : Kept s t := by
  simp only [execRelayRetry, Host.Outcome.next.injEq] at h
  subst h
  unfold Kept
  (repeat' split) <;> simp

theorem execRelayUnreachableTimeout_kept (w : ℕ) (s : State) {t : State} (h : execRelayUnreachableTimeout w s = .next t) : Kept s t := by
  simp only [execRelayUnreachableTimeout, Host.Outcome.next.injEq] at h
  subst h
  unfold Kept
  (repeat' split) <;> simp (disch := (intros; (repeat' split) <;> simp [Kept]))

@[simp] theorem lateResponse_kept (w : ℕ) (tag : ℕ) (epoch : ℕ) (status : ℕ) (s : State) : Kept s (lateResponse w tag epoch status s) := by
  simp [Kept, lateResponse]

theorem execResponseReceive_kept (p : Port) (m : RingMsg) (s0 : State) {t : State} (h : execResponseReceive p m s0 = .next t) : Kept s0 t := by
  simp only [execResponseReceive, Host.Outcome.next.injEq] at h
  subst h
  unfold Kept
  (repeat' split) <;> simp

theorem execRespAckReceive_kept (p : Port) (tag : ℕ) (epoch : ℕ) (s0 : State) {t : State} (h : execRespAckReceive p tag epoch s0 = .next t) : Kept s0 t := by
  simp only [execRespAckReceive, Host.Outcome.next.injEq] at h
  subst h
  unfold Kept
  (repeat' split) <;> simp

theorem execResponseResend_kept (s : State) {t : State} (h : execResponseResend s = .next t) : Kept s t := by
  simp only [execResponseResend, Host.Outcome.next.injEq] at h
  subst h
  simp [Kept]

@[simp] theorem sendStreamAck_kept (p : Port) (w : ℕ) (type : ℕ) (seq : ℕ) (s : State) : Kept s (sendStreamAck p w type seq s) := by
  simp [Kept, sendStreamAck]

theorem execEventReceive_kept (p : Port) (m : RingMsg) (s0 : State) {t : State} (h : execEventReceive p m s0 = .next t) : Kept s0 t := by
  simp only [execEventReceive, Host.Outcome.next.injEq] at h
  subst h
  simp [Kept]

theorem execPmReceive_kept (p : Port) (m : RingMsg) (s0 : State) {t : State} (h : execPmReceive p m s0 = .next t) : Kept s0 t := by
  simp only [execPmReceive, Host.Outcome.next.injEq] at h
  subst h
  simp [Kept]

theorem execStreamAckReceive_kept (p : Port) (type : ℕ) (seq : ℕ) (s0 : State) {t : State} (h : execStreamAckReceive p type seq s0 = .next t) : Kept s0 t := by
  simp only [execStreamAckReceive, Host.Outcome.next.injEq] at h
  subst h
  simp [Kept]

theorem execStreamResend_kept (s : State) {t : State} (h : execStreamResend s = .next t) : Kept s t := by
  simp only [execStreamResend, Host.Outcome.next.injEq] at h
  subst h
  simp [Kept]

theorem execProtectReceive_kept (m : RingMsg) (s : State) {t : State} (h : execProtectReceive m s = .next t) : Kept s t := by
  simp only [execProtectReceive, Host.Outcome.next.injEq] at h
  subst h
  simp [Kept]

theorem execProtectSend_kept (pair : ℕ) (s : State) {t : State} (h : execProtectSend pair s = .next t) : Kept s t := by
  simp only [execProtectSend, Host.Outcome.next.injEq] at h
  subst h
  simp [Kept]

theorem execProtectWtrExpiry_kept (pair : ℕ) (s : State) {t : State} (h : execProtectWtrExpiry pair s = .next t) : Kept s t := by
  simp only [execProtectWtrExpiry, Host.Outcome.next.injEq] at h
  subst h
  unfold Kept
  (repeat' split) <;> simp

theorem execProtectPartner_kept (pair : ℕ) (s : State) {t : State} (h : execProtectPartner pair s = .next t) : Kept s t := by
  simp only [execProtectPartner, Host.Outcome.next.injEq] at h
  subst h
  unfold Kept
  (repeat' split) <;> simp

end Sys2Proof.Machine
end

