-- ==== Sys2Proof/Laws/KeptRxFront.lean ====
section
/-! SUPPORT. What the definitions of Machine/RxFront.lean keep: the queue of waiting commands and the held line plan. -/

namespace Sys2Proof.Machine

@[simp] theorem runSetRxFrontEnd_kept (c : Ctx) (s : State) : Kept s (runSetRxFrontEnd c s).s := by
  simp [Kept, runSetRxFrontEnd]

theorem execSetRxFrontEnd_kept (pk : Packet) (s : State) {t : State} (h : execSetRxFrontEnd pk s = .next t) : Kept s t := by
  simp only [execSetRxFrontEnd, Host.Outcome.next.injEq] at h
  subst h
  simp [Kept]

@[simp] theorem runGetRxStatus_kept (c : Ctx) (s : State) : Kept s (runGetRxStatus c s).s := by
  simp [Kept, runGetRxStatus]

theorem execGetRxStatus_kept (pk : Packet) (s : State) {t : State} (h : execGetRxStatus pk s = .next t) : Kept s t := by
  simp only [execGetRxStatus, Host.Outcome.next.injEq] at h
  subst h
  simp [Kept]

@[simp] theorem feedMonitors_kept (c : Carrier) (xs : List (List ℤ)) (s : State) : Kept s (feedMonitors c xs s) := by
  simp [Kept, feedMonitors]

theorem execAgcWindow_kept (c : Carrier) (obs : AgcObs) (s : State) {t : State} (h : execAgcWindow c obs s = .next t) : Kept s t := by
  simp only [execAgcWindow, Host.Outcome.next.injEq] at h
  subst h
  simp [Kept]

theorem execAgcSettleFail_kept (c : Carrier) (s : State) {t : State} (h : execAgcSettleFail c s = .next t) : Kept s t := by
  simp only [execAgcSettleFail, Host.Outcome.next.injEq] at h
  subst h
  simp [Kept]

theorem execAgcLimit_kept (c : Carrier) (s : State) {t : State} (h : execAgcLimit c s = .next t) : Kept s t := by
  simp only [execAgcLimit, Host.Outcome.next.injEq] at h
  subst h
  simp [Kept]

theorem execLosDeclare_kept (c : Carrier) (s : State) {t : State} (h : execLosDeclare c s = .next t) : Kept s t := by
  simp only [execLosDeclare, Host.Outcome.next.injEq] at h
  subst h
  simp [Kept]

theorem execLosClear_kept (c : Carrier) (s : State) {t : State} (h : execLosClear c s = .next t) : Kept s t := by
  simp only [execLosClear, Host.Outcome.next.injEq] at h
  subst h
  simp [Kept]

theorem execRxClipInterval_kept (c : Carrier) (adc : ℕ) (s : State) {t : State} (h : execRxClipInterval c adc s = .next t) : Kept s t := by
  simp only [execRxClipInterval, Host.Outcome.next.injEq] at h
  subst h
  unfold Kept
  (repeat' split) <;> simp

@[simp] theorem monUpd_kept (c : Carrier) (i : ℕ) (f : Mon → Mon) (s : State) : Kept s (monUpd c i f s) := by
  simp [Kept, monUpd]

@[simp] theorem runSetMonitor_kept (c : Ctx) (s : State) : Kept s (runSetMonitor c s).s := by
  simp [Kept, runSetMonitor]

theorem execSetMonitor_kept (pk : Packet) (s : State) {t : State} (h : execSetMonitor pk s = .next t) : Kept s t := by
  simp only [execSetMonitor, Host.Outcome.next.injEq] at h
  subst h
  simp [Kept]

@[simp] theorem runMonitorControl_kept (c : Ctx) (s : State) : Kept s (runMonitorControl c s).s := by
  simp [Kept, runMonitorControl]

theorem execMonitorControl_kept (pk : Packet) (s : State) {t : State} (h : execMonitorControl pk s = .next t) : Kept s t := by
  simp only [execMonitorControl, Host.Outcome.next.injEq] at h
  subst h
  simp [Kept]

@[simp] theorem monitorTime_kept (s : State) (t : ℕ) : Kept s (monitorTime s t).2 := by
  simp [Kept, monitorTime]

@[simp] theorem closeRecord_kept (c : Carrier) (ch : ℕ) (n : ℕ) (s : State) : Kept s (closeRecord c ch n s) := by
  simp [Kept, closeRecord]

theorem execMonitorRecordClose_kept (c : Carrier) (ch : ℕ) (s : State) {t : State} (h : execMonitorRecordClose c ch s = .next t) : Kept s t := by
  simp only [execMonitorRecordClose, Host.Outcome.next.injEq] at h
  subst h
  simp [Kept]

end Sys2Proof.Machine
end

