-- ==== Sys2Proof/Laws/KeptSkew.lean ====
section
/-! SUPPORT. What the definitions of Machine/Skew.lean keep: the queue of waiting commands and the held line plan. -/

namespace Sys2Proof.Machine

@[simp] theorem runSetSkewConfig_kept (c : Ctx) (s : State) : Kept s (runSetSkewConfig c s).s := by
  simp [Kept, runSetSkewConfig]

theorem execSetSkewConfig_kept (pk : Packet) (s : State) {t : State} (h : execSetSkewConfig pk s = .next t) : Kept s t := by
  simp only [execSetSkewConfig, Host.Outcome.next.injEq] at h
  subst h
  simp [Kept]

@[simp] theorem runSetMergeConfig_kept (c : Ctx) (s : State) : Kept s (runSetMergeConfig c s).s := by
  simp [Kept, runSetMergeConfig]

theorem execSetMergeConfig_kept (pk : Packet) (s : State) {t : State} (h : execSetMergeConfig pk s = .next t) : Kept s t := by
  simp only [execSetMergeConfig, Host.Outcome.next.injEq] at h
  subst h
  simp [Kept]

@[simp] theorem runGetSkewStatus_kept (c : Ctx) (s : State) : Kept s (runGetSkewStatus c s).s := by
  simp [Kept, runGetSkewStatus]

theorem execGetSkewStatus_kept (pk : Packet) (s : State) {t : State} (h : execGetSkewStatus pk s = .next t) : Kept s t := by
  simp only [execGetSkewStatus, Host.Outcome.next.injEq] at h
  subst h
  simp [Kept]

@[simp] theorem runGetMergeStatus_kept (c : Ctx) (s : State) : Kept s (runGetMergeStatus c s).s := by
  simp [Kept, runGetMergeStatus]

theorem execGetMergeStatus_kept (pk : Packet) (s : State) {t : State} (h : execGetMergeStatus pk s = .next t) : Kept s t := by
  simp only [execGetMergeStatus, Host.Outcome.next.injEq] at h
  subst h
  simp [Kept]

theorem execSkewUpdate_kept (sum : ℤ) (s0 : State) {t : State} (h : execSkewUpdate sum s0 = .next t) : Kept s0 t := by
  simp only [execSkewUpdate, Host.Outcome.next.injEq] at h
  subst h
  simp [Kept]

@[simp] theorem leaveExcess_kept (s : State) : Kept s (leaveExcess s) := by
  simp [Kept, leaveExcess]

theorem execExcessEnd_kept (s : State) {t : State} (h : execExcessEnd s = .next t) : Kept s t := by
  simp only [execExcessEnd, Host.Outcome.next.injEq] at h
  subst h
  unfold Kept
  (repeat' split) <;> simp

@[simp] theorem putSched_kept (c : Carrier) (fc : ℕ) (t : Option ℤ) (arr : Option ℤ) (s : State) : Kept s (putSched c fc t arr s) := by
  unfold Kept putSched
  (repeat' split) <;> simp

@[simp] theorem noteTarget_kept (l : List (Option ℤ × Option ℤ)) (s : State) : Kept s (noteTarget l s) := by
  simp [Kept, noteTarget]

@[simp] theorem readOwn_kept (fc : ℕ) (arrA : Option ℤ) (arrB : Option ℤ) (s : State) : Kept s (readOwn fc arrA arrB s) := by
  simp [Kept, readOwn]

@[simp] theorem gapTenants_kept (cs : List Carrier) (s : State) : Kept s (gapTenants cs s) := by
  simp [Kept, gapTenants]

@[simp] theorem readJoint_kept (fc : ℕ) (arrA : Option ℤ) (arrB : Option ℤ) (s : State) : Kept s (readJoint fc arrA arrB s) := by
  unfold Kept readJoint
  (repeat' split) <;> simp

@[simp] theorem readRamp_kept (fc : ℕ) (arrA : Option ℤ) (arrB : Option ℤ) (s : State) : Kept s (readRamp fc arrA arrB s) := by
  simp only [Kept, readRamp]
  (repeat' split) <;> simp

@[simp] theorem readExcess_kept (fc : ℕ) (arrA : Option ℤ) (arrB : Option ℤ) (s : State) : Kept s (readExcess fc arrA arrB s) := by
  unfold Kept readExcess
  (repeat' split) <;> simp

@[simp] theorem readMerge_kept (fc : ℕ) (arrA : Option ℤ) (arrB : Option ℤ) (down : Bool) (s : State) : Kept s (readMerge fc arrA arrB down s) := by
  simp [Kept, readMerge]

@[simp] theorem moveSchedules_kept (f : ℕ) (a : Option ℤ) (b : Option ℤ) (s : State) : Kept s (moveSchedules f a b s) := by
  unfold Kept moveSchedules
  (repeat' split) <;> simp

theorem execScheduleFrameRead_kept (fc : ℕ) (arrA : Option ℤ) (arrB : Option ℤ) (s : State) {t : State} (h : execScheduleFrameRead fc arrA arrB s = .next t) : Kept s t := by
  simp only [execScheduleFrameRead, Host.Outcome.next.injEq] at h
  subst h
  unfold Kept
  (repeat' split) <;> simp

@[simp] theorem absentFrame_kept (s : State) : Kept s (absentFrame s) := by
  simp [Kept, absentFrame]

@[simp] theorem takenFrame_kept (leg : Carrier) (good : Bool) (ann : Option ℕ) (s : State) : Kept s (takenFrame leg good ann s) := by
  unfold Kept takenFrame
  (repeat' split) <;> simp

@[simp] theorem slip_kept (s : State) : Kept s (slip s) := by
  simp only [Kept, slip]
  (repeat' split) <;> simp

theorem execMergeFrameSelect_kept (fc : ℕ) (s0 : State) {t : State} (h : execMergeFrameSelect fc s0 = .next t) : Kept s0 t := by
  simp only [execMergeFrameSelect, Host.Outcome.next.injEq] at h
  subst h
  unfold Kept
  (repeat' split) <;> simp

theorem execLegQualificationHoldExpiry_kept (leg : Carrier) (s : State) {t : State} (h : execLegQualificationHoldExpiry leg s = .next t) : Kept s t := by
  simp only [execLegQualificationHoldExpiry, Host.Outcome.next.injEq] at h
  subst h
  unfold Kept
  (repeat' split) <;> simp

@[simp] theorem preferA_kept (s : State) : Kept s (preferA s) := by
  simp [Kept, preferA]

theorem execMergeWtrExpiry_kept (s : State) {t : State} (h : execMergeWtrExpiry s = .next t) : Kept s t := by
  simp only [execMergeWtrExpiry, Host.Outcome.next.injEq] at h
  subst h
  unfold Kept
  (repeat' split) <;> simp

end Sys2Proof.Machine
end

