-- ==== Sys2Proof/Laws/KeptTest.lean ====
section
/-! SUPPORT. What the definitions of Machine/Test.lean keep: the queue of waiting commands and the held line plan. -/

namespace Sys2Proof.Machine

@[simp] theorem setLineLoop_kept (c : Carrier) (k : ℕ) (timing : ℕ) (on : Bool) (s : State) : Kept s (setLineLoop c k timing on s) := by
  simp [Kept, setLineLoop]

@[simp] theorem runSetLoop_kept (c : Ctx) (s : State) : Kept s (runSetLoop c s).s := by
  simp only [Kept, runSetLoop]
  (repeat' split) <;> simp

theorem execSetLoop_kept (pk : Packet) (s : State) {t : State} (h : execSetLoop pk s = .next t) : Kept s t := by
  simp only [execSetLoop, Host.Outcome.next.injEq] at h
  subst h
  simp [Kept]

theorem execTimingFallback_kept (c : Carrier) (s : State) {t : State} (h : execTimingFallback c s = .next t) : Kept s t := by
  simp only [execTimingFallback, Host.Outcome.next.injEq] at h
  subst h
  unfold Kept
  (repeat' split) <;> simp

@[simp] theorem runSetLinePattern_kept (c : Ctx) (s : State) : Kept s (runSetLinePattern c s).s := by
  simp [Kept, runSetLinePattern]

theorem execSetLinePattern_kept (pk : Packet) (s : State) {t : State} (h : execSetLinePattern pk s = .next t) : Kept s t := by
  simp only [execSetLinePattern, Host.Outcome.next.injEq] at h
  subst h
  simp [Kept]

@[simp] theorem runSetLanePattern_kept (c : Ctx) (s : State) : Kept s (runSetLanePattern c s).s := by
  simp only [Kept, runSetLanePattern]
  (repeat' split) <;> simp

theorem execSetLanePattern_kept (pk : Packet) (s : State) {t : State} (h : execSetLanePattern pk s = .next t) : Kept s t := by
  simp only [execSetLanePattern, Host.Outcome.next.injEq] at h
  subst h
  simp [Kept]

@[simp] theorem runSetTenantPattern_kept (c : Ctx) (s : State) : Kept s (runSetTenantPattern c s).s := by
  simp [Kept, runSetTenantPattern]

theorem execSetTenantPattern_kept (pk : Packet) (s : State) {t : State} (h : execSetTenantPattern pk s = .next t) : Kept s t := by
  simp only [execSetTenantPattern, Host.Outcome.next.injEq] at h
  subst h
  simp [Kept]

@[simp] theorem runGetPatternStatus_kept (c : Ctx) (s : State) : Kept s (runGetPatternStatus c s).s := by
  simp only [Kept, runGetPatternStatus]
  (repeat' split) <;> simp

theorem execGetPatternStatus_kept (pk : Packet) (s : State) {t : State} (h : execGetPatternStatus pk s = .next t) : Kept s t := by
  simp only [execGetPatternStatus, Host.Outcome.next.injEq] at h
  subst h
  simp [Kept]

theorem execPatternLock_kept (kind : ℕ) (idx : ℕ) (errs : List Bool) (s : State) {t : State} (h : execPatternLock kind idx errs s = .next t) : Kept s t := by
  simp only [execPatternLock, Host.Outcome.next.injEq] at h
  subst h
  simp [Kept]

@[simp] theorem runStartCapture_kept (c : Ctx) (s : State) : Kept s (runStartCapture c s).s := by
  simp only [Kept, runStartCapture]
  (repeat' split) <;> simp

theorem execStartCapture_kept (pk : Packet) (s : State) {t : State} (h : execStartCapture pk s = .next t) : Kept s t := by
  simp only [execStartCapture, Host.Outcome.next.injEq] at h
  subst h
  simp [Kept]

@[simp] theorem capUpd_kept (f : Capture → Capture) (s : State) : Kept s (capUpd f s) := by
  simp [Kept, capUpd]

@[simp] theorem takeTrigger_kept (s : State) : Kept s (takeTrigger s) := by
  simp only [Kept, takeTrigger]
  (repeat' split) <;> simp

theorem execCaptureTrigger_kept (src : CapSource) (s : State) {t : State} (h : execCaptureTrigger src s = .next t) : Kept s t := by
  simp only [execCaptureTrigger, Host.Outcome.next.injEq] at h
  subst h
  unfold Kept
  (repeat' split) <;> simp

@[simp] theorem runTriggerCapture_kept (x0 : Ctx) (s : State) : Kept s (runTriggerCapture x0 s).s := by
  simp [Kept, runTriggerCapture]

theorem execTriggerCapture_kept (pk : Packet) (s : State) {t : State} (h : execTriggerCapture pk s = .next t) : Kept s t := by
  simp only [execTriggerCapture, Host.Outcome.next.injEq] at h
  subst h
  simp [Kept]

@[simp] theorem runStopCapture_kept (x0 : Ctx) (s : State) : Kept s (runStopCapture x0 s).s := by
  simp [Kept, runStopCapture]

theorem execStopCapture_kept (pk : Packet) (s : State) {t : State} (h : execStopCapture pk s = .next t) : Kept s t := by
  simp only [execStopCapture, Host.Outcome.next.injEq] at h
  subst h
  simp [Kept]

theorem execCapturePostDone_kept (s : State) {t : State} (h : execCapturePostDone s = .next t) : Kept s t := by
  simp only [execCapturePostDone, Host.Outcome.next.injEq] at h
  subst h
  unfold Kept
  (repeat' split) <;> simp

theorem execCaptureEndEarly_kept (reason : ℕ) (s : State) {t : State} (h : execCaptureEndEarly reason s = .next t) : Kept s t := by
  simp only [execCaptureEndEarly, Host.Outcome.next.injEq] at h
  subst h
  unfold Kept
  (repeat' split) <;> simp

@[simp] theorem runBusTransfer_kept (c : Ctx) (s : State) : Kept s (runBusTransfer c s).s := by
  simp [Kept, runBusTransfer]

theorem execBusTransfer_kept (pk : Packet) (s : State) {t : State} (h : execBusTransfer pk s = .next t) : Kept s t := by
  simp only [execBusTransfer, Host.Outcome.next.injEq] at h
  subst h
  simp [Kept]

@[simp] theorem endTransfer_kept (bus : ℕ) (status : ℕ) (bytes : List Byte) (s : State) : Kept s (endTransfer bus status bytes s) := by
  unfold Kept endTransfer
  (repeat' split) <;> simp

theorem execBusTransferDone_kept (bus : ℕ) (status : ℕ) (bytes : List Byte) (s : State) {t : State} (h : execBusTransferDone bus status bytes s = .next t) : Kept s t := by
  simp only [execBusTransferDone, Host.Outcome.next.injEq] at h
  subst h
  simp [Kept]

theorem execBusStuckRelease_kept (bus : ℕ) (s : State) {t : State} (h : execBusStuckRelease bus s = .next t) : Kept s t := by
  simp only [execBusStuckRelease, Host.Outcome.next.injEq] at h
  subst h
  simp [Kept]

end Sys2Proof.Machine
end

