-- ==== Sys2Proof/Laws/KeptTransmit.lean ====
section
/-! SUPPORT. What the definitions of Machine/Transmit.lean keep: the queue of waiting commands and the held line plan. -/

namespace Sys2Proof.Machine

@[simp] theorem beginApply_kept (c : Carrier) (changed : Bool) (s : State) : Kept s (beginApply c changed s) := by
  simp [Kept, beginApply]

/-- SET_LINE_PLAN keeps the queue of waiting commands. -/
@[simp] theorem runSetLinePlan_pending (c : Ctx) (s : State) : (runSetLinePlan c s).s.pending = s.pending := by
  simp only [runSetLinePlan]
  (repeat' split) <;> simp [doneWith]

/-- What SET_LINE_PLAN does to the held plan: nothing, or the plan of the packet that its checks accept (R41). -/
theorem runSetLinePlan_plan (c : Ctx) (s : State) :
    Kept s (runSetLinePlan c s).s ∨
      ((planReason s (planField c.pk.params 0) (planField c.pk.params 8) (i32 c.pk.params 16) (u8 c.pk.params 20)
          (!zeroAt c.pk.params 21 3)).1 = 0
        ∧ (runSetLinePlan c s).s.plan.car = ⟨planField c.pk.params 0, planField c.pk.params 8⟩
        ∧ (runSetLinePlan c s).s.plan.spacing = i32 c.pk.params 16
        ∧ (runSetLinePlan c s).s.plan.fibre = u8 c.pk.params 20) := by
  simp only [runSetLinePlan]
  split
  · exact .inl (Kept.refl s)
  · split
    · exact .inl (Kept.refl s)
    · rename_i h _
      split
      · exact .inl (Kept.refl s)
      exact .inr ⟨by simp at h; exact h.1, by simp [doneWith], by simp [doneWith], by simp [doneWith]⟩

@[simp] theorem runGetLinePlan_kept (c : Ctx) (s : State) : Kept s (runGetLinePlan c s).s := by
  simp [Kept, runGetLinePlan]

theorem execGetLinePlan_kept (pk : Packet) (s : State) {t : State} (h : execGetLinePlan pk s = .next t) : Kept s t := by
  simp only [execGetLinePlan, Host.Outcome.next.injEq] at h
  subst h
  simp [Kept]

theorem execLinePlanApplyDone_kept (c : Carrier) (s : State) {t : State} (h : execLinePlanApplyDone c s = .next t) : Kept s t := by
  simp only [execLinePlanApplyDone, Host.Outcome.next.injEq] at h
  subst h
  simp [Kept]

@[simp] theorem runSetTxShaping_kept (c : Ctx) (s : State) : Kept s (runSetTxShaping c s).s := by
  simp [Kept, runSetTxShaping]

theorem execSetTxShaping_kept (pk : Packet) (s : State) {t : State} (h : execSetTxShaping pk s = .next t) : Kept s t := by
  simp only [execSetTxShaping, Host.Outcome.next.injEq] at h
  subst h
  simp [Kept]

@[simp] theorem runSetTxCorrection_kept (c : Ctx) (s : State) : Kept s (runSetTxCorrection c s).s := by
  simp [Kept, runSetTxCorrection]

theorem execSetTxCorrection_kept (pk : Packet) (s : State) {t : State} (h : execSetTxCorrection pk s = .next t) : Kept s t := by
  simp only [execSetTxCorrection, Host.Outcome.next.injEq] at h
  subst h
  simp [Kept]

@[simp] theorem runSetTxOutput_kept (c : Ctx) (s : State) : Kept s (runSetTxOutput c s).s := by
  simp [Kept, runSetTxOutput]

theorem execSetTxOutput_kept (pk : Packet) (s : State) {t : State} (h : execSetTxOutput pk s = .next t) : Kept s t := by
  simp only [execSetTxOutput, Host.Outcome.next.injEq] at h
  subst h
  simp [Kept]

@[simp] theorem runSetTxState_kept (c : Ctx) (s : State) : Kept s (runSetTxState c s).s := by
  simp [Kept, runSetTxState]

theorem execSetTxState_kept (pk : Packet) (s : State) {t : State} (h : execSetTxState pk s = .next t) : Kept s t := by
  simp only [execSetTxState, Host.Outcome.next.injEq] at h
  subst h
  simp [Kept]

@[simp] theorem runGetTxStatus_kept (c : Ctx) (s : State) : Kept s (runGetTxStatus c s).s := by
  simp [Kept, runGetTxStatus]

theorem execGetTxStatus_kept (pk : Packet) (s : State) {t : State} (h : execGetTxStatus pk s = .next t) : Kept s t := by
  simp only [execGetTxStatus, Host.Outcome.next.injEq] at h
  subst h
  simp [Kept]

@[simp] theorem sendSuperframe_kept (c : Carrier) (s : State) : Kept s (sendSuperframe c s) := by
  simp [Kept, sendSuperframe]

theorem execSuperframeTransmit_kept (c : Carrier) (level : FifoLevel) (s : State) {t : State} (h : execSuperframeTransmit c level s = .next t) : Kept s t := by
  simp only [execSuperframeTransmit, Host.Outcome.next.injEq] at h
  subst h
  simp [Kept]

theorem execTxClipInterval_kept (c : Carrier) (dac : ℕ) (s : State) {t : State} (h : execTxClipInterval c dac s = .next t) : Kept s t := by
  simp only [execTxClipInterval, Host.Outcome.next.injEq] at h
  subst h
  unfold Kept
  (repeat' split) <;> simp

end Sys2Proof.Machine
end

