-- ==== Sys2Proof/Laws/KeptTributary.lean ====
section
/-! SUPPORT. What the definitions of Machine/Tributary.lean keep: the queue of waiting commands and the held line plan. -/

namespace Sys2Proof.Machine

@[simp] theorem putTable_kept (c : Carrier) (b : ℕ) (t : Tbl ℕ) (s : State) : Kept s (putTable c b t s) := by
  simp [Kept, putTable]

@[simp] theorem runSetCalendar_kept (c : Ctx) (s : State) : Kept s (runSetCalendar c s).s := by
  simp [Kept, runSetCalendar]

theorem execSetCalendar_kept (pk : Packet) (s : State) {t : State} (h : execSetCalendar pk s = .next t) : Kept s t := by
  simp only [execSetCalendar, Host.Outcome.next.injEq] at h
  subst h
  simp [Kept]

@[simp] theorem runSwapCalendar_kept (c : Ctx) (s : State) : Kept s (runSwapCalendar c s).s := by
  simp only [Kept, runSwapCalendar]
  (repeat' split) <;> simp

theorem execSwapCalendar_kept (pk : Packet) (s : State) {t : State} (h : execSwapCalendar pk s = .next t) : Kept s t := by
  simp only [execSwapCalendar, Host.Outcome.next.injEq] at h
  subst h
  simp [Kept]

@[simp] theorem swapBuffers_kept (w : Swap) (b : ℕ) (s : State) : Kept s (swapBuffers w b s) := by
  simp [Kept, swapBuffers]

theorem execCalendarSwapBoundary_kept (s : State) {t : State} (h : execCalendarSwapBoundary s = .next t) : Kept s t := by
  simp only [execCalendarSwapBoundary, Host.Outcome.next.injEq] at h
  subst h
  unfold Kept
  (repeat' split) <;> simp

@[simp] theorem runGetCalendar_kept (c : Ctx) (s : State) : Kept s (runGetCalendar c s).s := by
  simp [Kept, runGetCalendar]

theorem execGetCalendar_kept (pk : Packet) (s : State) {t : State} (h : execGetCalendar pk s = .next t) : Kept s t := by
  simp only [execGetCalendar, Host.Outcome.next.injEq] at h
  subst h
  simp [Kept]

@[simp] theorem runSetTenantControl_kept (c : Ctx) (s : State) : Kept s (runSetTenantControl c s).s := by
  simp [Kept, runSetTenantControl]

theorem execSetTenantControl_kept (pk : Packet) (s : State) {t : State} (h : execSetTenantControl pk s = .next t) : Kept s t := by
  simp only [execSetTenantControl, Host.Outcome.next.injEq] at h
  subst h
  simp [Kept]

@[simp] theorem runGetTenantStatus_kept (c : Ctx) (s : State) : Kept s (runGetTenantStatus c s).s := by
  simp [Kept, runGetTenantStatus]

theorem execGetTenantStatus_kept (pk : Packet) (s : State) {t : State} (h : execGetTenantStatus pk s = .next t) : Kept s t := by
  simp only [execGetTenantStatus, Host.Outcome.next.injEq] at h
  subst h
  simp [Kept]

@[simp] theorem tenCnt_kept (t : ℕ) (f : TenCounts → TenCounts) (s : State) : Kept s (tenCnt t f s) := by
  simp [Kept, tenCnt]

@[simp] theorem declareFreq_kept (t : ℕ) (s : State) : Kept s (declareFreq t s) := by
  simp [Kept, declareFreq]

@[simp] theorem sendPeriod_kept (t : ℕ) (s : State) : Kept s (sendPeriod t s) := by
  simp [Kept, sendPeriod]

theorem execPointerPeriodTransmit_kept (tenant : ℕ) (arrived : List Block66) (s0 : State) {t : State} (h : execPointerPeriodTransmit tenant arrived s0 = .next t) : Kept s0 t := by
  simp only [execPointerPeriodTransmit, Host.Outcome.next.injEq] at h
  subst h
  simp [Kept]

theorem execTcFreqOffsetWindow_kept (tenant : ℕ) (offset : ℤ) (s : State) {t : State} (h : execTcFreqOffsetWindow tenant offset s = .next t) : Kept s t := by
  simp only [execTcFreqOffsetWindow, Host.Outcome.next.injEq] at h
  subst h
  simp [Kept]

@[simp] theorem countReplaced_kept (t : ℕ) (s : State) : Kept s (countReplaced t s) := by
  simp [Kept, countReplaced]

@[simp] theorem countErrored_kept (t : ℕ) (s : State) : Kept s (countErrored t s) := by
  simp [Kept, countErrored]

@[simp] theorem countInterp_kept (t : ℕ) (jcErr : Bool) (i : Interp) (s : State) : Kept s (countInterp t jcErr i s) := by
  simp [Kept, countInterp]

@[simp] theorem openPeriod_kept (t : ℕ) (s : State) : Kept s (openPeriod t s) := by
  simp [Kept, openPeriod]

@[simp] theorem markPeriod_kept (t : ℕ) (acc : Bool) (replaced : Bool) (p : PeriodMark) (s : State) : Kept s (markPeriod t acc replaced p s) := by
  simp [Kept, markPeriod]

@[simp] theorem followChecker_kept (t : ℕ) (s : State) : Kept s (followChecker t s) := by
  simp [Kept, followChecker]

@[simp] theorem followClock_kept (t : ℕ) (replaced : Bool) (size : ℕ) (bits : ℕ) (s : State) : Kept s (followClock t replaced size bits s) := by
  simp [Kept, followClock]

theorem execPointerPeriodReceive_kept (tenant : ℕ) (s0 : State) {t : State} (h : execPointerPeriodReceive tenant s0 = .next t) : Kept s0 t := by
  simp only [execPointerPeriodReceive, Host.Outcome.next.injEq] at h
  subst h
  simp [Kept]

@[simp] theorem giveClient_kept (t : ℕ) (replaced : Bool) (clear : List Word64) (m : PeriodMark) (s : State) : Kept s (giveClient t replaced clear m s) := by
  simp [Kept, giveClient]

theorem execTagCheckResult_kept (tenant : ℕ) (s0 : State) {t : State} (h : execTagCheckResult tenant s0 = .next t) : Kept s0 t := by
  simp only [execTagCheckResult, Host.Outcome.next.injEq] at h
  subst h
  unfold Kept
  (repeat' split) <;> simp

end Sys2Proof.Machine
end

