-- ==== Sys2Proof/Laws/KeptExec.lean ====
section
/-! SUPPORT. What every command keeps: the queue of waiting commands and, but for SET_LINE_PLAN and a reset of the whole device, the held
line plan. -/

namespace Sys2Proof.Machine

/-- The commands that may change the held line plan: SET_LINE_PLAN, and the two that reset the whole device (R41, R470). -/
def changesPlan : Instr → Bool
  | .setLinePlan _ => true
  | .railReset _ _ => true
  | .poresetNAssert => true
  | _ => false

/-- Every other command keeps the queue and the held plan. -/
theorem exec_kept (i : Instr) (s : State) (hi : changesPlan i = false) {t : State} (h : exec i s = .next t) : Kept s t := by
  cases i
  case nop p => exact execNop_kept p s h
  case fence p => exact execFence_kept p s h
  case getIdentity p => exact execGetIdentity_kept p s h
  case getQueueStatus p => exact execGetQueueStatus_kept p s h
  case resetQueue p => exact execResetQueue_kept p s h
  case setQueueConfig p => exact execSetQueueConfig_kept p s h
  case setMode p => exact execSetMode_kept p s h
  case setDomains p => exact execSetDomains_kept p s h
  case getPowerStatus p => exact execGetPowerStatus_kept p s h
  case setSupervision p => exact execSetSupervision_kept p s h
  case clearPairFault p => exact execClearPairFault_kept p s h
  case setLinePlan => simp [changesPlan] at hi
  case getLinePlan p => exact execGetLinePlan_kept p s h
  case setTxShaping p => exact execSetTxShaping_kept p s h
  case setTxCorrection p => exact execSetTxCorrection_kept p s h
  case setTxOutput p => exact execSetTxOutput_kept p s h
  case setTxState p => exact execSetTxState_kept p s h
  case getTxStatus p => exact execGetTxStatus_kept p s h
  case setRxFrontEnd p => exact execSetRxFrontEnd_kept p s h
  case getRxStatus p => exact execGetRxStatus_kept p s h
  case setCalControl p => exact execSetCalControl_kept p s h
  case getCalStatus p => exact execGetCalStatus_kept p s h
  case setMonitor p => exact execSetMonitor_kept p s h
  case monitorControl p => exact execMonitorControl_kept p s h
  case runToneSearch p => exact execRunToneSearch_kept p s h
  case setRxDsp p => exact execSetRxDsp_kept p s h
  case restartAcquisition p => exact execRestartAcquisition_kept p s h
  case getChannelEstimates p => exact execGetChannelEstimates_kept p s h
  case setFec p => exact execSetFec_kept p s h
  case setFecDefects p => exact execSetFecDefects_kept p s h
  case getFecStatus p => exact execGetFecStatus_kept p s h
  case setFrameConfig p => exact execSetFrameConfig_kept p s h
  case getFrameStatus p => exact execGetFrameStatus_kept p s h
  case setCalendar p => exact execSetCalendar_kept p s h
  case swapCalendar p => exact execSwapCalendar_kept p s h
  case getCalendar p => exact execGetCalendar_kept p s h
  case setTenantControl p => exact execSetTenantControl_kept p s h
  case getTenantStatus p => exact execGetTenantStatus_kept p s h
  case setSkewConfig p => exact execSetSkewConfig_kept p s h
  case setMergeConfig p => exact execSetMergeConfig_kept p s h
  case getSkewStatus p => exact execGetSkewStatus_kept p s h
  case getMergeStatus p => exact execGetMergeStatus_kept p s h
  case setPmConfig p => exact execSetPmConfig_kept p s h
  case setPmThresholds p => exact execSetPmThresholds_kept p s h
  case setPmProfile p => exact execSetPmProfile_kept p s h
  case getPmCurrent p => exact execGetPmCurrent_kept p s h
  case getPmHistory p => exact execGetPmHistory_kept p s h
  case getLinkQuality p => exact execGetLinkQuality_kept p s h
  case establishKek p => exact execEstablishKek_kept p s h
  case loadKey p => exact execLoadKey_kept p s h
  case generateKey p => exact execGenerateKey_kept p s h
  case rotateKey p => exact execRotateKey_kept p s h
  case eraseKey p => exact execEraseKey_kept p s h
  case setTenantCipher p => exact execSetTenantCipher_kept p s h
  case getKeyStatus p => exact execGetKeyStatus_kept p s h
  case getTurretStatus p => exact execGetTurretStatus_kept p s h
  case setMemoryConfig p => exact execSetMemoryConfig_kept p s h
  case getMemoryStatus p => exact execGetMemoryStatus_kept p s h
  case getCeLog p => exact execGetCeLog_kept p s h
  case setRemap p => exact execSetRemap_kept p s h
  case repairRow p => exact execRepairRow_kept p s h
  case setRefConfig p => exact execSetRefConfig_kept p s h
  case setDpllConfig p => exact execSetDpllConfig_kept p s h
  case setSelection p => exact execSetSelection_kept p s h
  case stepPhase p => exact execStepPhase_kept p s h
  case setTime p => exact execSetTime_kept p s h
  case setTodConfig p => exact execSetTodConfig_kept p s h
  case getTimingStatus p => exact execGetTimingStatus_kept p s h
  case getTime p => exact execGetTime_kept p s h
  case setLearning p => exact execSetLearning_kept p s h
  case setRingRole p => exact execSetRingRole_kept p s h
  case assignWorker p => exact execAssignWorker_kept p s h
  case getRingStatus p => exact execGetRingStatus_kept p s h
  case getOutcome p => exact execGetOutcome_kept p s h
  case setRingProtect p => exact execSetRingProtect_kept p s h
  case getRingProtect p => exact execGetRingProtect_kept p s h
  case setCounter p => exact execSetCounter_kept p s h
  case grantCounters p => exact execGrantCounters_kept p s h
  case setBwWindow p => exact execSetBwWindow_kept p s h
  case readCounters p => exact execReadCounters_kept p s h
  case getPcieStatus p => exact execGetPcieStatus_kept p s h
  case setLoop p => exact execSetLoop_kept p s h
  case setLinePattern p => exact execSetLinePattern_kept p s h
  case setLanePattern p => exact execSetLanePattern_kept p s h
  case setTenantPattern p => exact execSetTenantPattern_kept p s h
  case getPatternStatus p => exact execGetPatternStatus_kept p s h
  case startCapture p => exact execStartCapture_kept p s h
  case triggerCapture p => exact execTriggerCapture_kept p s h
  case stopCapture p => exact execStopCapture_kept p s h
  case busTransfer p => exact execBusTransfer_kept p s h
  case fwPrepare p => exact execFwPrepare_kept p s h
  case fwVerify p => exact execFwVerify_kept p s h
  case fwActivate p => exact execFwActivate_kept p s h
  case fwCommit p => exact execFwCommit_kept p s h
  case getFwStatus p => exact execGetFwStatus_kept p s h
  case getJournalStatus p => exact execGetJournalStatus_kept p s h
  case setHostQuad p => exact execSetHostQuad_kept p s h
  case setHostLaneTx p => exact execSetHostLaneTx_kept p s h
  case setHostPhy p => exact execSetHostPhy_kept p s h
  case setClient p => exact execSetClient_kept p s h
  case setFlexeGroup p => exact execSetFlexeGroup_kept p s h
  case setFlexeCalendar p => exact execSetFlexeCalendar_kept p s h
  case switchFlexeCalendar p => exact execSwitchFlexeCalendar_kept p s h
  case getHostStatus p => exact execGetHostStatus_kept p s h
  case getClientStatus p => exact execGetClientStatus_kept p s h
  case invalidPacket p q => exact execInvalidPacket_kept p q s h
  case relayRequest p q => exact execRelayRequest_kept p q s h
  case qdataWrite p q r => exact execQdataWrite_kept p q r s h
  case queueWriteResume p => exact execQueueWriteResume_kept p s h
  case qend p q r => exact execQend_kept p q r s h
  case twiQdataWrite p q => exact execTwiQdataWrite_kept p q s h
  case twiQendWrite p => exact execTwiQendWrite_kept p s h
  case twiRspRead => exact execTwiRspRead_kept s h
  case twiStretchExpiry => exact execTwiStretchExpiry_kept s h
  case responseWrite p => exact execResponseWrite_kept p s h
  case pointerWindowClose p q => exact execPointerWindowClose_kept p q s h
  case fenceComplete p => exact execFenceComplete_kept p s h
  case controllerMismatch => exact execControllerMismatch_kept s h
  case configRequest p => exact execConfigRequest_kept p s h
  case functionLevelReset => exact execFunctionLevelReset_kept s h
  case perstNAssert => exact execPerstNAssert_kept s h
  case pcieLink p q => exact execPcieLink_kept p q s h
  case qrspSizeWrite p q => exact execQrspSizeWrite_kept p q s h
  case qrspHeadWrite p q => exact execQrspHeadWrite_kept p q s h
  case evtSizeWrite p => exact execEvtSizeWrite_kept p s h
  case evtHeadWrite p => exact execEvtHeadWrite_kept p s h
  case evtLostRead => exact execEvtLostRead_kept s h
  case msixUnmask p => exact execMsixUnmask_kept p s h
  case dmaDoorbell p q r => exact execDmaDoorbell_kept p q r s h
  case dmaAbort p => exact execDmaAbort_kept p s h
  case dmaCplHeadWrite p q => exact execDmaCplHeadWrite_kept p q s h
  case cntSnapshot p => exact execCntSnapshot_kept p s h
  case cntOvfClear p q => exact execCntOvfClear_kept p q s h
  case bwPeakRead p q r => exact execBwPeakRead_kept p q r s h
  case counterLowRead p q => exact execCounterLowRead_kept p q s h
  case violationClear p => exact execViolationClear_kept p s h
  case bar2CounterRead p q => exact execBar2CounterRead_kept p q s h
  case violation p => exact execViolation_kept p s h
  case registerWrite p q => exact execRegisterWrite_kept p q s h
  case dmaBurst p q r => exact execDmaBurst_kept p q r s h
  case receiveFlushTimeout p => exact execReceiveFlushTimeout_kept p s h
  case eventRingWrite => exact execEventRingWrite_kept s h
  case counterWrap p q => exact execCounterWrap_kept p q s h
  case bwWindowEnd p => exact execBwWindowEnd_kept p s h
  case poresetNAssert => simp [changesPlan] at hi
  case poresetNDeassert => exact execPoresetNDeassert_kept s h
  case firmwareVerified p => exact execFirmwareVerified_kept p s h
  case ready => exact execReady_kept s h
  case localOscWindowEnd p => exact execLocalOscWindowEnd_kept p s h
  case localOscEdgeLoss => exact execLocalOscEdgeLoss_kept s h
  case railWarn p q => exact execRailWarn_kept p q s h
  case railWarnClear p q => exact execRailWarnClear_kept p q s h
  case railReset => simp [changesPlan] at hi
  case domainReturnStart p => exact execDomainReturnStart_kept p s h
  case domainPllLock p => exact execDomainPllLock_kept p s h
  case domainInitDone p => exact execDomainInitDone_kept p s h
  case fifoMismatch p q => exact execFifoMismatch_kept p q s h
  case fifoWindowClose p => exact execFifoWindowClose_kept p s h
  case modeAnnounce => exact execModeAnnounce_kept s h
  case modeBoundary => exact execModeBoundary_kept s h
  case rampDownDone => exact execRampDownDone_kept s h
  case txsafeAssert p => exact execTxsafeAssert_kept p s h
  case txsafeDeassert p => exact execTxsafeDeassert_kept p s h
  case pairFault => exact execPairFault_kept s h
  case settleExpiry p => exact execSettleExpiry_kept p s h
  case pfailNAssert => exact execPfailNAssert_kept s h
  case pfailNDeassert => exact execPfailNDeassert_kept s h
  case tempSample p => exact execTempSample_kept p s h
  case journalWrite => exact execJournalWrite_kept s h
  case flashOperationDone p => exact execFlashOperationDone_kept p s h
  case fwSlotErased => exact execFwSlotErased_kept s h
  case fwVerifyDone => exact execFwVerifyDone_kept s h
  case fwControllerSwitch => exact execFwControllerSwitch_kept s h
  case fwClusterSwitch p => exact execFwClusterSwitch_kept p s h
  case superframeTransmit p q => exact execSuperframeTransmit_kept p q s h
  case txClipInterval p q => exact execTxClipInterval_kept p q s h
  case linePlanApplyDone p => exact execLinePlanApplyDone_kept p s h
  case agcWindow p q => exact execAgcWindow_kept p q s h
  case agcSettleFail p => exact execAgcSettleFail_kept p s h
  case agcLimit p => exact execAgcLimit_kept p s h
  case rxClipInterval p q => exact execRxClipInterval_kept p q s h
  case overlapSaveBlock p q => exact execOverlapSaveBlock_kept p q s h
  case symbolGroupReceive p q => exact execSymbolGroupReceive_kept p q s h
  case monitorRecordClose p q => exact execMonitorRecordClose_kept p q s h
  case toneSweepDone p q => exact execToneSweepDone_kept p q s h
  case calWindowClose p q r => exact execCalWindowClose_kept p q r s h
  case calApply p q => exact execCalApply_kept p q s h
  case txCalApply p => exact execTxCalApply_kept p s h
  case txCalTimeout p => exact execTxCalTimeout_kept p s h
  case foregroundCalDone p q => exact execForegroundCalDone_kept p q s h
  case foregroundCalRepeat p => exact execForegroundCalRepeat_kept p s h
  case calDeferred p => exact execCalDeferred_kept p s h
  case cdScanDone p q => exact execCdScanDone_kept p q s h
  case freqCoarseDone p q => exact execFreqCoarseDone_kept p q s h
  case timingAcquired p q => exact execTimingAcquired_kept p q s h
  case eqConverged p q r => exact execEqConverged_kept p q r s h
  case sfSyncFound p q r => exact execSfSyncFound_kept p q r s h
  case freqFineDone p q => exact execFreqFineDone_kept p q s h
  case locked p q => exact execLocked_kept p q s h
  case acquisitionTimeout p => exact execAcquisitionTimeout_kept p s h
  case warmPathTimeout p => exact execWarmPathTimeout_kept p s h
  case lossOfLock p q => exact execLossOfLock_kept p q s h
  case eqSingularCheck p q r => exact execEqSingularCheck_kept p q r s h
  case eqLimit p q => exact execEqLimit_kept p q s h
  case xtalkFallback p q => exact execXtalkFallback_kept p q s h
  case xtalkResume p => exact execXtalkResume_kept p s h
  case spacingErr => exact execSpacingErr_kept s h
  case turboPass p q r => exact execTurboPass_kept p q r s h
  case superframeReceive p => exact execSuperframeReceive_kept p s h
  case ldpcBlockEnter p => exact execLdpcBlockEnter_kept p s h
  case decoderIterationPeriod p => exact execDecoderIterationPeriod_kept p s h
  case blockLeave p => exact execBlockLeave_kept p s h
  case fullHuntDone p => exact execFullHuntDone_kept p s h
  case fecDegWindow p => exact execFecDegWindow_kept p s h
  case fecFailWindow p => exact execFecFailWindow_kept p s h
  case fecThrottle p => exact execFecThrottle_kept p s h
  case frameTransmit => exact execFrameTransmit_kept s h
  case frameReceive p => exact execFrameReceive_kept p s h
  case flywheelTick p => exact execFlywheelTick_kept p s h
  case losDeclare p => exact execLosDeclare_kept p s h
  case losClear p => exact execLosClear_kept p s h
  case multiframeBoundaryRx p => exact execMultiframeBoundaryRx_kept p s h
  case calendarSwapBoundary => exact execCalendarSwapBoundary_kept s h
  case pointerPeriodTransmit p q => exact execPointerPeriodTransmit_kept p q s h
  case tcFreqOffsetWindow p q => exact execTcFreqOffsetWindow_kept p q s h
  case pointerPeriodReceive p => exact execPointerPeriodReceive_kept p s h
  case tagCheckResult p => exact execTagCheckResult_kept p s h
  case laneForegroundAdaptDone p q => exact execLaneForegroundAdaptDone_kept p q s h
  case laneAdaptWindow p q => exact execLaneAdaptWindow_kept p q s h
  case laneAdaptApply p => exact execLaneAdaptApply_kept p s h
  case hostDefect p q r => exact execHostDefect_kept p q r s h
  case rsFecCodeword p q => exact execRsFecCodeword_kept p q s h
  case flexeOverheadFrameRx p q => exact execFlexeOverheadFrameRx_kept p q s h
  case flexeMultiframeBoundary p => exact execFlexeMultiframeBoundary_kept p s h
  case flexeCaTimeout p => exact execFlexeCaTimeout_kept p s h
  case esmcTimeout p => exact execEsmcTimeout_kept p s h
  case esmcInfoPdu p => exact execEsmcInfoPdu_kept p s h
  case skewUpdate p => exact execSkewUpdate_kept p s h
  case scheduleFrameRead p q r => exact execScheduleFrameRead_kept p q r s h
  case excessEnd => exact execExcessEnd_kept s h
  case mergeFrameSelect p => exact execMergeFrameSelect_kept p s h
  case legQualificationHoldExpiry p => exact execLegQualificationHoldExpiry_kept p s h
  case mergeWtrExpiry => exact execMergeWtrExpiry_kept s h
  case pmSecondEnd p q r u => exact execPmSecondEnd_kept p q r u s h
  case pmSecondSettle => exact execPmSecondSettle_kept s h
  case pmBinClose => exact execPmBinClose_kept s h
  case framerCipherRequest p q r => exact execFramerCipherRequest_kept p q r s h
  case domeCipherRequest p q r => exact execDomeCipherRequest_kept p q r s h
  case domeSectorTimeout p => exact execDomeSectorTimeout_kept p s h
  case pipeFenced p => exact execPipeFenced_kept p s h
  case keepEccError p q r => exact execKeepEccError_kept p q r s h
  case keyRotated p q => exact execKeyRotated_kept p q s h
  case kekEstablished => exact execKekEstablished_kept s h
  case keyGenerated p => exact execKeyGenerated_kept p s h
  case entropyTimeout => exact execEntropyTimeout_kept s h
  case trngHealthFail p => exact execTrngHealthFail_kept p s h
  case trngRetest p => exact execTrngRetest_kept p s h
  case maskRekey => exact execMaskRekey_kept s h
  case domeStackReady p q => exact execDomeStackReady_kept p q s h
  case domeLineOperation p q r => exact execDomeLineOperation_kept p q r s h
  case domeRefresh p q => exact execDomeRefresh_kept p q s h
  case scrubVisit p q r => exact execScrubVisit_kept p q r s h
  case scrubPassStart p => exact execScrubPassStart_kept p s h
  case scrubLate p => exact execScrubLate_kept p s h
  case sramUncorrectable p q r => exact execSramUncorrectable_kept p q r s h
  case rowRepairDone p => exact execRowRepairDone_kept p s h
  case refPhaseMeasure p q r => exact execRefPhaseMeasure_kept p q r s h
  case refFreqCheck p => exact execRefFreqCheck_kept p s h
  case refSignalChange p q => exact execRefSignalChange_kept p q s h
  case refWtrExpiry p => exact execRefWtrExpiry_kept p s h
  case holdOffExpiry => exact execHoldOffExpiry_kept s h
  case selectionEvaluation => exact execSelectionEvaluation_kept s h
  case dpllLock => exact execDpllLock_kept s h
  case lockFail => exact execLockFail_kept s h
  case holdoverCorrectionUpdate p => exact execHoldoverCorrectionUpdate_kept p s h
  case learningSample p q => exact execLearningSample_kept p q s h
  case modelUpdate => exact execModelUpdate_kept s h
  case modelJournal => exact execModelJournal_kept s h
  case slewDone => exact execSlewDone_kept s h
  case todSecond => exact execTodSecond_kept s h
  case setTimeEdgeTimeout => exact execSetTimeEdgeTimeout_kept s h
  case ppsInEdge p => exact execPpsInEdge_kept p s h
  case ppsLoss => exact execPpsLoss_kept s h
  case ringSignalDetect p => exact execRingSignalDetect_kept p s h
  case ringAlignDone p => exact execRingAlignDone_kept p s h
  case ringAlignTimeout p => exact execRingAlignTimeout_kept p s h
  case ringStepStart p => exact execRingStepStart_kept p s h
  case ringStepEnd p q => exact execRingStepEnd_kept p q s h
  case ringLink p q => exact execRingLink_kept p q s h
  case ringMessageForward p q => exact execRingMessageForward_kept p q s h
  case ringStatusReceive p q => exact execRingStatusReceive_kept p q s h
  case managerResume => exact execManagerResume_kept s h
  case workerLeft p => exact execWorkerLeft_kept p s h
  case workerReachabilityTimeout p q => exact execWorkerReachabilityTimeout_kept p q s h
  case rosterReceive p => exact execRosterReceive_kept p s h
  case negReceive p q => exact execNegReceive_kept p q s h
  case statusSend => exact execStatusSend_kept s h
  case rosterSend => exact execRosterSend_kept s h
  case delayExchange p q => exact execDelayExchange_kept p q s h
  case delayReqReceive p q r => exact execDelayReqReceive_kept p q r s h
  case delayRespReceive p q r u => exact execDelayRespReceive_kept p q r u s h
  case timingSend => exact execTimingSend_kept s h
  case timingReceive p q r u => exact execTimingReceive_kept p q r u s h
  case requestReceive p q => exact execRequestReceive_kept p q s h
  case receiptReceive p q r u => exact execReceiptReceive_kept p q r u s h
  case relayRetry p => exact execRelayRetry_kept p s h
  case relayUnreachableTimeout p => exact execRelayUnreachableTimeout_kept p s h
  case responseReceive p q => exact execResponseReceive_kept p q s h
  case respAckReceive p q r => exact execRespAckReceive_kept p q r s h
  case responseResend => exact execResponseResend_kept s h
  case eventReceive p q => exact execEventReceive_kept p q s h
  case pmReceive p q => exact execPmReceive_kept p q s h
  case streamAckReceive p q r => exact execStreamAckReceive_kept p q r s h
  case streamResend => exact execStreamResend_kept s h
  case protectReceive p => exact execProtectReceive_kept p s h
  case protectSend p => exact execProtectSend_kept p s h
  case protectWtrExpiry p => exact execProtectWtrExpiry_kept p s h
  case protectPartner p => exact execProtectPartner_kept p s h
  case engineFailed p => exact execEngineFailed_kept p s h
  case engineFailover p => exact execEngineFailover_kept p s h
  case engineCheckpoint p => exact execEngineCheckpoint_kept p s h
  case captureTrigger p => exact execCaptureTrigger_kept p s h
  case capturePostDone => exact execCapturePostDone_kept s h
  case captureEndEarly p => exact execCaptureEndEarly_kept p s h
  case patternLock p q r => exact execPatternLock_kept p q r s h
  case timingFallback p => exact execTimingFallback_kept p s h
  case busTransferDone p q r => exact execBusTransferDone_kept p q r s h
  case busStuckRelease p => exact execBusStuckRelease_kept p s h
  case waitSignalTimeout p => exact execWaitSignalTimeout_kept p s h
  case ringTimingTimeout => exact execRingTimingTimeout_kept s h
  case perstNDeassert => exact execPerstNDeassert_kept s h
  case controllerRestartDone => exact execControllerRestartDone_kept s h
  case holdoverReady => exact execHoldoverReady_kept s h

end Sys2Proof.Machine
end

