-- ==== Sys2Proof/Laws/Outer.lean ====
section
/-! SUPPORT. The outer part of the state: all that queues, records, events, counters, vectors, ring messages and stores to host memory
leave alone. -/

namespace Sys2Proof.Machine

@[simp] theorem outer_swiys (s : State) (x : Swiys) : outer { s with swiys := x } = outer s := rfl
@[simp] theorem outer_ev (s : State) (x : Events) : outer { s with ev := x } = outer s := rfl
@[simp] theorem outer_pcie (s : State) (x : Pcie) : outer { s with pcie := x } = outer s := rfl
@[simp] theorem outer_cnt (s : State) (x : Counters) : outer { s with cnt := x } = outer s := rfl
@[simp] theorem outer_page (s : State) (x : StatusPage) : outer { s with page := x } = outer s := rfl
@[simp] theorem outer_ring (s : State) (x : Ring) : outer { s with ring := x } = outer s := rfl
@[simp] theorem outer_hostMem (s : State) (x : Tbl Byte) : outer { s with hostMem := x } = outer s := rfl

@[simp] theorem outer_ite {c : Prop} [Decidable c] (a b : State) :
    outer (if c then a else b) = if c then outer a else outer b := apply_ite outer c a b

@[simp] theorem foldl_outer {α : Type} (f : State → α → State) (h : ∀ t x, outer (f t x) = outer t) (l : List α) (s : State) :
    outer (l.foldl f s) = outer s := by
  induction l generalizing s with
  | nil => rfl
  | cons x r ih => exact (ih (f s x)).trans (h s x)

/-- Two states with one outer part agree in each of its fields. -/
theorem outer_fields {s t : State} (h : outer t = outer s) :
    t.now = s.now ∧ t.tod = s.tod ∧ t.subns = s.subns ∧ t.free = s.free ∧ t.dma = s.dma ∧ t.mode = s.mode ∧ t.clk = s.clk ∧
    t.ctl = s.ctl ∧ t.eng = s.eng ∧ t.power = s.power ∧ t.pins = s.pins ∧ t.therm = s.therm ∧ t.journal = s.journal ∧
    t.fw = s.fw ∧ t.plan = s.plan ∧ t.spire = s.spire ∧ t.line = s.line ∧ t.txFc = s.txFc ∧ t.cal = s.cal ∧ t.ten = s.ten ∧
    t.skew = s.skew ∧ t.mrg = s.mrg ∧ t.host = s.host ∧ t.pm = s.pm ∧ t.turret = s.turret ∧ t.mem = s.mem ∧ t.bel = s.bel ∧
    t.test = s.test ∧ t.pending = s.pending := by
  have h0 := congrArg State.now h
  have h1 := congrArg State.tod h
  have h2 := congrArg State.subns h
  have h3 := congrArg State.free h
  have h4 := congrArg State.dma h
  have h5 := congrArg State.mode h
  have h6 := congrArg State.clk h
  have h7 := congrArg State.ctl h
  have h8 := congrArg State.eng h
  have h9 := congrArg State.power h
  have h10 := congrArg State.pins h
  have h11 := congrArg State.therm h
  have h12 := congrArg State.journal h
  have h13 := congrArg State.fw h
  have h14 := congrArg State.plan h
  have h15 := congrArg State.spire h
  have h16 := congrArg State.line h
  have h17 := congrArg State.txFc h
  have h18 := congrArg State.cal h
  have h19 := congrArg State.ten h
  have h20 := congrArg State.skew h
  have h21 := congrArg State.mrg h
  have h22 := congrArg State.host h
  have h23 := congrArg State.pm h
  have h24 := congrArg State.turret h
  have h25 := congrArg State.mem h
  have h26 := congrArg State.bel h
  have h27 := congrArg State.test h
  have h28 := congrArg State.pending h
  exact ⟨h0, h1, h2, h3, h4, h5, h6, h7, h8, h9, h10, h11, h12, h13, h14, h15, h16, h17, h18, h19, h20, h21, h22, h23, h24, h25, h26, h27, h28⟩

/-- A state with the outer part of another is that other with its inner part replaced. -/
theorem eq_of_outer {s t : State} (h : outer t = outer s) :
    t = { s with swiys := t.swiys, ev := t.ev, pcie := t.pcie, cnt := t.cnt, page := t.page, ring := t.ring, hostMem := t.hostMem } := by
  cases s
  cases t
  simp only [outer, State.mk.injEq] at h ⊢
  simp_all

/-! What leaves the outer part alone. -/

@[simp] theorem signalVector_outer (v : Nat) (s : State) : outer (signalVector v s) = outer s := by
  simp only [signalVector, outer_ite, outer_pcie, ite_self]
@[simp] theorem countOwn_outer (i n : Nat) (s : State) : outer (countOwn i n s) = outer s := by
  simp only [countOwn, outer_ite, signalVector_outer, outer_cnt, ite_self]
@[simp] theorem countOne_outer (i n : Nat) (s : State) : outer (countOne i n s) = outer s := by
  simp only [countOne, outer_ite, countOwn_outer, ite_self]
@[simp] theorem countWindow_outer (a b n : Nat) (s : State) : outer (countWindow a b n s) = outer s := by
  simp only [countWindow, outer_ite, outer_cnt, ite_self]
@[simp] theorem countSrc_outer (a b n : Nat) (s : State) : outer (countSrc a b n s) = outer s := by simp [countSrc]
@[simp] theorem raiseVector_outer (v : Nat) (s : State) : outer (raiseVector v s) = outer s := by
  simp only [raiseVector, outer_ite, countSrc_outer, signalVector_outer, ite_self]
@[simp] theorem hostStore_outer (a : Nat) (l : List Byte) (s : State) : outer (hostStore a l s) = outer s := by
  simp [hostStore]
@[simp] theorem hostCells_outer (l : List (Nat × Byte)) (s : State) : outer (hostCells l s) = outer s := by simp [hostCells]
@[simp] theorem qset_outer (s : State) (q : QueueId) (v : Queue) : outer (qset s q v) = outer s := by
  cases q <;> simp [qset]
@[simp] theorem qupd_outer (s : State) (q : QueueId) (f : Queue → Queue) : outer (qupd s q f) = outer s := by simp [qupd]
@[simp] theorem portUpd_outer (p : Port) (f : RingPort → RingPort) (s : State) : outer (portUpd p f s) = outer s := by
  simp [portUpd]
@[simp] theorem sendMsg_outer (p : Port) (m : RingMsg) (s : State) : outer (sendMsg p m s) = outer s := by
  simp only [sendMsg]
  split <;> simp
@[simp] theorem writeEvent_outer (e : EvRec) (s : State) : outer (writeEvent e s) = outer s := by
  simp only [writeEvent, raiseVector_outer, outer_ev, hostStore_outer]
@[simp] theorem deliverEvent_outer (e : EvRec) (s : State) : outer (deliverEvent e s) = outer s := by simp [deliverEvent]
@[simp] theorem flushEvent_outer (s : State) : outer (flushEvent s) = outer s := by
  simp only [flushEvent]
  split <;> simp
@[simp] theorem streamEvent_outer (e : EvRec) (s : State) : outer (streamEvent e s) = outer s := by simp [streamEvent]

/-- An event changes the event path, the endpoint and the ring only (R415, R416, R452). -/
@[simp] theorem post_outer (code : Nat) (set : Bool) (args : List Nat) (s : State) : outer (post code set args s) = outer s := by
  simp [post]
@[simp] theorem postEv_outer (code : Nat) (args : List Nat) (s : State) : outer (postEv code args s) = outer s := by
  simp [postEv]
@[simp] theorem noteStatus_outer (old s : State) : outer (noteStatus old s) = outer s := by simp [noteStatus]
@[simp] theorem violation_outer (last : Nat) (s : State) : outer (violation last s) = outer s := by simp [violation]
@[simp] theorem writeRingRecord_outer (q : QueueId) (r : Rec) (s : State) : outer (writeRingRecord q r s) = outer s := by
  simp [writeRingRecord]
@[simp] theorem writePad_outer (q : QueueId) (r : Rec) (s : State) : outer (writePad q r s) = outer s := by simp [writePad]
@[simp] theorem sendResponse_outer (o : RespOut) (s : State) : outer (sendResponse o s) = outer s := by simp [sendResponse]
@[simp] theorem writeRelayRecord_outer (r : Rec) (s : State) : outer (writeRelayRecord r s) = outer s := by
  simp only [writeRelayRecord, outer_ite, sendResponse_outer, outer_ring, qset_outer, ite_self]
@[simp] theorem writeRecord_outer (q : QueueId) (r : Rec) (s : State) : outer (writeRecord q r s) = outer s := by
  cases q <;>
    simp only [writeRecord, writeRelayRecord_outer, writeRingRecord_outer, outer_swiys]

/-- A response record changes its queue, the endpoint, host memory, counters and the ring only (R384 to R386). -/
@[simp] theorem emit_outer (q : QueueId) (r : Rec) (s : State) : outer (emit q r s) = outer s := by simp [emit]
@[simp] theorem flushRecord_outer (q : QueueId) (s : State) : outer (flushRecord q s) = outer s := by
  simp only [flushRecord]
  split <;> simp

/-- The completion of a command changes no outer field. -/
@[simp] theorem completeFrom_outer (src : Nat) (r : Ref) (st : Nat) (res : List Byte) (s : State) :
    outer (completeFrom src r st res s) = outer s := by
  simp only [completeFrom]
  split <;> simp
@[simp] theorem complete_outer (r : Ref) (st : Nat) (res : List Byte) (s : State) :
    outer (complete r st res s) = outer s := by simp [complete]

/-- The ACCEPTED of a command changes no outer field. -/
@[simp] theorem acceptFrom_outer (src : Nat) (r : Ref) (s : State) : outer (acceptFrom src r s) = outer s := by
  simp only [acceptFrom]
  split <;> simp
@[simp] theorem appendOpen_outer (q : QueueId) (l : List Byte) (s : State) : outer (appendOpen q l s) = outer s := by
  simp [appendOpen]
@[simp] theorem closePacket_outer (q : QueueId) (n u : Nat) (s : State) : outer (closePacket q n u s) = outer s := by
  simp only [closePacket, outer_ite, outer_swiys, qupd_outer, qset_outer, emit_outer, ite_self]

/-- A submission changes no outer field (R387). -/
@[simp] theorem submit_outer (q : QueueId) (l : List Byte) (s : State) : outer (submit q l s) = outer s := by
  simp only [submit]
  (repeat' split) <;> simp

/-- The start of a command changes no outer field (R395). -/
@[simp] theorem takeHead_outer (q : QueueId) (w : WaitPk) (s : State) : outer (takeHead q w s) = outer s := by
  simp only [takeHead, outer_ite, countSrc_outer, outer_swiys, qupd_outer, ite_self]
@[simp] theorem begun_outer (op : Nat) (pk : Packet) (s : State) : outer (begun op pk s) = outer s := by
  simp [begun, submitted]
@[simp] theorem endsOk_outer (pk : Packet) (res : List Byte) (s t : State) : outer (endsOk pk res s t) = outer t := by
  simp [endsOk]
@[simp] theorem accepts_outer (pk : Packet) (s t : State) : outer (accepts pk s t) = outer t := by simp [accepts]
@[simp] theorem refusedWith_outer (st : Nat) (pk : Packet) (s t : State) : outer (refusedWith st pk s t) = outer t := by
  simp [refusedWith]

end Sys2Proof.Machine
end

