-- ==== Sys2Proof/Laws/Serve.lean ====
section
/-! SUPPORT. What a command that starts at once does: its checks, then its effect, then its answer. -/

namespace Sys2Proof.Machine

/-- The facts that `starts` puts together. -/
theorem starts_iff (op : Nat) (pk : Packet) (s : State) :
    starts op pk s = true ↔ pk.queue ≠ .relay ∧ pk.target = 0 ∧ (qget s pk.queue).waiting = [] ∧
      (qget (submitted op pk s) pk.queue).waiting = [waitPk op pk s] ∧ chosen (submitted op pk s) = some pk.queue ∧
      headerStatus (packetBytes op pk) (begun op pk s) = stOk ∧ gateStatus op s = stOk := by
  simp [starts, reaches, and_assoc]

/-- The facts that `reaches` puts together. -/
theorem reaches_iff (op : Nat) (pk : Packet) (s : State) :
    reaches op pk s = true ↔ pk.queue ≠ .relay ∧ pk.target = 0 ∧ (qget s pk.queue).waiting = [] ∧
      (qget (submitted op pk s) pk.queue).waiting = [waitPk op pk s] ∧ chosen (submitted op pk s) = some pk.queue ∧
      headerStatus (packetBytes op pk) (begun op pk s) = stOk := by
  simp [reaches, and_assoc]

/-- R486 and R488 judge what a submission and a start leave alone. -/
theorem gateStatus_begun (op : Nat) (pk : Packet) (s : State) : gateStatus op (begun op pk s) = gateStatus op s := by
  have h := congrArg State.fw (begun_outer op pk s)
  change (begun op pk s).fw = s.fw at h
  simp [gateStatus, h]

/-- A packet that starts has reached step 7. -/
theorem starts_reaches {op : Nat} {pk : Packet} {s : State} (h : starts op pk s = true) : reaches op pk s = true :=
  ((Bool.and_eq_true _ _).mp h).1

/-- A packet that reaches step 7 of R382 runs its command on the state in which it has started. -/
theorem serve_starts {op : Nat} {pk : Packet} {s : State} (h : reaches op pk s = true) (check : Ctx → State → Nat)
    (run : Ctx → State → Res) : serve op check run pk s = runCommand op check run (ctxOf pk s) (begun op pk s) := by
  obtain ⟨hq, ht, he, hw, hc, hh⟩ := (reaches_iff op pk s).1 h
  have hw' : (qget (submit pk.queue (packetBytes op pk) s) pk.queue).waiting = [waitPk op pk s] := hw
  have hc' : chosen (submit pk.queue (packetBytes op pk) s) = some pk.queue := hc
  have hh' : headerStatus (waitPk op pk s).bytes (takeHead pk.queue (waitPk op pk s) (submit pk.queue (packetBytes op pk) s)) = stOk := hh
  simp [serve, he, hq, hw', hc', startCommand, hh', ht]
  simp [waitPk, begun, submitted, ctxOf, refOf]

/-- A command that starts and whose checks all pass answers with what its effect answers. -/
theorem serve_runs {op : Nat} {pk : Packet} {s : State} (h : starts op pk s = true) {check : Ctx → State → Nat}
    {run : Ctx → State → Res} (hk : check (ctxOf pk s) (begun op pk s) = stOk) :
    serve op check run pk s = answer (refOf pk s) (run (ctxOf pk s) (begun op pk s)) := by
  have g : gateStatus op (begun op pk s) = 0 := (gateStatus_begun op pk s).trans ((starts_iff op pk s).1 h).2.2.2.2.2.2
  have k' : (check (ctxOf pk s) (begun op pk s) != stOk) = false := by simp [hk]
  simp [serve_starts (starts_reaches h), runCommand, g, k', firstBad]
  rfl

/-- A command that starts and fails its checks is refused with the first failing status, without effect. -/
theorem serve_refuses {op : Nat} {pk : Packet} {s : State} (h : starts op pk s = true) {check : Ctx → State → Nat}
    {run : Ctx → State → Res} {st : Nat} (hk : check (ctxOf pk s) (begun op pk s) = st) (h0 : st ≠ stOk) :
    serve op check run pk s = refusedWith st pk s (begun op pk s) := by
  have g : gateStatus op (begun op pk s) = 0 := (gateStatus_begun op pk s).trans ((starts_iff op pk s).1 h).2.2.2.2.2.2
  rw [serve_starts (starts_reaches h)]
  simp only [runCommand, hk, g, firstBad]
  simp [h0, refusedWith, ctxOf]

/-! The three answers. -/

/-- An effect that is done is answered OK without a result. -/
theorem answer_done (pk : Packet) (s t : State) : answer (refOf pk s) (done t) = endsOk pk [] s t := rfl
/-- An effect that is done is answered OK with its result. -/
theorem answer_doneWith (pk : Packet) (s t : State) (l : List Byte) : answer (refOf pk s) (doneWith t l) = endsOk pk l s t := rfl
/-- An effect that goes on is answered ACCEPTED. -/
theorem answer_later (pk : Packet) (s t : State) : answer (refOf pk s) (later t) = accepts pk s t := rfl

/-! Frames. -/

@[simp] theorem sendCopy_outer (p : Port) (w tag : Nat) (s : State) : outer (sendCopy p w tag s) = outer s := by
  simp only [sendCopy]
  split <;> simp
@[simp] theorem pairAnswer_outer (k w st : Nat) (s : State) : outer (pairAnswer k w st s) = outer s := by
  simp only [pairAnswer]
  split
  · rfl
  · split <;> simp
@[simp] theorem relayAnswer_outer (r : Relay) (st : Nat) (res : List Byte) (s : State) :
    outer (relayAnswer r st res s) = outer s := by
  simp only [relayAnswer]
  split <;> simp

/-- A relay changes no outer field (R447, R448). -/
@[simp] theorem relayStart_outer (w : Nat) (bytes : List Byte) (ref : Ref) (pair : Option Nat) (s : State) :
    outer (relayStart w bytes ref pair s) = outer s := by
  simp only [relayStart]
  (repeat' split) <;> simp
@[simp] theorem refuseHeader_outer (ref : Ref) (w : WaitPk) (st : Nat) (s : State) :
    outer (refuseHeader ref w st s) = outer s := by simp [refuseHeader]
@[simp] theorem answer_outer (ref : Ref) (r : Res) : outer (answer ref r) = outer r.s := by
  simp only [answer]
  (repeat' split) <;> simp

/-- What depends on the outer part alone and the effect of a command keeps, the command keeps. -/
theorem serve_frame {α : Type} (g : State → α) (hg : ∀ s t, outer t = outer s → g t = g s) {run : Ctx → State → Res}
    (hr : ∀ c s, g (run c s).s = g s) (op : Nat) (check : Ctx → State → Nat) (pk : Packet) (s : State) :
    g (serve op check run pk s) = g s := by
  have hrun : ∀ c t, g (runCommand op check run c t) = g t := by
    intro c t
    simp only [runCommand]
    split
    · exact (hg _ _ (answer_outer _ _)).trans (hr c t)
    · exact hg _ _ (by simp)
  have hstart : ∀ w t, g (startCommand op check run pk w t) = g t := by
    intro w t
    have ht : g (takeHead pk.queue w t) = g t := hg _ _ (takeHead_outer _ _ _)
    simp only [startCommand]
    generalize (if pk.queue = .relay then stOk else headerStatus w.bytes (takeHead pk.queue w t)) = st
    split
    · exact (hg _ _ (refuseHeader_outer _ _ _ _)).trans ht
    · split
      · exact (hg _ _ (relayStart_outer _ _ _ _ _)).trans ht
      · exact (hrun _ _).trans ht
  have hsub : g (if (qget s pk.queue).waiting.any (fun w => w.bytes == packetBytes op pk) || pk.queue = .relay then s
      else submit pk.queue (packetBytes op pk) s) = g s := by
    split
    · rfl
    · exact hg _ _ (submit_outer _ _ _)
  simp only [serve]
  generalize (if (qget s pk.queue).waiting.any (fun w => w.bytes == packetBytes op pk) || pk.queue = .relay then s
      else submit pk.queue (packetBytes op pk) s) = s1 at hsub ⊢
  split
  · exact hsub
  · split
    · exact (hstart _ _).trans hsub
    · exact hsub

end Sys2Proof.Machine
end

