-- ==== Sys2Proof/Laws/State.lean ====
section
/-! SUPPORT. What each update of the state leaves alone, and the value it gives the field it writes. -/

namespace Sys2Proof.Machine

@[simp] theorem spireUpd_frame (c : Carrier) (f : Spire → Spire) (s : State) :
    (spireUpd c f s).now = s.now ∧ (spireUpd c f s).tod = s.tod ∧ (spireUpd c f s).subns = s.subns ∧
    (spireUpd c f s).free = s.free ∧ (spireUpd c f s).hostMem = s.hostMem ∧ (spireUpd c f s).swiys = s.swiys ∧
    (spireUpd c f s).ev = s.ev ∧ (spireUpd c f s).pcie = s.pcie ∧ (spireUpd c f s).dma = s.dma ∧ (spireUpd c f s).cnt = s.cnt ∧
    (spireUpd c f s).page = s.page ∧ (spireUpd c f s).mode = s.mode ∧ (spireUpd c f s).clk = s.clk ∧
    (spireUpd c f s).ctl = s.ctl ∧ (spireUpd c f s).eng = s.eng ∧ (spireUpd c f s).power = s.power ∧
    (spireUpd c f s).pins = s.pins ∧ (spireUpd c f s).therm = s.therm ∧ (spireUpd c f s).journal = s.journal ∧
    (spireUpd c f s).fw = s.fw ∧ (spireUpd c f s).ring = s.ring ∧ (spireUpd c f s).plan = s.plan ∧
    (spireUpd c f s).line = s.line ∧ (spireUpd c f s).txFc = s.txFc ∧ (spireUpd c f s).cal = s.cal ∧
    (spireUpd c f s).ten = s.ten ∧ (spireUpd c f s).skew = s.skew ∧ (spireUpd c f s).mrg = s.mrg ∧
    (spireUpd c f s).host = s.host ∧ (spireUpd c f s).pm = s.pm ∧ (spireUpd c f s).turret = s.turret ∧
    (spireUpd c f s).mem = s.mem ∧ (spireUpd c f s).bel = s.bel ∧ (spireUpd c f s).test = s.test ∧
    (spireUpd c f s).pending = s.pending := by
  and_intros <;> rfl

@[simp] theorem txUpd_frame (c : Carrier) (f : Tx → Tx) (s : State) :
    (txUpd c f s).now = s.now ∧ (txUpd c f s).tod = s.tod ∧ (txUpd c f s).subns = s.subns ∧ (txUpd c f s).free = s.free ∧
    (txUpd c f s).hostMem = s.hostMem ∧ (txUpd c f s).swiys = s.swiys ∧ (txUpd c f s).ev = s.ev ∧ (txUpd c f s).pcie = s.pcie ∧
    (txUpd c f s).dma = s.dma ∧ (txUpd c f s).cnt = s.cnt ∧ (txUpd c f s).page = s.page ∧ (txUpd c f s).mode = s.mode ∧
    (txUpd c f s).clk = s.clk ∧ (txUpd c f s).ctl = s.ctl ∧ (txUpd c f s).eng = s.eng ∧ (txUpd c f s).power = s.power ∧
    (txUpd c f s).pins = s.pins ∧ (txUpd c f s).therm = s.therm ∧ (txUpd c f s).journal = s.journal ∧ (txUpd c f s).fw = s.fw ∧
    (txUpd c f s).ring = s.ring ∧ (txUpd c f s).plan = s.plan ∧ (txUpd c f s).line = s.line ∧ (txUpd c f s).txFc = s.txFc ∧
    (txUpd c f s).cal = s.cal ∧ (txUpd c f s).ten = s.ten ∧ (txUpd c f s).skew = s.skew ∧ (txUpd c f s).mrg = s.mrg ∧
    (txUpd c f s).host = s.host ∧ (txUpd c f s).pm = s.pm ∧ (txUpd c f s).turret = s.turret ∧ (txUpd c f s).mem = s.mem ∧
    (txUpd c f s).bel = s.bel ∧ (txUpd c f s).test = s.test ∧ (txUpd c f s).pending = s.pending := by
  and_intros <;> rfl

@[simp] theorem rxUpd_frame (c : Carrier) (f : Rx → Rx) (s : State) :
    (rxUpd c f s).now = s.now ∧ (rxUpd c f s).tod = s.tod ∧ (rxUpd c f s).subns = s.subns ∧ (rxUpd c f s).free = s.free ∧
    (rxUpd c f s).hostMem = s.hostMem ∧ (rxUpd c f s).swiys = s.swiys ∧ (rxUpd c f s).ev = s.ev ∧ (rxUpd c f s).pcie = s.pcie ∧
    (rxUpd c f s).dma = s.dma ∧ (rxUpd c f s).cnt = s.cnt ∧ (rxUpd c f s).page = s.page ∧ (rxUpd c f s).mode = s.mode ∧
    (rxUpd c f s).clk = s.clk ∧ (rxUpd c f s).ctl = s.ctl ∧ (rxUpd c f s).eng = s.eng ∧ (rxUpd c f s).power = s.power ∧
    (rxUpd c f s).pins = s.pins ∧ (rxUpd c f s).therm = s.therm ∧ (rxUpd c f s).journal = s.journal ∧ (rxUpd c f s).fw = s.fw ∧
    (rxUpd c f s).ring = s.ring ∧ (rxUpd c f s).plan = s.plan ∧ (rxUpd c f s).line = s.line ∧ (rxUpd c f s).txFc = s.txFc ∧
    (rxUpd c f s).cal = s.cal ∧ (rxUpd c f s).ten = s.ten ∧ (rxUpd c f s).skew = s.skew ∧ (rxUpd c f s).mrg = s.mrg ∧
    (rxUpd c f s).host = s.host ∧ (rxUpd c f s).pm = s.pm ∧ (rxUpd c f s).turret = s.turret ∧ (rxUpd c f s).mem = s.mem ∧
    (rxUpd c f s).bel = s.bel ∧ (rxUpd c f s).test = s.test ∧ (rxUpd c f s).pending = s.pending := by
  and_intros <;> rfl

@[simp] theorem calUpd_frame (c : Carrier) (f : Cal → Cal) (s : State) :
    (calUpd c f s).now = s.now ∧ (calUpd c f s).tod = s.tod ∧ (calUpd c f s).subns = s.subns ∧ (calUpd c f s).free = s.free ∧
    (calUpd c f s).hostMem = s.hostMem ∧ (calUpd c f s).swiys = s.swiys ∧ (calUpd c f s).ev = s.ev ∧
    (calUpd c f s).pcie = s.pcie ∧ (calUpd c f s).dma = s.dma ∧ (calUpd c f s).cnt = s.cnt ∧ (calUpd c f s).page = s.page ∧
    (calUpd c f s).mode = s.mode ∧ (calUpd c f s).clk = s.clk ∧ (calUpd c f s).ctl = s.ctl ∧ (calUpd c f s).eng = s.eng ∧
    (calUpd c f s).power = s.power ∧ (calUpd c f s).pins = s.pins ∧ (calUpd c f s).therm = s.therm ∧
    (calUpd c f s).journal = s.journal ∧ (calUpd c f s).fw = s.fw ∧ (calUpd c f s).ring = s.ring ∧
    (calUpd c f s).plan = s.plan ∧ (calUpd c f s).line = s.line ∧ (calUpd c f s).txFc = s.txFc ∧ (calUpd c f s).cal = s.cal ∧
    (calUpd c f s).ten = s.ten ∧ (calUpd c f s).skew = s.skew ∧ (calUpd c f s).mrg = s.mrg ∧ (calUpd c f s).host = s.host ∧
    (calUpd c f s).pm = s.pm ∧ (calUpd c f s).turret = s.turret ∧ (calUpd c f s).mem = s.mem ∧ (calUpd c f s).bel = s.bel ∧
    (calUpd c f s).test = s.test ∧ (calUpd c f s).pending = s.pending := by
  and_intros <;> rfl

@[simp] theorem acqUpd_frame (c : Carrier) (f : Acq → Acq) (s : State) :
    (acqUpd c f s).now = s.now ∧ (acqUpd c f s).tod = s.tod ∧ (acqUpd c f s).subns = s.subns ∧ (acqUpd c f s).free = s.free ∧
    (acqUpd c f s).hostMem = s.hostMem ∧ (acqUpd c f s).swiys = s.swiys ∧ (acqUpd c f s).ev = s.ev ∧
    (acqUpd c f s).pcie = s.pcie ∧ (acqUpd c f s).dma = s.dma ∧ (acqUpd c f s).cnt = s.cnt ∧ (acqUpd c f s).page = s.page ∧
    (acqUpd c f s).mode = s.mode ∧ (acqUpd c f s).clk = s.clk ∧ (acqUpd c f s).ctl = s.ctl ∧ (acqUpd c f s).eng = s.eng ∧
    (acqUpd c f s).power = s.power ∧ (acqUpd c f s).pins = s.pins ∧ (acqUpd c f s).therm = s.therm ∧
    (acqUpd c f s).journal = s.journal ∧ (acqUpd c f s).fw = s.fw ∧ (acqUpd c f s).ring = s.ring ∧
    (acqUpd c f s).plan = s.plan ∧ (acqUpd c f s).line = s.line ∧ (acqUpd c f s).txFc = s.txFc ∧ (acqUpd c f s).cal = s.cal ∧
    (acqUpd c f s).ten = s.ten ∧ (acqUpd c f s).skew = s.skew ∧ (acqUpd c f s).mrg = s.mrg ∧ (acqUpd c f s).host = s.host ∧
    (acqUpd c f s).pm = s.pm ∧ (acqUpd c f s).turret = s.turret ∧ (acqUpd c f s).mem = s.mem ∧ (acqUpd c f s).bel = s.bel ∧
    (acqUpd c f s).test = s.test ∧ (acqUpd c f s).pending = s.pending := by
  and_intros <;> rfl

@[simp] theorem eqUpd_frame (c : Carrier) (f : Eq → Eq) (s : State) :
    (eqUpd c f s).now = s.now ∧ (eqUpd c f s).tod = s.tod ∧ (eqUpd c f s).subns = s.subns ∧ (eqUpd c f s).free = s.free ∧
    (eqUpd c f s).hostMem = s.hostMem ∧ (eqUpd c f s).swiys = s.swiys ∧ (eqUpd c f s).ev = s.ev ∧ (eqUpd c f s).pcie = s.pcie ∧
    (eqUpd c f s).dma = s.dma ∧ (eqUpd c f s).cnt = s.cnt ∧ (eqUpd c f s).page = s.page ∧ (eqUpd c f s).mode = s.mode ∧
    (eqUpd c f s).clk = s.clk ∧ (eqUpd c f s).ctl = s.ctl ∧ (eqUpd c f s).eng = s.eng ∧ (eqUpd c f s).power = s.power ∧
    (eqUpd c f s).pins = s.pins ∧ (eqUpd c f s).therm = s.therm ∧ (eqUpd c f s).journal = s.journal ∧ (eqUpd c f s).fw = s.fw ∧
    (eqUpd c f s).ring = s.ring ∧ (eqUpd c f s).plan = s.plan ∧ (eqUpd c f s).line = s.line ∧ (eqUpd c f s).txFc = s.txFc ∧
    (eqUpd c f s).cal = s.cal ∧ (eqUpd c f s).ten = s.ten ∧ (eqUpd c f s).skew = s.skew ∧ (eqUpd c f s).mrg = s.mrg ∧
    (eqUpd c f s).host = s.host ∧ (eqUpd c f s).pm = s.pm ∧ (eqUpd c f s).turret = s.turret ∧ (eqUpd c f s).mem = s.mem ∧
    (eqUpd c f s).bel = s.bel ∧ (eqUpd c f s).test = s.test ∧ (eqUpd c f s).pending = s.pending := by
  and_intros <;> rfl

@[simp] theorem monUpd_frame (c : Carrier) (i : Nat) (f : Mon → Mon) (s : State) :
    (monUpd c i f s).now = s.now ∧ (monUpd c i f s).tod = s.tod ∧ (monUpd c i f s).subns = s.subns ∧
    (monUpd c i f s).free = s.free ∧ (monUpd c i f s).hostMem = s.hostMem ∧ (monUpd c i f s).swiys = s.swiys ∧
    (monUpd c i f s).ev = s.ev ∧ (monUpd c i f s).pcie = s.pcie ∧ (monUpd c i f s).dma = s.dma ∧ (monUpd c i f s).cnt = s.cnt ∧
    (monUpd c i f s).page = s.page ∧ (monUpd c i f s).mode = s.mode ∧ (monUpd c i f s).clk = s.clk ∧
    (monUpd c i f s).ctl = s.ctl ∧ (monUpd c i f s).eng = s.eng ∧ (monUpd c i f s).power = s.power ∧
    (monUpd c i f s).pins = s.pins ∧ (monUpd c i f s).therm = s.therm ∧ (monUpd c i f s).journal = s.journal ∧
    (monUpd c i f s).fw = s.fw ∧ (monUpd c i f s).ring = s.ring ∧ (monUpd c i f s).plan = s.plan ∧
    (monUpd c i f s).line = s.line ∧ (monUpd c i f s).txFc = s.txFc ∧ (monUpd c i f s).cal = s.cal ∧
    (monUpd c i f s).ten = s.ten ∧ (monUpd c i f s).skew = s.skew ∧ (monUpd c i f s).mrg = s.mrg ∧
    (monUpd c i f s).host = s.host ∧ (monUpd c i f s).pm = s.pm ∧ (monUpd c i f s).turret = s.turret ∧
    (monUpd c i f s).mem = s.mem ∧ (monUpd c i f s).bel = s.bel ∧ (monUpd c i f s).test = s.test ∧
    (monUpd c i f s).pending = s.pending := by
  and_intros <;> rfl

@[simp] theorem fecUpd_frame (c : Carrier) (f : Fec → Fec) (s : State) :
    (fecUpd c f s).now = s.now ∧ (fecUpd c f s).tod = s.tod ∧ (fecUpd c f s).subns = s.subns ∧ (fecUpd c f s).free = s.free ∧
    (fecUpd c f s).hostMem = s.hostMem ∧ (fecUpd c f s).swiys = s.swiys ∧ (fecUpd c f s).ev = s.ev ∧
    (fecUpd c f s).pcie = s.pcie ∧ (fecUpd c f s).dma = s.dma ∧ (fecUpd c f s).cnt = s.cnt ∧ (fecUpd c f s).page = s.page ∧
    (fecUpd c f s).mode = s.mode ∧ (fecUpd c f s).clk = s.clk ∧ (fecUpd c f s).ctl = s.ctl ∧ (fecUpd c f s).eng = s.eng ∧
    (fecUpd c f s).power = s.power ∧ (fecUpd c f s).pins = s.pins ∧ (fecUpd c f s).therm = s.therm ∧
    (fecUpd c f s).journal = s.journal ∧ (fecUpd c f s).fw = s.fw ∧ (fecUpd c f s).ring = s.ring ∧
    (fecUpd c f s).plan = s.plan ∧ (fecUpd c f s).spire = s.spire ∧ (fecUpd c f s).txFc = s.txFc ∧ (fecUpd c f s).cal = s.cal ∧
    (fecUpd c f s).ten = s.ten ∧ (fecUpd c f s).skew = s.skew ∧ (fecUpd c f s).mrg = s.mrg ∧ (fecUpd c f s).host = s.host ∧
    (fecUpd c f s).pm = s.pm ∧ (fecUpd c f s).turret = s.turret ∧ (fecUpd c f s).mem = s.mem ∧ (fecUpd c f s).bel = s.bel ∧
    (fecUpd c f s).test = s.test ∧ (fecUpd c f s).pending = s.pending := by
  and_intros <;> rfl

@[simp] theorem frmUpd_frame (c : Carrier) (f : Frm → Frm) (s : State) :
    (frmUpd c f s).now = s.now ∧ (frmUpd c f s).tod = s.tod ∧ (frmUpd c f s).subns = s.subns ∧ (frmUpd c f s).free = s.free ∧
    (frmUpd c f s).hostMem = s.hostMem ∧ (frmUpd c f s).swiys = s.swiys ∧ (frmUpd c f s).ev = s.ev ∧
    (frmUpd c f s).pcie = s.pcie ∧ (frmUpd c f s).dma = s.dma ∧ (frmUpd c f s).cnt = s.cnt ∧ (frmUpd c f s).page = s.page ∧
    (frmUpd c f s).mode = s.mode ∧ (frmUpd c f s).clk = s.clk ∧ (frmUpd c f s).ctl = s.ctl ∧ (frmUpd c f s).eng = s.eng ∧
    (frmUpd c f s).power = s.power ∧ (frmUpd c f s).pins = s.pins ∧ (frmUpd c f s).therm = s.therm ∧
    (frmUpd c f s).journal = s.journal ∧ (frmUpd c f s).fw = s.fw ∧ (frmUpd c f s).ring = s.ring ∧
    (frmUpd c f s).plan = s.plan ∧ (frmUpd c f s).spire = s.spire ∧ (frmUpd c f s).txFc = s.txFc ∧ (frmUpd c f s).cal = s.cal ∧
    (frmUpd c f s).ten = s.ten ∧ (frmUpd c f s).skew = s.skew ∧ (frmUpd c f s).mrg = s.mrg ∧ (frmUpd c f s).host = s.host ∧
    (frmUpd c f s).pm = s.pm ∧ (frmUpd c f s).turret = s.turret ∧ (frmUpd c f s).mem = s.mem ∧ (frmUpd c f s).bel = s.bel ∧
    (frmUpd c f s).test = s.test ∧ (frmUpd c f s).pending = s.pending := by
  and_intros <;> rfl

@[simp] theorem tenUpd_frame (t : Nat) (f : Tenant → Tenant) (s : State) :
    (tenUpd t f s).now = s.now ∧ (tenUpd t f s).tod = s.tod ∧ (tenUpd t f s).subns = s.subns ∧ (tenUpd t f s).free = s.free ∧
    (tenUpd t f s).hostMem = s.hostMem ∧ (tenUpd t f s).swiys = s.swiys ∧ (tenUpd t f s).ev = s.ev ∧
    (tenUpd t f s).pcie = s.pcie ∧ (tenUpd t f s).dma = s.dma ∧ (tenUpd t f s).cnt = s.cnt ∧ (tenUpd t f s).page = s.page ∧
    (tenUpd t f s).mode = s.mode ∧ (tenUpd t f s).clk = s.clk ∧ (tenUpd t f s).ctl = s.ctl ∧ (tenUpd t f s).eng = s.eng ∧
    (tenUpd t f s).power = s.power ∧ (tenUpd t f s).pins = s.pins ∧ (tenUpd t f s).therm = s.therm ∧
    (tenUpd t f s).journal = s.journal ∧ (tenUpd t f s).fw = s.fw ∧ (tenUpd t f s).ring = s.ring ∧
    (tenUpd t f s).plan = s.plan ∧ (tenUpd t f s).spire = s.spire ∧ (tenUpd t f s).line = s.line ∧
    (tenUpd t f s).txFc = s.txFc ∧ (tenUpd t f s).cal = s.cal ∧ (tenUpd t f s).skew = s.skew ∧ (tenUpd t f s).mrg = s.mrg ∧
    (tenUpd t f s).host = s.host ∧ (tenUpd t f s).pm = s.pm ∧ (tenUpd t f s).turret = s.turret ∧ (tenUpd t f s).mem = s.mem ∧
    (tenUpd t f s).bel = s.bel ∧ (tenUpd t f s).test = s.test ∧ (tenUpd t f s).pending = s.pending := by
  and_intros <;> rfl

@[simp] theorem legUpd_frame (c : Carrier) (f : Leg → Leg) (s : State) :
    (legUpd c f s).now = s.now ∧ (legUpd c f s).tod = s.tod ∧ (legUpd c f s).subns = s.subns ∧ (legUpd c f s).free = s.free ∧
    (legUpd c f s).hostMem = s.hostMem ∧ (legUpd c f s).swiys = s.swiys ∧ (legUpd c f s).ev = s.ev ∧
    (legUpd c f s).pcie = s.pcie ∧ (legUpd c f s).dma = s.dma ∧ (legUpd c f s).cnt = s.cnt ∧ (legUpd c f s).page = s.page ∧
    (legUpd c f s).mode = s.mode ∧ (legUpd c f s).clk = s.clk ∧ (legUpd c f s).ctl = s.ctl ∧ (legUpd c f s).eng = s.eng ∧
    (legUpd c f s).power = s.power ∧ (legUpd c f s).pins = s.pins ∧ (legUpd c f s).therm = s.therm ∧
    (legUpd c f s).journal = s.journal ∧ (legUpd c f s).fw = s.fw ∧ (legUpd c f s).ring = s.ring ∧
    (legUpd c f s).plan = s.plan ∧ (legUpd c f s).spire = s.spire ∧ (legUpd c f s).line = s.line ∧
    (legUpd c f s).txFc = s.txFc ∧ (legUpd c f s).cal = s.cal ∧ (legUpd c f s).ten = s.ten ∧ (legUpd c f s).skew = s.skew ∧
    (legUpd c f s).host = s.host ∧ (legUpd c f s).pm = s.pm ∧ (legUpd c f s).turret = s.turret ∧ (legUpd c f s).mem = s.mem ∧
    (legUpd c f s).bel = s.bel ∧ (legUpd c f s).test = s.test ∧ (legUpd c f s).pending = s.pending := by
  and_intros <;> rfl

@[simp] theorem laneUpd_frame (l : Nat) (f : HostLane → HostLane) (s : State) :
    (laneUpd l f s).now = s.now ∧ (laneUpd l f s).tod = s.tod ∧ (laneUpd l f s).subns = s.subns ∧
    (laneUpd l f s).free = s.free ∧ (laneUpd l f s).hostMem = s.hostMem ∧ (laneUpd l f s).swiys = s.swiys ∧
    (laneUpd l f s).ev = s.ev ∧ (laneUpd l f s).pcie = s.pcie ∧ (laneUpd l f s).dma = s.dma ∧ (laneUpd l f s).cnt = s.cnt ∧
    (laneUpd l f s).page = s.page ∧ (laneUpd l f s).mode = s.mode ∧ (laneUpd l f s).clk = s.clk ∧ (laneUpd l f s).ctl = s.ctl ∧
    (laneUpd l f s).eng = s.eng ∧ (laneUpd l f s).power = s.power ∧ (laneUpd l f s).pins = s.pins ∧
    (laneUpd l f s).therm = s.therm ∧ (laneUpd l f s).journal = s.journal ∧ (laneUpd l f s).fw = s.fw ∧
    (laneUpd l f s).ring = s.ring ∧ (laneUpd l f s).plan = s.plan ∧ (laneUpd l f s).spire = s.spire ∧
    (laneUpd l f s).line = s.line ∧ (laneUpd l f s).txFc = s.txFc ∧ (laneUpd l f s).cal = s.cal ∧ (laneUpd l f s).ten = s.ten ∧
    (laneUpd l f s).skew = s.skew ∧ (laneUpd l f s).mrg = s.mrg ∧ (laneUpd l f s).pm = s.pm ∧
    (laneUpd l f s).turret = s.turret ∧ (laneUpd l f s).mem = s.mem ∧ (laneUpd l f s).bel = s.bel ∧
    (laneUpd l f s).test = s.test ∧ (laneUpd l f s).pending = s.pending := by
  and_intros <;> rfl

@[simp] theorem groupUpd_frame (g : Nat) (f : FlexGroup → FlexGroup) (s : State) :
    (groupUpd g f s).now = s.now ∧ (groupUpd g f s).tod = s.tod ∧ (groupUpd g f s).subns = s.subns ∧
    (groupUpd g f s).free = s.free ∧ (groupUpd g f s).hostMem = s.hostMem ∧ (groupUpd g f s).swiys = s.swiys ∧
    (groupUpd g f s).ev = s.ev ∧ (groupUpd g f s).pcie = s.pcie ∧ (groupUpd g f s).dma = s.dma ∧ (groupUpd g f s).cnt = s.cnt ∧
    (groupUpd g f s).page = s.page ∧ (groupUpd g f s).mode = s.mode ∧ (groupUpd g f s).clk = s.clk ∧
    (groupUpd g f s).ctl = s.ctl ∧ (groupUpd g f s).eng = s.eng ∧ (groupUpd g f s).power = s.power ∧
    (groupUpd g f s).pins = s.pins ∧ (groupUpd g f s).therm = s.therm ∧ (groupUpd g f s).journal = s.journal ∧
    (groupUpd g f s).fw = s.fw ∧ (groupUpd g f s).ring = s.ring ∧ (groupUpd g f s).plan = s.plan ∧
    (groupUpd g f s).spire = s.spire ∧ (groupUpd g f s).line = s.line ∧ (groupUpd g f s).txFc = s.txFc ∧
    (groupUpd g f s).cal = s.cal ∧ (groupUpd g f s).ten = s.ten ∧ (groupUpd g f s).skew = s.skew ∧
    (groupUpd g f s).mrg = s.mrg ∧ (groupUpd g f s).pm = s.pm ∧ (groupUpd g f s).turret = s.turret ∧
    (groupUpd g f s).mem = s.mem ∧ (groupUpd g f s).bel = s.bel ∧ (groupUpd g f s).test = s.test ∧
    (groupUpd g f s).pending = s.pending := by
  and_intros <;> rfl

@[simp] theorem pmUpd_frame (e : Nat) (f : PmEntity → PmEntity) (s : State) :
    (pmUpd e f s).now = s.now ∧ (pmUpd e f s).tod = s.tod ∧ (pmUpd e f s).subns = s.subns ∧ (pmUpd e f s).free = s.free ∧
    (pmUpd e f s).hostMem = s.hostMem ∧ (pmUpd e f s).swiys = s.swiys ∧ (pmUpd e f s).ev = s.ev ∧ (pmUpd e f s).pcie = s.pcie ∧
    (pmUpd e f s).dma = s.dma ∧ (pmUpd e f s).cnt = s.cnt ∧ (pmUpd e f s).page = s.page ∧ (pmUpd e f s).mode = s.mode ∧
    (pmUpd e f s).clk = s.clk ∧ (pmUpd e f s).ctl = s.ctl ∧ (pmUpd e f s).eng = s.eng ∧ (pmUpd e f s).power = s.power ∧
    (pmUpd e f s).pins = s.pins ∧ (pmUpd e f s).therm = s.therm ∧ (pmUpd e f s).journal = s.journal ∧ (pmUpd e f s).fw = s.fw ∧
    (pmUpd e f s).ring = s.ring ∧ (pmUpd e f s).plan = s.plan ∧ (pmUpd e f s).spire = s.spire ∧ (pmUpd e f s).line = s.line ∧
    (pmUpd e f s).txFc = s.txFc ∧ (pmUpd e f s).cal = s.cal ∧ (pmUpd e f s).ten = s.ten ∧ (pmUpd e f s).skew = s.skew ∧
    (pmUpd e f s).mrg = s.mrg ∧ (pmUpd e f s).host = s.host ∧ (pmUpd e f s).turret = s.turret ∧ (pmUpd e f s).mem = s.mem ∧
    (pmUpd e f s).bel = s.bel ∧ (pmUpd e f s).test = s.test ∧ (pmUpd e f s).pending = s.pending := by
  and_intros <;> rfl

@[simp] theorem pmDrop_frame (e : Nat) (s : State) :
    (pmDrop e s).now = s.now ∧ (pmDrop e s).tod = s.tod ∧ (pmDrop e s).subns = s.subns ∧ (pmDrop e s).free = s.free ∧
    (pmDrop e s).hostMem = s.hostMem ∧ (pmDrop e s).swiys = s.swiys ∧ (pmDrop e s).ev = s.ev ∧ (pmDrop e s).pcie = s.pcie ∧
    (pmDrop e s).dma = s.dma ∧ (pmDrop e s).cnt = s.cnt ∧ (pmDrop e s).page = s.page ∧ (pmDrop e s).mode = s.mode ∧
    (pmDrop e s).clk = s.clk ∧ (pmDrop e s).ctl = s.ctl ∧ (pmDrop e s).eng = s.eng ∧ (pmDrop e s).power = s.power ∧
    (pmDrop e s).pins = s.pins ∧ (pmDrop e s).therm = s.therm ∧ (pmDrop e s).journal = s.journal ∧ (pmDrop e s).fw = s.fw ∧
    (pmDrop e s).ring = s.ring ∧ (pmDrop e s).plan = s.plan ∧ (pmDrop e s).spire = s.spire ∧ (pmDrop e s).line = s.line ∧
    (pmDrop e s).txFc = s.txFc ∧ (pmDrop e s).cal = s.cal ∧ (pmDrop e s).ten = s.ten ∧ (pmDrop e s).skew = s.skew ∧
    (pmDrop e s).mrg = s.mrg ∧ (pmDrop e s).host = s.host ∧ (pmDrop e s).turret = s.turret ∧ (pmDrop e s).mem = s.mem ∧
    (pmDrop e s).bel = s.bel ∧ (pmDrop e s).test = s.test ∧ (pmDrop e s).pending = s.pending := by
  and_intros <;> rfl

@[simp] theorem keyUpd_frame (k : Nat) (f : KeySlot → KeySlot) (s : State) :
    (keyUpd k f s).now = s.now ∧ (keyUpd k f s).tod = s.tod ∧ (keyUpd k f s).subns = s.subns ∧ (keyUpd k f s).free = s.free ∧
    (keyUpd k f s).hostMem = s.hostMem ∧ (keyUpd k f s).swiys = s.swiys ∧ (keyUpd k f s).ev = s.ev ∧
    (keyUpd k f s).pcie = s.pcie ∧ (keyUpd k f s).dma = s.dma ∧ (keyUpd k f s).cnt = s.cnt ∧ (keyUpd k f s).page = s.page ∧
    (keyUpd k f s).mode = s.mode ∧ (keyUpd k f s).clk = s.clk ∧ (keyUpd k f s).ctl = s.ctl ∧ (keyUpd k f s).eng = s.eng ∧
    (keyUpd k f s).power = s.power ∧ (keyUpd k f s).pins = s.pins ∧ (keyUpd k f s).therm = s.therm ∧
    (keyUpd k f s).journal = s.journal ∧ (keyUpd k f s).fw = s.fw ∧ (keyUpd k f s).ring = s.ring ∧
    (keyUpd k f s).plan = s.plan ∧ (keyUpd k f s).spire = s.spire ∧ (keyUpd k f s).line = s.line ∧
    (keyUpd k f s).txFc = s.txFc ∧ (keyUpd k f s).cal = s.cal ∧ (keyUpd k f s).ten = s.ten ∧ (keyUpd k f s).skew = s.skew ∧
    (keyUpd k f s).mrg = s.mrg ∧ (keyUpd k f s).host = s.host ∧ (keyUpd k f s).pm = s.pm ∧ (keyUpd k f s).mem = s.mem ∧
    (keyUpd k f s).bel = s.bel ∧ (keyUpd k f s).test = s.test ∧ (keyUpd k f s).pending = s.pending := by
  and_intros <;> rfl

@[simp] theorem domeUpd_frame (d : Nat) (f : Dome → Dome) (s : State) :
    (domeUpd d f s).now = s.now ∧ (domeUpd d f s).tod = s.tod ∧ (domeUpd d f s).subns = s.subns ∧
    (domeUpd d f s).free = s.free ∧ (domeUpd d f s).hostMem = s.hostMem ∧ (domeUpd d f s).swiys = s.swiys ∧
    (domeUpd d f s).ev = s.ev ∧ (domeUpd d f s).pcie = s.pcie ∧ (domeUpd d f s).dma = s.dma ∧ (domeUpd d f s).cnt = s.cnt ∧
    (domeUpd d f s).page = s.page ∧ (domeUpd d f s).mode = s.mode ∧ (domeUpd d f s).clk = s.clk ∧ (domeUpd d f s).ctl = s.ctl ∧
    (domeUpd d f s).eng = s.eng ∧ (domeUpd d f s).power = s.power ∧ (domeUpd d f s).pins = s.pins ∧
    (domeUpd d f s).therm = s.therm ∧ (domeUpd d f s).journal = s.journal ∧ (domeUpd d f s).fw = s.fw ∧
    (domeUpd d f s).ring = s.ring ∧ (domeUpd d f s).plan = s.plan ∧ (domeUpd d f s).spire = s.spire ∧
    (domeUpd d f s).line = s.line ∧ (domeUpd d f s).txFc = s.txFc ∧ (domeUpd d f s).cal = s.cal ∧ (domeUpd d f s).ten = s.ten ∧
    (domeUpd d f s).skew = s.skew ∧ (domeUpd d f s).mrg = s.mrg ∧ (domeUpd d f s).host = s.host ∧ (domeUpd d f s).pm = s.pm ∧
    (domeUpd d f s).turret = s.turret ∧ (domeUpd d f s).bel = s.bel ∧ (domeUpd d f s).test = s.test ∧
    (domeUpd d f s).pending = s.pending := by
  simp only [domeUpd]
  split <;> (and_intros <;> rfl)

@[simp] theorem regionUpd_frame (r : Nat) (f : Region → Region) (s : State) :
    (regionUpd r f s).now = s.now ∧ (regionUpd r f s).tod = s.tod ∧ (regionUpd r f s).subns = s.subns ∧
    (regionUpd r f s).free = s.free ∧ (regionUpd r f s).hostMem = s.hostMem ∧ (regionUpd r f s).swiys = s.swiys ∧
    (regionUpd r f s).ev = s.ev ∧ (regionUpd r f s).pcie = s.pcie ∧ (regionUpd r f s).dma = s.dma ∧
    (regionUpd r f s).cnt = s.cnt ∧ (regionUpd r f s).page = s.page ∧ (regionUpd r f s).mode = s.mode ∧
    (regionUpd r f s).clk = s.clk ∧ (regionUpd r f s).ctl = s.ctl ∧ (regionUpd r f s).eng = s.eng ∧
    (regionUpd r f s).power = s.power ∧ (regionUpd r f s).pins = s.pins ∧ (regionUpd r f s).therm = s.therm ∧
    (regionUpd r f s).journal = s.journal ∧ (regionUpd r f s).fw = s.fw ∧ (regionUpd r f s).ring = s.ring ∧
    (regionUpd r f s).plan = s.plan ∧ (regionUpd r f s).spire = s.spire ∧ (regionUpd r f s).line = s.line ∧
    (regionUpd r f s).txFc = s.txFc ∧ (regionUpd r f s).cal = s.cal ∧ (regionUpd r f s).ten = s.ten ∧
    (regionUpd r f s).skew = s.skew ∧ (regionUpd r f s).mrg = s.mrg ∧ (regionUpd r f s).host = s.host ∧
    (regionUpd r f s).pm = s.pm ∧ (regionUpd r f s).turret = s.turret ∧ (regionUpd r f s).bel = s.bel ∧
    (regionUpd r f s).test = s.test ∧ (regionUpd r f s).pending = s.pending := by
  and_intros <;> rfl

@[simp] theorem belUpd_frame (f : Belfry → Belfry) (s : State) :
    (belUpd f s).now = s.now ∧ (belUpd f s).tod = s.tod ∧ (belUpd f s).subns = s.subns ∧ (belUpd f s).free = s.free ∧
    (belUpd f s).hostMem = s.hostMem ∧ (belUpd f s).swiys = s.swiys ∧ (belUpd f s).ev = s.ev ∧ (belUpd f s).pcie = s.pcie ∧
    (belUpd f s).dma = s.dma ∧ (belUpd f s).cnt = s.cnt ∧ (belUpd f s).page = s.page ∧ (belUpd f s).mode = s.mode ∧
    (belUpd f s).clk = s.clk ∧ (belUpd f s).ctl = s.ctl ∧ (belUpd f s).eng = s.eng ∧ (belUpd f s).power = s.power ∧
    (belUpd f s).pins = s.pins ∧ (belUpd f s).therm = s.therm ∧ (belUpd f s).journal = s.journal ∧ (belUpd f s).fw = s.fw ∧
    (belUpd f s).ring = s.ring ∧ (belUpd f s).plan = s.plan ∧ (belUpd f s).spire = s.spire ∧ (belUpd f s).line = s.line ∧
    (belUpd f s).txFc = s.txFc ∧ (belUpd f s).cal = s.cal ∧ (belUpd f s).ten = s.ten ∧ (belUpd f s).skew = s.skew ∧
    (belUpd f s).mrg = s.mrg ∧ (belUpd f s).host = s.host ∧ (belUpd f s).pm = s.pm ∧ (belUpd f s).turret = s.turret ∧
    (belUpd f s).mem = s.mem ∧ (belUpd f s).test = s.test ∧ (belUpd f s).pending = s.pending := by
  and_intros <;> rfl

@[simp] theorem refUpd_frame (r : Nat) (f : BelRef → BelRef) (s : State) :
    (refUpd r f s).now = s.now ∧ (refUpd r f s).tod = s.tod ∧ (refUpd r f s).subns = s.subns ∧ (refUpd r f s).free = s.free ∧
    (refUpd r f s).hostMem = s.hostMem ∧ (refUpd r f s).swiys = s.swiys ∧ (refUpd r f s).ev = s.ev ∧
    (refUpd r f s).pcie = s.pcie ∧ (refUpd r f s).dma = s.dma ∧ (refUpd r f s).cnt = s.cnt ∧ (refUpd r f s).page = s.page ∧
    (refUpd r f s).mode = s.mode ∧ (refUpd r f s).clk = s.clk ∧ (refUpd r f s).ctl = s.ctl ∧ (refUpd r f s).eng = s.eng ∧
    (refUpd r f s).power = s.power ∧ (refUpd r f s).pins = s.pins ∧ (refUpd r f s).therm = s.therm ∧
    (refUpd r f s).journal = s.journal ∧ (refUpd r f s).fw = s.fw ∧ (refUpd r f s).ring = s.ring ∧
    (refUpd r f s).plan = s.plan ∧ (refUpd r f s).spire = s.spire ∧ (refUpd r f s).line = s.line ∧
    (refUpd r f s).txFc = s.txFc ∧ (refUpd r f s).cal = s.cal ∧ (refUpd r f s).ten = s.ten ∧ (refUpd r f s).skew = s.skew ∧
    (refUpd r f s).mrg = s.mrg ∧ (refUpd r f s).host = s.host ∧ (refUpd r f s).pm = s.pm ∧ (refUpd r f s).turret = s.turret ∧
    (refUpd r f s).mem = s.mem ∧ (refUpd r f s).test = s.test ∧ (refUpd r f s).pending = s.pending := by
  and_intros <;> rfl

@[simp] theorem checkerUpd_frame (kind idx : Nat) (f : Checker → Checker) (s : State) :
    (checkerUpd kind idx f s).now = s.now ∧ (checkerUpd kind idx f s).tod = s.tod ∧ (checkerUpd kind idx f s).subns = s.subns ∧
    (checkerUpd kind idx f s).free = s.free ∧ (checkerUpd kind idx f s).hostMem = s.hostMem ∧
    (checkerUpd kind idx f s).swiys = s.swiys ∧ (checkerUpd kind idx f s).ev = s.ev ∧ (checkerUpd kind idx f s).pcie = s.pcie ∧
    (checkerUpd kind idx f s).dma = s.dma ∧ (checkerUpd kind idx f s).cnt = s.cnt ∧ (checkerUpd kind idx f s).page = s.page ∧
    (checkerUpd kind idx f s).mode = s.mode ∧ (checkerUpd kind idx f s).clk = s.clk ∧ (checkerUpd kind idx f s).ctl = s.ctl ∧
    (checkerUpd kind idx f s).eng = s.eng ∧ (checkerUpd kind idx f s).power = s.power ∧
    (checkerUpd kind idx f s).pins = s.pins ∧ (checkerUpd kind idx f s).therm = s.therm ∧
    (checkerUpd kind idx f s).journal = s.journal ∧ (checkerUpd kind idx f s).fw = s.fw ∧
    (checkerUpd kind idx f s).ring = s.ring ∧ (checkerUpd kind idx f s).plan = s.plan ∧
    (checkerUpd kind idx f s).spire = s.spire ∧ (checkerUpd kind idx f s).line = s.line ∧
    (checkerUpd kind idx f s).txFc = s.txFc ∧ (checkerUpd kind idx f s).cal = s.cal ∧ (checkerUpd kind idx f s).ten = s.ten ∧
    (checkerUpd kind idx f s).skew = s.skew ∧ (checkerUpd kind idx f s).mrg = s.mrg ∧ (checkerUpd kind idx f s).host = s.host ∧
    (checkerUpd kind idx f s).pm = s.pm ∧ (checkerUpd kind idx f s).turret = s.turret ∧ (checkerUpd kind idx f s).mem = s.mem ∧
    (checkerUpd kind idx f s).bel = s.bel ∧ (checkerUpd kind idx f s).pending = s.pending := by
  simp only [checkerUpd, linePatUpd]
  split <;> (and_intros <;> rfl)

@[simp] theorem capUpd_frame (f : Capture → Capture) (s : State) :
    (capUpd f s).now = s.now ∧ (capUpd f s).tod = s.tod ∧ (capUpd f s).subns = s.subns ∧ (capUpd f s).free = s.free ∧
    (capUpd f s).hostMem = s.hostMem ∧ (capUpd f s).swiys = s.swiys ∧ (capUpd f s).ev = s.ev ∧ (capUpd f s).pcie = s.pcie ∧
    (capUpd f s).dma = s.dma ∧ (capUpd f s).cnt = s.cnt ∧ (capUpd f s).page = s.page ∧ (capUpd f s).mode = s.mode ∧
    (capUpd f s).clk = s.clk ∧ (capUpd f s).ctl = s.ctl ∧ (capUpd f s).eng = s.eng ∧ (capUpd f s).power = s.power ∧
    (capUpd f s).pins = s.pins ∧ (capUpd f s).therm = s.therm ∧ (capUpd f s).journal = s.journal ∧ (capUpd f s).fw = s.fw ∧
    (capUpd f s).ring = s.ring ∧ (capUpd f s).plan = s.plan ∧ (capUpd f s).spire = s.spire ∧ (capUpd f s).line = s.line ∧
    (capUpd f s).txFc = s.txFc ∧ (capUpd f s).cal = s.cal ∧ (capUpd f s).ten = s.ten ∧ (capUpd f s).skew = s.skew ∧
    (capUpd f s).mrg = s.mrg ∧ (capUpd f s).host = s.host ∧ (capUpd f s).pm = s.pm ∧ (capUpd f s).turret = s.turret ∧
    (capUpd f s).mem = s.mem ∧ (capUpd f s).bel = s.bel ∧ (capUpd f s).pending = s.pending := by
  and_intros <;> rfl

@[simp] theorem chanUpd_frame (c : Nat) (f : Channel → Channel) (s : State) :
    (chanUpd c f s).now = s.now ∧ (chanUpd c f s).tod = s.tod ∧ (chanUpd c f s).subns = s.subns ∧
    (chanUpd c f s).free = s.free ∧ (chanUpd c f s).hostMem = s.hostMem ∧ (chanUpd c f s).swiys = s.swiys ∧
    (chanUpd c f s).ev = s.ev ∧ (chanUpd c f s).pcie = s.pcie ∧ (chanUpd c f s).cnt = s.cnt ∧ (chanUpd c f s).page = s.page ∧
    (chanUpd c f s).mode = s.mode ∧ (chanUpd c f s).clk = s.clk ∧ (chanUpd c f s).ctl = s.ctl ∧ (chanUpd c f s).eng = s.eng ∧
    (chanUpd c f s).power = s.power ∧ (chanUpd c f s).pins = s.pins ∧ (chanUpd c f s).therm = s.therm ∧
    (chanUpd c f s).journal = s.journal ∧ (chanUpd c f s).fw = s.fw ∧ (chanUpd c f s).ring = s.ring ∧
    (chanUpd c f s).plan = s.plan ∧ (chanUpd c f s).spire = s.spire ∧ (chanUpd c f s).line = s.line ∧
    (chanUpd c f s).txFc = s.txFc ∧ (chanUpd c f s).cal = s.cal ∧ (chanUpd c f s).ten = s.ten ∧ (chanUpd c f s).skew = s.skew ∧
    (chanUpd c f s).mrg = s.mrg ∧ (chanUpd c f s).host = s.host ∧ (chanUpd c f s).pm = s.pm ∧
    (chanUpd c f s).turret = s.turret ∧ (chanUpd c f s).mem = s.mem ∧ (chanUpd c f s).bel = s.bel ∧
    (chanUpd c f s).test = s.test ∧ (chanUpd c f s).pending = s.pending := by
  and_intros <;> rfl

@[simp] theorem engPut_frame (e : Nat) (v : EngState) (s : State) :
    (engPut e v s).now = s.now ∧ (engPut e v s).tod = s.tod ∧ (engPut e v s).subns = s.subns ∧ (engPut e v s).free = s.free ∧
    (engPut e v s).hostMem = s.hostMem ∧ (engPut e v s).swiys = s.swiys ∧ (engPut e v s).ev = s.ev ∧
    (engPut e v s).pcie = s.pcie ∧ (engPut e v s).dma = s.dma ∧ (engPut e v s).cnt = s.cnt ∧ (engPut e v s).page = s.page ∧
    (engPut e v s).mode = s.mode ∧ (engPut e v s).clk = s.clk ∧ (engPut e v s).ctl = s.ctl ∧ (engPut e v s).power = s.power ∧
    (engPut e v s).pins = s.pins ∧ (engPut e v s).therm = s.therm ∧ (engPut e v s).journal = s.journal ∧
    (engPut e v s).fw = s.fw ∧ (engPut e v s).ring = s.ring ∧ (engPut e v s).plan = s.plan ∧ (engPut e v s).spire = s.spire ∧
    (engPut e v s).line = s.line ∧ (engPut e v s).txFc = s.txFc ∧ (engPut e v s).cal = s.cal ∧ (engPut e v s).ten = s.ten ∧
    (engPut e v s).skew = s.skew ∧ (engPut e v s).mrg = s.mrg ∧ (engPut e v s).host = s.host ∧ (engPut e v s).pm = s.pm ∧
    (engPut e v s).turret = s.turret ∧ (engPut e v s).mem = s.mem ∧ (engPut e v s).bel = s.bel ∧ (engPut e v s).test = s.test ∧
    (engPut e v s).pending = s.pending := by
  and_intros <;> rfl

@[simp] theorem domUpd_frame (d : Nat) (f : Dom → Dom) (s : State) :
    (domUpd d f s).now = s.now ∧ (domUpd d f s).tod = s.tod ∧ (domUpd d f s).subns = s.subns ∧ (domUpd d f s).free = s.free ∧
    (domUpd d f s).hostMem = s.hostMem ∧ (domUpd d f s).swiys = s.swiys ∧ (domUpd d f s).ev = s.ev ∧
    (domUpd d f s).pcie = s.pcie ∧ (domUpd d f s).dma = s.dma ∧ (domUpd d f s).cnt = s.cnt ∧ (domUpd d f s).page = s.page ∧
    (domUpd d f s).mode = s.mode ∧ (domUpd d f s).clk = s.clk ∧ (domUpd d f s).ctl = s.ctl ∧ (domUpd d f s).eng = s.eng ∧
    (domUpd d f s).pins = s.pins ∧ (domUpd d f s).therm = s.therm ∧ (domUpd d f s).journal = s.journal ∧
    (domUpd d f s).fw = s.fw ∧ (domUpd d f s).ring = s.ring ∧ (domUpd d f s).plan = s.plan ∧ (domUpd d f s).spire = s.spire ∧
    (domUpd d f s).line = s.line ∧ (domUpd d f s).txFc = s.txFc ∧ (domUpd d f s).cal = s.cal ∧ (domUpd d f s).ten = s.ten ∧
    (domUpd d f s).skew = s.skew ∧ (domUpd d f s).mrg = s.mrg ∧ (domUpd d f s).host = s.host ∧ (domUpd d f s).pm = s.pm ∧
    (domUpd d f s).turret = s.turret ∧ (domUpd d f s).mem = s.mem ∧ (domUpd d f s).bel = s.bel ∧ (domUpd d f s).test = s.test ∧
    (domUpd d f s).pending = s.pending := by
  and_intros <;> rfl

@[simp] theorem railUpd_frame (r : Nat) (f : Rail → Rail) (s : State) :
    (railUpd r f s).now = s.now ∧ (railUpd r f s).tod = s.tod ∧ (railUpd r f s).subns = s.subns ∧
    (railUpd r f s).free = s.free ∧ (railUpd r f s).hostMem = s.hostMem ∧ (railUpd r f s).swiys = s.swiys ∧
    (railUpd r f s).ev = s.ev ∧ (railUpd r f s).pcie = s.pcie ∧ (railUpd r f s).dma = s.dma ∧ (railUpd r f s).cnt = s.cnt ∧
    (railUpd r f s).page = s.page ∧ (railUpd r f s).mode = s.mode ∧ (railUpd r f s).clk = s.clk ∧ (railUpd r f s).ctl = s.ctl ∧
    (railUpd r f s).eng = s.eng ∧ (railUpd r f s).pins = s.pins ∧ (railUpd r f s).therm = s.therm ∧
    (railUpd r f s).journal = s.journal ∧ (railUpd r f s).fw = s.fw ∧ (railUpd r f s).ring = s.ring ∧
    (railUpd r f s).plan = s.plan ∧ (railUpd r f s).spire = s.spire ∧ (railUpd r f s).line = s.line ∧
    (railUpd r f s).txFc = s.txFc ∧ (railUpd r f s).cal = s.cal ∧ (railUpd r f s).ten = s.ten ∧ (railUpd r f s).skew = s.skew ∧
    (railUpd r f s).mrg = s.mrg ∧ (railUpd r f s).host = s.host ∧ (railUpd r f s).pm = s.pm ∧
    (railUpd r f s).turret = s.turret ∧ (railUpd r f s).mem = s.mem ∧ (railUpd r f s).bel = s.bel ∧
    (railUpd r f s).test = s.test ∧ (railUpd r f s).pending = s.pending := by
  and_intros <;> rfl

@[simp] theorem portUpd_frame (p : Port) (f : RingPort → RingPort) (s : State) :
    (portUpd p f s).now = s.now ∧ (portUpd p f s).tod = s.tod ∧ (portUpd p f s).subns = s.subns ∧
    (portUpd p f s).free = s.free ∧ (portUpd p f s).hostMem = s.hostMem ∧ (portUpd p f s).swiys = s.swiys ∧
    (portUpd p f s).ev = s.ev ∧ (portUpd p f s).pcie = s.pcie ∧ (portUpd p f s).dma = s.dma ∧ (portUpd p f s).cnt = s.cnt ∧
    (portUpd p f s).page = s.page ∧ (portUpd p f s).mode = s.mode ∧ (portUpd p f s).clk = s.clk ∧ (portUpd p f s).ctl = s.ctl ∧
    (portUpd p f s).eng = s.eng ∧ (portUpd p f s).power = s.power ∧ (portUpd p f s).pins = s.pins ∧
    (portUpd p f s).therm = s.therm ∧ (portUpd p f s).journal = s.journal ∧ (portUpd p f s).fw = s.fw ∧
    (portUpd p f s).plan = s.plan ∧ (portUpd p f s).spire = s.spire ∧ (portUpd p f s).line = s.line ∧
    (portUpd p f s).txFc = s.txFc ∧ (portUpd p f s).cal = s.cal ∧ (portUpd p f s).ten = s.ten ∧ (portUpd p f s).skew = s.skew ∧
    (portUpd p f s).mrg = s.mrg ∧ (portUpd p f s).host = s.host ∧ (portUpd p f s).pm = s.pm ∧
    (portUpd p f s).turret = s.turret ∧ (portUpd p f s).mem = s.mem ∧ (portUpd p f s).bel = s.bel ∧
    (portUpd p f s).test = s.test ∧ (portUpd p f s).pending = s.pending := by
  and_intros <;> rfl

@[simp] theorem workerUpd_frame (w : Nat) (f : WorkerSt → WorkerSt) (s : State) :
    (workerUpd w f s).now = s.now ∧ (workerUpd w f s).tod = s.tod ∧ (workerUpd w f s).subns = s.subns ∧
    (workerUpd w f s).free = s.free ∧ (workerUpd w f s).hostMem = s.hostMem ∧ (workerUpd w f s).swiys = s.swiys ∧
    (workerUpd w f s).ev = s.ev ∧ (workerUpd w f s).pcie = s.pcie ∧ (workerUpd w f s).dma = s.dma ∧
    (workerUpd w f s).cnt = s.cnt ∧ (workerUpd w f s).page = s.page ∧ (workerUpd w f s).mode = s.mode ∧
    (workerUpd w f s).clk = s.clk ∧ (workerUpd w f s).ctl = s.ctl ∧ (workerUpd w f s).eng = s.eng ∧
    (workerUpd w f s).power = s.power ∧ (workerUpd w f s).pins = s.pins ∧ (workerUpd w f s).therm = s.therm ∧
    (workerUpd w f s).journal = s.journal ∧ (workerUpd w f s).fw = s.fw ∧ (workerUpd w f s).plan = s.plan ∧
    (workerUpd w f s).spire = s.spire ∧ (workerUpd w f s).line = s.line ∧ (workerUpd w f s).txFc = s.txFc ∧
    (workerUpd w f s).cal = s.cal ∧ (workerUpd w f s).ten = s.ten ∧ (workerUpd w f s).skew = s.skew ∧
    (workerUpd w f s).mrg = s.mrg ∧ (workerUpd w f s).host = s.host ∧ (workerUpd w f s).pm = s.pm ∧
    (workerUpd w f s).turret = s.turret ∧ (workerUpd w f s).mem = s.mem ∧ (workerUpd w f s).bel = s.bel ∧
    (workerUpd w f s).test = s.test ∧ (workerUpd w f s).pending = s.pending := by
  and_intros <;> rfl

@[simp] theorem pairUpd_frame (k : Nat) (f : PPair → PPair) (s : State) :
    (pairUpd k f s).now = s.now ∧ (pairUpd k f s).tod = s.tod ∧ (pairUpd k f s).subns = s.subns ∧
    (pairUpd k f s).free = s.free ∧ (pairUpd k f s).hostMem = s.hostMem ∧ (pairUpd k f s).swiys = s.swiys ∧
    (pairUpd k f s).ev = s.ev ∧ (pairUpd k f s).pcie = s.pcie ∧ (pairUpd k f s).dma = s.dma ∧ (pairUpd k f s).cnt = s.cnt ∧
    (pairUpd k f s).page = s.page ∧ (pairUpd k f s).mode = s.mode ∧ (pairUpd k f s).clk = s.clk ∧ (pairUpd k f s).ctl = s.ctl ∧
    (pairUpd k f s).eng = s.eng ∧ (pairUpd k f s).power = s.power ∧ (pairUpd k f s).pins = s.pins ∧
    (pairUpd k f s).therm = s.therm ∧ (pairUpd k f s).journal = s.journal ∧ (pairUpd k f s).fw = s.fw ∧
    (pairUpd k f s).plan = s.plan ∧ (pairUpd k f s).spire = s.spire ∧ (pairUpd k f s).line = s.line ∧
    (pairUpd k f s).txFc = s.txFc ∧ (pairUpd k f s).cal = s.cal ∧ (pairUpd k f s).ten = s.ten ∧ (pairUpd k f s).skew = s.skew ∧
    (pairUpd k f s).mrg = s.mrg ∧ (pairUpd k f s).host = s.host ∧ (pairUpd k f s).pm = s.pm ∧
    (pairUpd k f s).turret = s.turret ∧ (pairUpd k f s).mem = s.mem ∧ (pairUpd k f s).bel = s.bel ∧
    (pairUpd k f s).test = s.test ∧ (pairUpd k f s).pending = s.pending := by
  and_intros <;> rfl

@[simp] theorem qset_frame (q : QueueId) (v : Queue) (s : State) :
    (qset s q v).now = s.now ∧ (qset s q v).tod = s.tod ∧ (qset s q v).subns = s.subns ∧ (qset s q v).free = s.free ∧
    (qset s q v).hostMem = s.hostMem ∧ (qset s q v).ev = s.ev ∧ (qset s q v).pcie = s.pcie ∧ (qset s q v).dma = s.dma ∧
    (qset s q v).cnt = s.cnt ∧ (qset s q v).page = s.page ∧ (qset s q v).mode = s.mode ∧ (qset s q v).clk = s.clk ∧
    (qset s q v).ctl = s.ctl ∧ (qset s q v).eng = s.eng ∧ (qset s q v).power = s.power ∧ (qset s q v).pins = s.pins ∧
    (qset s q v).therm = s.therm ∧ (qset s q v).journal = s.journal ∧ (qset s q v).fw = s.fw ∧ (qset s q v).ring = s.ring ∧
    (qset s q v).plan = s.plan ∧ (qset s q v).spire = s.spire ∧ (qset s q v).line = s.line ∧ (qset s q v).txFc = s.txFc ∧
    (qset s q v).cal = s.cal ∧ (qset s q v).ten = s.ten ∧ (qset s q v).skew = s.skew ∧ (qset s q v).mrg = s.mrg ∧
    (qset s q v).host = s.host ∧ (qset s q v).pm = s.pm ∧ (qset s q v).turret = s.turret ∧ (qset s q v).mem = s.mem ∧
    (qset s q v).bel = s.bel ∧ (qset s q v).test = s.test ∧ (qset s q v).pending = s.pending := by
  cases q <;> (and_intros <;> rfl)

@[simp] theorem qupd_frame (q : QueueId) (f : Queue → Queue) (s : State) :
    (qupd s q f).now = s.now ∧ (qupd s q f).tod = s.tod ∧ (qupd s q f).subns = s.subns ∧ (qupd s q f).free = s.free ∧
    (qupd s q f).hostMem = s.hostMem ∧ (qupd s q f).ev = s.ev ∧ (qupd s q f).pcie = s.pcie ∧ (qupd s q f).dma = s.dma ∧
    (qupd s q f).cnt = s.cnt ∧ (qupd s q f).page = s.page ∧ (qupd s q f).mode = s.mode ∧ (qupd s q f).clk = s.clk ∧
    (qupd s q f).ctl = s.ctl ∧ (qupd s q f).eng = s.eng ∧ (qupd s q f).power = s.power ∧ (qupd s q f).pins = s.pins ∧
    (qupd s q f).therm = s.therm ∧ (qupd s q f).journal = s.journal ∧ (qupd s q f).fw = s.fw ∧ (qupd s q f).ring = s.ring ∧
    (qupd s q f).plan = s.plan ∧ (qupd s q f).spire = s.spire ∧ (qupd s q f).line = s.line ∧ (qupd s q f).txFc = s.txFc ∧
    (qupd s q f).cal = s.cal ∧ (qupd s q f).ten = s.ten ∧ (qupd s q f).skew = s.skew ∧ (qupd s q f).mrg = s.mrg ∧
    (qupd s q f).host = s.host ∧ (qupd s q f).pm = s.pm ∧ (qupd s q f).turret = s.turret ∧ (qupd s q f).mem = s.mem ∧
    (qupd s q f).bel = s.bel ∧ (qupd s q f).test = s.test ∧ (qupd s q f).pending = s.pending := by
  cases q <;> (and_intros <;> rfl)

@[simp] theorem signalVector_frame (v : Nat) (s : State) :
    (signalVector v s).now = s.now ∧ (signalVector v s).tod = s.tod ∧ (signalVector v s).subns = s.subns ∧
    (signalVector v s).free = s.free ∧ (signalVector v s).hostMem = s.hostMem ∧ (signalVector v s).swiys = s.swiys ∧
    (signalVector v s).ev = s.ev ∧ (signalVector v s).dma = s.dma ∧ (signalVector v s).cnt = s.cnt ∧
    (signalVector v s).page = s.page ∧ (signalVector v s).mode = s.mode ∧ (signalVector v s).clk = s.clk ∧
    (signalVector v s).ctl = s.ctl ∧ (signalVector v s).eng = s.eng ∧ (signalVector v s).power = s.power ∧
    (signalVector v s).pins = s.pins ∧ (signalVector v s).therm = s.therm ∧ (signalVector v s).journal = s.journal ∧
    (signalVector v s).fw = s.fw ∧ (signalVector v s).ring = s.ring ∧ (signalVector v s).plan = s.plan ∧
    (signalVector v s).spire = s.spire ∧ (signalVector v s).line = s.line ∧ (signalVector v s).txFc = s.txFc ∧
    (signalVector v s).cal = s.cal ∧ (signalVector v s).ten = s.ten ∧ (signalVector v s).skew = s.skew ∧
    (signalVector v s).mrg = s.mrg ∧ (signalVector v s).host = s.host ∧ (signalVector v s).pm = s.pm ∧
    (signalVector v s).turret = s.turret ∧ (signalVector v s).mem = s.mem ∧ (signalVector v s).bel = s.bel ∧
    (signalVector v s).test = s.test ∧ (signalVector v s).pending = s.pending := by
  simp only [signalVector]
  split <;> (and_intros <;> rfl)

@[simp] theorem countOwn_frame (i n : Nat) (s : State) :
    (countOwn i n s).now = s.now ∧ (countOwn i n s).tod = s.tod ∧ (countOwn i n s).subns = s.subns ∧
    (countOwn i n s).free = s.free ∧ (countOwn i n s).hostMem = s.hostMem ∧ (countOwn i n s).swiys = s.swiys ∧
    (countOwn i n s).ev = s.ev ∧ (countOwn i n s).dma = s.dma ∧ (countOwn i n s).page = s.page ∧
    (countOwn i n s).mode = s.mode ∧ (countOwn i n s).clk = s.clk ∧ (countOwn i n s).ctl = s.ctl ∧
    (countOwn i n s).eng = s.eng ∧ (countOwn i n s).power = s.power ∧ (countOwn i n s).pins = s.pins ∧
    (countOwn i n s).therm = s.therm ∧ (countOwn i n s).journal = s.journal ∧ (countOwn i n s).fw = s.fw ∧
    (countOwn i n s).ring = s.ring ∧ (countOwn i n s).plan = s.plan ∧ (countOwn i n s).spire = s.spire ∧
    (countOwn i n s).line = s.line ∧ (countOwn i n s).txFc = s.txFc ∧ (countOwn i n s).cal = s.cal ∧
    (countOwn i n s).ten = s.ten ∧ (countOwn i n s).skew = s.skew ∧ (countOwn i n s).mrg = s.mrg ∧
    (countOwn i n s).host = s.host ∧ (countOwn i n s).pm = s.pm ∧ (countOwn i n s).turret = s.turret ∧
    (countOwn i n s).mem = s.mem ∧ (countOwn i n s).bel = s.bel ∧ (countOwn i n s).test = s.test ∧
    (countOwn i n s).pending = s.pending := by
  simp only [countOwn]
  (repeat' split) <;> simp

@[simp] theorem countOne_frame (i n : Nat) (s : State) :
    (countOne i n s).now = s.now ∧ (countOne i n s).tod = s.tod ∧ (countOne i n s).subns = s.subns ∧
    (countOne i n s).free = s.free ∧ (countOne i n s).hostMem = s.hostMem ∧ (countOne i n s).swiys = s.swiys ∧
    (countOne i n s).ev = s.ev ∧ (countOne i n s).dma = s.dma ∧ (countOne i n s).page = s.page ∧
    (countOne i n s).mode = s.mode ∧ (countOne i n s).clk = s.clk ∧ (countOne i n s).ctl = s.ctl ∧
    (countOne i n s).eng = s.eng ∧ (countOne i n s).power = s.power ∧ (countOne i n s).pins = s.pins ∧
    (countOne i n s).therm = s.therm ∧ (countOne i n s).journal = s.journal ∧ (countOne i n s).fw = s.fw ∧
    (countOne i n s).ring = s.ring ∧ (countOne i n s).plan = s.plan ∧ (countOne i n s).spire = s.spire ∧
    (countOne i n s).line = s.line ∧ (countOne i n s).txFc = s.txFc ∧ (countOne i n s).cal = s.cal ∧
    (countOne i n s).ten = s.ten ∧ (countOne i n s).skew = s.skew ∧ (countOne i n s).mrg = s.mrg ∧
    (countOne i n s).host = s.host ∧ (countOne i n s).pm = s.pm ∧ (countOne i n s).turret = s.turret ∧
    (countOne i n s).mem = s.mem ∧ (countOne i n s).bel = s.bel ∧ (countOne i n s).test = s.test ∧
    (countOne i n s).pending = s.pending := by
  simp only [countOne]
  (repeat' split) <;> simp

/-- A fold of steps that write the endpoint and the counters only does no more (R427 to R430). -/
theorem foldl_pcie_cnt {α : Type} (f : State → α → State) (h : ∀ t x, f t x = { t with pcie := (f t x).pcie, cnt := (f t x).cnt })
    (l : List α) (s : State) : l.foldl f s = { s with pcie := (l.foldl f s).pcie, cnt := (l.foldl f s).cnt } := by
  induction l generalizing s with
  | nil => rfl
  | cons x r ih =>
    have a := ih (f s x)
    rw [List.foldl_cons, a]
    generalize (List.foldl f (f s x) r).pcie = u
    generalize (List.foldl f (f s x) r).cnt = v
    rw [h s x]

/-- A counted occurrence writes the endpoint and the counters only (R427 to R430). -/
theorem countSrc_pcie_cnt (a b n : Nat) (s : State) :
    countSrc a b n s = { s with pcie := (countSrc a b n s).pcie, cnt := (countSrc a b n s).cnt } := by
  have w : countWindow a b n s = { s with cnt := (countWindow a b n s).cnt } := by
    simp only [countWindow]
    (repeat' split) <;> rfl
  have sig : ∀ v t, signalVector v t = { t with pcie := (signalVector v t).pcie } := by
    intro v t
    simp only [signalVector]
    split <;> rfl
  have own : ∀ i n t, countOwn i n t = { t with pcie := (countOwn i n t).pcie, cnt := (countOwn i n t).cnt } := by
    intro i n t
    simp only [countOwn]
    split
    · rfl
    · split
      · rw [sig]
      · rfl
  have one : ∀ i n t, countOne i n t = { t with pcie := (countOne i n t).pcie, cnt := (countOne i n t).cnt } := by
    intro i n t
    simp only [countOne]
    split
    · exact own _ _ _
    · rw [own (i + 1), own i]
  have k := foldl_pcie_cnt (fun t (e : Nat × CntCfg) =>
    if e.2.enable && !e.2.chain && e.2.source == a && e.2.object == b && e.1 < 128 then countOne e.1 n t else t)
    (by intro t x; split; exact one _ _ _; rfl) s.cnt.cfg (countWindow a b n s)
  simp only [countSrc]
  rw [k]
  generalize (List.foldl _ (countWindow a b n s) s.cnt.cfg).pcie = u
  generalize (List.foldl _ (countWindow a b n s) s.cnt.cfg).cnt = v
  rw [w]

@[simp] theorem countSrc_frame (a b n : Nat) (s : State) :
    (countSrc a b n s).now = s.now ∧ (countSrc a b n s).tod = s.tod ∧ (countSrc a b n s).subns = s.subns ∧
    (countSrc a b n s).free = s.free ∧ (countSrc a b n s).hostMem = s.hostMem ∧ (countSrc a b n s).swiys = s.swiys ∧
    (countSrc a b n s).ev = s.ev ∧ (countSrc a b n s).dma = s.dma ∧ (countSrc a b n s).page = s.page ∧
    (countSrc a b n s).mode = s.mode ∧ (countSrc a b n s).clk = s.clk ∧ (countSrc a b n s).ctl = s.ctl ∧
    (countSrc a b n s).eng = s.eng ∧ (countSrc a b n s).power = s.power ∧ (countSrc a b n s).pins = s.pins ∧
    (countSrc a b n s).therm = s.therm ∧ (countSrc a b n s).journal = s.journal ∧ (countSrc a b n s).fw = s.fw ∧
    (countSrc a b n s).ring = s.ring ∧ (countSrc a b n s).plan = s.plan ∧ (countSrc a b n s).spire = s.spire ∧
    (countSrc a b n s).line = s.line ∧ (countSrc a b n s).txFc = s.txFc ∧ (countSrc a b n s).cal = s.cal ∧
    (countSrc a b n s).ten = s.ten ∧ (countSrc a b n s).skew = s.skew ∧ (countSrc a b n s).mrg = s.mrg ∧
    (countSrc a b n s).host = s.host ∧ (countSrc a b n s).pm = s.pm ∧ (countSrc a b n s).turret = s.turret ∧
    (countSrc a b n s).mem = s.mem ∧ (countSrc a b n s).bel = s.bel ∧ (countSrc a b n s).test = s.test ∧
    (countSrc a b n s).pending = s.pending := by
  rw [countSrc_pcie_cnt]
  and_intros <;> rfl

@[simp] theorem raiseVector_frame (v : Nat) (s : State) :
    (raiseVector v s).now = s.now ∧ (raiseVector v s).tod = s.tod ∧ (raiseVector v s).subns = s.subns ∧
    (raiseVector v s).free = s.free ∧ (raiseVector v s).hostMem = s.hostMem ∧ (raiseVector v s).swiys = s.swiys ∧
    (raiseVector v s).ev = s.ev ∧ (raiseVector v s).dma = s.dma ∧ (raiseVector v s).page = s.page ∧
    (raiseVector v s).mode = s.mode ∧ (raiseVector v s).clk = s.clk ∧ (raiseVector v s).ctl = s.ctl ∧
    (raiseVector v s).eng = s.eng ∧ (raiseVector v s).power = s.power ∧ (raiseVector v s).pins = s.pins ∧
    (raiseVector v s).therm = s.therm ∧ (raiseVector v s).journal = s.journal ∧ (raiseVector v s).fw = s.fw ∧
    (raiseVector v s).ring = s.ring ∧ (raiseVector v s).plan = s.plan ∧ (raiseVector v s).spire = s.spire ∧
    (raiseVector v s).line = s.line ∧ (raiseVector v s).txFc = s.txFc ∧ (raiseVector v s).cal = s.cal ∧
    (raiseVector v s).ten = s.ten ∧ (raiseVector v s).skew = s.skew ∧ (raiseVector v s).mrg = s.mrg ∧
    (raiseVector v s).host = s.host ∧ (raiseVector v s).pm = s.pm ∧ (raiseVector v s).turret = s.turret ∧
    (raiseVector v s).mem = s.mem ∧ (raiseVector v s).bel = s.bel ∧ (raiseVector v s).test = s.test ∧
    (raiseVector v s).pending = s.pending := by
  simp only [raiseVector]
  split <;> simp

@[simp] theorem hostStore_frame (a : Nat) (l : List Byte) (s : State) :
    (hostStore a l s).now = s.now ∧ (hostStore a l s).tod = s.tod ∧ (hostStore a l s).subns = s.subns ∧
    (hostStore a l s).free = s.free ∧ (hostStore a l s).dma = s.dma ∧ (hostStore a l s).mode = s.mode ∧
    (hostStore a l s).clk = s.clk ∧ (hostStore a l s).ctl = s.ctl ∧ (hostStore a l s).eng = s.eng ∧
    (hostStore a l s).power = s.power ∧ (hostStore a l s).pins = s.pins ∧ (hostStore a l s).therm = s.therm ∧
    (hostStore a l s).journal = s.journal ∧ (hostStore a l s).fw = s.fw ∧ (hostStore a l s).plan = s.plan ∧
    (hostStore a l s).spire = s.spire ∧ (hostStore a l s).line = s.line ∧ (hostStore a l s).txFc = s.txFc ∧
    (hostStore a l s).cal = s.cal ∧ (hostStore a l s).ten = s.ten ∧ (hostStore a l s).skew = s.skew ∧
    (hostStore a l s).mrg = s.mrg ∧ (hostStore a l s).host = s.host ∧ (hostStore a l s).pm = s.pm ∧
    (hostStore a l s).turret = s.turret ∧ (hostStore a l s).mem = s.mem ∧ (hostStore a l s).bel = s.bel ∧
    (hostStore a l s).test = s.test ∧ (hostStore a l s).pending = s.pending := outer_fields (hostStore_outer a l s)

@[simp] theorem hostCells_frame (l : List (Nat × Byte)) (s : State) :
    (hostCells l s).now = s.now ∧ (hostCells l s).tod = s.tod ∧ (hostCells l s).subns = s.subns ∧
    (hostCells l s).free = s.free ∧ (hostCells l s).swiys = s.swiys ∧ (hostCells l s).ev = s.ev ∧
    (hostCells l s).pcie = s.pcie ∧ (hostCells l s).dma = s.dma ∧ (hostCells l s).cnt = s.cnt ∧ (hostCells l s).page = s.page ∧
    (hostCells l s).mode = s.mode ∧ (hostCells l s).clk = s.clk ∧ (hostCells l s).ctl = s.ctl ∧ (hostCells l s).eng = s.eng ∧
    (hostCells l s).power = s.power ∧ (hostCells l s).pins = s.pins ∧ (hostCells l s).therm = s.therm ∧
    (hostCells l s).journal = s.journal ∧ (hostCells l s).fw = s.fw ∧ (hostCells l s).ring = s.ring ∧
    (hostCells l s).plan = s.plan ∧ (hostCells l s).spire = s.spire ∧ (hostCells l s).line = s.line ∧
    (hostCells l s).txFc = s.txFc ∧ (hostCells l s).cal = s.cal ∧ (hostCells l s).ten = s.ten ∧ (hostCells l s).skew = s.skew ∧
    (hostCells l s).mrg = s.mrg ∧ (hostCells l s).host = s.host ∧ (hostCells l s).pm = s.pm ∧
    (hostCells l s).turret = s.turret ∧ (hostCells l s).mem = s.mem ∧ (hostCells l s).bel = s.bel ∧
    (hostCells l s).test = s.test ∧ (hostCells l s).pending = s.pending := by
  and_intros <;> rfl

@[simp] theorem sendMsg_frame (p : Port) (m : RingMsg) (s : State) :
    (sendMsg p m s).now = s.now ∧ (sendMsg p m s).tod = s.tod ∧ (sendMsg p m s).subns = s.subns ∧
    (sendMsg p m s).free = s.free ∧ (sendMsg p m s).dma = s.dma ∧ (sendMsg p m s).mode = s.mode ∧ (sendMsg p m s).clk = s.clk ∧
    (sendMsg p m s).ctl = s.ctl ∧ (sendMsg p m s).eng = s.eng ∧ (sendMsg p m s).power = s.power ∧
    (sendMsg p m s).pins = s.pins ∧ (sendMsg p m s).therm = s.therm ∧ (sendMsg p m s).journal = s.journal ∧
    (sendMsg p m s).fw = s.fw ∧ (sendMsg p m s).plan = s.plan ∧ (sendMsg p m s).spire = s.spire ∧
    (sendMsg p m s).line = s.line ∧ (sendMsg p m s).txFc = s.txFc ∧ (sendMsg p m s).cal = s.cal ∧ (sendMsg p m s).ten = s.ten ∧
    (sendMsg p m s).skew = s.skew ∧ (sendMsg p m s).mrg = s.mrg ∧ (sendMsg p m s).host = s.host ∧ (sendMsg p m s).pm = s.pm ∧
    (sendMsg p m s).turret = s.turret ∧ (sendMsg p m s).mem = s.mem ∧ (sendMsg p m s).bel = s.bel ∧
    (sendMsg p m s).test = s.test ∧ (sendMsg p m s).pending = s.pending := outer_fields (sendMsg_outer p m s)

@[simp] theorem post_frame (code : Nat) (set : Bool) (args : List Nat) (s : State) :
    (post code set args s).now = s.now ∧ (post code set args s).tod = s.tod ∧ (post code set args s).subns = s.subns ∧
    (post code set args s).free = s.free ∧ (post code set args s).dma = s.dma ∧ (post code set args s).mode = s.mode ∧
    (post code set args s).clk = s.clk ∧ (post code set args s).ctl = s.ctl ∧ (post code set args s).eng = s.eng ∧
    (post code set args s).power = s.power ∧ (post code set args s).pins = s.pins ∧ (post code set args s).therm = s.therm ∧
    (post code set args s).journal = s.journal ∧ (post code set args s).fw = s.fw ∧ (post code set args s).plan = s.plan ∧
    (post code set args s).spire = s.spire ∧ (post code set args s).line = s.line ∧ (post code set args s).txFc = s.txFc ∧
    (post code set args s).cal = s.cal ∧ (post code set args s).ten = s.ten ∧ (post code set args s).skew = s.skew ∧
    (post code set args s).mrg = s.mrg ∧ (post code set args s).host = s.host ∧ (post code set args s).pm = s.pm ∧
    (post code set args s).turret = s.turret ∧ (post code set args s).mem = s.mem ∧ (post code set args s).bel = s.bel ∧
    (post code set args s).test = s.test ∧ (post code set args s).pending = s.pending := outer_fields (post_outer code set args s)

@[simp] theorem emit_frame (q : QueueId) (r : Rec) (s : State) :
    (emit q r s).now = s.now ∧ (emit q r s).tod = s.tod ∧ (emit q r s).subns = s.subns ∧ (emit q r s).free = s.free ∧
    (emit q r s).dma = s.dma ∧ (emit q r s).mode = s.mode ∧ (emit q r s).clk = s.clk ∧ (emit q r s).ctl = s.ctl ∧
    (emit q r s).eng = s.eng ∧ (emit q r s).power = s.power ∧ (emit q r s).pins = s.pins ∧ (emit q r s).therm = s.therm ∧
    (emit q r s).journal = s.journal ∧ (emit q r s).fw = s.fw ∧ (emit q r s).plan = s.plan ∧ (emit q r s).spire = s.spire ∧
    (emit q r s).line = s.line ∧ (emit q r s).txFc = s.txFc ∧ (emit q r s).cal = s.cal ∧ (emit q r s).ten = s.ten ∧
    (emit q r s).skew = s.skew ∧ (emit q r s).mrg = s.mrg ∧ (emit q r s).host = s.host ∧ (emit q r s).pm = s.pm ∧
    (emit q r s).turret = s.turret ∧ (emit q r s).mem = s.mem ∧ (emit q r s).bel = s.bel ∧ (emit q r s).test = s.test ∧
    (emit q r s).pending = s.pending := outer_fields (emit_outer q r s)

@[simp] theorem complete_frame (r : Ref) (st : Nat) (l : List Byte) (s : State) :
    (complete r st l s).now = s.now ∧ (complete r st l s).tod = s.tod ∧ (complete r st l s).subns = s.subns ∧
    (complete r st l s).free = s.free ∧ (complete r st l s).dma = s.dma ∧ (complete r st l s).mode = s.mode ∧
    (complete r st l s).clk = s.clk ∧ (complete r st l s).ctl = s.ctl ∧ (complete r st l s).eng = s.eng ∧
    (complete r st l s).power = s.power ∧ (complete r st l s).pins = s.pins ∧ (complete r st l s).therm = s.therm ∧
    (complete r st l s).journal = s.journal ∧ (complete r st l s).fw = s.fw ∧ (complete r st l s).plan = s.plan ∧
    (complete r st l s).spire = s.spire ∧ (complete r st l s).line = s.line ∧ (complete r st l s).txFc = s.txFc ∧
    (complete r st l s).cal = s.cal ∧ (complete r st l s).ten = s.ten ∧ (complete r st l s).skew = s.skew ∧
    (complete r st l s).mrg = s.mrg ∧ (complete r st l s).host = s.host ∧ (complete r st l s).pm = s.pm ∧
    (complete r st l s).turret = s.turret ∧ (complete r st l s).mem = s.mem ∧ (complete r st l s).bel = s.bel ∧
    (complete r st l s).test = s.test ∧ (complete r st l s).pending = s.pending := outer_fields (complete_outer r st l s)

end Sys2Proof.Machine
end

