-- ==== Sys2Proof/Laws/Tables.lean ====
section
/-! SUPPORT. The sparse tables: read after write, and the canonical form that every operation of memory keeps. -/

namespace Sys2Proof.Machine

/-! Pairs. -/

@[simp] theorem pget_pset_same {α : Type} (p : Pair α) (c : Carrier) (v : α) : pget (pset p c v) c = v := by cases c <;> rfl
@[simp] theorem pget_pupd_same {α : Type} (p : Pair α) (c : Carrier) (f : α → α) : pget (pupd p c f) c = f (pget p c) := by
  cases c <;> rfl
theorem pget_pupd_other {α : Type} (p : Pair α) {c d : Carrier} (h : d ≠ c) (f : α → α) : pget (pupd p c f) d = pget p d := by
  cases c <;> cases d <;> first | rfl | exact absurd rfl h

/-! Queues. -/

@[simp] theorem qget_qset_same (s : State) (q : QueueId) (v : Queue) : qget (qset s q v) q = v := by cases q <;> rfl
theorem qget_qset_other (s : State) {q p : QueueId} (h : p ≠ q) (v : Queue) : qget (qset s q v) p = qget s p := by
  cases q <;> cases p <;> first | rfl | exact absurd rfl h

section tables
variable {α : Type} [DecidableEq α] {d : α}

theorem tblAbove_mono {lo hi : Nat} (h : lo ≤ hi) : ∀ {t : Tbl α}, tblAbove d hi t = true → tblAbove d lo t = true
  | [], _ => rfl
  | (j, v) :: r, k => by
    simp only [tblAbove, Bool.and_eq_true, decide_eq_true_eq] at k ⊢
    exact ⟨⟨le_trans h k.1.1, k.1.2⟩, k.2⟩

/-- A key below all entries of a table reads as the default. -/
theorem tget_below {lo k : Nat} (hk : k < lo) : ∀ {t : Tbl α}, tblAbove d lo t = true → tget d t k = d
  | [], _ => rfl
  | (j, v) :: r, h => by
    simp only [tblAbove, Bool.and_eq_true, decide_eq_true_eq] at h
    have hj : j ≠ k := by omega
    simp only [tget, hj, if_false]
    exact tget_below (Nat.lt_succ_of_lt (lt_of_lt_of_le hk h.1.1)) h.2

/-! Read after write. -/

omit [DecidableEq α] in
theorem tget_tput (t : Tbl α) (k : Nat) (v : α) (x : Nat) : tget d (tput t k v) x = if x = k then v else tget d t x := by
  induction t with
  | nil =>
    by_cases h : x = k
    · simp [tput, tget, h]
    · simp [tput, tget, h, Ne.symm h]
  | cons e r ih =>
    obtain ⟨j, w⟩ := e
    by_cases h1 : j = k
    · subst h1
      by_cases h : x = j <;> simp [tput, tget, h, eq_comm]
    · by_cases h2 : k < j
      · by_cases h : x = k
        · subst h; simp [tput, tget, h1, h2]
        · simp [tput, tget, h1, h2, h, Ne.symm h]
      · by_cases h : x = k
        · subst h; simp [tput, tget, h1, h2, ih]
        · simp [tput, tget, h1, h2, h, ih]

theorem tget_terase {lo : Nat} {t : Tbl α} (h : tblAbove d lo t = true) (k x : Nat) :
    tget d (terase t k) x = if x = k then d else tget d t x := by
  induction t generalizing lo with
  | nil => simp [terase, tget]
  | cons e r ih =>
    obtain ⟨j, w⟩ := e
    simp only [tblAbove, Bool.and_eq_true, decide_eq_true_eq] at h
    by_cases h1 : j = k
    · subst h1
      by_cases hx : x = j
      · subst hx; simp [terase, tget_below (Nat.lt_succ_self x) h.2]
      · simp [terase, tget, hx, Ne.symm hx]
    · by_cases hx : x = k
      · subst hx; simp [terase, tget, h1, ih h.2]
      · simp [terase, tget, h1, hx, ih h.2]

/-- A write to a canonical table is read back, and every other key reads as before. -/
theorem tget_tset {t : Tbl α} (h : tblWf d t = true) (k : Nat) (v : α) (x : Nat) :
    tget d (tset d t k v) x = if x = k then v else tget d t x := by
  by_cases hv : v = d
  · simp [tset, hv, tget_terase h]
  · simp [tset, hv, tget_tput]

/-! The canonical form. -/

theorem tput_above {lo k : Nat} (hk : lo ≤ k) {v : α} (hv : v ≠ d) {t : Tbl α} (h : tblAbove d lo t = true) :
    tblAbove d lo (tput t k v) = true := by
  induction t generalizing lo with
  | nil => simp [tput, tblAbove, hk, hv]
  | cons e r ih =>
    obtain ⟨j, w⟩ := e
    simp only [tblAbove, Bool.and_eq_true, decide_eq_true_eq] at h
    by_cases h1 : j = k
    · subst h1; simp [tput, tblAbove, hk, hv, h.2]
    · by_cases h2 : k < j
      · simp [tput, tblAbove, h1, h2, hk, hv, h.1.2, h.2]
      · simp [tput, tblAbove, h1, h2, h.1.1, h.1.2]
        exact ih (by omega) h.2

theorem terase_above {lo k : Nat} {t : Tbl α} (h : tblAbove d lo t = true) : tblAbove d lo (terase t k) = true := by
  induction t generalizing lo with
  | nil => rfl
  | cons e r ih =>
    obtain ⟨j, w⟩ := e
    simp only [tblAbove, Bool.and_eq_true, decide_eq_true_eq] at h
    by_cases h1 : j = k
    · simp only [terase, h1, if_true]
      exact tblAbove_mono (by omega) h.2
    · simp [terase, tblAbove, h1, h.1.1, h.1.2, ih h.2]

/-- A write keeps the canonical form. -/
@[simp] theorem tset_wf {t : Tbl α} (h : tblWf d t = true) (k : Nat) (v : α) : tblWf d (tset d t k v) = true := by
  by_cases hv : v = d
  · simp only [tset, hv, if_true]
    exact terase_above h
  · simp only [tset, hv, if_false]
    exact tput_above (Nat.zero_le k) hv h

/-- An entry that leaves keeps the canonical form. -/
theorem terase_wf {t : Tbl α} (h : tblWf d t = true) (k : Nat) : tblWf d (terase t k) = true := terase_above h

/-- An entry that is no default keeps the canonical form. -/
theorem tput_wf {t : Tbl α} (h : tblWf d t = true) (k : Nat) {v : α} (hv : v ≠ d) : tblWf d (tput t k v) = true :=
  tput_above (Nat.zero_le k) hv h

/-- A fold of writes that each keep the canonical form keeps it. -/
theorem foldl_wf {β : Type} (f : Tbl α → β → Tbl α) (hf : ∀ t x, tblWf d t = true → tblWf d (f t x) = true) (l : List β)
    {t : Tbl α} (h : tblWf d t = true) : tblWf d (l.foldl f t) = true := by
  induction l generalizing t with
  | nil => exact h
  | cons x r ih => exact ih (hf t x h)

end tables

/-! Host memory and the Dome. -/

/-- Bytes stored in host memory keep its canonical form. -/
theorem memPut_wf {m : Tbl Byte} (h : tblWf 0 m = true) (a : Nat) (l : List Byte) : tblWf 0 (memPut m a l) = true := by
  induction l generalizing m a with
  | nil => exact h
  | cons b r ih => exact ih (tset_wf h _ _) (a + 1)

/-- What the host stores keeps the canonical form. -/
theorem hostCells_wf {s : State} (h : tblWf 0 s.hostMem = true) (l : List (Nat × Byte)) :
    tblWf 0 (hostCells l s).hostMem = true :=
  foldl_wf _ (fun _ _ k => tset_wf k _ _) l h

@[simp] theorem hostMem_ite {c : Prop} [Decidable c] (a b : State) :
    (if c then a else b).hostMem = if c then a.hostMem else b.hostMem := apply_ite State.hostMem c a b

@[simp] theorem raiseVector_hostMem (v : Nat) (s : State) : (raiseVector v s).hostMem = s.hostMem := by simp
@[simp] theorem countOne_hostMem (i n : Nat) (s : State) : (countOne i n s).hostMem = s.hostMem := by simp

@[simp] theorem countSrc_hostMem (x o n : Nat) (s : State) : (countSrc x o n s).hostMem = s.hostMem := by
  simp

/-- A store of the device keeps the canonical form of host memory. -/
theorem hostStore_wf {s : State} (h : tblWf 0 s.hostMem = true) (a : Nat) (l : List Byte) :
    tblWf 0 (hostStore a l s).hostMem = true := by
  simp only [hostStore, countSrc_hostMem]
  exact memPut_wf h a l

/-- A write of a line keeps the canonical form of the Dome (R334). -/
theorem lineWrite_wf {s : State} (h : s.mem.wf = true) (stack addr : Nat) (b : List Byte) :
    (lineWrite stack addr b s).mem.wf = true := by
  simp only [Memory.wf, Bool.and_eq_true] at h ⊢
  simp only [lineWrite, domeUpd]
  split <;> simp [h.1, h.2]

/-- A write of a sector keeps the canonical form of the Dome (R329). -/
theorem sectorWrite_wf {s : State} (h : s.mem.wf = true) (sector : Nat) (data : List Byte) :
    (sectorWrite sector data s).mem.wf = true := by
  simp only [Memory.wf, Bool.and_eq_true] at h ⊢
  have e : ∀ t : Tbl (Option (List Byte)), tblWf none t = true → ∀ l : List Nat, tblWf none (l.foldl terase t) = true :=
    fun t k l => foldl_wf _ (fun _ _ j => terase_wf j _) l k
  have p : ∀ t : Tbl (Option (List Byte)), tblWf none t = true → ∀ c : List Byte,
      tblWf none ((List.range 64).foldl (fun t j => tput t (lineOf sector j) (some (slice c (64 * j) 64))) t) = true :=
    fun t k c => foldl_wf _ (fun _ _ j => tput_wf j _ (by simp)) _ k
  simp only [sectorWrite, domeUpd]
  (repeat' split) <;> simp [h.1, h.2, e, p]

/-- The reset memory lists nothing, which is its canonical form. -/
theorem reset_memoryOk : memoryOk State.reset = true := by decide

end Sys2Proof.Machine
end

