-- ==== Sys2Proof/Machine/Limits.lean ====
section
/-! DEFINITION. The figures that the manual gives the device and its board and that no command changes: failure rates (R26), profiles (R35),
receiver and code figures (R104, R139, R141), lanes and clients (R179, R188), and spec/19_electrical_package.md. -/

namespace Sys2Proof.Machine

/-! Failure rates (R26). -/

/-- A failure class: its name, its rate in FIT, and whether the device absorbs it. -/
structure FitClass where
  name     : String
  fit      : Nat
  absorbed : Bool
  deriving DecidableEq, Repr

/-- The failure-rate allocation (R26). -/
def fitClasses : List FitClass := [
  ⟨"On-die SRAM upsets and failing words", 120, true⟩, ⟨"Dome symbol errors and failing lines", 90, true⟩,
  ⟨"Lantern engine faults", 50, true⟩, ⟨"Management controller upsets", 30, true⟩, ⟨"Calond lane faults", 20, true⟩,
  ⟨"Queue memory errors", 20, true⟩, ⟨"TRNG health failures", 10, true⟩, ⟨"Spire datapath and converters", 24, false⟩,
  ⟨"Decoder and framer logic", 12, false⟩, ⟨"Host SerDes", 10, false⟩, ⟨"Turret pipelines and Keep", 6, false⟩,
  ⟨"Package and supply interconnect", 8, false⟩]

/-- The rate of the classes that a choice takes in. -/
def fitTotal (take : FitClass → Bool) : Nat := ((fitClasses.filter take).map (·.fit)).sum

/-! Profiles (R35). -/

/-- A reference profile: n, format, Rs x 256, H x 64, payload in 0.1 Gb/s, slot width in 0.1 GHz, required GSNR in 0.1 dB, reach in km. -/
structure Profile where
  n       : Nat
  fmt     : Nat
  rs256   : Nat
  h64     : Nat
  payload : Nat
  slot    : Nat
  gsnr    : Nat
  reach   : Nat
  deriving DecidableEq, Repr

/-- The reference profiles (R35); formats by their codes of R27. -/
def profiles : List Profile := [
  ⟨8, 4, 86016, 376, 33000, 3750, 165, 300⟩, ⟨6, 3, 86016, 282, 24750, 3750, 125, 760⟩, ⟨4, 2, 86016, 188, 16500, 3750, 83, 2000⟩,
  ⟨4, 3, 57344, 282, 16500, 2500, 125, 760⟩, ⟨2, 0, 63067, 128, 8250, 2750, 64, 3100⟩, ⟨1, 0, 31534, 128, 4125, 1375, 64, 3100⟩]

/-- The accumulated dispersion at a reach on the reference line, in 0.1 ps/nm (R35). -/
def lineDispersion (km : Nat) : Nat := 165 * km

/-! Receiver and code figures (R104, R139, R141). -/

/-- A limit of the receiver: its quantity, its value with its unit in the name, the penalty there in 0.1 dB. -/
structure RxLimit where
  name    : String
  value   : Nat
  penalty : Option Nat
  deriving DecidableEq, Repr

/-- The limits at 336 GBd up to which the required GSNR is met (R104). -/
def rxLimits : List RxLimit := [
  ⟨"instantaneous DGD, ps", 300, some 3⟩, ⟨"SOP rotation, Mrad/s", 10, some 5⟩, ⟨"principal states above 36 T, krad/s", 100, some 3⟩,
  ⟨"PDL, 0.1 dB", 30, some 10⟩, ⟨"frequency offset, 0.1 % of Rs", 30, none⟩, ⟨"frequency drift, MHz/ms", 500, some 1⟩,
  ⟨"input power step, dB within 1 us", 8, none⟩]

/-- The combined linewidth of a format in kHz at 336 GBd, in proportion to Rs elsewhere (R104). -/
def linewidthLimit (fmt rs256 : Nat) : Nat := [4000, 1500, 1500, 600, 250].getD fmt 0 * rs256 / 86016

/-- The power of a decoder that runs every iteration, in mW (R139): the coded rate of KLF-n is n / 8 of 3,880.0429 Gb/s. -/
def decoderPower (n iEff : Nat) : Nat := 1600 + 775 * iEff * n / 8

/-- The pre-FEC threshold in 10^-4 (R141). -/
abbrev preFecThreshold : Nat := 240

/-- The net coding gain of a format in 0.1 dB (R141). -/
def codingGain (fmt : Nat) : Nat := [114, 120, 118, 122, 124].getD fmt 0

/-! Host lanes and clients (R179, R188). -/

/-- The bit rates of a host lane in Mb/s by its rate code (R179, R181). -/
def laneRate (code : Nat) : Nat := [0, 53125, 106250, 212500].getD code 0

/-- The stream rate of an Ethernet client of a MAC rate in Gb/s, in kb/s: the MAC rate x 257/256 (R188). -/
def streamRate (gb : Nat) : Nat := gb * 1000000 * 257 / 256

/-! Absolute maximum ratings (R504). -/

/-- A rating: minimum and maximum in the unit that its name states. -/
structure Rating where
  name : String
  low  : Option Int
  high : Int
  deriving DecidableEq, Repr

/-- The absolute maximum ratings (R504). -/
def ratings : List Rating := [
  ⟨"VCUP, VCORE, mV", some (-300), 850⟩, ⟨"VCUPA, VANA_A, VANA_B, VSER, mV", some (-300), 1000⟩, ⟨"VDDQ, mV", some (-300), 1210⟩,
  ⟨"VIO, VPP, mV", some (-300), 1980⟩, ⟨"low-speed pins, mV", some (-300), 1980⟩, ⟨"receive pads, differential, mVppd", none, 1200⟩,
  ⟨"receive pads, each leg, mV", some (-200), 1000⟩, ⟨"host and Calond inputs, mVppd", none, 1600⟩, ⟨"junction, C", some (-40), 135⟩,
  ⟨"storage, C", some (-55), 125⟩, ⟨"ESD human body, V", some (-1000), 1000⟩, ⟨"ESD charged device, balls, V", some (-250), 250⟩,
  ⟨"ESD charged device, pads, V", some (-100), 100⟩, ⟨"lid load, N", none, 450⟩]

/-- A value lies within a rating; beyond it the device carries no assurance of function (R504). -/
def withinRating (r : Rating) (v : Int) : Bool := r.low.all (fun l => decide (l ≤ v)) && decide (v ≤ r.high)

/-! Supplies and power (R505 to R507). -/

/-- What the board must supply on a rail: nominal (mV), static tolerance and total deviation (0.1 %), ripple (mVpp), current and load step (mA). -/
structure RailSupply where
  name      : String
  nominal   : Nat
  static    : Nat
  deviation : Nat
  ripple    : Nat
  current   : Nat
  step      : Nat
  deriving DecidableEq, Repr

/-- The nine rails (R505). -/
def railSupplies : List RailSupply := [
  ⟨"VCUP", 750, 10, 20, 5, 2000, 500⟩, ⟨"VCUPA", 900, 10, 20, 2, 1500, 500⟩, ⟨"VIO", 1800, 15, 25, 20, 300, 100⟩,
  ⟨"VCORE", 750, 10, 20, 8, 180000, 60000⟩, ⟨"VANA_A", 900, 10, 20, 2, 10000, 5000⟩, ⟨"VANA_B", 900, 10, 20, 2, 10000, 5000⟩,
  ⟨"VSER", 900, 10, 20, 3, 30000, 8000⟩, ⟨"VDDQ", 1100, 10, 20, 10, 10000, 6000⟩, ⟨"VPP", 1800, 15, 25, 20, 1500, 500⟩]

/-- A voltage at the balls lies within the total deviation of its rail (R505). -/
def supplyMet (r : RailSupply) (mv : Nat) : Bool :=
  decide (r.nominal * (1000 - r.deviation) ≤ mv * 1000) && decide (mv * 1000 ≤ r.nominal * (1000 + r.deviation))

/-- The power of a block in mW, typical and at its maximum (R506). -/
structure BlockPower where
  name    : String
  typical : Nat
  maximum : Nat
  deriving DecidableEq, Repr

/-- The blocks under the two conditions of R506; the Dome is off in the typical one. -/
def blockPowers : List BlockPower := [
  ⟨"ADCs", 9600, 9600⟩, ⟨"DACs", 7200, 7200⟩, ⟨"receive DSP", 36000, 36000⟩, ⟨"transmit DSP", 8000, 8000⟩, ⟨"decoders", 28000, 28000⟩,
  ⟨"encoders", 2000, 2000⟩, ⟨"framer domain", 7000, 7000⟩, ⟨"Turret", 10000, 10000⟩, ⟨"host SerDes", 31000, 38000⟩, ⟨"Dome", 0, 16000⟩,
  ⟨"Lanterns", 6000, 6000⟩, ⟨"Cupola, Belfry, Calond, PCIe", 5000, 5000⟩, ⟨"leakage and clock distribution", 10200, 12200⟩]

/-- The power of a host lane in mW by its rate code (R506). -/
def lanePower (code : Nat) : Nat := [0, 380, 600, 950].getD code 0

/-- The typical and the maximum power of a mode in mW; in MAINTAIN only the maximum is given (R507). -/
def modePower (m : Mode) : Option Nat × Nat :=
  match m with
  | .dormant => (some 1200, 1500)
  | .configure => (some 13000, 16000)
  | .independent => (some 160000, 169000)
  | .twin => (some 163000, 172000)
  | .bonded | .merge => (some 176000, 185000)
  | .regenerate => (some 119000, 121000)
  | .maintain => (none, 185000)

/-! Thermal (R508, R509). -/

/-- The junction temperature in 0.01 C over a lid temperature in 0.01 C at a power in mW: 0.05 C/W (R508, R509). -/
def junctionOver (lid : Int) (mw : Nat) : Int := lid + ((5 * mw / 1000 : Nat) : Int)

/-- The lid is cooled enough for a power: Tj at most 105 C (R509). -/
def cooled (lid : Int) (mw : Nat) : Bool := decide (junctionOver lid mw ≤ 10500)

/-- The highest temperature of a stack at a Tj, both in 0.1 C (R508). -/
def stackBound (tj : Int) : Int := tj - 100

/-! Package (R510 to R512). -/

/-- A ball position: row and column, 1 to 62 (R510). -/
abbrev Ball : Type := Nat × Nat

/-- A position is populated: inside the array and no corner (R510). -/
def populated (b : Ball) : Bool :=
  decide (1 ≤ b.1) && decide (b.1 ≤ 62) && decide (1 ≤ b.2) && decide (b.2 ≤ 62) && !((b.1 == 1 || b.1 == 62) && (b.2 == 1 || b.2 == 62))

/-- A group of balls: its rows and its columns (R511). -/
structure BallGroup where
  name : String
  rows : Nat × Nat
  cols : Nat × Nat
  deriving DecidableEq, Repr

/-- The groups of rows and columns (R511); VANA and VSER stand on two rows or columns each. -/
def ballGroups : List BallGroup := [
  ⟨"Calond west", (3, 8), (3, 12)⟩, ⟨"Cupola low-speed", (3, 10), (20, 42)⟩, ⟨"Calond east", (3, 8), (51, 60)⟩,
  ⟨"VANA_A", (11, 11), (12, 30)⟩, ⟨"VANA_A", (52, 52), (12, 30)⟩, ⟨"VANA_B", (11, 11), (33, 51)⟩, ⟨"VANA_B", (52, 52), (33, 51)⟩,
  ⟨"Host HQ0 to HQ4", (12, 51), (3, 10)⟩, ⟨"VSER", (12, 51), (11, 11)⟩, ⟨"VSER", (12, 51), (52, 52)⟩, ⟨"Core field", (12, 51), (12, 51)⟩,
  ⟨"Host HQ5 to HQ9", (12, 51), (53, 60)⟩, ⟨"PCIe", (54, 60), (3, 12)⟩, ⟨"Dome", (54, 60), (14, 49)⟩, ⟨"Clocks", (54, 60), (51, 60)⟩]

/-- The quad whose lanes stand at a position (R511): eight rows for each from row 12 on. -/
def quadAt (b : Ball) : Option Nat :=
  if 12 ≤ b.1 && b.1 ≤ 51 then
    (if 3 ≤ b.2 && b.2 ≤ 10 then some ((b.1 - 12) / 8) else if 53 ≤ b.2 && b.2 ≤ 60 then some (5 + (b.1 - 12) / 8) else none)
  else none

/-- The named low-speed and clock balls (R512). -/
def balls : List (String × Ball) := [
  ("PORESET_N", (4, 20)), ("PERST_N", (4, 21)), ("PFAIL_N", (4, 22)), ("TXSAFE_A_N", (4, 24)), ("TXSAFE_B_N", (4, 25)),
  ("TXOFF_A", (4, 27)), ("TXOFF_B", (4, 28)), ("TCK", (4, 34)), ("TMS", (4, 35)), ("TDI", (4, 36)), ("TDO", (4, 37)), ("TRST_N", (4, 38)),
  ("ALERT_N", (6, 20)), ("THERMTRIP_N", (6, 21)), ("SDA", (6, 23)), ("SCL", (6, 24)), ("TWI_ADDR0", (6, 25)), ("TWI_ADDR1", (6, 26)),
  ("MOD_SCL", (6, 34)), ("MOD_SDA", (6, 35)), ("ICR_SCL", (6, 37)), ("ICR_SDA", (6, 38)), ("SPI_CLK", (8, 20)), ("SPI_CS_N", (8, 21)),
  ("SPI_IO0", (8, 22)), ("SPI_IO1", (8, 23)), ("SPI_IO2", (8, 24)), ("SPI_IO3", (8, 25)), ("SLOWCLK_XI", (8, 27)), ("SLOWCLK_XO", (8, 28)),
  ("1PPS_IN", (8, 30)), ("1PPS_OUT", (8, 31))]
  ++ (List.range 16).map (fun i => ("GPIO" ++ toString i, (10, if i < 8 then 20 + i else 22 + i)))
  ++ [("LOCAL_OSC", (56, 52)), ("REFIN0_P", (56, 54)), ("REFIN0_N", (56, 55)), ("REFIN1_P", (56, 57)), ("REFIN1_N", (56, 58)),
    ("PCIE_REFCLK_P", (58, 52)), ("PCIE_REFCLK_N", (58, 53))]

/-! Landing zones (R513 to R515). -/

/-- The pads of a landing zone from west to east (R513): ground, then for each pair its positive and its negative leg. -/
def landingZone : List String :=
  ["A XI", "A XQ", "A YI", "A YQ", "B XI", "B XQ", "B YI", "B YQ"].flatMap (fun p => ["G", p ++ " +", p ++ " -"]) ++ ["G"]

/-- The full-scale swings that a transmit pair can be set to, in mVppd (R513). -/
def swingInRange (mv : Nat) : Bool := decide (400 ≤ mv) && decide (mv ≤ 900)

/-- The target level of -15 dBFS as a differential RMS in 0.1 mV (R514). -/
abbrev targetRms : Nat := 445

/-- The skew between the four pairs of one carrier in ps stays within what calibration can take up (R515). -/
def skewTakenUp (ps : Nat) : Bool := decide (ps ≤ 8)

/-! Lanes, pins and clocks (R516 to R520). -/

/-- The loss of a Calond channel at 6.25 GHz in dB at which its link still steps up (R516). -/
def channelMet (db : Nat) : Bool := decide (db ≤ 15)

/-- The 7-bit address of the two-wire port (R518). -/
def twiAddress : Nat := 0x58 + Config.straps.val

/-- A CMOS input reads as low, as high, or as neither (R517). -/
def pinLevel (vio mv : Nat) : Option Bool :=
  if 65 * vio ≤ 100 * mv then some true else if 100 * mv ≤ 35 * vio then some false else none

/-- A clock input: its frequency in Hz, and its accuracy in ppm where the manual states one (R519). -/
def clockInputs : List (String × Nat × Option Nat) :=
  [("LOCAL_OSC", 50000000, some 100), ("SLOWCLK", 32768, some 50), ("PCIE_REFCLK", 100000000, some 300), ("1PPS_IN", 1, none)]

/-- LOCAL_OSC can be qualified: it is within 100 ppm, and there is a slow clock to measure it against (R519, R520). -/
def oscQualifies (slowclk : Bool) (ppm : Int) : Bool := slowclk && decide (ppm.natAbs ≤ 100)

end Sys2Proof.Machine
end

