-- ==== Sys2Proof/Tests/Slice0.lean ====
section
/-! SUPPORT. Tests: well-formedness checks at their limits, the worked examples of the manual, and for each statement of the
obligations a state and operands that meet the premises of each of its clauses. -/

namespace Sys2Proof.Tests
open Sys2Proof Sys2Proof.Machine
set_option maxRecDepth 100000
set_option Elab.async false
set_option linter.unusedVariables false

/-- Every domain ON. -/
def allOn : Tbl Dom := (List.range' 1 31).map fun d => (d, { state := .on, wanted := true })

/-- A ready device in CONFIGURE at 1 s with every domain ON and empty queues. -/
def rd : State := {
  now := 1000000000
  ctl := { phase := .running, ready := true }
  mode := { cur := .configure }
  pins := { poreset := false, safeA := false, safeB := false }
  clk := { qualified := true }
  pcie := { perst := false, busMaster := true }
  power := { doms := allOn } }

/-- The ready device with one domain in another state. -/
def dom (d : Nat) (v : Dom) : State := { rd with power := { doms := tset {} allOn d v } }

/-- The ready device with a Spire A. -/
def sp (x : Spire) : State := { rd with spire := ⟨x, {}⟩ }

/-- The ready device with FEC and framer of carrier A. -/
def ln (x : LineSt) : State := { rd with line := ⟨x, {}⟩ }

/-- A packet to Q3 without a tenant. -/
def cmd (l : List Nat) : Packet := ⟨.q3, 1, 0, 0, 0xFFFFFFFF, l.map (BitVec.ofNat 8)⟩

/-- A packet to Q3 for a tenant. -/
def cmdT (t : Nat) (l : List Nat) : Packet := { cmd l with tenant := t }

/-- A host ring of 8 KiB. -/
def ring0 : HostRing := { base := 0x10000, sizeLog := 13 }
/-- A final record without a result. -/
def rec0 : Rec := ⟨0, 1, 0, 0, 0, [], 0, true, false⟩
/-- An event record. -/
def ev0 : EvRec := ⟨1, false, 0, 0, 0, 0, []⟩
/-- A descriptor of 4 KiB. -/
def desc0 : Desc := ⟨2, 0, 4096, 0, 0, 0⟩
/-- A transition to BONDED in a step. -/
def tr (n : Nat) : Trans := ⟨.bonded, ⟨.q3, 0⟩, n, [], none⟩
/-- A firmware image. -/
def hdr0 : ImageHdr := ⟨1, 0, 0x3042, 0, 1048064, 1⟩
/-- A line that is aligned and in SYNC. -/
def syncLine : LineSt := { frm := { align := .sync }, fec := { aligned := true } }
/-- A Spire in LOCKED. -/
def lk : Spire := { acq := { state := .locked } }
/-- A block of an age in the decoder window. -/
def blk (n : Nat) : DecBlock := ⟨0, 16, 0, none, n, false, true, 0, 0, true, {}⟩
/-- A plan that R41 accepts. -/
def planA : CarrierPlan := ⟨8, 4, 376, 86016⟩
/-- A group without clipped samples, slips or errors. -/
def group0 : GroupObs := ⟨0, false, 0, 0, 0, 0, 0, List.replicate 64 {}, List.replicate 64 {}⟩
/-- A good header for a frame of 8 slots. -/
def frame0 : RxFrame := { header := BitVec.ofNat 64 (7 * 2 ^ 37 + 44577) }
/-- A framer in HUNT to which one message has been delivered. -/
def hunting (h : Nat) : State :=
  { ln { fec := { aligned := true }, frm := { words := [(h, false)] } } with plan := { car := ⟨planA, {}⟩ } }
/-- A REQUEST to device 3 that has made some hops. -/
def msg0 (h : Nat) : RingMsg := ⟨0x10, 1, 3, h, 0, 0, []⟩
/-- Alternating samples of a noise source. -/
def noise0 : List Bool := (List.range 1024).map (· % 2 == 0)
/-- An H unit of zeros. -/
def h0 : BitVec 64 := 0#64
/-- The bytes of the base point. -/
def point0 : List Nat := (pointBytes pBase).map (·.toNat)
/-- The ready device with a KEK of zeros in slot 7. -/
def keyed : State := { rd with turret := { keep := [(slotKek + 7, { r0 := { state := 1, k1 := List.replicate 32 0 } })] } }

/-- The period of an empty container. -/
def mark0 : PeriodMark := {}

/-- The tag of that period under a key of zeros. -/
def tag0 : Word64 := gcmTag (aesKeys (List.replicate 32 0)) (gcmJ0 0 0 0) 0#64 []

/-- A tenant in NORM whose key is loaded, with a period that awaits its tag and the frame that brings it. -/
def tagged : State := { rd with
  ten := [(0, { rx := { state := .norm, held := some mark0, frames := [⟨12, true, [tag0]⟩] } })]
  turret := { keep := [(0, { r0 := { state := 1, k1 := List.replicate 32 0 } })] } }

theorem tagged_candidate : 1 ∈ tagCandidates (keySlot tagged 0) mark0 tag0 := by
  have hk : keyReg (keySlot tagged 0) ((keySlot tagged 0).checks.headD (keySlot tagged 0).pRx) =
      { state := 1, k1 := List.replicate 32 0 } := by decide +kernel
  simp only [tagCandidates, hk, List.mem_filter]
  exact ⟨by decide, Bool.and_eq_true_iff.2 ⟨by decide, beq_self_eq_true _⟩⟩

/-- Candidates that hold W_RX pass without a hunt. -/
theorem tagged_pass (l : List Nat) (h : 1 ∈ l) : (tagVerdict 0 l tagged).1 = true ∧ (tagVerdict 0 l tagged).2.1 = false := by
  have h0 : (keyReg (keySlot tagged 0) ((keySlot tagged 0).checks.head?.getD (keySlot tagged 0).pRx)).state = 1 := by decide +kernel
  have h1 : (keySlot tagged 0).hunt = false := by decide +kernel
  simp [tagVerdict, h0, h1, h]

theorem tagged_verdict : (tagVerdict 0 (tagCandidates (keySlot tagged 0) mark0 tag0) tagged).1 = true :=
  (tagged_pass _ tagged_candidate).1

theorem tagged_hunt : (tagVerdict 0 (tagCandidates (keySlot tagged 0) mark0 tag0) tagged).2.1 = false :=
  (tagged_pass _ tagged_candidate).2

/-- The number of `2 * n` bits 0101... -/
def alt : Nat → Nat
  | 0 => 0
  | n + 1 => 4 * alt n + 1

/-- Alternating bits in two parts. -/
theorem alt_add (a b : Nat) : alt (a + b) = alt a + 4 ^ a * alt b := by
  induction a with
  | zero => simp [alt]
  | succ a ih => rw [Nat.succ_add, alt, alt, ih, Nat.pow_succ]; ring

/-- Three times the alternating bits fill their places. -/
theorem alt_three (n : Nat) : 3 * alt n + 1 = 4 ^ n := by
  induction n with
  | zero => rfl
  | succ n ih => rw [alt, Nat.pow_succ, ← ih]; ring

/-- The received stream 0101... -/
def altFec : Fec := { hunting := true, raw := alt 38052, rawLen := rawSpan }

/-- The blocks of the stream 0101... have one of two values. -/
theorem altFec_block (d k : Nat) (hd : d < 9513) (h1 : 1 ≤ k) (h6 : k ≤ 6) :
    rawBlock altFec d k = (4 ^ 4757 - 1) / 3 / 2 ^ ((d + k + 1) % 2) % 2 ^ 9513 := by
  obtain ⟨m, hm⟩ : ∃ m, rawSpan + d - 9513 * (k + 1) = 2 * m + (d + k + 1) % 2 :=
    ⟨(rawSpan + d - 9513 * (k + 1)) / 2, by
      simp only [rawSpan]; interval_cases k <;> omega⟩
  have hlen : m + 4757 ≤ 38052 := by simp only [rawSpan] at hm; omega
  obtain ⟨r, hr⟩ : ∃ r, 38052 = m + (4757 + r) := ⟨38052 - m - 4757, by omega⟩
  have ha : alt 4757 = (4 ^ 4757 - 1) / 3 := by have := alt_three 4757; omega
  have hb : alt m < 4 ^ m := by have := alt_three m; omega
  have hdiv : alt 38052 / 2 ^ (2 * m) = alt 4757 + 4 ^ 4757 * alt r := by
    rw [hr, alt_add, alt_add, pow_mul, show (2 : Nat) ^ 2 = 4 from rfl, Nat.add_mul_div_left _ _ (by positivity),
      Nat.div_eq_of_lt hb, Nat.zero_add]
  have hpow : (4 : Nat) ^ 4757 = 2 ^ 9514 := by rw [show (4 : Nat) = 2 ^ 2 from rfl, ← pow_mul]
  have hlen0 : altFec.inp.bits.length = 0 := rfl
  have hraw : altFec.raw = alt 38052 := rfl
  rw [rawBlock, hraw, hlen0, Nat.sub_zero, hm, pow_add, ← Nat.div_div_eq_div_mul, hdiv, ha]
  rw [hpow, show (9514 : Nat) = 9513 + 1 from rfl]
  generalize (4 ^ 4757 - 1) / 3 = a
  generalize (9513 : Nat) = n
  rcases Nat.mod_two_eq_zero_or_one (d + k + 1) with e | e <;> rw [e]
  · rw [pow_zero, Nat.div_one, Nat.div_one, show 2 ^ (n + 1) * alt r = 2 ^ n * (2 * alt r) by rw [pow_add]; ring,
      Nat.add_mul_mod_self_left]
  · rw [show 2 ^ (n + 1) * alt r = 2 ^ 1 * (2 ^ n * (1 * alt r)) by rw [pow_add]; ring,
      Nat.add_mul_div_left _ _ (by norm_num), Nat.add_mul_mod_self_left]

/-- The two blocks of the stream 0101... -/
def altBlock (e : Nat) : BlockBits := (4 ^ 4757 - 1) / 3 / 2 ^ e % 2 ^ 9513

/-- The unsatisfied checks of the first of the two blocks between the other. -/
theorem altBlock_checks0 : unsatisfied (altBlock 0) (altBlock 1) (altBlock 0) = 543 := by decide +kernel

/-- The unsatisfied checks of the second. -/
theorem altBlock_checks1 : unsatisfied (altBlock 1) (altBlock 0) (altBlock 1) = 544 := by decide +kernel

/-- A sum of four. -/
theorem sum_four (g : Nat → Nat) : ((List.range 4).map g).sum = g 0 + (g 1 + (g 2 + (g 3 + 0))) := by
  simp [List.range_succ]

/-- A position whose blocks alternate scores 2,174. -/
theorem altBlock_score (f : Fec) (d : Nat) (h : ∀ k, 1 ≤ k → k ≤ 6 → rawBlock f d k = altBlock ((d + k + 1) % 2)) :
    scoreAt f d = 2174 := by
  have hs : scoreAt f d = unsatisfied (rawBlock f d 1) (rawBlock f d 2) (rawBlock f d 3)
      + (unsatisfied (rawBlock f d 2) (rawBlock f d 3) (rawBlock f d 4)
      + (unsatisfied (rawBlock f d 3) (rawBlock f d 4) (rawBlock f d 5)
      + (unsatisfied (rawBlock f d 4) (rawBlock f d 5) (rawBlock f d 6) + 0))) := by
    rw [scoreAt, sum_four]
  have pair : ∀ k, 1 ≤ k → k ≤ 4 → unsatisfied (rawBlock f d k) (rawBlock f d (k + 1)) (rawBlock f d (k + 2)) =
      if (d + k + 1) % 2 = 0 then 543 else 544 := by
    intro k h1 h4
    rw [h k h1 (by omega), h (k + 1) (by omega) (by omega), h (k + 2) (by omega) (by omega)]
    rcases Nat.mod_two_eq_zero_or_one (d + k + 1) with e | e
    · rw [e, show (d + (k + 1) + 1) % 2 = 1 by omega, show (d + (k + 2) + 1) % 2 = 0 by omega]
      exact altBlock_checks0
    · rw [e, show (d + (k + 1) + 1) % 2 = 0 by omega, show (d + (k + 2) + 1) % 2 = 1 by omega]
      exact altBlock_checks1
  rw [hs, pair 1 (by omega) (by omega), pair 2 (by omega) (by omega), pair 3 (by omega) (by omega), pair 4 (by omega) (by omega)]
  split_ifs <;> omega

/-- Every position of the alternating stream scores 2,174. -/
theorem altFec_score (d : Nat) (hd : d < 9513) : scoreAt altFec d = 2174 :=
  altBlock_score altFec d fun k => altFec_block d k hd

/-- The search keeps that score. -/
theorem altFec_from (n d : Nat) (b : Nat × Nat) (hb : b.2 = 2174) (hn : d + n ≤ 9513) : (huntFrom altFec n d b).2 = 2174 := by
  induction n generalizing d b with
  | zero => exact hb
  | succ n ih =>
    rw [huntFrom, if_neg (by omega)]
    exact ih (d + 1) _ (by rw [altFec_score d (by omega), if_neg (by omega)]; exact hb) (by omega)

/-- No position of the alternating stream is a grid (R136). -/
theorem altFec_hunt : (huntBest altFec).2 = 2174 := by
  rw [huntBest]
  exact altFec_from 9512 1 _ (altFec_score 0 (by omega)) (by omega)

/-- The packet of LOAD_KEY for the key that Lean has unwrapped. -/
def keyPacket : Packet := cmdT 1023 ([1, 7, 0, 0] ++ blobSample.map BitVec.toNat)

theorem keyPacket_blob : slice keyPacket.params 4 56 = blobSample := by decide +kernel

theorem keyed_unwraps : keyUnwrap (kekAt keyed (u8 keyPacket.params 1)).k1 (slice keyPacket.params 4 56) = some blobSamplePlain := by
  have h : (kekAt keyed (u8 keyPacket.params 1)).k1 = List.replicate 32 0 := by decide +kernel
  rw [h, keyPacket_blob]
  exact keyUnwrap_sample

theorem keyed_check : checkLoadKey (ctxOf keyPacket keyed) (begun 0x0702 keyPacket keyed) = stOk := by
  have hk : (kekAt (begun 0x0702 keyPacket keyed) (u8 keyPacket.params 1)).k1 = List.replicate 32 0 := by decide +kernel
  have hb : blobPlain (begun 0x0702 keyPacket keyed) keyPacket.params = some blobSamplePlain := by
    rw [blobPlain, hk, keyPacket_blob]
    exact keyUnwrap_sample
  have hc : (ctxOf keyPacket keyed).pk = keyPacket := rfl
  simp only [checkLoadKey, hc, hb, Option.getD_some]
  decide +kernel

/-! Well-formedness: each check accepts the last value in range and refuses the next one. -/

theorem test_wf_accepts0 : ([
    .nop { cmd [] with tag := 65535 }, .nop { cmd [] with target := 255 }, .nop { cmd [] with flags := 255 },
    .nop { cmd [] with tenant := 0xFFFFFFFF }, .nop { cmd [] with params := List.replicate 4080 0 },
    .invalidPacket .q0 (List.replicate 4096 0), .relayRequest .q0 (List.replicate 4096 0),
    .twiQendWrite (List.replicate 4096 0), .qend .q0 8191 .clean, .pcieLink 15 32, .pcieLink 15 32, .msixUnmask 21,
    .dmaDoorbell 15 [] false, .dmaDoorbell 0 [(2 ^ 64 - 1, 0)] false, .dmaAbort 15, .dmaCplHeadWrite 15 0, .cntOvfClear 3 0,
    .bwPeakRead 62 false false, .counterLowRead false 65535, .bar2CounterRead 1023 false, .violation ⟨true, 4095, false, 32⟩,
    .violation ⟨false, 65535, false, 32⟩, .registerWrite 65535 0, .dmaBurst [(2 ^ 64 - 1, 0)] false false,
    .receiveFlushTimeout 15, .counterWrap 127 0, .bwWindowEnd 62, .railWarn 8 65535, .railWarn 8 65535, .railWarnClear 8 65535,
    .railWarnClear 8 65535, .railReset 8 65535, .railReset 8 65535, .domainReturnStart 8, .fifoMismatch 31 .other,
    .fifoMismatch 2 (.store 1023), .fifoMismatch 13 (.phyTx 39), .domainPllLock 31, .domainInitDone 31, .fifoWindowClose 31,
    .tempSample (List.replicate 24 250), .fwClusterSwitch 11, .txClipInterval .a 3,
    .flashOperationDone (some (List.replicate 4080 0)), .agcWindow .a ⟨[[-128], [127], [0], [0]], 0⟩,
    .agcWindow .b ⟨[[0], [0], [0], [0]], 0⟩, .rxClipInterval .a 3, .monitorRecordClose .a 3,
    .toneSweepDone .a [List.replicate 16 (0, 0)], .symbolGroupReceive .a { group0 with centroid := 1024 },
    .symbolGroupReceive .a group0, .calWindowClose .a 8 [], .calApply .a 8] : List Instr).all Instr.wf = true := by
  decide +kernel

theorem test_wf_refuses0 : ([
    .nop { cmd [] with tag := 65535 + 1 }, .nop { cmd [] with target := 255 + 1 }, .nop { cmd [] with flags := 255 + 1 },
    .nop { cmd [] with tenant := 0xFFFFFFFF + 1 }, .nop { cmd [] with params := List.replicate 4081 0 },
    .invalidPacket .q0 (List.replicate 4097 0), .relayRequest .q0 (List.replicate 4097 0),
    .twiQendWrite (List.replicate 4097 0), .qend .q0 8192 .clean, .pcieLink 16 32, .pcieLink 15 33, .msixUnmask 22,
    .dmaDoorbell 16 [] false, .dmaDoorbell 0 [(2 ^ 64, 0)] false, .dmaAbort 16, .dmaCplHeadWrite 16 0, .cntOvfClear 4 0,
    .bwPeakRead 63 false false, .counterLowRead false 65536, .bar2CounterRead 1024 false, .violation ⟨true, 4096, false, 32⟩,
    .violation ⟨false, 65536, false, 32⟩, .registerWrite 65536 0, .dmaBurst [(2 ^ 64, 0)] false false, .receiveFlushTimeout 16,
    .counterWrap 128 0, .bwWindowEnd 63, .railWarn 9 65535, .railWarn 8 65536, .railWarnClear 9 65535, .railWarnClear 8 65536,
    .railReset 9 65535, .railReset 8 65536, .domainReturnStart 9, .fifoMismatch 32 .other, .fifoMismatch 2 (.store 1024),
    .fifoMismatch 13 (.phyTx 40), .domainPllLock 32, .domainInitDone 32, .fifoWindowClose 32,
    .tempSample (List.replicate 23 250), .fwClusterSwitch 12, .txClipInterval .a 4,
    .flashOperationDone (some (List.replicate 4081 0)), .agcWindow .a ⟨[[-129], [127], [0], [0]], 0⟩,
    .agcWindow .b ⟨[[0], [0], [0]], 0⟩, .rxClipInterval .a 4, .monitorRecordClose .a 4,
    .toneSweepDone .a [List.replicate 15 (0, 0)], .symbolGroupReceive .a { group0 with centroid := 1025 },
    .symbolGroupReceive .a { group0 with samples := List.replicate 63 {} }, .calWindowClose .a 9 [], .calApply .a 9] : List Instr).any Instr.wf = false := by
  decide +kernel

theorem test_wf_accepts1 : ([
    .foregroundCalDone .a (List.replicate 6 []), .turboPass .a 0 2, .pointerPeriodTransmit 1023 [],
    .pointerPeriodTransmit 0 [⟨true, List.replicate 64 true⟩], .tcFreqOffsetWindow 1023 0, .pointerPeriodReceive 1023,
    .tagCheckResult 1023, .laneForegroundAdaptDone 39 [], .laneAdaptWindow 39 ⟨4, [], 0⟩, .laneAdaptWindow 39 ⟨4, [], 0⟩,
    .laneAdaptApply 39, .hostDefect (.lane 39) 0 0, .hostDefect (.phy 39 []) 0 0,
    .hostDefect (.phy 0 (List.replicate 32 none)) 0 0, .hostDefect (.group 15) 0 0, .hostDefect (.client 1023) 0 0,
    .hostDefect (.lane 0) 65535 0, .hostDefect (.lane 0) 0 65535, .rsFecCodeword 39 [], .rsFecCodeword 0 [[3]],
    .rsFecCodeword 0 (List.replicate 8 []), .flexeOverheadFrameRx 39 ⟨false, false, false, true, true, none, false, some 15⟩,
    .flexeOverheadFrameRx 39 ⟨false, false, false, true, true, none, false, some 15⟩, .flexeMultiframeBoundary 15,
    .flexeCaTimeout 15, .esmcTimeout 15, .esmcInfoPdu 15, .scheduleFrameRead 16777215 none none, .mergeFrameSelect 16777215,
    .framerCipherRequest 1023 true true, .domeCipherRequest 2097151 true (List.replicate 4096 0),
    .domeCipherRequest 0 true (List.replicate 4096 0), .domeSectorTimeout 2097151, .pipeFenced 127,
    .keepEccError 1055 1 .oneCopy, .keepEccError 1055 1 .oneCopy, .keyRotated 1023 0, .keyRotated 1023 16777215,
    .keyGenerated 1023, .domeStackReady 1 [], .domeStackReady 1 [67108863], .domeLineOperation 1 0 (.read []),
    .domeLineOperation 1 67108863 (.read []), .domeLineOperation 1 0 (.read [(71, 1)]),
    .domeLineOperation 1 0 (.write (List.replicate 64 0)), .domeRefresh 1 true, .scrubVisit 1 0 [], .scrubPassStart 29,
    .scrubLate 16, .sramUncorrectable 13 0 .code, .rowRepairDone [15], .refPhaseMeasure 9 0 0, .refFreqCheck 9] : List Instr).all Instr.wf = true := by
  decide +kernel

theorem test_wf_refuses1 : ([
    .foregroundCalDone .a (List.replicate 7 []), .turboPass .a 0 3, .pointerPeriodTransmit 1024 [],
    .pointerPeriodTransmit 0 [⟨true, List.replicate 63 true⟩], .tcFreqOffsetWindow 1024 0, .pointerPeriodReceive 1024,
    .tagCheckResult 1024, .laneForegroundAdaptDone 40 [], .laneAdaptWindow 40 ⟨4, [], 0⟩, .laneAdaptWindow 39 ⟨5, [], 0⟩,
    .laneAdaptApply 40, .hostDefect (.lane 40) 0 0, .hostDefect (.phy 40 []) 0 0,
    .hostDefect (.phy 0 (List.replicate 33 none)) 0 0, .hostDefect (.group 16) 0 0, .hostDefect (.client 1024) 0 0,
    .hostDefect (.lane 0) 65536 0, .hostDefect (.lane 0) 0 65536, .rsFecCodeword 40 [], .rsFecCodeword 0 [[4]],
    .rsFecCodeword 0 (List.replicate 9 []), .flexeOverheadFrameRx 40 ⟨false, false, false, true, true, none, false, some 15⟩,
    .flexeOverheadFrameRx 39 ⟨false, false, false, true, true, none, false, some 16⟩, .flexeMultiframeBoundary 16,
    .flexeCaTimeout 16, .esmcTimeout 16, .esmcInfoPdu 16, .scheduleFrameRead 16777216 none none, .mergeFrameSelect 16777216,
    .framerCipherRequest 1024 true true, .domeCipherRequest 2097152 true (List.replicate 4096 0),
    .domeCipherRequest 0 true (List.replicate 4095 0), .domeSectorTimeout 2097152, .pipeFenced 128,
    .keepEccError 1056 1 .oneCopy, .keepEccError 1055 2 .oneCopy, .keyRotated 1024 0, .keyRotated 1023 16777216,
    .keyGenerated 1024, .domeStackReady 2 [], .domeStackReady 1 [67108864], .domeLineOperation 2 0 (.read []),
    .domeLineOperation 1 67108864 (.read []), .domeLineOperation 1 0 (.read [(72, 1)]),
    .domeLineOperation 1 0 (.write (List.replicate 63 0)), .domeRefresh 2 true, .scrubVisit 2 0 [], .scrubPassStart 30,
    .scrubLate 15, .sramUncorrectable 14 0 .code, .rowRepairDone [16], .refPhaseMeasure 10 0 0, .refFreqCheck 10] : List Instr).any Instr.wf = false := by
  decide +kernel

theorem test_wf_accepts2 : ([
    .refSignalChange 9 true, .refWtrExpiry 9, .ringMessageForward .east (List.replicate 4148 0),
    .rosterReceive ⟨255, 0, 0, 0, 0, 0, []⟩, .rosterReceive ⟨0, 255, 0, 0, 0, 0, []⟩, .rosterReceive ⟨0, 0, 255, 0, 0, 0, []⟩,
    .rosterReceive ⟨0, 0, 0, 255, 0, 0, []⟩, .rosterReceive ⟨0, 0, 0, 0, 65535, 0, []⟩,
    .rosterReceive ⟨0, 0, 0, 0, 0, 65535, []⟩, .ringStatusReceive .east ⟨255, 0, 0, 0, 0, 0, []⟩,
    .requestReceive .east ⟨255, 0, 0, 0, 0, 0, []⟩, .responseReceive .east ⟨255, 0, 0, 0, 0, 0, []⟩,
    .eventReceive .east ⟨255, 0, 0, 0, 0, 0, []⟩, .pmReceive .east ⟨255, 0, 0, 0, 0, 0, []⟩,
    .protectReceive ⟨255, 0, 0, 0, 0, 0, []⟩, .timingReceive .east ⟨255, 0, 0, 0, 0, 0, []⟩ 0 0,
    .timingReceive .east ⟨0, 0, 0, 0, 0, 0, []⟩ 281474976710655 0, .timingReceive .east ⟨0, 0, 0, 0, 0, 0, []⟩ 0 999999999,
    .workerLeft 15, .workerReachabilityTimeout 15 .west, .negReceive .west 7, .delayExchange .west 18446744073709551615,
    .delayReqReceive .west 18446744073709551615 0, .delayReqReceive .west 0 18446744073709551615,
    .delayRespReceive .west 18446744073709551615 0 0, .delayRespReceive .west 0 18446744073709551615 0,
    .delayRespReceive .west 0 0 18446744073709551615, .receiptReceive .east 15 0 true, .receiptReceive .east 0 65535 true,
    .relayRetry 15, .relayUnreachableTimeout 15, .respAckReceive .east 65535 0, .respAckReceive .east 0 65535,
    .streamAckReceive .east 255 0, .streamAckReceive .east 0 4294967295, .protectSend 31, .protectWtrExpiry 31,
    .protectPartner 31, .engineFailed 191, .engineFailover 191, .engineCheckpoint 191, .captureTrigger (.event 65535),
    .captureTrigger (.gpio 15 true), .captureTrigger (.defect .b 255), .captureEndEarly 5, .patternLock 3 0 [],
    .patternLock 3 1023 [], .busTransferDone 1 0 [], .busTransferDone 1 255 [], .busTransferDone 1 0 (List.replicate 4096 0),
    .busStuckRelease 1] : List Instr).all Instr.wf = true := by
  decide +kernel

theorem test_wf_refuses2 : ([
    .refSignalChange 10 true, .refWtrExpiry 10, .ringMessageForward .east (List.replicate 4149 0),
    .rosterReceive ⟨256, 0, 0, 0, 0, 0, []⟩, .rosterReceive ⟨0, 256, 0, 0, 0, 0, []⟩, .rosterReceive ⟨0, 0, 256, 0, 0, 0, []⟩,
    .rosterReceive ⟨0, 0, 0, 256, 0, 0, []⟩, .rosterReceive ⟨0, 0, 0, 0, 65536, 0, []⟩,
    .rosterReceive ⟨0, 0, 0, 0, 0, 65536, []⟩, .ringStatusReceive .east ⟨256, 0, 0, 0, 0, 0, []⟩,
    .requestReceive .east ⟨256, 0, 0, 0, 0, 0, []⟩, .responseReceive .east ⟨256, 0, 0, 0, 0, 0, []⟩,
    .eventReceive .east ⟨256, 0, 0, 0, 0, 0, []⟩, .pmReceive .east ⟨256, 0, 0, 0, 0, 0, []⟩,
    .protectReceive ⟨256, 0, 0, 0, 0, 0, []⟩, .timingReceive .east ⟨256, 0, 0, 0, 0, 0, []⟩ 0 0,
    .timingReceive .east ⟨0, 0, 0, 0, 0, 0, []⟩ 281474976710656 0, .timingReceive .east ⟨0, 0, 0, 0, 0, 0, []⟩ 0 1000000000,
    .workerLeft 16, .workerReachabilityTimeout 16 .west, .negReceive .west 8, .delayExchange .west 18446744073709551616,
    .delayReqReceive .west 18446744073709551616 0, .delayReqReceive .west 0 18446744073709551616,
    .delayRespReceive .west 18446744073709551616 0 0, .delayRespReceive .west 0 18446744073709551616 0,
    .delayRespReceive .west 0 0 18446744073709551616, .receiptReceive .east 16 0 true, .receiptReceive .east 0 65536 true,
    .relayRetry 16, .relayUnreachableTimeout 16, .respAckReceive .east 65536 0, .respAckReceive .east 0 65536,
    .streamAckReceive .east 256 0, .streamAckReceive .east 0 4294967296, .protectSend 32, .protectWtrExpiry 32,
    .protectPartner 32, .engineFailed 192, .engineFailover 192, .engineCheckpoint 192, .captureTrigger (.event 65536),
    .captureTrigger (.gpio 16 true), .captureTrigger (.defect .b 256), .captureEndEarly 6, .patternLock 4 0 [],
    .patternLock 3 1024 [], .busTransferDone 2 0 [], .busTransferDone 1 256 [], .busTransferDone 1 0 (List.replicate 4097 0),
    .busStuckRelease 2] : List Instr).any Instr.wf = false := by
  decide +kernel

/-- Every command refuses a packet that is out of range. -/
theorem test_wf_packets : ([
    .nop ⟨.q3, 65536, 0, 0, 0, []⟩, .fence ⟨.q3, 65536, 0, 0, 0, []⟩, .getIdentity ⟨.q3, 65536, 0, 0, 0, []⟩,
    .getQueueStatus ⟨.q3, 65536, 0, 0, 0, []⟩, .resetQueue ⟨.q3, 65536, 0, 0, 0, []⟩,
    .setQueueConfig ⟨.q3, 65536, 0, 0, 0, []⟩, .setMode ⟨.q3, 65536, 0, 0, 0, []⟩, .setDomains ⟨.q3, 65536, 0, 0, 0, []⟩,
    .getPowerStatus ⟨.q3, 65536, 0, 0, 0, []⟩, .setSupervision ⟨.q3, 65536, 0, 0, 0, []⟩,
    .clearPairFault ⟨.q3, 65536, 0, 0, 0, []⟩, .setLinePlan ⟨.q3, 65536, 0, 0, 0, []⟩,
    .getLinePlan ⟨.q3, 65536, 0, 0, 0, []⟩, .setTxShaping ⟨.q3, 65536, 0, 0, 0, []⟩,
    .setTxCorrection ⟨.q3, 65536, 0, 0, 0, []⟩, .setTxOutput ⟨.q3, 65536, 0, 0, 0, []⟩,
    .setTxState ⟨.q3, 65536, 0, 0, 0, []⟩, .getTxStatus ⟨.q3, 65536, 0, 0, 0, []⟩, .setRxFrontEnd ⟨.q3, 65536, 0, 0, 0, []⟩,
    .getRxStatus ⟨.q3, 65536, 0, 0, 0, []⟩, .setCalControl ⟨.q3, 65536, 0, 0, 0, []⟩,
    .getCalStatus ⟨.q3, 65536, 0, 0, 0, []⟩, .setMonitor ⟨.q3, 65536, 0, 0, 0, []⟩,
    .monitorControl ⟨.q3, 65536, 0, 0, 0, []⟩, .runToneSearch ⟨.q3, 65536, 0, 0, 0, []⟩, .setRxDsp ⟨.q3, 65536, 0, 0, 0, []⟩,
    .restartAcquisition ⟨.q3, 65536, 0, 0, 0, []⟩, .getChannelEstimates ⟨.q3, 65536, 0, 0, 0, []⟩,
    .setFec ⟨.q3, 65536, 0, 0, 0, []⟩, .setFecDefects ⟨.q3, 65536, 0, 0, 0, []⟩, .getFecStatus ⟨.q3, 65536, 0, 0, 0, []⟩,
    .setFrameConfig ⟨.q3, 65536, 0, 0, 0, []⟩, .getFrameStatus ⟨.q3, 65536, 0, 0, 0, []⟩,
    .setCalendar ⟨.q3, 65536, 0, 0, 0, []⟩, .swapCalendar ⟨.q3, 65536, 0, 0, 0, []⟩, .getCalendar ⟨.q3, 65536, 0, 0, 0, []⟩,
    .setTenantControl ⟨.q3, 65536, 0, 0, 0, []⟩, .getTenantStatus ⟨.q3, 65536, 0, 0, 0, []⟩,
    .setSkewConfig ⟨.q3, 65536, 0, 0, 0, []⟩, .setMergeConfig ⟨.q3, 65536, 0, 0, 0, []⟩,
    .getSkewStatus ⟨.q3, 65536, 0, 0, 0, []⟩, .getMergeStatus ⟨.q3, 65536, 0, 0, 0, []⟩,
    .setPmConfig ⟨.q3, 65536, 0, 0, 0, []⟩, .setPmThresholds ⟨.q3, 65536, 0, 0, 0, []⟩,
    .setPmProfile ⟨.q3, 65536, 0, 0, 0, []⟩, .getPmCurrent ⟨.q3, 65536, 0, 0, 0, []⟩,
    .getPmHistory ⟨.q3, 65536, 0, 0, 0, []⟩, .getLinkQuality ⟨.q3, 65536, 0, 0, 0, []⟩,
    .establishKek ⟨.q3, 65536, 0, 0, 0, []⟩, .loadKey ⟨.q3, 65536, 0, 0, 0, []⟩, .generateKey ⟨.q3, 65536, 0, 0, 0, []⟩,
    .rotateKey ⟨.q3, 65536, 0, 0, 0, []⟩, .eraseKey ⟨.q3, 65536, 0, 0, 0, []⟩, .setTenantCipher ⟨.q3, 65536, 0, 0, 0, []⟩,
    .getKeyStatus ⟨.q3, 65536, 0, 0, 0, []⟩, .getTurretStatus ⟨.q3, 65536, 0, 0, 0, []⟩,
    .setMemoryConfig ⟨.q3, 65536, 0, 0, 0, []⟩, .getMemoryStatus ⟨.q3, 65536, 0, 0, 0, []⟩,
    .getCeLog ⟨.q3, 65536, 0, 0, 0, []⟩, .setRemap ⟨.q3, 65536, 0, 0, 0, []⟩, .repairRow ⟨.q3, 65536, 0, 0, 0, []⟩,
    .setRefConfig ⟨.q3, 65536, 0, 0, 0, []⟩, .setDpllConfig ⟨.q3, 65536, 0, 0, 0, []⟩,
    .setSelection ⟨.q3, 65536, 0, 0, 0, []⟩, .stepPhase ⟨.q3, 65536, 0, 0, 0, []⟩, .setTime ⟨.q3, 65536, 0, 0, 0, []⟩,
    .setTodConfig ⟨.q3, 65536, 0, 0, 0, []⟩, .getTimingStatus ⟨.q3, 65536, 0, 0, 0, []⟩, .getTime ⟨.q3, 65536, 0, 0, 0, []⟩,
    .setLearning ⟨.q3, 65536, 0, 0, 0, []⟩, .setRingRole ⟨.q3, 65536, 0, 0, 0, []⟩, .assignWorker ⟨.q3, 65536, 0, 0, 0, []⟩,
    .getRingStatus ⟨.q3, 65536, 0, 0, 0, []⟩, .getOutcome ⟨.q3, 65536, 0, 0, 0, []⟩,
    .setRingProtect ⟨.q3, 65536, 0, 0, 0, []⟩, .getRingProtect ⟨.q3, 65536, 0, 0, 0, []⟩,
    .setCounter ⟨.q3, 65536, 0, 0, 0, []⟩, .grantCounters ⟨.q3, 65536, 0, 0, 0, []⟩, .setBwWindow ⟨.q3, 65536, 0, 0, 0, []⟩,
    .readCounters ⟨.q3, 65536, 0, 0, 0, []⟩, .getPcieStatus ⟨.q3, 65536, 0, 0, 0, []⟩, .setLoop ⟨.q3, 65536, 0, 0, 0, []⟩,
    .setLinePattern ⟨.q3, 65536, 0, 0, 0, []⟩, .setLanePattern ⟨.q3, 65536, 0, 0, 0, []⟩,
    .setTenantPattern ⟨.q3, 65536, 0, 0, 0, []⟩, .getPatternStatus ⟨.q3, 65536, 0, 0, 0, []⟩,
    .startCapture ⟨.q3, 65536, 0, 0, 0, []⟩, .triggerCapture ⟨.q3, 65536, 0, 0, 0, []⟩,
    .stopCapture ⟨.q3, 65536, 0, 0, 0, []⟩, .busTransfer ⟨.q3, 65536, 0, 0, 0, []⟩, .fwPrepare ⟨.q3, 65536, 0, 0, 0, []⟩,
    .fwVerify ⟨.q3, 65536, 0, 0, 0, []⟩, .fwActivate ⟨.q3, 65536, 0, 0, 0, []⟩, .fwCommit ⟨.q3, 65536, 0, 0, 0, []⟩,
    .getFwStatus ⟨.q3, 65536, 0, 0, 0, []⟩, .getJournalStatus ⟨.q3, 65536, 0, 0, 0, []⟩,
    .setHostQuad ⟨.q3, 65536, 0, 0, 0, []⟩, .setHostLaneTx ⟨.q3, 65536, 0, 0, 0, []⟩, .setHostPhy ⟨.q3, 65536, 0, 0, 0, []⟩,
    .setClient ⟨.q3, 65536, 0, 0, 0, []⟩, .setFlexeGroup ⟨.q3, 65536, 0, 0, 0, []⟩,
    .setFlexeCalendar ⟨.q3, 65536, 0, 0, 0, []⟩, .switchFlexeCalendar ⟨.q3, 65536, 0, 0, 0, []⟩,
    .getHostStatus ⟨.q3, 65536, 0, 0, 0, []⟩, .getClientStatus ⟨.q3, 65536, 0, 0, 0, []⟩] : List Instr).any Instr.wf = false := by
  decide +kernel

/-! The worked examples of the manual. -/

/-- Spec/02, "choosing n and H": n = 5, Rs = 300 GBd; H x 64 = 263 gives a mean fill of 14,104, 262 gives -48,877 with reason 5. -/
theorem test_plan_of_tarvel :
    fillWord ⟨5, 3, 263, 76800⟩ = 14104 ∧ fillWord ⟨5, 3, 262, 76800⟩ = -48877 ∧
      (planReason rd ⟨5, 3, 262, 76800⟩ {} 0 0 false).1 = 5 := by decide +kernel

/-- Spec/05, "cold start": at 336 GBd CD_max is 40,000 ps/nm. -/
theorem test_cdMax_at_336 : cdMax { rd with plan := { car := ⟨⟨4, 2, 188, 86016⟩, {}⟩ } } .a = some 40000 := by decide +kernel

/-- Spec/06, "a fan fault": with I_floor 10 a warning of 30 ms takes I_eff from 16 to 14, 12 and 10 and no further. -/
theorem test_throttle_of_brenwick :
    let s := { ln { fec := { set := { iFloor := 10 } } } with therm := { warn := true } }
    let s1 := throttleRaise .a s
    let s2 := throttleStep .a s1
    let s3 := throttleStep .a s2
    let s4 := throttleStep .a s3
    [s, s1, s2, s3, s4].map (fun x => iEff (lineGet x .a).fec) = [16, 14, 12, 10, 10] ∧
      s4.now = 1030000000 ∧ s4.ev.hold.length = 3 := by decide +kernel

/-- Spec/09, "shrinking a FlexE client": W(24) and W(12), the planned data of period 160, the data with NEG, the next pointer. -/
theorem test_periods_of_hesk :
    planWords 24 = 765580 ∧ planWords 12 = 382790 ∧ planData 12 160 = 1496 ∧ dataBits 12 160 2 = 64 * 1508 ∧
      nextPtr 100 (dataBits 12 160 2) = 220 := by decide +kernel

/-- Spec/13, "a weak pin": address 0x13634B6 of D1 is line 9 of sector 431,975. -/
theorem test_line_of_tolvern : lineOf 431975 9 = 0x13634B6 ∧ sectorOf 1 0x13634B6 = 431975 := by decide +kernel

/-- Spec/18, "a converter rail dip": VANA_B feeds PD08 and PD09, mask 0x300. -/
theorem test_rail_of_quorrel : (railDomains 5).foldl (fun m d => m + 2 ^ d) 0 = 0x300 := by decide +kernel

/-- Spec/20, "catching a switch": in MERGE on KLF-8 at 336 GBd one channel needs k = 3; the result names 37,412 and 87,412. -/
theorem test_capture_of_penhallow :
    let s := { rd with mode := { cur := .merge }, plan := { car := ⟨planA, planA⟩ } }
    smallestKeep s (captureRate s 0 1 .b) = 3 ∧
      (let c := { s with test := { cap := { state := 2, length := 100000, pre := 50000, trigPos := some 87412, overruns := 1 } } }
       let r := (captureResult 0 137412 c).1
       u16 r 2 = 1 ∧ u32 r 8 = 37412 ∧ u32 r 12 = 87412) := by decide +kernel

/-- CRC-32C of the digits 1 to 9 is 0xE3069283, the check value of its catalogue. -/
theorem test_crc32c : crc32c ("123456789".toList.map fun c => BitVec.ofNat 8 c.toNat) = 0xE3069283 := by decide +kernel

/-! The premises of the statements. -/

/-- The premises of each clause of GenericCommandsComplete are met. -/
theorem witness_GenericCommandsComplete :
(∃ (pk : Packet) (s : State), (starts 0x0000 pk s) ∧ (pk.tenant = 0xFFFFFFFF)) ∧
(∃ (pk : Packet) (s : State), (starts 0x0001 pk s) ∧ (plainLen 4 (ctxOf pk s)) ∧ (u8 pk.params 0 < 16) ∧ (zeroAt pk.params 1
      3)) ∧
(∃ (pk : Packet) (s : State), (starts 0x0002 pk s) ∧ (plainLen 0 (ctxOf pk s))) ∧
(∃ (pk : Packet) (s : State), (starts 0x0003 pk s) ∧ (plainLen 4 (ctxOf pk s)) ∧ (u8 pk.params 0 ≤ 3) ∧ (zeroAt pk.params 1
      3)) ∧
(∃ (pk : Packet) (s : State), (starts 0x0004 pk s) ∧ (plainLen 4 (ctxOf pk s)) ∧ (u8 pk.params 0 ≤ 3) ∧ (zeroAt pk.params 1 3)
      ∧ (queueOf (u8 pk.params 0) ≠ pk.queue)) ∧
(∃ (pk : Packet) (s : State), (starts 0x0005 pk s) ∧ (plainLen 4 (ctxOf pk s)) ∧ (u8 pk.params 1 < 4) ∧ (zeroAt pk.params 2
      2)) :=
⟨⟨cmd [], rd, by decide +kernel⟩,
⟨cmd [15, 0, 0, 0], rd, by decide +kernel⟩,
⟨cmd [], rd, by decide +kernel⟩,
⟨cmd [3, 0, 0, 0], rd, by decide +kernel⟩,
⟨cmd [2, 0, 0, 0], rd, by decide +kernel⟩,
⟨cmd [50, 3, 0, 0], rd, by decide +kernel⟩⟩

/-- The premises of each clause of PacketEventsComplete are met. -/
theorem witness_PacketEventsComplete :
(∃ (q : QueueId) (l : List Byte) (s : State), ((qget s q).waiting = []) ∧ ((qget (submit q l s) q).waiting = [⟨l,
      s.swiys.subCount⟩]) ∧ (chosen (submit q l s) = some q) ∧ (headerStatus l (submit q l s) ≠ stOk)) ∧
(∃ (q : QueueId) (l : List Byte) (s : State), ((qget s q).waiting = []) ∧ ((qget (submit q l s) q).waiting = [⟨l,
      s.swiys.subCount⟩]) ∧ (chosen (submit q l s) = some q) ∧ (headerStatus l (submit q l s) = stOk) ∧ (u8 l 4 ≠ 0) ∧ (q ≠
      .relay)) ∧
(∃ (q : QueueId) (w : BitVec 32) (s : State), (q ≠ .q3) ∧ (q ≠ .relay) ∧ (s.swiys.stalled = []) ∧ (queuesOpen (countSrc 0x09
      60 4 s)) ∧ (lineRoom (countSrc 0x09 60 4 s) q)) ∧
(∃ (q : QueueId) (w : BitVec 32) (s : State), (q ≠ .q3) ∧ (q ≠ .relay) ∧ (s.swiys.stalled = [.qdata q w]) ∧ (queuesOpen s) ∧
      (lineRoom s q)) ∧
(∃ (q : QueueId) (n : Nat) (s : State), (q ≠ .q3) ∧ (q ≠ .relay) ∧ (s.swiys.stalled = []) ∧ (queuesOpen (countSrc 0x09 60 4
      s))) ∧
(∃ (b : Byte) (s : State), (queuesOpen s) ∧ (s.swiys.twiHeld = none) ∧ (lineRoom s .q3)) ∧
(∃ (l : List Byte) (s : State), (queuesOpen s) ∧ (s.swiys.twiHeld = none) ∧ (l.length = 2)) ∧
(∃ (b : Byte) (c : Byte) (l : List Byte) (r : List (List Byte)) (s : State), (s.swiys.q3Buf = (b :: c :: l) :: r)) ∧
(∃ (h : TwiHeld) (t : Nat) (s : State), (s.swiys.twiHeld = some h) ∧ (s.swiys.twiLimit = some t) ∧ (t ≤ s.now)) :=
⟨⟨.q3, List.replicate 16 0, rd, by decide +kernel⟩,
⟨.q3, packetBytes 0 { cmd [] with target := 1 }, { rd with ring := { role := 1, bind := [(1, [1])] } }, by decide +kernel⟩,
⟨.q0, 0, rd, by decide +kernel⟩,
⟨.q0, 5, { rd with swiys := { stalled := [.qdata .q0 5] } }, by decide +kernel⟩,
⟨.q0, 4096, rd, by decide +kernel⟩,
⟨7, rd, by decide +kernel⟩,
⟨[16, 0], rd, by decide +kernel⟩,
⟨1, 2, [3], [], { rd with swiys := { q3Buf := [[1, 2, 3]] } }, by decide +kernel⟩,
⟨.byte 1, 5, { rd with swiys := { twiHeld := some (.byte 1), twiLimit := some 5 } }, by decide +kernel⟩⟩

/-- The premises of each clause of QueueEventsComplete are met. -/
theorem witness_QueueEventsComplete :
(∃ (q : QueueId) (r : Rec) (l : List Rec) (s : State), ((qget s q).hold = r :: l) ∧ (writePad q r s = s) ∧ (recordRoom q r s)) ∧
(∃ (q : QueueId) (t : Nat) (s : State), ((qget s q).window = some t)) ∧
(∃ (q : QueueId) (f : FenceWait) (s : State), ((qget s q).fence = some f) ∧ ((∀ p : QueueId, p ≠ .relay → f.mask.testBit
      (queueNum p) → fencePassed f (qget s p))) ∧ ((q = .relay → fencePassed f (qget s .relay)))) :=
⟨⟨.q0, rec0, [], { rd with swiys := { q0 := { ring := ring0, hold := [rec0] } } }, by decide +kernel⟩,
⟨.q1, 7, { rd with swiys := { q1 := { window := some 7 } } }, by decide +kernel⟩,
⟨.q0, ⟨0, 15⟩, { rd with swiys := { q0 := { fence := some ⟨0, 15⟩ } } }, ⟨by decide +kernel,
      fun p => by cases p <;> decide +kernel, by decide +kernel⟩⟩⟩

/-- The premises of each clause of EndpointEventsComplete are met. -/
theorem witness_EndpointEventsComplete :
(∃ (v : Bool) (s : State), (s.ctl.ready) ∧ (s.pcie.perst = false)) ∧
(∃ (v : Bool) (s : State) (off : Nat), (s.ctl.ready) ∧ (s.pcie.perst = false)) ∧
(∃ (v : Bool) (s : State), (s.ctl.ready) ∧ (s.pcie.perst = false)) ∧
(∃ (v : Bool) (s : State), (s.ctl.ready) ∧ (s.pcie.perst = false)) ∧
(∃ (v : Bool) (s : State), (s.ctl.ready) ∧ (s.pcie.perst = false)) ∧
(∃ (s : State), (s.ctl.ready)) ∧
(∃ (s : State), (s.ctl.ready) ∧ (s.pcie.perst = false)) ∧
(∃ (s : State), (s.ctl.ready)) ∧
(∃ (speed : Nat) (width : Nat) (s : State), (speed ≠ s.pcie.speed) ∧ (speed ≠ 0)) ∧
(∃ (v : Nat) (s : State), (v < 22) ∧ (s.swiys.stalled = [])) ∧
(∃ (a : Access) (s : State), (accessOk s a = false) ∧ (a.write = false)) ∧
(∃ (a : Access) (s : State), (accessOk s a = false) ∧ (a.write)) ∧
(∃ (v : BitVec 32) (s : State), (v.getLsbD 0) ∧ (s.swiys.stalled = [])) ∧
(∃ (e : EvRec) (l : List EvRec) (s : State), (s.ev.hold = e :: l) ∧ (eventRoom s)) :=
⟨⟨true, rd, by decide +kernel⟩,
⟨true, rd, 8, by decide +kernel⟩,
⟨true, rd, by decide +kernel⟩,
⟨true, rd, by decide +kernel⟩,
⟨true, rd, by decide +kernel⟩,
⟨rd, by decide +kernel⟩,
⟨rd, by decide +kernel⟩,
⟨rd, by decide +kernel⟩,
⟨5, 16, rd, by decide +kernel⟩,
⟨21, rd, by decide +kernel⟩,
⟨⟨false, 2, false, 32⟩, rd, by decide +kernel⟩,
⟨⟨false, 2, true, 32⟩, rd, by decide +kernel⟩,
⟨1, rd, by decide +kernel⟩,
⟨ev0, [], { rd with ev := { hold := [ev0], ring := ring0 } }, by decide +kernel⟩⟩

/-- The premises of each clause of RingAndDmaRowsComplete are met. -/
theorem witness_RingAndDmaRowsComplete :
(∃ (q : QueueId) (v : BitVec 32) (s : State), (q ≠ .q3) ∧ (q ≠ .relay) ∧ (s.swiys.stalled = []) ∧ ((qget s q).ring.sizeLog =
      0) ∧ (13 ≤ v.toNat % 32) ∧ (v.toNat % 32 ≤ 24)) ∧
(∃ (q : QueueId) (v : BitVec 32) (s : State), (q ≠ .q3) ∧ (q ≠ .relay) ∧ (s.swiys.stalled = []) ∧ ((qget s q).hold = []) ∧
      (headValid 32 (v.toNat % 2 ^ 24) (qget s q).ring)) ∧
(∃ (v : BitVec 32) (s : State), (s.swiys.stalled = []) ∧ (s.ev.ring.sizeLog = 0) ∧ (12 ≤ v.toNat % 32) ∧ (v.toNat % 32 ≤ 20)) ∧
(∃ (v : BitVec 32) (s : State), (s.swiys.stalled = []) ∧ (headValid 32 (v.toNat % 2 ^ 20) s.ev.ring)) ∧
(∃ (c : Nat) (host : List Host.Cell) (s : State), (c < 16) ∧ (s.swiys.stalled = []) ∧ ((chanGet s c).state ≠ 1) ∧ ((chanGet s
      c).state ≠ 2) ∧ ((chanGet s c).waits = false) ∧ ((chanGet s c).needHead = false)) ∧
(∃ (c : Nat) (d : Desc) (s : State), (c < 16) ∧ (s.swiys.stalled = []) ∧ ((chanGet s c).state = 1 ∨ (chanGet s c).state = 2) ∧
      ((chanGet s c).desc = some d)) ∧
(∃ (c : Nat) (v : BitVec 32) (s : State), (c < 16) ∧ (s.swiys.stalled = []) ∧ (headValid 16 (v.toNat % 2 ^ 20) (chanGet s
      c).cpl)) ∧
(∃ (v : BitVec 32) (s : State), (s.swiys.stalled = []) ∧ (v.getLsbD 0)) ∧
(∃ (i : Nat) (v : BitVec 32) (s : State), (i < 4) ∧ (s.swiys.stalled = [])) ∧
(∃ (off : Nat) (v : BitVec 32) (s : State), (s.swiys.stalled = [])) ∧
(∃ (c : Nat) (d : Desc) (host : List Host.Cell) (hostErr : Bool) (domeErr : Bool) (s : State), (chanChosen (hostCells host s)
      = some c) ∧ ((chanGet (markStates c { hostCells host s with pcie := { s.pcie with lastChan := c } }) c).desc = some d)) ∧
(∃ (c : Nat) (t : Nat) (d : Desc) (s : State), ((chanGet s c).desc = some d) ∧ ((chanGet s c).flushAt = some t) ∧ (t ≤ s.now)
      ∧ ((chanGet s c).moved ≠ 0) ∧ (nextRecord s c = none) ∧ (d.crc % 4 ≠ 2)) :=
⟨⟨.q2, 13, rd, by decide +kernel⟩,
⟨.q0, 64, { rd with swiys := { q0 := { ring := { ring0 with tail := 64 } } } }, by decide +kernel⟩,
⟨20, rd, by decide +kernel⟩,
⟨64, { rd with ev := { ring := { ring0 with tail := 64 } } }, by decide +kernel⟩,
⟨15, [], rd, by decide +kernel⟩,
⟨3, desc0, chanUpd 3 (fun x => { x with state := 1, desc := some desc0 }) rd, by decide +kernel⟩,
⟨0, 64, chanUpd 0 (fun x => { x with cpl := { ring0 with tail := 64 } }) rd, by decide +kernel⟩,
⟨1, rd, by decide +kernel⟩,
⟨3, 0, rd, by decide +kernel⟩,
⟨0x1000, 0, rd, by decide +kernel⟩,
⟨0, desc0, [], false, false, chanUpd 0 (fun x => { x with state := 1, desc := some desc0 }) rd, by decide +kernel⟩,
⟨2, 5, desc0, chanUpd 2 (fun x => { x with desc := some desc0, flushAt := some 5, moved := 1 }) rd, by decide +kernel⟩⟩

/-- The premises of each clause of CounterRowsComplete are met. -/
theorem witness_CounterRowsComplete :
(∃ (pk : Packet) (s : State), (starts 0x0B01 pk s) ∧ (plainLen 8 (ctxOf pk s)) ∧ (u8 pk.params 0 ≤ 127) ∧ (u8 pk.params 4 < 8)
      ∧ (zeroAt pk.params 5 3) ∧ (objectOk (u8 pk.params 1) (u16 pk.params 2)) ∧ ((u8 pk.params 4).testBit 1 = false)) ∧
(∃ (pk : Packet) (s : State), (starts 0x0B02 pk s) ∧ (plainLen 20 (ctxOf pk s)) ∧ (u8 pk.params 0 ≤ 2) ∧ (zeroAt pk.params 1
      3)) ∧
(∃ (pk : Packet) (s : State), (starts 0x0B03 pk s) ∧ (plainLen 8 (ctxOf pk s)) ∧ (u8 pk.params 0 ≤ 62) ∧ (zeroAt pk.params 1
      3) ∧ (u32 pk.params 4 ≤ 1000000)) ∧
(∃ (pk : Packet) (s : State), (starts 0x0B04 pk s) ∧ (plainLen 4 (ctxOf pk s)) ∧ (u8 pk.params 0 ≤ 127) ∧ (u8 pk.params 1 ≠ 0)
      ∧ (u8 pk.params 0 + u8 pk.params 1 ≤ 128) ∧ (u8 pk.params 2 = 1) ∧ (zeroAt pk.params 3 1)) ∧
(∃ (pk : Packet) (s : State), (starts 0x0B05 pk s) ∧ (plainLen 0 (ctxOf pk s))) ∧
(∃ (p : Nat) (s : State), (p < 63)) ∧
(∃ (i : Nat) (s : State), (i < 128)) ∧
(∃ (i : Nat) (s : State), (i < 128) ∧ ((countSrc 0x0A 60 8 s : State).cnt.grant.testBit i)) ∧
(∃ (i : Nat) (n : Nat) (s : State), (i < 128) ∧ ((tget {} s.cnt.cfg i).enable) ∧ ((tget {} s.cnt.cfg i).chain = false) ∧ (tget
      0 s.cnt.val i + n < 2 ^ 48)) ∧
(∃ (p : Nat) (e : Nat) (i : Nat) (o : Nat) (s : State), (tget 0 s.cnt.bwEnd p = e + 1) ∧ (e ≤ s.now) ∧ (i < 2 ^ 64) ∧ (o < 2 ^
      64) ∧ (tget 0 s.cnt.bwAccIn p = i) ∧ (tget 0 s.cnt.bwAccOut p = o)) :=
⟨⟨cmd [127, 1, 1, 0, 5, 0, 0, 0], rd, by decide +kernel⟩,
⟨cmd ([2, 0, 0, 0] ++ List.replicate 16 255), rd, by decide +kernel⟩,
⟨cmd [62, 0, 0, 0, 0x40, 0x42, 0x0F, 0], rd, by decide +kernel⟩,
⟨cmd [127, 1, 1, 0], rd, by decide +kernel⟩,
⟨cmd [], rd, by decide +kernel⟩,
⟨62, rd, by decide +kernel⟩,
⟨127, rd, by decide +kernel⟩,
⟨127, { rd with cnt := { grant := 2 ^ 127 } }, by decide +kernel⟩,
⟨127, 2 ^ 48 - 1, { rd with cnt := { cfg := [(127, { enable := true, source := 9 })] } }, by decide +kernel⟩,
⟨62, 5, 2 ^ 64 - 1, 0, { rd with cnt := { bwEnd := [(62, 6)], bwAccIn := [(62, 2 ^ 64 - 1)] } }, by decide +kernel⟩⟩

/-- The premises of each clause of PowerCommandsComplete are met. -/
theorem witness_PowerCommandsComplete :
(∃ (pk : Packet) (s : State), (starts 0x0101 pk s) ∧ (checkSetMode (ctxOf pk s) (begun 0x0101 pk s) = stOk)) ∧
(∃ (pk : Packet) (s : State), (starts 0x0102 pk s) ∧ (checkSetDomains (ctxOf pk s) (begun 0x0102 pk s) = stOk) ∧ (u8 pk.params
      4 = 0)) ∧
(∃ (pk : Packet) (s : State), (starts 0x0102 pk s) ∧ (checkSetDomains (ctxOf pk s) (begun 0x0102 pk s) = stOk) ∧ (u8 pk.params
      4 = 1)) ∧
(∃ (pk : Packet) (s : State), (starts 0x0103 pk s) ∧ (plainLen 0 (ctxOf pk s))) ∧
(∃ (pk : Packet) (s : State), (starts 0x0104 pk s) ∧ (checkSetSupervision (ctxOf pk s) (begun 0x0104 pk s) = stOk) ∧ (u8
      pk.params 0 ≠ 0xFF)) ∧
(∃ (pk : Packet) (s : State), (starts 0x0105 pk s) ∧ (plainLen 0 (ctxOf pk s)) ∧ (s.pins.safeA = false) ∧ (s.pins.safeB =
      false) ∧ (s.pins.pairFault)) :=
⟨⟨cmd [7, 0, 0, 0], rd, by decide +kernel⟩,
⟨cmd [0, 0x20, 0, 0, 0, 0, 0, 0], rd, by decide +kernel⟩,
⟨cmd [0, 0x20, 0, 0, 1, 0, 0, 0], rd, by decide +kernel⟩,
⟨cmd [], rd, by decide +kernel⟩,
⟨cmd [8, 60, 120, 20, 1, 0, 200, 0], rd, by decide +kernel⟩,
⟨cmd [], { rd with pins := { poreset := false, safeA := false, safeB := false, pairFault := true } }, by decide +kernel⟩⟩

/-- The premises of each clause of TransitionEventsComplete are met. -/
theorem witness_TransitionEventsComplete :
(∃ (t : Trans) (s : State), (s.mode.trans = some t) ∧ (t.step = 4)) ∧
(∃ (t : Trans) (s : State), (s.mode.trans = some t) ∧ (t.step = 5) ∧ (domOn s 2 = false) ∧ (s.mode.cur ≠ .merge)) ∧
(∃ (t : Trans) (s : State), (s.mode.trans = some t) ∧ (t.step = 3) ∧ (inDome s .a = false) ∧ (inDome s .b = false)) ∧
(∃ (d : Nat) (s : State), ((domGet s d).state = .powering)) ∧
(∃ (d : Nat) (s : State), ((domGet s d).state = .init) ∧ (d ≠ 23) ∧ (d ≠ 24)) ∧
(∃ (d : Nat) (t : Nat) (f : FifoRef) (s : State), ((domGet s d).window = some t) ∧ (fifoDom f = none ∨ fifoDom f = some d)) ∧
(∃ (d : Nat) (t : Nat) (s : State), ((domGet s d).window = some t)) :=
⟨⟨tr 4, { rd with mode := { trans := some (tr 4) } }, by decide +kernel⟩,
⟨tr 5, { rd with mode := { trans := some (tr 5) }, power := {} }, by decide +kernel⟩,
⟨tr 3, { rd with mode := { trans := some (tr 3) } }, by decide +kernel⟩,
⟨31, dom 31 { state := .powering }, by decide +kernel⟩,
⟨31, dom 31 { state := .init }, by decide +kernel⟩,
⟨31, 7, .other, dom 31 { window := some 7 }, by decide +kernel⟩,
⟨31, 7, dom 31 { window := some 7 }, by decide +kernel⟩⟩

/-- The premises of each clause of PinAndRailEventsComplete are met. -/
theorem witness_PinAndRailEventsComplete :
(∃ (c : Carrier) (s : State), (s.pins.poreset = false) ∧ (safeLevel c s = false)) ∧
(∃ (c : Carrier) (s : State), (s.pins.poreset = false) ∧ (safeLevel c s)) ∧
(∃ (t : Nat) (s : State), (s.pins.discSince = some t) ∧ (pairFaultAt t s.pins.td ≤ s.now) ∧ (s.pins.pairFault = false)) ∧
(∃ (c : Carrier) (t : Nat) (s : State), ((txGet s c).settleAt = some t) ∧ (t ≤ s.now) ∧ ((txGet s c).state = .squelched) ∧
      (safetyCause s = false)) ∧
(∃ (s : State), (s.pins.pfail = false) ∧ (s.pins.poreset = false)) ∧
(∃ (s : State), (s.pins.pfail) ∧ (s.pins.poreset = false)) ∧
(∃ (r : Nat) (mv : Nat) (s : State), (r ≤ 8) ∧ ((s.power.rails.getD r {}).warn = 0) ∧ (mv * 1000 < railNominal r * (1000 -
      (s.power.rails.getD r {}).warnLvl))) ∧
(∃ (r : Nat) (mv : Nat) (s : State), (r ≤ 8) ∧ ((s.power.rails.getD r {}).warn ≠ 0) ∧ (railNominal r * (1000 -
      (s.power.rails.getD r {}).warnLvl + 5) ≤ mv * 1000) ∧ (mv * 1000 ≤ railNominal r * 1045)) ∧
(∃ (r : Nat) (mv : Nat) (s : State), (r ≤ 2) ∧ (mv * 1000 < railNominal r * (1000 - (s.power.rails.getD r {}).resetLvl))) ∧
(∃ (r : Nat) (mv : Nat) (s : State), (2 < r) ∧ (r ≤ 8) ∧ (mv * 1000 < railNominal r * (1000 - (s.power.rails.getD r
      {}).resetLvl))) ∧
(∃ (r : Nat) (d : Nat) (s : State), ((railDomains r).filter (fun d => (domGet s d).state == .reset && !(railsOf d).any
      (railLow s)) = [d]) ∧ (s.power.autoReturn) ∧ ((domGet s d).wanted)) ∧
(∃ (p : Int) (s : State), (s.pins.poreset = false) ∧ (s.clk.qualified = false) ∧ (p.natAbs ≤ 100000)) ∧
(∃ (s : State), (s.clk.qualified) ∧ (domOn s 1)) :=
⟨⟨.a, rd, by decide +kernel⟩,
⟨.b, { rd with pins := { poreset := false, safeA := false } }, by decide +kernel⟩,
⟨5, { rd with pins := { poreset := false, safeB := false, discSince := some 5 } }, by decide +kernel⟩,
⟨.a, 5, sp { tx := { state := .squelched, settleAt := some 5 } }, by decide +kernel⟩,
⟨rd, by decide +kernel⟩,
⟨{ rd with pins := { poreset := false, safeA := false, safeB := false, pfail := true } }, by decide +kernel⟩,
⟨8, 1745, rd, by decide +kernel⟩,
⟨0, 750, { rd with power := { doms := allOn, rails := rd.power.rails.set 0 { warn := 1 } } }, by decide +kernel⟩,
⟨2, 1673, rd, by decide +kernel⟩,
⟨8, 1673, rd, by decide +kernel⟩,
⟨6, 13, dom 13 { state := .reset, wanted := true }, by decide +kernel⟩,
⟨100000, { rd with clk := {} }, by decide +kernel⟩,
⟨rd, by decide +kernel⟩⟩

/-- The premises of each clause of StartUpEventsComplete are met. -/
theorem witness_StartUpEventsComplete :
(∃ (s : State), (s.pins.poreset) ∧ (s.pins.safeA = s.pins.safeB) ∧ (s.pins.discSince = none) ∧ (s.pins.pfail = false)) ∧
(∃ (s : State), (s.ctl.phase = .held) ∧ (s.pins.poreset = false) ∧ (s.fw.tryOther = false) ∧ (s.fw.committed = 0) ∧
      ((checkSlot s.fw.fuses s.fw.slot0).1 = 0)) ∧
(∃ (s : State), (s.ctl.ready = false) ∧ (s.ctl.phase = .running) ∧ (s.pins.poreset = false) ∧ (s.clk.qualified)) ∧
(∃ (v : Int) (s : State), (-20 < v) ∧ (v < 1000) ∧ (s.therm.sensors.length = 24) ∧ (s.therm.warn = false) ∧ (s.therm.critical
      = false) ∧ (s.therm.shutdown = false) ∧ (s.therm.low = false)) :=
⟨⟨State.reset, by decide +kernel⟩,
⟨{ rd with ctl := {} }, by decide +kernel⟩,
⟨{ rd with ctl := { phase := .running } }, by decide +kernel⟩,
⟨999, rd, by decide +kernel⟩⟩

/-- The premises of each clause of FirmwareCommandsComplete are met. -/
theorem witness_FirmwareCommandsComplete :
(∃ (pk : Packet) (s : State), (starts 0x0D01 pk s) ∧ (plainLen 0 (ctxOf pk s)) ∧ (s.fw.jobs = [])) ∧
(∃ (pk : Packet) (s : State), (starts 0x0D02 pk s) ∧ (plainLen 0 (ctxOf pk s)) ∧ (s.fw.jobs = [])) ∧
(∃ (pk : Packet) (s : State), (starts 0x0D03 pk s) ∧ (plainLen 0 (ctxOf pk s)) ∧ (s.fw.jobs = []) ∧ (s.fw.verified) ∧
      ((checkSlot s.fw.fuses (slotGet s (inactiveSlot s))).1 = 0) ∧ (s.fw.recovery = false) ∧ (settingsFormat s = some
      (checkSlot s.fw.fuses (slotGet s (inactiveSlot s))).2.settings)) ∧
(∃ (pk : Packet) (s : State) (h : ImageHdr), (starts 0x0D04 pk s) ∧ (plainLen 4 (ctxOf pk s)) ∧ (u8 pk.params 0 = 0) ∧ (zeroAt
      pk.params 1 3) ∧ (s.fw.jobs = []) ∧ (s.fw.image = some h) ∧ (s.fw.committed = s.fw.running)) ∧
(∃ (pk : Packet) (s : State) (h : ImageHdr), (starts 0x0D04 pk s) ∧ (plainLen 4 (ctxOf pk s)) ∧ (u8 pk.params 0 = 0) ∧ (zeroAt
      pk.params 1 3) ∧ (s.fw.jobs = []) ∧ (s.fw.image = some h) ∧ (s.fw.committed ≠ s.fw.running)) ∧
(∃ (pk : Packet) (s : State), (starts 0x0D05 pk s) ∧ (plainLen 0 (ctxOf pk s))) ∧
(∃ (pk : Packet) (s : State), (starts 0x0D06 pk s) ∧ (plainLen 0 (ctxOf pk s))) :=
⟨⟨cmd [], rd, by decide +kernel⟩,
⟨cmd [], rd, by decide +kernel⟩,
⟨cmd [], { rd with fw := { verified := true, image := some hdr0, slot1 := { fitted := some hdr0 } } }, by decide +kernel⟩,
⟨cmd [0, 0, 0, 0], { rd with fw := { image := some hdr0 } }, hdr0, by decide +kernel⟩,
⟨cmd [0, 0, 0, 0], { rd with fw := { image := some hdr0, running := 1 } }, hdr0, by decide +kernel⟩,
⟨cmd [], rd, by decide +kernel⟩,
⟨cmd [], rd, by decide +kernel⟩⟩

/-- The premises of each clause of FirmwareEventsComplete are met. -/
theorem witness_FirmwareEventsComplete :
(∃ (s : State), (s.fw.jobs.any (·.opcode == 0x0D01)) ∧ (s.journal.suspended = false) ∧ (flashDeferred s = false)) ∧
(∃ (s : State), (s.fw.jobs.any (·.opcode == 0x0D02)) ∧ ((checkSlot s.fw.fuses (slotGet s (inactiveSlot s))).1 = 0)) ∧
(∃ (s : State), (s.fw.jobs.any (·.opcode == 0x0D02)) ∧ ((checkSlot s.fw.fuses (slotGet s (inactiveSlot s))).1 ≠ 0)) ∧
(∃ (a : Activation) (s : State), (s.fw.activation = some a) ∧ (a.ctlDone = false) ∧ (s.fw.recovery = false)) ∧
(∃ (a : Activation) (h : ImageHdr) (k : Nat) (s : State), (s.fw.activation = some a) ∧ (a.ctlDone) ∧ (s.fw.image = some h) ∧
      ((poweredFrom s a.next).head? = some k)) ∧
(∃ (p : JPend) (l : List JPend) (s : State), (flashDeferred s = false) ∧ (s.journal.writing = none) ∧ (s.journal.pending = p
      :: l)) ∧
(∃ (p : JPend) (s : State), (s.journal.writing = some (p, 0))) ∧
(∃ (p : JPend) (s : State) (l : List Byte), (s.journal.writing = some (p, 0)) ∧ (l.take (jBytes (recordOf s p)).length ≠
      jBytes (recordOf s p))) ∧
(∃ (p : JPend) (s : State), (s.journal.writing = some (p, 1))) ∧
(∃ (p : JPend) (s : State) (l : List Byte), (s.journal.writing = some (p, 1)) ∧ (l.take (jBytes (recordOf s p)).length ≠
      jBytes (recordOf s p))) :=
⟨⟨{ rd with fw := { jobs := [⟨0x0D01, ⟨.q3, 0⟩, false⟩] } }, by decide +kernel⟩,
⟨{ rd with fw := { jobs := [⟨0x0D02, ⟨.q3, 0⟩, false⟩], slot1 := { fitted := some hdr0 } } }, by decide +kernel⟩,
⟨{ rd with fw := { jobs := [⟨0x0D02, ⟨.q3, 0⟩, false⟩] } }, by decide +kernel⟩,
⟨⟨0, 0, 0, 0, false⟩, { rd with fw := { activation := some ⟨0, 0, 0, 0, false⟩ } }, by decide +kernel⟩,
⟨⟨0, 0, 0, 0, true⟩, hdr0, 0, { rd with fw := { activation := some ⟨0, 0, 0, 0, true⟩, image := some hdr0 } },
      by decide +kernel⟩,
⟨⟨1, 0, [], none⟩, [], { rd with journal := { pending := [⟨1, 0, [], none⟩] } }, by decide +kernel⟩,
⟨⟨1, 0, [], none⟩, { rd with journal := { writing := some (⟨1, 0, [], none⟩, 0) } }, by decide +kernel⟩,
⟨⟨1, 0, [], none⟩, { rd with journal := { writing := some (⟨1, 0, [], none⟩, 0) } }, [], by decide +kernel⟩,
⟨⟨1, 0, [], none⟩, { rd with journal := { writing := some (⟨1, 0, [], none⟩, 1) } }, by decide +kernel⟩,
⟨⟨1, 0, [], none⟩, { rd with journal := { writing := some (⟨1, 0, [], none⟩, 1) } }, [], by decide +kernel⟩⟩

/-- The premises of each clause of EngineEventsComplete are met. -/
theorem witness_EngineEventsComplete :
(∃ (s : State), (s.ctl.phase = .running) ∧ (s.ctl.mismatches = []) ∧ (s.fw.old = none)) ∧
(∃ (t : Nat) (u : Nat) (s : State), (s.ctl.phase = .running) ∧ (s.ctl.mismatches = [t, u]) ∧ (s.now < t + 60 * secNs) ∧ (s.now
      < u + 60 * secNs)) ∧
(∃ (s : State), (s.ctl.phase = .restarting)) ∧
(∃ (e : Nat) (x : Nat) (s : State), (e < 192) ∧ (engPowered s e) ∧ (engGet s e = .active) ∧ (s.eng.takeovers = []) ∧ (spareFor
      (engPut e .fenced s) (e) = some x)) ∧
(∃ (k : Takeover) (s : State), (s.eng.takeovers = [k]) ∧ (engPowered s k.spare)) ∧
(∃ (e : Nat) (s : State), (e < 192) ∧ (engPowered s e) ∧ (engGet s e = .active)) :=
⟨⟨rd, by decide +kernel⟩,
⟨5, 6, { rd with ctl := { phase := .running, ready := true, mismatches := [5, 6] } }, by decide +kernel⟩,
⟨{ rd with ctl := { phase := .restarting, ready := true } }, by decide +kernel⟩,
⟨0, 15, rd, by decide +kernel⟩,
⟨⟨0, 15, []⟩, { rd with eng := { takeovers := [⟨0, 15, []⟩] } }, by decide +kernel⟩,
⟨190, rd, by decide +kernel⟩⟩

/-- The premises of each clause of TransmitRowsComplete are met. -/
theorem witness_TransmitRowsComplete :
(∃ (pk : Packet) (s : State), (starts 0x0201 pk s) ∧ (plainLen 24 (ctxOf pk s)) ∧ (s.mode.cur = .configure) ∧ (s.mode.trans =
      none) ∧ (s.plan.applying = ⟨none, none⟩) ∧ (s.clk.qualified) ∧ (planReason s (planField pk.params 0) (planField
      pk.params 8) (i32 pk.params 16) (u8 pk.params 20) (!zeroAt pk.params 21 3) = (0, 0))) ∧
(∃ (pk : Packet) (s : State), (starts 0x0202 pk s) ∧ (checkGetLinePlan (ctxOf pk s) (begun 0x0202 pk s) = stOk)) ∧
(∃ (pk : Packet) (s : State), (starts 0x0210 pk s) ∧ (checkSetTxShaping (ctxOf pk s) (begun 0x0210 pk s) = stOk) ∧ (u8
      pk.params 2 = 0)) ∧
(∃ (pk : Packet) (s : State), (starts 0x0210 pk s) ∧ (checkSetTxShaping (ctxOf pk s) (begun 0x0210 pk s) = stOk) ∧ (u8
      pk.params 2 = 1)) ∧
(∃ (pk : Packet) (s : State), (starts 0x0211 pk s) ∧ (checkSetTxCorrection (ctxOf pk s) (begun 0x0211 pk s) = stOk)) ∧
(∃ (pk : Packet) (s : State), (starts 0x0212 pk s) ∧ (checkSetTxOutput (ctxOf pk s) (begun 0x0212 pk s) = stOk)) ∧
(∃ (pk : Packet) (s : State), (starts 0x0213 pk s) ∧ (checkSetTxState (ctxOf pk s) (begun 0x0213 pk s) = stOk) ∧ (u8 pk.params
      1 = 1)) ∧
(∃ (pk : Packet) (s : State), (starts 0x0213 pk s) ∧ (checkSetTxState (ctxOf pk s) (begun 0x0213 pk s) = stOk) ∧ (u8 pk.params
      1 = 0)) ∧
(∃ (pk : Packet) (s : State), (starts 0x0214 pk s) ∧ (checkGetTxStatus (ctxOf pk s) (begun 0x0214 pk s) = stOk)) ∧
(∃ (c : Carrier) (s : State), ((txGet s c).state ≠ .off)) ∧
(∃ (c : Carrier) (d : Nat) (n : Nat) (s : State), (d < 4) ∧ ((txGet s c).state ≠ .off) ∧ ((txGet s c).clipAlarm.getD d none =
      none) ∧ ((txGet s c).clipNow.getD d 0 = n) ∧ (n * 100000 ≤ dacSamples (planOf s c))) ∧
(∃ (c : Carrier) (d : Nat) (n : Nat) (s : State), (d < 4) ∧ ((txGet s c).state ≠ .off) ∧ ((txGet s c).clipAlarm.getD d none =
      none) ∧ ((txGet s c).clipNow.getD d 0 = n) ∧ (dacSamples (planOf s c) < n * 100000)) ∧
(∃ (c : Carrier) (t : Nat) (s : State), (pget s.plan.applying c = some t) ∧ (rxPowered s c = false)) :=
⟨⟨cmd ((planBytes planA ++ planBytes {} ++ List.replicate 8 0).map BitVec.toNat), rd, by decide +kernel⟩,
⟨cmd [], rd, by decide +kernel⟩,
⟨cmd [0, 20, 0, 0], rd, by decide +kernel⟩,
⟨cmd ([1, 1, 1, 0] ++ List.replicate 130 0), rd, by decide +kernel⟩,
⟨cmd ([1] ++ List.replicate 147 0), rd, by decide +kernel⟩,
⟨cmd [1, 90, 0xC4, 0xFF, 50, 3, 0, 0], rd, by decide +kernel⟩,
⟨cmd [0, 1, 0, 0], { rd with mode := { cur := .independent }, spire := ⟨{ tx := { state := .stopped } }, {}⟩ },
      by decide +kernel⟩,
⟨cmd [0, 0, 0, 0], { rd with spire := ⟨{ tx := { state := .running } }, {}⟩ }, by decide +kernel⟩,
⟨cmd [1, 0, 0, 0], rd, by decide +kernel⟩,
⟨.a, sp { tx := { state := .running } }, by decide +kernel⟩,
⟨.a, 3, 0, sp { tx := { state := .running } }, by decide +kernel⟩,
⟨.a, 3, 1, sp { tx := { state := .running, clipNow := [0, 0, 0, 1] } }, by decide +kernel⟩,
⟨.a, 5, { rd with plan := { applying := ⟨some 5, none⟩ }, power := {} }, by decide +kernel⟩⟩

/-- The premises of each clause of FrontEndRowsComplete are met. -/
theorem witness_FrontEndRowsComplete :
(∃ (pk : Packet) (s : State), (starts 0x0220 pk s) ∧ (plainLen 16 (ctxOf pk s)) ∧ (modeOpen s) ∧ (u8 pk.params 0 ≤ 1) ∧ (3 ≤
      u8 pk.params 1) ∧ (u8 pk.params 1 ≤ 13) ∧ (u8 pk.params 2 ≤ 2) ∧ (1 ≤ u8 pk.params 3) ∧ (u8 pk.params 3 ≤ 15) ∧ (-180 ≤
      i16 pk.params 4) ∧ (i16 pk.params 4 ≤ -60) ∧ (4 ≤ u8 pk.params 6) ∧ (u8 pk.params 6 ≤ 16) ∧ (1 ≤ u8 pk.params 7) ∧ (u8
      pk.params 7 ≤ 50) ∧ (1 ≤ u8 pk.params 8) ∧ (u8 pk.params 8 ≤ 32) ∧ (zeroAt pk.params 9 7)) ∧
(∃ (pk : Packet) (s : State), (starts 0x0221 pk s) ∧ (plainLen 4 (ctxOf pk s)) ∧ (modeOpen s) ∧ (u8 pk.params 0 ≤ 1) ∧ (zeroAt
      pk.params 1 3)) ∧
(∃ (pk : Packet) (s : State), (starts 0x0224 pk s) ∧ (plainLen 16 (ctxOf pk s)) ∧ (modeOpen s) ∧ (u8 pk.params 0 ≤ 1) ∧ (u8
      pk.params 1 ≤ 3) ∧ (u8 pk.params 2 ≤ 1) ∧ (u8 pk.params 3 ≤ 1) ∧ (u8 pk.params 2 + u8 pk.params 3 ≤ 1) ∧ (1 ≤ u16
      pk.params 4) ∧ (u16 pk.params 4 ≤ 4096) ∧ (1000 ≤ u32 pk.params 6) ∧ (u32 pk.params 6 ≤ 10000000) ∧ (u8 pk.params 10 ≤
      15) ∧ (zeroAt pk.params 11 5) ∧ ((monGet s (carrierOf (u8 pk.params 0)) (u8 pk.params 1)).running = false)) ∧
(∃ (pk : Packet) (i : Nat) (s : State), (starts 0x0225 pk s) ∧ (plainLen 4 (ctxOf pk s)) ∧ (modeOpen s) ∧ (u8 pk.params 0 ≤ 1)
      ∧ (u8 pk.params 1 = 2 ^ i) ∧ (i ≤ 3) ∧ (u8 pk.params 2 = 1) ∧ (zeroAt pk.params 3 1) ∧ (domOn s (adcDom (carrierOf (u8
      pk.params 0)))) ∧ ((monGet s (carrierOf (u8 pk.params 0)) i).running = false)) ∧
(∃ (pk : Packet) (i : Nat) (s : State), (starts 0x0225 pk s) ∧ (plainLen 4 (ctxOf pk s)) ∧ (modeOpen s) ∧ (u8 pk.params 0 ≤ 1)
      ∧ (u8 pk.params 1 = 2 ^ i) ∧ (i ≤ 3) ∧ (u8 pk.params 2 = 0) ∧ (zeroAt pk.params 3 1)) ∧
(∃ (c : Carrier) (o : AgcObs) (s : State), ((spireGet s c).rx.agc ≠ .off)) ∧
(∃ (c : Carrier) (s : State), ((spireGet s c).rx.agc = .refast) ∧ (100000 ≤ (spireGet s c).rx.refastNs)) ∧
(∃ (c : Carrier) (s : State), ((spireGet s c).rx.agc ≠ .off) ∧ ((spireGet s c).rx.agcLimit = false) ∧ (1000 < (spireGet s
      c).rx.limitNs)) ∧
(∃ (c : Carrier) (s : State), ((spireGet s c).rx.agc ≠ .off) ∧ ((spireGet s c).rx.agcLimit) ∧ (1000 ≤ (spireGet s
      c).rx.insideNs)) ∧
(∃ (c : Carrier) (s : State), (rxPowered s c) ∧ ((lineGet s c).frm.los = false) ∧ (1000 * (lineGet s c).frm.use.tSet ≤
      (lineGet s c).frm.belowNs)) ∧
(∃ (c : Carrier) (s : State), (rxPowered s c) ∧ ((lineGet s c).frm.los) ∧ (1000 * (lineGet s c).frm.use.tClr ≤ (lineGet s
      c).frm.aboveNs)) ∧
(∃ (c : Carrier) (d : Nat) (n : Nat) (s : State), (d < 4) ∧ ((spireGet s c).rx.agc ≠ .off) ∧ ((spireGet s c).rx.clipAlarm.getD
      d none = none) ∧ ((spireGet s c).rx.clipNow.getD d 0 = n) ∧ (n * 100000 ≤ samplesPerMs (planOf s c).rs256)) ∧
(∃ (c : Carrier) (d : Nat) (n : Nat) (s : State), (d < 4) ∧ ((spireGet s c).rx.agc ≠ .off) ∧ ((spireGet s c).rx.clipAlarm.getD
      d none = none) ∧ ((spireGet s c).rx.clipNow.getD d 0 = n) ∧ (samplesPerMs (planOf s c).rs256 < n * 100000)) ∧
(∃ (c : Carrier) (i : Nat) (s : State), (i < 4) ∧ ((monGet s c i).running) ∧ (244 ≤ (monGet s c i).stages.buf.length) ∧
      (monitorHeld s c i < 64) ∧ ((monGet s c i).dma < s.dma.length)) ∧
(∃ (c : Carrier) (i : Nat) (s : State), (i < 4) ∧ ((monGet s c i).running) ∧ (244 ≤ (monGet s c i).stages.buf.length) ∧ (64 ≤
      monitorHeld s c i)) :=
⟨⟨cmd ([1, 13, 2, 15, 0xC4, 0xFF, 16, 50, 32] ++ List.replicate 7 0), rd, by decide +kernel⟩,
⟨cmd [1, 0, 0, 0], rd, by decide +kernel⟩,
⟨cmd [1, 3, 0, 1, 0, 16, 0x80, 0x96, 0x98, 0, 15, 0, 0, 0, 0, 0], rd, by decide +kernel⟩,
⟨cmd [0, 4, 1, 0], 2, rd, by decide +kernel⟩,
⟨cmd [0, 4, 0, 0], 2, rd, by decide +kernel⟩,
⟨.a, ⟨[[0], [0], [0], [0]], 0⟩, sp { rx := { agc := .fast } }, by decide +kernel⟩,
⟨.a, sp { rx := { agc := .refast, refastNs := 100000 } }, by decide +kernel⟩,
⟨.a, sp { rx := { agc := .fast, limitNs := 1001 } }, by decide +kernel⟩,
⟨.a, sp { rx := { agc := .fast, agcLimit := true, insideNs := 1000 } }, by decide +kernel⟩,
⟨.a, ln { frm := { belowNs := 2000 } }, by decide +kernel⟩,
⟨.a, ln { frm := { los := true, aboveNs := 100000 } }, by decide +kernel⟩,
⟨.a, 3, 0, sp { rx := { agc := .fast } }, by decide +kernel⟩,
⟨.a, 3, 1, sp { rx := { agc := .fast, clipNow := [0, 0, 0, 1] } }, by decide +kernel⟩,
⟨.a, 3, sp { mon := [{}, {}, {}, { running := true, stages := { buf := List.replicate 244 0 } }] }, by decide +kernel⟩,
⟨.a, 3,
      { rd with spire := ⟨{ mon := [{}, {}, {}, { running := true, stages := { buf := List.replicate 244 0 } }] }, {}⟩, dma := rd.dma.set 0 { stream := List.replicate 64 ⟨0, 3, []⟩ } },
      by decide +kernel⟩⟩

/-- The premises of each clause of CalibrationRowsComplete are met. -/
theorem witness_CalibrationRowsComplete :
(∃ (pk : Packet) (s : State), (starts 0x0222 pk s) ∧ (plainLen 8 (ctxOf pk s)) ∧ (modeOpen s) ∧ (u8 pk.params 0 ≤ 1) ∧ (u16
      pk.params 2 ≤ 0x1FF) ∧ (zeroAt pk.params 4 4) ∧ (u8 pk.params 1 = 0)) ∧
(∃ (pk : Packet) (s : State), (starts 0x0222 pk s) ∧ (plainLen 8 (ctxOf pk s)) ∧ (modeOpen s) ∧ (u8 pk.params 0 ≤ 1) ∧ (u16
      pk.params 2 ≤ 0x1FF) ∧ (zeroAt pk.params 4 4) ∧ (u8 pk.params 1 = 1) ∧ (trafficMode s.mode.cur = false) ∧ (rxPowered s
      (carrierOf (u8 pk.params 0)))) ∧
(∃ (pk : Packet) (s : State), (starts 0x0223 pk s) ∧ (plainLen 4 (ctxOf pk s)) ∧ (modeOpen s) ∧ (u8 pk.params 0 ≤ 1) ∧ (zeroAt
      pk.params 1 3)) ∧
(∃ (c : Carrier) (l : List (List Int)) (t : Nat) (s : State), ((spireGet s c).cal.fg.running = some t) ∧ (t ≤ s.now) ∧
      ((spireGet s c).cal.fg.spoiled) ∧ (spireWarn s c)) ∧
(∃ (c : Carrier) (l : List (List Int)) (t : Nat) (s : State), ((spireGet s c).cal.fg.running = some t) ∧ (t ≤ s.now) ∧
      ((spireGet s c).cal.fg.spoiled = false)) ∧
(∃ (c : Carrier) (t : Nat) (s : State), ((spireGet s c).cal.fg.clearAt = some t) ∧ ((spireGet s c).cal.fg.waiting) ∧
      (spireWarn s c = false)) ∧
(∃ (c : Carrier) (t : Nat) (s : State), ((spireGet s c).cal.fg.deferAt = some t) ∧ ((spireGet s c).cal.fg.waiting ∨ (spireGet
      s c).cal.fg.running ≠ none)) ∧
(∃ (c : Carrier) (i : Nat) (l : List Int) (s : State), (i < 6) ∧ (rxPowered s c) ∧ ((spireGet s c).cal.fg.running = none) ∧
      ((spireGet s c).cal.fg.waiting = false) ∧ ((spireGet s c).cal.enableUse.testBit i) ∧ (calLength i ≤ tget 0 (spireGet s
      c).cal.age i) ∧ ((spireGet s c).cal.spoiled.testBit i) ∧ (calMeasures s c)) ∧
(∃ (c : Carrier) (i : Nat) (l : List Int) (s : State), (i < 6) ∧ (rxPowered s c) ∧ ((spireGet s c).cal.fg.running = none) ∧
      ((spireGet s c).cal.fg.waiting = false) ∧ ((spireGet s c).cal.enableUse.testBit i) ∧ (calLength i ≤ tget 0 (spireGet s
      c).cal.age i) ∧ (calMeasures s c = false)) ∧
(∃ (c : Carrier) (i : Nat) (l : List Int) (s : State), (i < 6) ∧ (rxPowered s c) ∧ ((spireGet s c).cal.fg.running = none) ∧
      ((spireGet s c).cal.fg.waiting = false) ∧ ((spireGet s c).cal.enableUse.testBit i) ∧ (calLength i ≤ tget 0 (spireGet s
      c).cal.age i) ∧ ((spireGet s c).cal.spoiled.testBit i = false) ∧ (calMeasures s c)) ∧
(∃ (c : Carrier) (i : Nat) (key : Nat) (v : Int) (s : State), (rxPowered s c) ∧ (syncOn s c) ∧ ((spireGet s c).cal.next =
      [(key, some v)]) ∧ (key / 1024 = i)) ∧
(∃ (c : Carrier) (l : List Int) (s : State), ((spireGet s c).cal.est = some l) ∧ ((txGet s c).state ≠ .off)) ∧
(∃ (c : Carrier) (t : Nat) (s : State), ((spireGet s c).cal.txDue = some t) ∧ ((spireGet s c).cal.est = none) ∧ ((txGet s
      c).state ≠ .off)) :=
⟨⟨cmd [1, 0, 0xFF, 1, 0, 0, 0, 0], rd, by decide +kernel⟩,
⟨cmd [1, 1, 0xFF, 1, 0, 0, 0, 0], rd, by decide +kernel⟩,
⟨cmd [1, 0, 0, 0], rd, by decide +kernel⟩,
⟨.a, [], 5,
      { rd with spire := ⟨{ cal := { fg := { running := some 5, spoiled := true } } }, {}⟩, power := { doms := allOn, rails := List.replicate 9 { warn := 1 } } },
      by decide +kernel⟩,
⟨.a, [], 5, sp { cal := { fg := { running := some 5 } } }, by decide +kernel⟩,
⟨.a, 5, sp { cal := { fg := { clearAt := some 5, waiting := true } } }, by decide +kernel⟩,
⟨.a, 5, sp { cal := { fg := { deferAt := some 5, waiting := true } } }, by decide +kernel⟩,
⟨.a, 5, [0],
      { ln syncLine with spire := ⟨{ lk with rx := { agc := .frozen, timing := .track }, cal := { age := [(5, 64)], spoiled := 32 } }, {}⟩ },
      by decide +kernel⟩,
⟨.a, 5, [0], sp { cal := { age := [(5, 64)] } }, by decide +kernel⟩,
⟨.a, 5, [0],
      { ln syncLine with spire := ⟨{ lk with rx := { agc := .frozen, timing := .track }, cal := { age := [(5, 64)], spoiled := 0 } }, {}⟩ },
      by decide +kernel⟩,
⟨.a, 0, 0, 1, { rd with spire := ⟨{ cal := { next := [(0, some 1)] } }, {}⟩, line := ⟨syncLine, {}⟩ }, by decide +kernel⟩,
⟨.a, [], sp { tx := { state := .running }, cal := { est := some [] } }, by decide +kernel⟩,
⟨.a, 5, sp { tx := { state := .running }, cal := { txDue := some 5 } }, by decide +kernel⟩⟩

/-- The premises of each clause of AcquisitionCommandsComplete are met. -/
theorem witness_AcquisitionCommandsComplete :
(∃ (pk : Packet) (s : State), (starts 0x0230 pk s) ∧ (plainLen 16 (ctxOf pk s)) ∧ (modeOpen s) ∧ (u8 pk.params 0 ≤ 1) ∧ (u8
      pk.params 1 ≤ 2) ∧ (u8 pk.params 2 ≤ 15) ∧ (6 ≤ u8 pk.params 3) ∧ (u8 pk.params 3 ≤ 16) ∧ ((i32 pk.params 4).natAbs ≤
      80000) ∧ ((u8 pk.params 1 = 2 → ∀ m, cdMax s (carrierOf (u8 pk.params 0)) = some m → (i32 pk.params 4).natAbs ≤ m)) ∧
      (100 ≤ u32 pk.params 8) ∧ (u32 pk.params 8 ≤ 80000) ∧ (8 ≤ u8 pk.params 12) ∧ (u8 pk.params 12 ≤ 128) ∧ (1 ≤ u8
      pk.params 13) ∧ (u8 pk.params 13 ≤ 10) ∧ (u8 pk.params 14 = 0 ∨ u8 pk.params 13 + 6 ≤ u8 pk.params 14 ∧ u8 pk.params 14
      ≤ 10) ∧ (1 ≤ u8 pk.params 15) ∧ (u8 pk.params 15 ≤ 50)) ∧
(∃ (pk : Packet) (s : State), (starts 0x0232 pk s) ∧ (plainLen 4 (ctxOf pk s)) ∧ (modeOpen s) ∧ (u8 pk.params 0 ≤ 1) ∧ (zeroAt
      pk.params 1 3)) ∧
(∃ (pk : Packet) (s : State), (starts 0x0231 pk s) ∧ (plainLen 4 (ctxOf pk s)) ∧ (modeOpen s) ∧ (u8 pk.params 0 ≤ 1) ∧ (u8
      pk.params 1 ≤ 1) ∧ (zeroAt pk.params 2 2) ∧ (rxPowered s (carrierOf (u8 pk.params 0) : Carrier)) ∧ ((spireGet s
      (carrierOf (u8 pk.params 0) : Carrier)).cal.fg.running = none) ∧ ((spireGet s (carrierOf (u8 pk.params 0) :
      Carrier)).cal.fg.waiting = false) ∧ ((spireGet s (carrierOf (u8 pk.params 0) : Carrier)).acq.restart = none) ∧ ((lineGet
      s (carrierOf (u8 pk.params 0) : Carrier)).frm.los = false) ∧ (u8 pk.params 1 = 1)) ∧
(∃ (pk : Packet) (s : State), (starts 0x0231 pk s) ∧ (plainLen 4 (ctxOf pk s)) ∧ (modeOpen s) ∧ (u8 pk.params 0 ≤ 1) ∧ (u8
      pk.params 1 ≤ 1) ∧ (zeroAt pk.params 2 2) ∧ (rxPowered s (carrierOf (u8 pk.params 0) : Carrier)) ∧ ((spireGet s
      (carrierOf (u8 pk.params 0) : Carrier)).cal.fg.running = none) ∧ ((spireGet s (carrierOf (u8 pk.params 0) :
      Carrier)).cal.fg.waiting = false) ∧ ((spireGet s (carrierOf (u8 pk.params 0) : Carrier)).acq.restart = none) ∧ ((lineGet
      s (carrierOf (u8 pk.params 0) : Carrier)).frm.los = false) ∧ (u8 pk.params 1 = 0)) ∧
(∃ (c : Carrier) (r : Restart) (t : Nat) (s : State), ((spireGet s c).acq.restart = some { r with waitAt := some t })) ∧
(∃ (pk : Packet) (s : State), (starts 0x0226 pk s) ∧ (plainLen 4 (ctxOf pk s)) ∧ (modeOpen s) ∧ (u8 pk.params 0 ≤ 1) ∧ (zeroAt
      pk.params 1 3) ∧ (rxPowered s (carrierOf (u8 pk.params 0) : Carrier)) ∧ ((spireGet s (carrierOf (u8 pk.params 0) :
      Carrier)).acq.sweep = none)) ∧
(∃ (c : Carrier) (bins : List (List (Nat × Nat))) (t : Nat) (r : Ref) (s : State), ((spireGet s c).acq.sweep = some ⟨some r,
      t⟩) ∧ (t ≤ s.now) ∧ (acqState s c ≠ .tone)) :=
⟨⟨cmd [1, 0, 15, 16, 0, 0, 0, 0, 0x80, 0x38, 1, 0, 128, 10, 0, 50], rd,
      by and_intros <;> (try decide +kernel) <;> exact fun h => absurd h (by decide +kernel)⟩,
⟨cmd [1, 0, 0, 0], rd, by decide +kernel⟩,
⟨cmd [1, 1, 0, 0], rd, by decide +kernel⟩,
⟨cmd [1, 0, 0, 0], rd, by decide +kernel⟩,
⟨.a, ⟨⟨.q3, 0⟩, 0, List.replicate 8 0, none⟩, 5, sp { acq := { restart := some ⟨⟨.q3, 0⟩, 0, List.replicate 8 0, some 5⟩ } },
      by decide +kernel⟩,
⟨cmd [1, 0, 0, 0], rd, by decide +kernel⟩,
⟨.a, [], 5, ⟨.q3, 0⟩, sp { acq := { sweep := some ⟨some ⟨.q3, 0⟩, 5⟩ } }, by decide +kernel⟩⟩

/-- The premises of each clause of AcquisitionStepsComplete are met. -/
theorem witness_AcquisitionStepsComplete :
(∃ (c : Carrier) (obs : CdObs) (s : State), (acqState s c = .cdScan) ∧ ((spireGet s c).acq.warmFine = false) ∧ ((spireGet s
      c).eq.use.cdMode ≠ 2) ∧ ((spireGet s c).acq.attempt ≠ 4)) ∧
(∃ (c : Carrier) (obs : CdObs) (s : State), (acqState s c = .cdScan) ∧ ((spireGet s c).acq.warmFine = false) ∧ ((spireGet s
      c).eq.use.cdMode ≠ 2) ∧ ((spireGet s c).acq.attempt = 4)) ∧
(∃ (c : Carrier) (obs : CdObs) (m : Nat) (s : State), (acqState s c = .cdScan) ∧ ((spireGet s c).acq.warmFine = false) ∧
      ((spireGet s c).eq.use.cdMode = 2) ∧ ((spireGet s c).acq.attempt ≠ 4) ∧ (cdMax s c = some m)) ∧
(∃ (c : Carrier) (obs : CdObs) (s : State), (acqState s c = .cdScan) ∧ ((spireGet s c).acq.warmFine) ∧ ((spireGet s
      c).eq.use.cdMode ≠ 2)) ∧
(∃ (c : Carrier) (k : Int) (s : State), (acqState s c = .freqCoarse)) ∧
(∃ (c : Carrier) (o : Int) (s : State), (acqState s c = .timing) ∧ ((spireGet s c).rx.timingLimit = false)) ∧
(∃ (c : Carrier) (g : Nat) (s : State), (acqState s c = .eqBlind)) ∧
(∃ (c : Carrier) (x : Bool) (y : Bool) (s : State), (acqState s c = .sfSync)) ∧
(∃ (c : Carrier) (k : Int) (s : State), (acqState s c = .freqFine) ∧ (clampFine s c k = k)) ∧
(∃ (c : Carrier) (e : EstObs) (s : State), (acqState s c = .phase) ∧ ((spireGet s c).rx.timingLimit = false) ∧ (e.phaseErr <
      150)) ∧
(∃ (c : Carrier) (t : Nat) (s : State), ((spireGet s c).acq.deadline = some t)) ∧
(∃ (c : Carrier) (t : Nat) (s : State), ((spireGet s c).acq.warm = some t) ∧ (acqTimeout (acqState s c) ≠ none)) ∧
(∃ (c : Carrier) (s : State), (lockedOn s c)) ∧
(∃ (c : Carrier) (s : State), (lockedOn s c)) ∧
(∃ (c : Carrier) (s : State), (lockedOn s c)) ∧
(∃ (c : Carrier) (s : State), (lockedOn s c) ∧ ((spireGet s c).rx.timingLimit)) ∧
(∃ (c : Carrier) (s : State), (lockedOn s c) ∧ ((lineGet s c).frm.los)) :=
⟨⟨.a, ⟨[], [], []⟩, sp { acq := { state := .cdScan, attempt := 2 } }, by decide +kernel⟩,
⟨.a, ⟨[], [], []⟩, sp { acq := { state := .cdScan, attempt := 4 } }, by decide +kernel⟩,
⟨.a, ⟨[], [], []⟩, 40000,
      { rd with plan := { car := ⟨⟨4, 2, 188, 86016⟩, {}⟩ }, spire := ⟨{ acq := { state := .cdScan, attempt := 2 }, eq := { use := { cdMode := 2 } } }, {}⟩ },
      by decide +kernel⟩,
⟨.a, ⟨[], [], []⟩, sp { acq := { state := .cdScan, warmFine := true } }, by decide +kernel⟩,
⟨.a, 0, sp { acq := { state := .freqCoarse } }, by decide +kernel⟩,
⟨.a, 0, sp { acq := { state := .timing } }, by decide +kernel⟩,
⟨.a, 7, sp { acq := { state := .eqBlind } }, by decide +kernel⟩,
⟨.a, true, false, sp { acq := { state := .sfSync } }, by decide +kernel⟩,
⟨.a, 0, sp { acq := { state := .freqFine } }, by decide +kernel⟩,
⟨.a, ⟨149, 0, 0, 0, 0⟩, sp { acq := { state := .phase } }, by decide +kernel⟩,
⟨.a, 5, sp { acq := { deadline := some 5 } }, by decide +kernel⟩,
⟨.a, 5, sp { acq := { state := .timing, warm := some 5 } }, by decide +kernel⟩,
⟨.a, sp lk, by decide +kernel⟩,
⟨.a, sp lk, by decide +kernel⟩,
⟨.a, sp lk, by decide +kernel⟩,
⟨.a, sp { lk with rx := { timingLimit := true } }, by decide +kernel⟩,
⟨.a, { ln { frm := { los := true } } with spire := ⟨lk, {}⟩ }, by decide +kernel⟩⟩

/-- The premises of each clause of EqualiserRowsComplete are met. -/
theorem witness_EqualiserRowsComplete :
(∃ (c : Carrier) (e : EstObs) (s : State), (rxPowered s c) ∧ (lockedOn s c)) ∧
(∃ (s : State), (s.plan.fibre = 1) ∧ (lockedOn s .a) ∧ (lockedOn s .b) ∧ ((spireGet s .a).eq.est.freq = (spireGet s
      .b).eq.est.freq) ∧ (s.plan.err = false)) ∧
(∃ (c : Carrier) (o : OsaObs) (s : State), (rxPowered s c) ∧ ((spireGet s c).rx.timing = .track)) ∧
(∃ (c : Carrier) (o : GroupObs) (s : State), (rxPowered s c)) ∧
(∃ (c : Carrier) (s : State), (eqActive s c) ∧ ((spireGet s c).eq.limit = false)) ∧
(∃ (c : Carrier) (t : Nat) (s : State), (eqActive s c) ∧ ((spireGet s c).eq.limit) ∧ ((spireGet s c).eq.limitFree = some t) ∧
      ((spireGet s c).eq.dgd16 * (planOf s c).rs256 ≤ periods16 36)) ∧
(∃ (c : Carrier) (n : Nat) (s : State), (s.mode.cur = .twin) ∧ (rxPowered s c) ∧ (crossActs (noteNeighbour c (eqUpd c (fun e
      => { e with parity := satAdd 32 e.parity n, parityMs := n }) s) : State) c) ∧ (soundNeighbour (noteNeighbour c (eqUpd c
      (fun e => { e with parity := satAdd 32 e.parity n, parityMs := n }) s) : State) (otherCarrier c) = false)) ∧
(∃ (c : Carrier) (n : Nat) (s : State), (s.mode.cur = .twin) ∧ (rxPowered s c) ∧ ((spireGet (noteNeighbour c s : State)
      c).eq.nbLockedAt = some n) ∧ ((spireGet (noteNeighbour c s : State) c).eq.crossOn = false) ∧ ((spireGet (noteNeighbour c
      s : State) c).eq.use.cross)) ∧
(∃ (c : Carrier) (s : State), (rxPowered s c) ∧ (sfAligned s c = false)) ∧
(∃ (c : Carrier) (s : State), (rxPowered s c) ∧ (sfAligned s c) ∧ (256 ≤ (spireGet s c).rx.pilots.length)) ∧
(∃ (c : Carrier) (b : Nat) (p : Nat) (r : TurboRun) (s : State), ((spireGet s c).eq.turbo = [r]) ∧ (r.block = b) ∧ (r.pass =
      p) ∧ (r.due ≤ s.now) ∧ (lockedOn s c) ∧ ((lineGet s c).frm.los = false) ∧ ((spireGet s c).acq.loc = false)) :=
⟨⟨.a, ⟨0, 0, 0, 0, 0⟩, sp lk, by decide +kernel⟩,
⟨{ rd with plan := { fibre := 1 }, spire := ⟨lk, lk⟩ }, by decide +kernel⟩,
⟨.a, ⟨400000, 0, 0, 0, 0⟩, sp { rx := { timing := .track } }, by decide +kernel⟩,
⟨.a, ⟨4, false, 0, 0, 0, 0, 0, [], []⟩, rd, by decide +kernel⟩,
⟨.a, sp lk, by decide +kernel⟩,
⟨.a, 5, sp { lk with eq := { limit := true, limitFree := some 5 } }, by decide +kernel⟩,
⟨.a, 0, { rd with mode := { cur := .twin }, spire := ⟨{ lk with eq := { crossOn := true } }, {}⟩ }, by decide +kernel⟩,
⟨.a, 5, { rd with mode := { cur := .twin }, spire := ⟨{ eq := { nbLockedAt := some 5 } }, lk⟩, line := ⟨{}, syncLine⟩ },
      by decide +kernel⟩,
⟨.a, rd, by decide +kernel⟩,
⟨.a, sp { lk with rx := { pilots := List.replicate 256 {} } }, by decide +kernel⟩,
⟨.a, 0, 0, ⟨0, 0, 5, []⟩, sp { lk with eq := { turbo := [⟨0, 0, 5, []⟩] } }, by decide +kernel⟩⟩

/-- The premises of each clause of FecRowsComplete are met. -/
theorem witness_FecRowsComplete :
(∃ (pk : Packet) (s : State), (starts 0x0301 pk s) ∧ (plainLen 8 (ctxOf pk s)) ∧ (modeOpen s) ∧ (u8 pk.params 0 ≤ 1) ∧ (1 ≤ u8
      pk.params 1) ∧ (u8 pk.params 1 ≤ u8 pk.params 2) ∧ (4 ≤ u8 pk.params 2) ∧ (u8 pk.params 2 ≤ 16) ∧ (4 ≤ u8 pk.params 3) ∧
      (u8 pk.params 3 ≤ 16) ∧ (u8 pk.params 4 ≤ 16) ∧ (u8 pk.params 5 ≤ 3) ∧ (zeroAt pk.params 6 2) ∧ ((u8 pk.params 2 =
      (lineGet s (carrierOf (u8 pk.params 0) : Carrier)).fec.set.lDec ∨ domOn s (fecDom (carrierOf (u8 pk.params 0) :
      Carrier)) = false ∨ trafficMode s.mode.cur = false))) ∧
(∃ (pk : Packet) (s : State), (starts 0x0302 pk s) ∧ (plainLen 20 (ctxOf pk s)) ∧ (modeOpen s) ∧ (u8 pk.params 0 ≤ 1) ∧
      (zeroAt pk.params 1 3) ∧ (100 ≤ u32 pk.params 4) ∧ (u32 pk.params 4 ≤ 24000) ∧ (50 ≤ u32 pk.params 8) ∧ (u32 pk.params 8
      < u32 pk.params 4) ∧ (1 ≤ u8 pk.params 12) ∧ (u8 pk.params 12 ≤ 100) ∧ (1 ≤ u8 pk.params 13) ∧ (u8 pk.params 13 ≤ 100) ∧
      (1 ≤ u16 pk.params 14) ∧ (u16 pk.params 14 ≤ 1000) ∧ (1 ≤ u16 pk.params 16) ∧ (zeroAt pk.params 18 2)) ∧
(∃ (pk : Packet) (s : State), (starts 0x0303 pk s) ∧ (plainLen 4 (ctxOf pk s)) ∧ (modeOpen s) ∧ (u8 pk.params 0 ≤ 1) ∧ (zeroAt
      pk.params 1 3)) ∧
(∃ (c : Carrier) (x : ChanBlock) (y : ChanBlock) (z : ChanBlock) (r : List ChanBlock) (s : State), (alignedOn s c) ∧ ((lineGet
      s c).fec.chan = x :: y :: z :: r)) ∧
(∃ (c : Carrier) (s : State), (alignedOn s c) ∧ ((∀ b ∈ (lineGet s c).fec.window, b.age < (lineGet s c).fec.set.lDec))) ∧
(∃ (c : Carrier) (b : DecBlock) (r : List DecBlock) (s : State), ((lineGet s c).fec.window = b :: r) ∧ ((lineGet s
      c).fec.aligned) ∧ ((lineGet s c).fec.set.lDec ≤ b.age) ∧ ((leaveObs (lineGet s c).fec b).unsatisfied ≤ 460)) ∧
(∃ (c : Carrier) (s : State), ((lineGet s c).fec.hunting) ∧ (rawSpan ≤ (lineGet s c).fec.rawLen) ∧ ((huntBest (lineGet s
      c).fec : Nat × Nat).2 ≤ 1840)) ∧
(∃ (c : Carrier) (s : State), ((lineGet s c).fec.hunting) ∧ (rawSpan ≤ (lineGet s c).fec.rawLen) ∧ (1840 < (huntBest (lineGet
      s c).fec : Nat × Nat).2)) ∧
(∃ (c : Carrier) (t : Nat) (s : State), ((lineGet s c).fec.degW.endAt = some t) ∧ (t ≤ s.now) ∧ ((lineGet s
      c).fec.degW.neutral)) ∧
(∃ (c : Carrier) (t : Nat) (s : State), (((lineGet s c).fec : Fec).degW.endAt = some t) ∧ (t ≤ s.now) ∧ (((lineGet s c).fec :
      Fec).degW.neutral = false) ∧ (fecSound s c) ∧ (((lineGet s c).fec : Fec).degUse.degSet * ((lineGet s c).fec :
      Fec).degW.bits < ((lineGet s c).fec : Fec).degW.errors * 1000000) ∧ (((lineGet s c).fec : Fec).degUse.degWin ≤ ((lineGet
      s c).fec : Fec).degW.high + 1)) ∧
(∃ (c : Carrier) (t : Nat) (s : State), (((lineGet s c).fec : Fec).failW.endAt = some t) ∧ (t ≤ s.now) ∧ (((lineGet s c).fec :
      Fec).failW.neutral = false) ∧ (fecSound s c) ∧ (((lineGet s c).fec : Fec).failUse.failCount ≤ ((lineGet s c).fec :
      Fec).failW.count) ∧ (((lineGet s c).fec : Fec).failUse.failSet ≤ ((lineGet s c).fec : Fec).failW.failing + 1)) ∧
(∃ (c : Carrier) (t : Nat) (s : State), ((lineGet s c).fec.throttleAt = some t) ∧ (t ≤ s.now) ∧ (s.therm.warn = false)) :=
⟨⟨cmd [1, 16, 16, 16, 16, 3, 0, 0], rd, by decide +kernel⟩,
⟨cmd [1, 0, 0, 0, 0xC0, 0x5D, 0, 0, 0xBF, 0x5D, 0, 0, 100, 100, 0xE8, 3, 1, 0, 0, 0], rd, by decide +kernel⟩,
⟨cmd [1, 0, 0, 0], rd, by decide +kernel⟩,
⟨.a, {}, {}, {}, [], ln { fec := { aligned := true, chan := [{}, {}, {}] } }, by decide +kernel⟩,
⟨.a, ln { fec := { aligned := true, window := [blk 15] } }, by decide +kernel⟩,
⟨.a, blk 16, [], ln { fec := { aligned := true, window := [blk 16] } }, by decide +kernel⟩,
⟨.a, ln { fec := { hunting := true, rawLen := rawSpan } }, by decide +kernel⟩,
⟨.a, ln { fec := altFec }, ⟨rfl, by decide +kernel, by show 1840 < (huntBest altFec).2; rw [altFec_hunt]; decide⟩⟩,
⟨.a, 5, ln { fec := { degW := { endAt := some 5, neutral := true } } }, by decide +kernel⟩,
⟨.a, 5, ln
      { frm := { align := .sync }, fec := { aligned := true, degW := { endAt := some 5, bits := 1, errors := 1, high := 9 } } },
      by decide +kernel⟩,
⟨.a, 5, ln { frm := { align := .sync }, fec := { aligned := true, failW := { endAt := some 5, count := 1, failing := 2 } } },
      by decide +kernel⟩,
⟨.a, 5, ln { fec := { throttleAt := some 5, delta := 3 } }, by decide +kernel⟩⟩

/-- The premises of each clause of FrameRowsComplete are met. -/
theorem witness_FrameRowsComplete :
(∃ (pk : Packet) (s : State), (starts 0x0401 pk s) ∧ (plainLen 144 (ctxOf pk s)) ∧ (modeOpen s) ∧ (u8 pk.params 0 ≤ 1) ∧ (u8
      pk.params 1 ≤ 7) ∧ (-500 ≤ i16 pk.params 2) ∧ (i16 pk.params 2 ≤ -200) ∧ (i16 pk.params 2 + 10 ≤ i16 pk.params 4) ∧ (i16
      pk.params 4 ≤ -150) ∧ (1 ≤ u8 pk.params 6) ∧ (u8 pk.params 6 ≤ 100) ∧ (zeroAt pk.params 7 1) ∧ (10 ≤ u16 pk.params 8) ∧
      (u16 pk.params 8 ≤ 10000) ∧ (zeroAt pk.params 10 6)) ∧
(∃ (pk : Packet) (s : State), (starts 0x0402 pk s) ∧ (plainLen 4 (ctxOf pk s)) ∧ (modeOpen s) ∧ (u8 pk.params 0 ≤ 1) ∧ (zeroAt
      pk.params 1 3)) ∧
(∃ (s : State), (domOn s 2) ∧ (s.mode.cur ≠ .regenerate) ∧ (lineLoop s .a ≠ some 1) ∧ (lineLoop s .b ≠ some 1)) ∧
(∃ (c : Carrier) (s : State), (framerFed s c) ∧ (headerReady s c) ∧ ((lineGet s c).frm.align = .hunt) ∧ (headerGood (planOf s
      c).n (nextHeader s c))) ∧
(∃ (c : Carrier) (s : State), (framerFed s c) ∧ (headerReady s c) ∧ ((lineGet s c).frm.align = .hunt) ∧ (headerGood (planOf s
      c).n (nextHeader s c) = false)) ∧
(∃ (c : Carrier) (s : State), (domOn s 2) ∧ (syncOn s c = false)) ∧
(∃ (c : Carrier) (a : Nat) (s : State), (domOn s 2) ∧ ((lineGet s c).frm.annPend = some (a, 2))) :=
⟨⟨cmd ([1, 7, 0x38, 0xFF, 0x6A, 0xFF, 100, 0, 0x10, 0x27] ++ List.replicate 134 0), rd, by decide +kernel⟩,
⟨cmd [1, 0, 0, 0], rd, by decide +kernel⟩,
⟨rd, by decide +kernel⟩,
⟨.a, hunting (BitVec.ofNat 64 (7 * 2 ^ 37 + 44577)).reverse.toNat, by decide +kernel⟩,
⟨.a, hunting 0, by decide +kernel⟩,
⟨.b, rd, by decide +kernel⟩,
⟨.a, 5, ln { frm := { align := .sync, annPend := some (5, 2) } }, by decide +kernel⟩⟩

/-- The premises of each clause of HostCommandsComplete are met. -/
theorem witness_HostCommandsComplete :
(∃ (pk : Packet) (s : State), (starts 0x0E01 pk s) ∧ (checkSetHostQuad (ctxOf pk s) (begun 0x0E01 pk s) = stOk) ∧
      (s.host.quads.length = 10)) ∧
(∃ (pk : Packet) (s : State), (starts 0x0E02 pk s) ∧ (checkSetHostLaneTx (ctxOf pk s) (begun 0x0E02 pk s) = stOk)) ∧
(∃ (pk : Packet) (s : State), (starts 0x0E03 pk s) ∧ (checkSetHostPhy (ctxOf pk s) (begun 0x0E03 pk s) = stOk) ∧ (u8 pk.params
      1 ≠ 0)) ∧
(∃ (pk : Packet) (s : State), (starts 0x0E04 pk s) ∧ (checkSetClient (ctxOf pk s) (begun 0x0E04 pk s) = stOk) ∧ (u8 pk.params
      0 ≠ 0) ∧ ((clientOf s pk.tenant).kind = 0)) ∧
(∃ (pk : Packet) (s : State), (starts 0x0E05 pk s) ∧ (checkSetFlexeGroup (ctxOf pk s) (begun 0x0E05 pk s) = stOk) ∧ (u8
      pk.params 1 ≠ 0) ∧ ((groupOf s (u8 pk.params 0)).switch = none) ∧ (s.host.groups.length = 16)) ∧
(∃ (pk : Packet) (s : State), (starts 0x0E06 pk s) ∧ (checkSetFlexeCalendar (ctxOf pk s) (begun 0x0E06 pk s) = stOk) ∧
      ((groupOf s (u8 pk.params 0)).inUse = 0) ∧ (s.host.groups.length = 16)) ∧
(∃ (pk : Packet) (s : State), (starts 0x0E06 pk s) ∧ (checkSetFlexeCalendar (ctxOf pk s) (begun 0x0E06 pk s) = stOk) ∧
      ((groupOf s (u8 pk.params 0)).inUse = 1) ∧ (s.host.groups.length = 16)) ∧
(∃ (pk : Packet) (s : State), (starts 0x0E07 pk s) ∧ (checkSwitchFlexeCalendar (ctxOf pk s) (begun 0x0E07 pk s) = stOk) ∧
      (s.host.groups.length = 16)) ∧
(∃ (pk : Packet) (s : State), (starts 0x0E08 pk s) ∧ (checkGetHostStatus (ctxOf pk s) (begun 0x0E08 pk s) = stOk)) ∧
(∃ (pk : Packet) (s : State), (starts 0x0E09 pk s) ∧ (checkGetClientStatus (ctxOf pk s) (begun 0x0E09 pk s) = stOk)) :=
⟨⟨cmd [9, 3, 1, 15, 255, 255, 0, 0, 0, 0, 0, 0, 0, 0, 0, 0], rd, by decide +kernel⟩,
⟨cmd [39, 0, 32, 0, 0, 0, 0x4C, 4], rd, by decide +kernel⟩,
⟨cmd [38, 1, 0, 2, 0, 0, 0, 0], { rd with host := { quads := List.replicate 10 { rate := 1, enable := 15 } } },
      by decide +kernel⟩,
⟨cmdT 1023 [1, 0, 0, 0, 1, 0, 0, 0], { rd with host := { phys := [(0, { kind := 1 })] } }, by decide +kernel⟩,
⟨cmd [15, 1, 0, 0, 1, 0, 0, 0, 0, 1, 0, 0], { rd with host := { phys := [(0, { kind := 2 })] } }, by decide +kernel⟩,
⟨cmd [15, 0, 0, 0], rd, by decide +kernel⟩,
⟨cmd [15, 0, 0, 0], { rd with host := { groups := List.replicate 15 {} ++ [{ inUse := 1 }] } }, by decide +kernel⟩,
⟨cmd [15, 1, 0x10, 0x27], { rd with host := { groups := List.replicate 15 {} ++ [{ number := 1 }] } }, by decide +kernel⟩,
⟨cmd [9, 0, 0, 0], rd, by decide +kernel⟩,
⟨cmdT 1023 [], rd, by decide +kernel⟩⟩

/-- The premises of each clause of HostEventsComplete are met. -/
theorem witness_HostEventsComplete :
(∃ (l : Nat) (vs : List (List Int)) (s : State), ((laneGet s l).adapt = .foreground) ∧ (l < s.host.lanes.length)) ∧
(∃ (l : Nat) (o : LaneObs) (s : State), ((laneGet s l).adapt = .background) ∧ (laneSpoiled s l)) ∧
(∃ (l : Nat) (k : Nat) (v : Int) (s : State), ((laneGet s l).adapt = .background) ∧ ((phyAt s l).isSome) ∧ (l <
      s.host.lanes.length) ∧ ((laneGet s l).next = [(k, some v)])) ∧
(∃ (l : Nat) (d : Nat) (i : Nat) (s : State), ((laneGet s l).adapt ≠ .off)) ∧
(∃ (t : Nat) (d : Nat) (i : Nat) (s : State), ((clientOf s t).kind ≠ 0)) ∧
(∃ (p : Nat) (n : Nat) (r : List (List Nat)) (s : State), ((phyOf s p).kind ≠ 0) ∧ (domOn s (quadDom (p / 4))) ∧ ((phyOf s
      p).declared.testBit 2 = false) ∧ (s.test.laneLoop = [])) ∧
(∃ (p : Nat) (oh : FlexeOh) (s : State), ((phyOf s p).kind = 2) ∧ (oh.ok = false)) ∧
(∃ (p : Nat) (g : Nat) (oh : FlexeOh) (w : FlexSwitch) (s : State), ((phyOf s p).kind = 2) ∧ (oh.ok) ∧ (oh.ca) ∧ (oh.idOk) ∧
      (oh.cal = none) ∧ (oh.ssm = none) ∧ ((phyOf s p).declared.testBit 6 = false) ∧ (2 ≤ (phyOf s p).caRun) ∧ (groupOfPhy s p
      = some g) ∧ ((groupOf s g).switch = some w)) ∧
(∃ (g : Nat) (w : FlexSwitch) (s : State), ((groupOf s g).switch = some w) ∧ (w.accepted) ∧ ((groupOf s g).inUse ≤ 1)) ∧
(∃ (g : Nat) (w : FlexSwitch) (s : State), ((groupOf s g).switch = some w) ∧ (w.accepted = false) ∧ (w.deadline ≤ s.now)) :=
⟨⟨39, [], { rd with host := { lanes := List.replicate 40 { adapt := .foreground } } }, by decide +kernel⟩,
⟨39, ⟨0, [], 0⟩, { rd with host := { lanes := List.replicate 40 { adapt := .background, spoiled := true } } },
      by decide +kernel⟩,
⟨0, 0, 1,
      { rd with host := { lanes := List.replicate 40 { adapt := .background, next := [(0, some 1)] }, phys := [(0, { kind := 1, lanes := 1 })] } },
      by decide +kernel⟩,
⟨39, 0, 0, { rd with host := { lanes := List.replicate 40 { adapt := .foreground } } }, by decide +kernel⟩,
⟨1023, 0, 0, { rd with host := { clients := [(1023, { kind := 1 })] } }, by decide +kernel⟩,
⟨0, 0, [], { rd with host := { phys := [(0, { kind := 1 })] } }, by decide +kernel⟩,
⟨0, ⟨false, false, true, true, false, none, false, none⟩, { rd with host := { phys := [(0, { kind := 2 })] } },
      by decide +kernel⟩,
⟨0, 0, ⟨false, false, true, true, true, none, false, none⟩, ⟨⟨.q3, 0⟩, true, 9, false⟩,
      { rd with host := { phys := [(0, { kind := 2, caRun := 2 })], groups := { number := 1, phys := [(0, 1)], switch := some ⟨⟨.q3, 0⟩, true, 9, false⟩ } :: List.replicate 15 {} } },
      by decide +kernel⟩,
⟨15, ⟨⟨.q3, 0⟩, true, 9, true⟩,
      { rd with host := { groups := List.replicate 15 {} ++ [{ switch := some ⟨⟨.q3, 0⟩, true, 9, true⟩ }] } },
      by decide +kernel⟩,
⟨15, ⟨⟨.q3, 0⟩, true, 9, false⟩,
      { rd with host := { groups := List.replicate 15 {} ++ [{ switch := some ⟨⟨.q3, 0⟩, true, 9, false⟩ }] } },
      by decide +kernel⟩⟩

/-- The premises of each clause of CalendarRowsComplete are met. -/
theorem witness_CalendarRowsComplete :
(∃ (pk : Packet) (s : State), (starts 0x0410 pk s) ∧ (checkSetCalendar (ctxOf pk s) (begun 0x0410 pk s) = stOk)) ∧
(∃ (pk : Packet) (s : State), (starts 0x0411 pk s) ∧ (checkSwapCalendar (ctxOf pk s) (begun 0x0411 pk s) = stOk) ∧
      (swapFailure s (u8 pk.params 0) = none)) ∧
(∃ (pk : Packet) (s : State) (r : _) (c : _) (i : _) (e : _), (starts 0x0411 pk s) ∧ (checkSwapCalendar (ctxOf pk s) (begun
      0x0411 pk s) = stOk) ∧ (swapFailure s (u8 pk.params 0) = some (r, c, i, e))) ∧
(∃ (pk : Packet) (s : State), (starts 0x0412 pk s) ∧ (checkGetCalendar (ctxOf pk s) (begun 0x0412 pk s) = stOk)) ∧
(∃ (w : Swap) (b : Nat) (s : State), (s.cal.swap = some w) ∧ (w.boundary = some b)) :=
⟨⟨cmd ([1] ++ List.replicate 1283 0), rd, by decide +kernel⟩,
⟨cmd [3, 0, 0, 0], rd, by decide +kernel⟩,
⟨cmd [1, 0, 0, 0], { rd with cal := { t1 := ⟨[(0, 0x8000)], []⟩ } }, 7, .a, 0, 0x8000, by decide +kernel⟩,
⟨cmd [1, 1, 0, 0], rd, by decide +kernel⟩,
⟨⟨true, true, ⟨.q3, 0⟩, some 5⟩, 5, { rd with cal := { swap := some ⟨true, true, ⟨.q3, 0⟩, some 5⟩ } }, by decide +kernel⟩⟩

/-- The premises of each clause of TenantRowsComplete are met. -/
theorem witness_TenantRowsComplete :
(∃ (pk : Packet) (s : State), (starts 0x0413 pk s) ∧ (checkSetTenantControl (ctxOf pk s) (begun 0x0413 pk s) = stOk)) ∧
(∃ (pk : Packet) (s : State), (starts 0x0414 pk s) ∧ (checkGetTenantStatus (ctxOf pk s) (begun 0x0414 pk s) = stOk)) ∧
(∃ (t : Nat) (l : List Block66) (s : State), (t < 1024) ∧ (domOn s 2) ∧ (sizeTx s t ≠ 0) ∧ ((tenGet s t).tx.freq = false) ∧
      ((tenGet s t).tx.resize = 0) ∧ (0 < (tenGet s t).tx.c) ∧ (2 * ((tenGet (offerBlocks t l s) t).tx : TenTx).c < ((tenGet
      (offerBlocks t l s) t).tx : TenTx).level) ∧ (((tenGet (offerBlocks t l s) t).tx : TenTx).level < 14 * ((tenGet
      (offerBlocks t l s) t).tx : TenTx).c)) ∧
(∃ (t : Nat) (o : Int) (s : State), (t < 1024) ∧ ((clientOf s t).kind ≠ 0) ∧ ((tenGet s t).tx.freq) ∧ (0 < (tenGet s t).tx.c)) ∧
(∃ (t : Nat) (s : State), (t < 1024) ∧ (domOn s 2) ∧ ((tenGet s t).rx.state = .norm) ∧ ((tenGet s t).rx.suppressed = false) ∧
      (acceptH s t (rxHeader (tenGet s t).rx : Word64 × Bool).1 (rxHeader (tenGet s t).rx : Word64 × Bool).2) ∧ (bits
      (rxHeader (tenGet s t).rx : Word64 × Bool).1.toNat 47 39 = (tenGet s t).rx.expected)) ∧
(∃ (t : Nat) (g : Word64) (m : PeriodMark) (s : State), ((tenGet s t).rx.held = some m) ∧ (periodTag (tenGet s t).rx m = some
      g) ∧ ((tenGet s t).rx.state = .norm) ∧ ((tenGet s t).rx.suppressed = false) ∧ ((tagVerdict t (tagCandidates (keySlot s
      t) m g : List Nat) s).1) ∧ ((tagVerdict t (tagCandidates (keySlot s t) m g : List Nat) s).2.1 = false)) :=
⟨⟨cmdT 1023 [1, 0, 0, 0], rd, by decide +kernel⟩,
⟨cmdT 1023 [], rd, by decide +kernel⟩,
⟨0, [], { rd with cal := { t0 := ⟨[(0, 0x8000)], []⟩ }, ten := [(0, { tx := { c := 1, store := List.replicate 8 0 } })] },
      by decide +kernel⟩,
⟨0, 19500, { rd with host := { clients := [(0, { kind := 1 })] }, ten := [(0, { tx := { c := 1, freq := true } })] },
      by decide +kernel⟩,
⟨0,
      { rd with cal := { t0 := ⟨[(0, 0x8000)], []⟩ }, ten := [(0, { rx := { state := .norm, c := 1, frames := [⟨8, true, [8388608#64 + (crc8 8388608#64).setWidth 64]⟩] } })] },
      by decide +kernel⟩,
⟨0, tag0, mark0, tagged, ⟨by decide +kernel, by decide +kernel, by decide +kernel, by decide +kernel, tagged_verdict,
      tagged_hunt⟩⟩⟩

/-- The premises of each clause of SkewRowsComplete are met. -/
theorem witness_SkewRowsComplete :
(∃ (pk : Packet) (s : State), (starts 0x0501 pk s) ∧ (checkSetSkewConfig (ctxOf pk s) (begun 0x0501 pk s) = stOk)) ∧
(∃ (pk : Packet) (s : State), (starts 0x0503 pk s) ∧ (checkGetSkewStatus (ctxOf pk s) (begun 0x0503 pk s) = stOk)) ∧
(∃ (x : Int) (s : State), (domOn s 2) ∧ (syncOn s .a) ∧ (syncOn s .b) ∧ (trafficMode s.mode.cur) ∧ ((roundDiv x 256).natAbs ≤
      skewLimit s.mode.cur) ∧ (s.skew.state ≠ .excess)) ∧
(∃ (x : Int) (s : State), (domOn s 2) ∧ (syncOn s .a) ∧ (syncOn s .b) ∧ (trafficMode s.mode.cur) ∧ (skewLimit s.mode.cur <
      (roundDiv x 256).natAbs) ∧ (s.skew.state ≠ .off) ∧ (s.skew.state ≠ .excess)) ∧
(∃ (t : Nat) (s : State), (s.skew.state = .excess) ∧ (s.skew.within = some t) ∧ (t + 100 * msNs ≤ s.now) ∧ (s.skew.alarm)) ∧
(∃ (fc : Nat) (t : Int) (s : State), (domOn s 2) ∧ (s.mode.cur ≠ .merge) ∧ (rampingDown s = false) ∧ (s.skew.state = .aligned)
      ∧ (s.skew.sched.a = some t)) ∧
(∃ (fc : Nat) (t : Int) (arr : Int) (s : State), (domOn s 2) ∧ (syncOn s .a) ∧ (syncOn s .b) ∧ (s.mode.cur ≠ .merge) ∧
      (rampingDown s = false) ∧ (s.skew.state = .aligned) ∧ (s.skew.sched.a = some t) ∧ (fcDist s.skew.readFc.a (fc % 2 ^ 24)
      = 1) ∧ (arr * unitNs + guardUnits s = t + frameUnits)) :=
⟨⟨cmd [0xD0, 7, 100, 1, 0, 0, 0, 0], rd, by decide +kernel⟩,
⟨cmd [], rd, by decide +kernel⟩,
⟨0, { rd with mode := { cur := .bonded }, line := ⟨syncLine, syncLine⟩ }, by decide +kernel⟩,
⟨1000000000000, { rd with mode := { cur := .bonded }, line := ⟨syncLine, syncLine⟩, skew := { state := .aligned } },
      by decide +kernel⟩,
⟨5, { rd with skew := { state := .excess, within := some 5, alarm := true } }, by decide +kernel⟩,
⟨0, 7, { rd with skew := { state := .aligned, sched := ⟨some 7, none⟩ } }, by decide +kernel⟩,
⟨1, 132232000000, 0,
      { rd with line := ⟨syncLine, syncLine⟩, skew := { state := .aligned, sched := ⟨some 132232000000, none⟩ } },
      by decide +kernel⟩⟩

/-- The premises of each clause of MergeRowsComplete are met. -/
theorem witness_MergeRowsComplete :
(∃ (pk : Packet) (s : State), (starts 0x0502 pk s) ∧ (checkSetMergeConfig (ctxOf pk s) (begun 0x0502 pk s) = stOk)) ∧
(∃ (pk : Packet) (s : State), (starts 0x0504 pk s) ∧ (checkGetMergeStatus (ctxOf pk s) (begun 0x0504 pk s) = stOk)) ∧
(∃ (fc : Nat) (l : Nat) (x : HeldFrame) (s : State), (s.mode.cur = .merge) ∧ (domOn s 2) ∧ (slipDue s = false) ∧ (s.mrg.lastFc
      = some l) ∧ (0 < fcDist l (fc % 2 ^ 24)) ∧ (s.skew.use.mode = 0) ∧ (s.mrg.selB = false) ∧ (s.mrg.legs.a.eligible) ∧
      (heldFrame s .a (fc % 2 ^ 24) = some x) ∧ (x.good) ∧ (x.ann = none) ∧ (s.mrg.loss = false)) ∧
(∃ (c : Carrier) (t : Nat) (s : State), ((legGet s c).holdAt = some t) ∧ (t ≤ s.now)) ∧
(∃ (t : Nat) (s : State), (s.mrg.legs.a.eligSince = some t) ∧ (s.mode.cur = .merge) ∧ (s.skew.use.mode = 1) ∧ (t +
      s.skew.use.wtr * secNs ≤ s.now)) :=
⟨⟨cmd [3, 0, 0x10, 0x0E], rd, by decide +kernel⟩,
⟨cmd [], rd, by decide +kernel⟩,
⟨1, 0, ⟨1, true, true, none, []⟩,
      { rd with mode := { cur := .merge }, mrg := { lastFc := some 0, legs := ⟨{ eligible := true }, {}⟩ }, skew := { bufs := ⟨[⟨1, true, true, none, []⟩], []⟩ } },
      by decide +kernel⟩,
⟨.a, 5, { rd with mrg := { legs := ⟨{ holdAt := some 5 }, {}⟩ } }, by decide +kernel⟩,
⟨5,
      { rd with mode := { cur := .merge }, skew := { use := { mode := 1, wtr := 0 } }, mrg := { legs := ⟨{ eligSince := some 5 }, {}⟩ } },
      by decide +kernel⟩⟩

/-- The premises of each clause of PmCommandsComplete are met. -/
theorem witness_PmCommandsComplete :
(∃ (pk : Packet) (s : State), (starts 0x0601 pk s) ∧ (checkSetPmConfig (ctxOf pk s) (begun 0x0601 pk s) = stOk)) ∧
(∃ (pk : Packet) (s : State), (starts 0x0602 pk s) ∧ (checkSetPmThresholds (ctxOf pk s) (begun 0x0602 pk s) = stOk) ∧ (tblWf 0
      s.pm.thr)) ∧
(∃ (pk : Packet) (s : State), (starts 0x0603 pk s) ∧ (checkSetPmProfile (ctxOf pk s) (begun 0x0603 pk s) = stOk)) ∧
(∃ (pk : Packet) (s : State), (starts 0x0604 pk s) ∧ (checkGetPmCurrent (ctxOf pk s) (begun 0x0604 pk s) = stOk)) ∧
(∃ (pk : Packet) (s : State) (r : List Byte), (starts 0x0605 pk s) ∧ (checkGetPmHistory (ctxOf pk s) (begun 0x0605 pk s) =
      stOk) ∧ (historyRead s (if u8 pk.params 0 = 0 then u8 pk.params 1 else 2 + pk.tenant) (u8 pk.params 2) (u16 pk.params 4)
      = some r)) ∧
(∃ (pk : Packet) (s : State), (starts 0x0606 pk s) ∧ (checkGetLinkQuality (ctxOf pk s) (begun 0x0606 pk s) = stOk)) :=
⟨⟨cmd [15, 3, 95, 0, 94, 1, 94, 1], rd, by decide +kernel⟩,
⟨cmd ([7] ++ List.replicate 67 0), rd, by decide +kernel⟩,
⟨cmd [0, 1, 7, 0], rd, by decide +kernel⟩,
⟨cmd [0, 1, 0, 0], rd, by decide +kernel⟩,
⟨cmd [0, 1, 1, 0, 0, 0, 0, 0], { rd with mem := { histCount := [(3, 1)] } }, storeErrRecord, by decide +kernel⟩,
⟨cmd [1, 0, 0, 0], rd, by decide +kernel⟩⟩

/-- The premises of each clause of PmEventsComplete are met. -/
theorem witness_PmEventsComplete :
(∃ (ax : Nat) (ay : Nat) (bx : Nat) (byy : Nat) (s : State), (domOn s 2) ∧ (s.pm.frozen = false)) ∧
(∃ (ax : Nat) (ay : Nat) (bx : Nat) (byy : Nat) (s : State), (domOn s 2) ∧ (s.pm.frozen) ∧ (s.pm.resumeAt = none)) ∧
(∃ (e : Nat) (x : PmEntity) (p : PmSecond) (s : State), (s.pm.ents = [(e, x)]) ∧ (x.pend = [p]) ∧ (s.pm.thr = []) ∧ ((p.sec +
      11) * secNs ≤ s.tod)) ∧
(∃ (e : Nat) (x : PmEntity) (b : PmBin) (s : State), (s.pm.ents = [(e, x)]) ∧ (x.pend = []) ∧ (x.bins15 = [b]) ∧ (x.bins24 =
      []) ∧ (b.endAt ≤ s.pm.curSec) ∧ (b.elapsed ≠ 0) ∧ ((b.endAt + 10) * secNs ≤ s.tod)) :=
⟨⟨0, 0, 0, 0, rd, by decide +kernel⟩,
⟨0, 0, 0, 0, { rd with pm := { frozen := true } }, by decide +kernel⟩,
⟨0, { pend := [⟨0, {}, none, false, false⟩] }, ⟨0, {}, none, false, false⟩,
      { rd with tod := 11000000000, pm := { ents := [(0, { pend := [⟨0, {}, none, false, false⟩] })] } }, by decide +kernel⟩,
⟨0, { bins15 := [{ endAt := 0, elapsed := 1 }] }, { endAt := 0, elapsed := 1 },
      { rd with tod := 10000000000, pm := { ents := [(0, { bins15 := [{ endAt := 0, elapsed := 1 }] })] } },
      by decide +kernel⟩⟩

/-- The premises of each clause of TurretCommandsComplete are met. -/
theorem witness_TurretCommandsComplete :
(∃ (pk : Packet) (s : State), (starts 0x0701 pk s) ∧ (checkEstablishKek (ctxOf pk s) (begun 0x0701 pk s) = stOk)) ∧
(∃ (pk : Packet) (s : State) (l : List Byte), (starts 0x0702 pk s) ∧ (checkLoadKey (ctxOf pk s) (begun 0x0702 pk s) = stOk) ∧
      (keyUnwrap (kekAt s (u8 pk.params 1)).k1 (slice pk.params 4 56) = some l)) ∧
(∃ (pk : Packet) (s : State), (starts 0x0703 pk s) ∧ (checkGenerateKey (ctxOf pk s) (begun 0x0703 pk s) = stOk)) ∧
(∃ (pk : Packet) (s : State), (starts 0x0704 pk s) ∧ (checkRotateKey (ctxOf pk s) (begun 0x0704 pk s) = stOk)) ∧
(∃ (pk : Packet) (s : State), (starts 0x0705 pk s) ∧ (checkEraseKey (ctxOf pk s) (begun 0x0705 pk s) = stOk) ∧ (u8 pk.params 0
      = 0)) ∧
(∃ (pk : Packet) (s : State), (starts 0x0705 pk s) ∧ (checkEraseKey (ctxOf pk s) (begun 0x0705 pk s) = stOk) ∧ (u8 pk.params 0
      ≠ 0)) ∧
(∃ (pk : Packet) (s : State), (starts 0x0706 pk s) ∧ (checkSetTenantCipher (ctxOf pk s) (begun 0x0706 pk s) = stOk)) ∧
(∃ (pk : Packet) (s : State), (starts 0x0707 pk s) ∧ (checkGetKeyStatus (ctxOf pk s) (begun 0x0707 pk s) = stOk)) ∧
(∃ (pk : Packet) (s : State), (starts 0x0708 pk s) ∧ (checkGetTurretStatus (ctxOf pk s) (begun 0x0708 pk s) = stOk)) :=
⟨⟨cmd ([7, 0, 0, 0] ++ point0 ++ [0, 0, 0]), rd, by decide +kernel⟩,
⟨keyPacket, keyed, blobSamplePlain, ⟨by decide +kernel, keyed_check, keyed_unwraps⟩⟩,
⟨cmdT 1023 [1, 7, 0, 0, 0, 0, 0, 0], { rd with turret := { keep := [(slotKek + 7, { r0 := { state := 1 } })] } },
      by decide +kernel⟩,
⟨cmdT 0 [0, 0, 0, 0, 0, 0, 0, 0], { rd with turret := { keep := [(0, { r0 := { state := 1 }, r1 := { state := 1 } })] } },
      by decide +kernel⟩,
⟨cmdT 1023 [0, 0, 0, 0], rd, by decide +kernel⟩,
⟨cmdT 1023 [1, 0, 0, 0], rd, by decide +kernel⟩,
⟨cmdT 1023 [1, 48, 0, 0], rd, by decide +kernel⟩,
⟨cmd [0x1F, 4, 0, 0], rd, by decide +kernel⟩,
⟨cmd [], rd, by decide +kernel⟩⟩

/-- The premises of each clause of TurretEventsComplete are met. -/
theorem witness_TurretEventsComplete :
(∃ (t : Nat) (x : Bool) (s : State), (t < 1024) ∧ ((domOn s 25 || domOn s 26))) ∧
(∃ (t : Nat) (s : State), (t < 1024) ∧ ((domOn s 25 || domOn s 26)) ∧ ((keyReg (keySlot s t) (keySlot s t).pTx).state = 1)) ∧
(∃ (p : Nat) (s : State), (p < 128) ∧ (s.turret.fenced.contains p = false) ∧ (domOn s (if p < 64 then 25 else 26))) ∧
(∃ (k : Nat) (r : Nat) (s : State), (k < 1056) ∧ (r < 2) ∧ ((domOn s 25 || domOn s 26))) ∧
(∃ (k : Nat) (r : Nat) (s : State), (k < 1056) ∧ (r < 2) ∧ ((domOn s 25 || domOn s 26))) ∧
(∃ (k : Nat) (r : Nat) (s : State), (k < 1056) ∧ (r < 2) ∧ ((domOn s 25 || domOn s 26)) ∧ (turretOn s)) ∧
(∃ (t : Nat) (fc : Nat) (r : Rotation) (s : State), (s.turret.rotations = [r]) ∧ (r.tenant = t) ∧ (r.at_ * secNs ≤ s.tod) ∧
      ((keySlot s t).pTx ≤ 1)) ∧
(∃ (j : KeyJob) (s : State), (s.turret.jobs = [j]) ∧ (j.kek) ∧ (s.turret.rng = 0)) ∧
(∃ (t : Nat) (j : KeyJob) (s : State), (s.turret.jobs = [j]) ∧ (j.kek = false) ∧ (j.tenant = t) ∧ (s.turret.rng = 0)) ∧
(∃ (j : KeyJob) (s : State), (s.turret.jobs = [j]) ∧ (s.turret.rng ≠ 0) ∧ (s.turret.domeDraw = none) ∧ (j.deadline ≤ s.now)) ∧
(∃ (l : List Bool) (s : State), ((noiseRun l s.turret.noise).2 = false)) ∧
(∃ (l : List Bool) (s : State), ((noiseRun l s.turret.noise).2) ∧ (s.turret.rng = 0) ∧ (s.turret.degraded)) ∧
(∃ (t : Nat) (l : List Bool) (s : State), (s.turret.retestAt = some t) ∧ (t ≤ s.now) ∧ (s.turret.rng = 1) ∧ (s.turret.domeDraw
      = none) ∧ (startupOk l)) ∧
(∃ (t : Nat) (l : List Bool) (s : State), (s.turret.retestAt = some t) ∧ (t ≤ s.now) ∧ (s.turret.rng = 1) ∧ (s.turret.domeDraw
      = none) ∧ (startupOk l = false) ∧ (s.turret.retests < 2)) ∧
(∃ (t : Nat) (l : List Bool) (s : State), (s.turret.retestAt = some t) ∧ (t ≤ s.now) ∧ (s.turret.rng = 1) ∧ (s.turret.domeDraw
      = none) ∧ (startupOk l = false) ∧ (2 ≤ s.turret.retests)) ∧
(∃ (s : State), (domOn s 25) ∧ (domOn s 26) ∧ (s.turret.rng = 0) ∧ (s.turret.drbg.1 ≠ []) ∧ (s.turret.calls < 4094) ∧
      (s.turret.degraded = false) ∧ (s.turret.maskAt + msNs ≤ s.now)) :=
⟨⟨1023, true, rd, by decide +kernel⟩,
⟨0, { rd with turret := { keep := [(0, { r0 := { state := 1 } })] } }, by decide +kernel⟩,
⟨127, rd, by decide +kernel⟩,
⟨1055, 1, rd, by decide +kernel⟩,
⟨1055, 1, rd, by decide +kernel⟩,
⟨1055, 1, rd, by decide +kernel⟩,
⟨0, 5, ⟨0, 0, ⟨.q3, 0⟩⟩, { rd with turret := { rotations := [⟨0, 0, ⟨.q3, 0⟩⟩] } }, by decide +kernel⟩,
⟨⟨⟨.q3, 0⟩, true, 0, [], 0⟩, { rd with turret := { jobs := [⟨⟨.q3, 0⟩, true, 0, [], 0⟩] } }, by decide +kernel⟩,
⟨0, ⟨⟨.q3, 0⟩, false, 0, [], 0⟩, { rd with turret := { jobs := [⟨⟨.q3, 0⟩, false, 0, [], 0⟩] } }, by decide +kernel⟩,
⟨⟨⟨.q3, 0⟩, false, 0, [], 0⟩, { rd with turret := { rng := 1, jobs := [⟨⟨.q3, 0⟩, false, 0, [], 0⟩] } }, by decide +kernel⟩,
⟨[], rd, by decide +kernel⟩,
⟨List.replicate 41 true, { rd with turret := { degraded := true } }, by decide +kernel⟩,
⟨5, noise0, { rd with turret := { retestAt := some 5, rng := 1 } }, by decide +kernel⟩,
⟨5, [], { rd with turret := { retestAt := some 5, rng := 1, retests := 1 } }, by decide +kernel⟩,
⟨5, [], { rd with turret := { retestAt := some 5, rng := 1, retests := 2 } }, by decide +kernel⟩,
⟨{ rd with turret := { drbg := ([1], 1) } }, by decide +kernel⟩⟩

/-- The premises of each clause of MemoryCommandsComplete are met. -/
theorem witness_MemoryCommandsComplete :
(∃ (pk : Packet) (s : State), (starts 0x0801 pk s) ∧ (checkSetMemoryConfig (ctxOf pk s) (begun 0x0801 pk s) = stOk)) ∧
(∃ (pk : Packet) (s : State), (starts 0x0802 pk s) ∧ (checkGetMemoryStatus (ctxOf pk s) (begun 0x0802 pk s) = stOk)) ∧
(∃ (pk : Packet) (s : State), (starts 0x0803 pk s) ∧ (checkGetCeLog (ctxOf pk s) (begun 0x0803 pk s) = stOk)) ∧
(∃ (pk : Packet) (s : State), (starts 0x0804 pk s) ∧ (checkSetRemap (ctxOf pk s) (begun 0x0804 pk s) = stOk)) ∧
(∃ (pk : Packet) (s : State), (starts 0x0805 pk s) ∧ (checkRepairRow (ctxOf pk s) (begun 0x0805 pk s) = stOk)) :=
⟨⟨cmd [0x80, 0x51, 1, 0, 0xA0, 0x8C, 8, 7, 0, 0, 0, 0], rd, by decide +kernel⟩,
⟨cmd [29, 0, 0, 0], rd, by decide +kernel⟩,
⟨cmd [1, 1, 0, 0], rd, by decide +kernel⟩,
⟨cmd [1, 1, 15, 0, 0xFF, 0xFF, 0xFF, 3], rd, by decide +kernel⟩,
⟨cmd [1, 31, 31, 0, 0xFF, 0x0F, 0, 0], { rd with mem := { d1 := { ready := true } } }, by decide +kernel⟩⟩

/-- The premises of each clause of MemoryEventsComplete are met. -/
theorem witness_MemoryEventsComplete :
(∃ (k : Nat) (d : List Byte) (s : State), (k < 2097152) ∧ (sectorUsable s k)) ∧
(∃ (k : Nat) (d : List Byte) (s : State), (k < 2097152) ∧ (sectorUsable s k) ∧ (sectorPoisoned s k = false)) ∧
(∃ (k : Nat) (d : List Byte) (s : State), (k < 2097152) ∧ (sectorUsable s k) ∧ (sectorPoisoned s k)) ∧
(∃ (k : Nat) (d : List Byte) (s : State), (k < 2097152) ∧ (sectorUsable s k)) ∧
(∃ (k : Nat) (a : Nat) (s : State) (d : List Byte), (k < 2) ∧ (a < 2 ^ 26) ∧ (domOn s (stackDom k)) ∧ ((domeGet s k).ready)) ∧
(∃ (k : Nat) (a : Nat) (s : State), (k < 2) ∧ (a < 2 ^ 26) ∧ (domOn s (stackDom k)) ∧ ((domeGet s k).ready) ∧ ((domeEntry s k
      a).isNone)) ∧
(∃ (k : Nat) (s : State), (k < 2) ∧ ((domGet s (stackDom k)).state = .init) ∧ ((domeKey s).state = 1)) ∧
(∃ (k : Nat) (h : Bool) (s : State), (k < 2) ∧ (domOn s (stackDom k)) ∧ ((domeGet s k).refreshAt ≤ s.now)) ∧
(∃ (k : Nat) (s : State), (scrubbed s k) ∧ (s.mem.regions.length = 14) ∧ ((targetScrub s k).passAt = none)) ∧
(∃ (k : Nat) (a : Nat) (s : State), (k ≤ 1) ∧ (scrubbed s k) ∧ (a + 1 < 2 ^ 26) ∧ ((targetScrub s k).finished = false) ∧
      ((domeEntry s k a).isNone) ∧ (((domeGet s k).log.any fun e => e.addr == a) = false)) ∧
(∃ (k : Nat) (t : Nat) (s : State), (targetOk k) ∧ (s.mem.regions.length = 14) ∧ ((targetScrub s k).passAt = some t) ∧
      ((targetScrub s k).finished = false) ∧ ((targetScrub s k).late = false) ∧ (t + (targetScrub s k).period * 11 / 10 ≤
      s.now)) ∧
(∃ (r : Nat) (w : Nat) (x : SramUse) (s : State), (r < 14) ∧ (w < regionWords r) ∧ (useFits r x) ∧ (domOn s (regionDom r)) ∧
      (s.mem.regions.length = 14)) ∧
(∃ (r : RowRepair) (s : State), (s.mem.repair = some r) ∧ ((domeGet s r.stack).remap = List.replicate 16 {})) :=
⟨⟨2097151, [], { rd with mem := { d1 := { ready := true } } }, by decide +kernel⟩,
⟨2097151, [], { rd with mem := { d1 := { ready := true } } }, by decide +kernel⟩,
⟨1, [], { rd with mem := { d1 := { ready := true, remap := [⟨true, true, false, 0⟩] } } }, by decide +kernel⟩,
⟨2097151, [], { rd with mem := { d1 := { ready := true } } }, by decide +kernel⟩,
⟨1, 2 ^ 26 - 1, { rd with mem := { d1 := { ready := true } } }, [], by decide +kernel⟩,
⟨1, 2 ^ 26 - 1, { rd with mem := { d1 := { ready := true } } }, by decide +kernel⟩,
⟨1, { dom 24 { state := .init } with turret := { keep := [(slotDome, { r0 := { state := 1 } })] } }, by decide +kernel⟩,
⟨1, true, rd, by decide +kernel⟩,
⟨1, { rd with mem := { d1 := { ready := true } } }, by decide +kernel⟩,
⟨1, 2 ^ 26 - 2, { rd with mem := { d1 := { ready := true, scrub := { finished := false } } } }, by decide +kernel⟩,
⟨1, 0, { rd with mem := { d1 := { scrub := { passAt := some 0, finished := false, period := 10 } } } }, by decide +kernel⟩,
⟨13, 131071, .message .east 0, rd, by decide +kernel⟩,
⟨⟨⟨.q3, 0⟩, 1, 0, 0, 0⟩, { rd with mem := { repair := some ⟨⟨.q3, 0⟩, 1, 0, 0, 0⟩ } }, by decide +kernel⟩⟩

/-- The premises of each clause of TestCommandsComplete are met. -/
theorem witness_TestCommandsComplete :
(∃ (pk : Packet) (s : State), (starts 0x0C01 pk s) ∧ (checkSetLoop (ctxOf pk s) (begun 0x0C01 pk s) = stOk) ∧ (u8 pk.params 2
      = 1) ∧ (u8 pk.params 0 < 3)) ∧
(∃ (pk : Packet) (s : State), (starts 0x0C01 pk s) ∧ (checkSetLoop (ctxOf pk s) (begun 0x0C01 pk s) = stOk) ∧ (u8 pk.params 2
      = 1) ∧ (3 ≤ u8 pk.params 0) ∧ (u8 pk.params 0 < 5)) ∧
(∃ (pk : Packet) (s : State), (starts 0x0C01 pk s) ∧ (checkSetLoop (ctxOf pk s) (begun 0x0C01 pk s) = stOk) ∧ (u8 pk.params 2
      = 1) ∧ (u8 pk.params 0 = 5)) ∧
(∃ (pk : Packet) (s : State), (starts 0x0C01 pk s) ∧ (checkSetLoop (ctxOf pk s) (begun 0x0C01 pk s) = stOk) ∧ (u8 pk.params 2
      = 0) ∧ (u8 pk.params 0 < 3) ∧ (loopOn s (u8 pk.params 0) (u8 pk.params 1) = some (u8 pk.params 0))) ∧
(∃ (pk : Packet) (s : State), (starts 0x0C01 pk s) ∧ (checkSetLoop (ctxOf pk s) (begun 0x0C01 pk s) = stOk) ∧ (u8 pk.params 2
      = 0) ∧ (3 ≤ u8 pk.params 0) ∧ (u8 pk.params 0 < 5) ∧ (tblWf 0 s.test.laneLoop) ∧ (loopOn s (u8 pk.params 0) (u8
      pk.params 1) = some (u8 pk.params 0))) ∧
(∃ (pk : Packet) (s : State), (starts 0x0C01 pk s) ∧ (checkSetLoop (ctxOf pk s) (begun 0x0C01 pk s) = stOk) ∧ (u8 pk.params 2
      = 0) ∧ (u8 pk.params 0 = 5) ∧ (loopOn s (u8 pk.params 0) (u8 pk.params 1) = some (u8 pk.params 0))) ∧
(∃ (pk : Packet) (s : State), (starts 0x0C01 pk s) ∧ (checkSetLoop (ctxOf pk s) (begun 0x0C01 pk s) = stOk) ∧ (u8 pk.params 2
      = 0) ∧ (loopOn s (u8 pk.params 0) (u8 pk.params 1) ≠ some (u8 pk.params 0))) ∧
(∃ (pk : Packet) (s : State), (starts 0x0C02 pk s) ∧ (checkSetLinePattern (ctxOf pk s) (begun 0x0C02 pk s) = stOk)) ∧
(∃ (pk : Packet) (s : State), (starts 0x0C03 pk s) ∧ (checkSetLanePattern (ctxOf pk s) (begun 0x0C03 pk s) = stOk)) ∧
(∃ (pk : Packet) (s : State), (starts 0x0C04 pk s) ∧ (checkSetTenantPattern (ctxOf pk s) (begun 0x0C04 pk s) = stOk)) ∧
(∃ (pk : Packet) (s : State), (starts 0x0C05 pk s) ∧ (checkGetPatternStatus (ctxOf pk s) (begun 0x0C05 pk s) = stOk)) ∧
(∃ (pk : Packet) (s : State), (starts 0x0C06 pk s) ∧ (checkStartCapture (ctxOf pk s) (begun 0x0C06 pk s) = stOk) ∧
      ((smallestKeep s (captureRate s (u8 pk.params 0) (u8 pk.params 2) (carrierOf (u8 pk.params 1))) : Nat) ≤ u16 pk.params
      12)) ∧
(∃ (pk : Packet) (s : State), (starts 0x0C06 pk s) ∧ (checkStartCapture (ctxOf pk s) (begun 0x0C06 pk s) = stOk) ∧ (u16
      pk.params 12 < (smallestKeep s (captureRate s (u8 pk.params 0) (u8 pk.params 2) (carrierOf (u8 pk.params 1))) : Nat))) ∧
(∃ (pk : Packet) (s : State), (starts 0x0C07 pk s) ∧ (checkTriggerCapture (ctxOf pk s) (begun 0x0C07 pk s) = stOk)) ∧
(∃ (pk : Packet) (s : State), (starts 0x0C08 pk s) ∧ (checkStopCapture (ctxOf pk s) (begun 0x0C08 pk s) = stOk)) ∧
(∃ (pk : Packet) (s : State), (starts 0x0C09 pk s) ∧ (checkBusTransfer (ctxOf pk s) (begun 0x0C09 pk s) = stOk)) :=
⟨⟨cmd [2, 1, 1, 0], { rd with mode := { cur := .maintain } }, by decide +kernel⟩,
⟨cmd [4, 39, 1, 0], { rd with mode := { cur := .maintain } }, by decide +kernel⟩,
⟨cmd [5, 1, 1, 0], { rd with mode := { cur := .maintain } }, by decide +kernel⟩,
⟨cmd [2, 1, 0, 0], { rd with mode := { cur := .maintain }, test := { line := ⟨{}, { loop := some 2 }⟩ } }, by decide +kernel⟩,
⟨cmd [4, 39, 0, 0], { rd with mode := { cur := .maintain }, test := { laneLoop := [(39, 4)] } }, by decide +kernel⟩,
⟨cmd [5, 1, 0, 0], { rd with mode := { cur := .maintain }, test := { portLoop := ⟨false, true⟩ } }, by decide +kernel⟩,
⟨cmd [2, 1, 0, 0], { rd with mode := { cur := .maintain } }, by decide +kernel⟩,
⟨cmd [1, 2, 3, 2, 0xCC, 0xCC, 0x0C, 0],
      { rd with mode := { cur := .maintain }, spire := ⟨{}, { tx := { state := .stopped } }⟩ }, by decide +kernel⟩,
⟨cmd [0, 39, 2, 15, 40, 0, 0, 0], { rd with mode := { cur := .maintain } }, by decide +kernel⟩,
⟨cmdT 0 [3, 0, 0, 0], { rd with mode := { cur := .maintain }, cal := { t0 := ⟨[(0, 0x8000)], []⟩ } }, by decide +kernel⟩,
⟨cmd [0, 39, 0, 0], rd, by decide +kernel⟩,
⟨cmd ([0, 0, 15, 0, 0, 0xC0, 0x17, 0, 0xFF, 0xBF, 0x17, 0, 255, 255, 0, 0] ++ List.replicate 8 0),
      { rd with mode := { cur := .maintain }, mem := { d0 := { ready := true }, d1 := { ready := true } } },
      by decide +kernel⟩,
⟨cmd ([0, 0, 15, 0, 0, 0xC0, 0x17, 0, 0xFF, 0xBF, 0x17, 0, 1, 0, 0, 0] ++ List.replicate 8 0),
      { rd with mode := { cur := .maintain }, mem := { d0 := { ready := true }, d1 := { ready := true } }, plan := { car := ⟨planA, {}⟩ } },
      by decide +kernel⟩,
⟨cmd [], { rd with mode := { cur := .maintain }, test := { cap := { state := 1 } } }, by decide +kernel⟩,
⟨cmd [], { rd with mode := { cur := .maintain }, test := { cap := { state := 2 } } }, by decide +kernel⟩,
⟨cmd [1, 127, 1, 32, 9], rd, by decide +kernel⟩⟩

/-- The premises of each clause of TestEventsComplete are met. -/
theorem witness_TestEventsComplete :
(∃ (c : Nat) (s : State), (s.test.cap.state = 1) ∧ (s.test.cap.trig = 1) ∧ (s.test.cap.arg64 = c)) ∧
(∃ (p : Nat) (s : State), (s.test.cap.state = 2) ∧ (s.test.cap.trigPos = some p)) ∧
(∃ (s : State), (captureRuns s)) ∧
(∃ (s : State), (captureRuns s) ∧ ((domOn s 23 && domOn s 24) = false)) ∧
(∃ (s : State), (captureRuns s) ∧ (captureMode s.mode.cur = false)) ∧
(∃ (k : Nat) (i : Nat) (l : List Bool) (s : State), (k ≤ 1) ∧ ((checkerGet s k i).state ≠ 0)) ∧
(∃ (k : Nat) (i : Nat) (s : State), (k ≤ 1) ∧ ((checkerGet s k i).state = 1) ∧ ((checkerGet s k i).run = 1023)) ∧
(∃ (c : Carrier) (s : State), (s.mode.cur = .maintain) ∧ ((pget s.test.line c).timing = 1) ∧ (trackOn s c = false) ∧ ((pget
      s.test.line c).fallback = false)) ∧
(∃ (j : BusJob) (st : Nat) (l : List Byte) (s : State), (s.test.buses = [j]) ∧ (st ≤ 2)) :=
⟨⟨65535, { rd with test := { cap := { state := 1, trig := 1, arg64 := 65535 } } }, by decide +kernel⟩,
⟨5, { rd with test := { cap := { state := 2, trigPos := some 5 } } }, by decide +kernel⟩,
⟨{ rd with test := { cap := { state := 1 } } }, by decide +kernel⟩,
⟨{ rd with power := {}, test := { cap := { state := 1 } } }, by decide +kernel⟩,
⟨{ rd with test := { cap := { state := 1 } } }, by decide +kernel⟩,
⟨0, 39, [], { rd with test := { lanes := [(39, { chk := { state := 2 } })] } }, by decide +kernel⟩,
⟨0, 39, { rd with test := { lanes := [(39, { chk := { state := 1, run := 1023 } })] } }, by decide +kernel⟩,
⟨.a, { rd with mode := { cur := .maintain }, test := { line := ⟨{ timing := 1 }, {}⟩ } }, by decide +kernel⟩,
⟨⟨⟨.q3, 0⟩, 1, 0, [], 0⟩, 2, [], { rd with test := { buses := [⟨⟨.q3, 0⟩, 1, 0, [], 0⟩] } }, by decide +kernel⟩⟩

/-- The premises of each clause of BelfryCommandsComplete are met. -/
theorem witness_BelfryCommandsComplete :
(∃ (pk : Packet) (s : State), (starts 0x0901 pk s) ∧ (checkSetRefConfig (ctxOf pk s) (begun 0x0901 pk s) = stOk) ∧
      (s.bel.refs.length = 10)) ∧
(∃ (pk : Packet) (s : State), (starts 0x0902 pk s) ∧ (checkSetDpllConfig (ctxOf pk s) (begun 0x0902 pk s) = stOk)) ∧
(∃ (pk : Packet) (s : State), (starts 0x0903 pk s) ∧ (checkSetSelection (ctxOf pk s) (begun 0x0903 pk s) = stOk)) ∧
(∃ (pk : Packet) (s : State), (starts 0x0904 pk s) ∧ (checkStepPhase (ctxOf pk s) (begun 0x0904 pk s) = stOk) ∧ (u8 pk.params
      4 = 0)) ∧
(∃ (pk : Packet) (s : State), (starts 0x0904 pk s) ∧ (checkStepPhase (ctxOf pk s) (begun 0x0904 pk s) = stOk) ∧ (u8 pk.params
      4 ≠ 0)) ∧
(∃ (pk : Packet) (s : State), (starts 0x0905 pk s) ∧ (checkSetTime (ctxOf pk s) (begun 0x0905 pk s) = stOk)) ∧
(∃ (pk : Packet) (s : State), (starts 0x0906 pk s) ∧ (checkSetTodConfig (ctxOf pk s) (begun 0x0906 pk s) = stOk)) ∧
(∃ (pk : Packet) (s : State), (starts 0x0907 pk s) ∧ (checkBelPlain (ctxOf pk s) (begun 0x0907 pk s) = stOk)) ∧
(∃ (pk : Packet) (s : State), (starts 0x0908 pk s) ∧ (checkBelPlain (ctxOf pk s) (begun 0x0908 pk s) = stOk)) ∧
(∃ (pk : Packet) (s : State), (starts 0x0909 pk s) ∧ (checkSetLearning (ctxOf pk s) (begun 0x0909 pk s) = stOk)) :=
⟨⟨cmd [9, 3, 15, 15, 0xD0, 2, 0xE8, 3, 0, 0, 0, 0, 0, 0, 0, 0], rd, by decide +kernel⟩,
⟨cmd [1, 31, 6, 11, 0x08, 7, 250, 0, 0xE8, 3, 0, 0], rd, by decide +kernel⟩,
⟨cmd [0, 255, 0, 0], rd, by decide +kernel⟩,
⟨cmd [0x40, 0x42, 0x0F, 0, 0, 0, 0, 0], rd, by decide +kernel⟩,
⟨cmd [0x40, 0x42, 0x0F, 0, 1, 0, 0, 0], rd, by decide +kernel⟩,
⟨cmd [2, 0, 0, 0, 0, 0, 0, 0, 0, 0, 0, 0], rd, by decide +kernel⟩,
⟨cmd [2, 1, 0xF4, 1, 0x80, 0x96, 0x98, 0, 0x80, 0x69, 0x67, 0xFF, 0, 0, 0, 0], rd, by decide +kernel⟩,
⟨cmd [], rd, by decide +kernel⟩,
⟨cmd [], rd, by decide +kernel⟩,
⟨cmd [1, 0, 0, 0], rd, by decide +kernel⟩⟩

/-- The premises of each clause of ReferenceEventsComplete are met. -/
theorem witness_ReferenceEventsComplete :
(∃ (r : Nat) (x : Int) (ppb : Int) (s : State), (r < 10) ∧ (s.bel.refs.length = 10) ∧ (domOn s 1) ∧ ((refGet s r).valid) ∧
      ((refGet s r).hist = []) ∧ (s.bel.selected = some r) ∧ (s.bel.state = .locked)) ∧
(∃ (r : Nat) (x : Int) (ppb : Int) (s : State) (e : _), (r < 10) ∧ (s.bel.refs.length = 10) ∧ (domOn s 1) ∧ ((refGet s
      r).valid) ∧ ((refGet s r).hist = [e]) ∧ ((refGet s r).use.jump * 1000 < (x - e).natAbs)) ∧
(∃ (r : Nat) (s : State), (r < 10) ∧ (domOn s 1) ∧ ((refGet s r).valid) ∧ ((refGet s r).freqOk = false) ∧ ((refGet s r).out =
      false) ∧ ((refGet s r).outAt + secNs ≤ s.now)) ∧
(∃ (r : Nat) (s : State), (r < 10) ∧ (domOn s 1) ∧ ((refGet s r).valid) ∧ ((refGet s r).freqOk = true) ∧ ((refGet s r).out =
      true) ∧ ((refGet s r).outAt + 100 * msNs ≤ s.now)) ∧
(∃ (r : Nat) (v : Bool) (s : State), (6 ≤ r) ∧ (r ≤ 9)) ∧
(∃ (r : Nat) (v : Bool) (s : State), (r < 6)) ∧
(∃ (r : Nat) (t : Nat) (s : State), ((refGet s r).wtrAt = some t) ∧ (t ≤ s.now)) ∧
(∃ (t : Nat) (s : State), (s.bel.holdOffAt = some t) ∧ (t ≤ s.now)) ∧
(∃ (s : State), (domOn s 1)) ∧
(∃ (s : State), (domOn s 1) ∧ (s.bel.state = .acquiring) ∧ (s.bel.selAt + 2 * secNs ≤ s.now)) ∧
(∃ (r : Nat) (s : State), (domOn s 1) ∧ (s.bel.state = .acquiring) ∧ (s.bel.selected = some r) ∧ (s.bel.selAt + 60 * secNs ≤
      s.now) ∧ ((evaluateRef 7 (startWtr r (refUpd r (fun v => { v with lockFail := satAdd 16 v.lockFail 1 }) s)) :
      State).bel.selected ≠ some r)) ∧
(∃ (r : Nat) (s : State), (domOn s 1) ∧ (s.bel.state = .acquiring) ∧ (s.bel.selected = some r) ∧ (s.bel.selAt + 60 * secNs ≤
      s.now) ∧ ((evaluateRef 7 (startWtr r (refUpd r (fun v => { v with lockFail := satAdd 16 v.lockFail 1 }) s)) :
      State).bel.selected = some r)) ∧
(∃ (t : Nat) (s : State), (domOn s 1) ∧ (s.bel.ready = false) ∧ (s.bel.lockedSince = some t) ∧ (t + (10 * secNs -
      s.bel.lockedSum) ≤ s.now)) ∧
(∃ (x : Int) (s : State), (domOn s 1) ∧ (s.bel.state = .holdover)) ∧
(∃ (x : Int) (s : State), (domOn s 1) ∧ (s.bel.state = .freeRun)) ∧
(∃ (f : Int) (x : Int) (s : State), (domOn s 1) ∧ (learns s)) ∧
(∃ (f : Int) (x : Int) (s : State), (domOn s 1) ∧ (learns s = false)) ∧
(∃ (m : ModelFit) (s : State), (domOn s 1) ∧ (s.bel.use.learn) ∧ (s.bel.model.samples ≠ 0) ∧ (fitSolve s.bel.fit (s.now /
      secNs) = some m)) ∧
(∃ (t : Nat) (s : State), (domOn s 1) ∧ (s.bel.use.learn) ∧ (s.bel.modelAt = some t) ∧ (t ≤ s.now)) :=
⟨⟨9, 0, 0, { rd with bel := { refs := rd.bel.refs.set 9 { valid := true }, selected := some 9, state := .locked } },
      by decide +kernel⟩,
⟨9, 150001, 0, { rd with bel := { refs := rd.bel.refs.set 9 { valid := true, hist := [0] } } }, 0, by decide +kernel⟩,
⟨9, { rd with bel := { refs := rd.bel.refs.set 9 { valid := true, freqOk := false } } }, by decide +kernel⟩,
⟨9, { rd with bel := { refs := rd.bel.refs.set 9 { valid := true, out := true } } }, by decide +kernel⟩,
⟨9, true, rd, by decide +kernel⟩,
⟨5, true, rd, by decide +kernel⟩,
⟨9, 5, { rd with bel := { refs := rd.bel.refs.set 9 { wtrAt := some 5 } } }, by decide +kernel⟩,
⟨5, { rd with bel := { holdOffAt := some 5 } }, by decide +kernel⟩,
⟨rd, by decide +kernel⟩,
⟨{ rd with now := 2000000000, bel := { state := .acquiring } }, by decide +kernel⟩,
⟨9, { rd with now := 60000000000, bel := { state := .acquiring, selected := some 9 } }, by decide +kernel⟩,
⟨9,
      { rd with now := 60000000000, bel := { state := .acquiring, selected := some 9, selMode := 2, selRef := some 9, refs := rd.bel.refs.set 9 { set := { enable := true }, use := { enable := true }, raw := true, valid := true } } },
      by decide +kernel⟩,
⟨5, { rd with bel := { lockedSince := some 5, lockedSum := 10000000000 } }, by decide +kernel⟩,
⟨0, { rd with bel := { state := .holdover } }, by decide +kernel⟩,
⟨0, rd, by decide +kernel⟩,
⟨0, 0,
      { rd with now := 60000000000, bel := { state := .locked, lockedSince := some 0, selected := some 9, refs := rd.bel.refs.set 9 { valid := true, use := { written := true, ql := 2 }, set := { written := true, ql := 2 } } } },
      by decide +kernel⟩,
⟨0, 0, rd, by decide +kernel⟩,
⟨⟨5, 0, 0, 0⟩,
      { rd with bel := { model := { samples := 1 }, fit := [[1, 0, 0, 0, 5], [0, 1, 0, 0, 0], [0, 0, 1, 0, 0], [0, 0, 0, 1, 0]] } },
      by decide +kernel⟩,
⟨5, { rd with bel := { modelAt := some 5 } }, by decide +kernel⟩⟩

/-- The premises of each clause of TimeEventsComplete are met. -/
theorem witness_TimeEventsComplete :
(∃ (s : State), (domOn s 1) ∧ (s.bel.slew ≠ 0) ∧ (0 < s.bel.use.slew)) ∧
(∃ (s : State), (domOn s 1) ∧ (s.tod % secNs = 0) ∧ (s.tod / secNs ≠ s.bel.lastSec) ∧ (s.bel.setTime = none)) ∧
(∃ (j : TimeJob) (s : State), (domOn s 1) ∧ (s.tod % secNs = 0) ∧ (s.tod / secNs ≠ s.bel.lastSec) ∧ (s.bel.setTime = some j) ∧
      (j.mode = 0 ∨ j.mode = 2)) ∧
(∃ (j : TimeJob) (s : State), (s.bel.setTime = some j) ∧ (j.mode = 1) ∧ (j.deadline ≤ s.now)) ∧
(∃ (x : Int) (s : State), (domOn s 1) ∧ (s.bel.todUse.source = 1) ∧ (s.bel.todUse.inComp = 0) ∧ (s.bel.setTime = none) ∧
      (x.natAbs ≤ 1000000)) ∧
(∃ (t : Nat) (s : State), (domOn s 1) ∧ (s.bel.todUse.source = 1) ∧ (s.bel.ppsLoss = false) ∧ (s.bel.ppsLast = some t) ∧ (t +
      3 * secNs ≤ s.now)) ∧
(∃ (t : Nat) (s : State), (domOn s 1) ∧ (s.bel.todUse.source = 2) ∧ (s.ring.role = 2) ∧ (s.ring.heardTiming = some t) ∧ (t +
      10 * secNs ≤ s.now)) ∧
(∃ (g : Nat) (t : Nat) (s : State), ((groupOf s g).ssmAt = some t) ∧ (t ≤ s.now)) ∧
(∃ (g : Nat) (s : State), (g < 16) ∧ ((groupOf s g).number ≠ 0) ∧ (domOn s 1)) :=
⟨⟨{ rd with bel := { slew := 1 } }, by decide +kernel⟩,
⟨{ rd with tod := 1000000000 }, by decide +kernel⟩,
⟨⟨2, 0, ⟨.q3, 0⟩, 0⟩, { rd with tod := 1000000000, bel := { setTime := some ⟨2, 0, ⟨.q3, 0⟩, 0⟩ } }, by decide +kernel⟩,
⟨⟨1, 0, ⟨.q3, 0⟩, 0⟩, { rd with bel := { setTime := some ⟨1, 0, ⟨.q3, 0⟩, 0⟩ } }, by decide +kernel⟩,
⟨1000000, { rd with bel := { todUse := { source := 1 } } }, by decide +kernel⟩,
⟨5, { rd with now := 3000000005, bel := { todUse := { source := 1 }, ppsLast := some 5 } }, by decide +kernel⟩,
⟨5, { rd with now := 10000000005, bel := { todUse := { source := 2 } }, ring := { heardTiming := some 5 } },
      by decide +kernel⟩,
⟨15, 5, { rd with host := { groups := List.replicate 15 {} ++ [{ ssmAt := some 5 }] } }, by decide +kernel⟩,
⟨15, { rd with host := { groups := List.replicate 15 {} ++ [{ number := 1 }] } }, by decide +kernel⟩⟩

/-- The premises of each clause of RingCommandsComplete are met. -/
theorem witness_RingCommandsComplete :
(∃ (pk : Packet) (s : State), (starts 0x0A01 pk s) ∧ (checkSetRingRole (ctxOf pk s) (begun 0x0A01 pk s) = stOk)) ∧
(∃ (pk : Packet) (s : State), (starts 0x0A02 pk s) ∧ (checkAssignWorker (ctxOf pk s) (begun 0x0A02 pk s) = stOk)) ∧
(∃ (pk : Packet) (s : State), (starts 0x0A03 pk s) ∧ (checkGetRingStatus (ctxOf pk s) (begun 0x0A03 pk s) = stOk)) ∧
(∃ (pk : Packet) (s : State), (starts 0x0A04 pk s) ∧ (checkGetOutcome (ctxOf pk s) (begun 0x0A04 pk s) = stOk) ∧ (((begun
      0x0A04 pk s).ring.log.reverse.find? (fun e => e.epoch == u16 pk.params 0 && e.tag == u16 pk.params 2) : Option OutEntry)
      = none)) ∧
(∃ (pk : Packet) (s : State) (e : _), (starts 0x0A04 pk s) ∧ (checkGetOutcome (ctxOf pk s) (begun 0x0A04 pk s) = stOk) ∧
      (((begun 0x0A04 pk s).ring.log.reverse.find? (fun e => e.epoch == u16 pk.params 0 && e.tag == u16 pk.params 2) : Option
      OutEntry) = some e)) ∧
(∃ (pk : Packet) (s : State), (starts 0x0A05 pk s) ∧ (checkSetRingProtect (ctxOf pk s) (begun 0x0A05 pk s) = stOk) ∧
      (s.ring.role = 1)) ∧
(∃ (pk : Packet) (s : State), (starts 0x0A06 pk s) ∧ (checkGetRingProtect (ctxOf pk s) (begun 0x0A06 pk s) = stOk)) :=
⟨⟨cmd [2, 3, 3, 15, 15, 0, 0, 0], rd, by decide +kernel⟩,
⟨cmd ([15, 1, 0, 0] ++ List.replicate 8 65 ++ [24, 1, 1, 0]), { rd with ring := { role := 1 } }, by decide +kernel⟩,
⟨cmd [], rd, by decide +kernel⟩,
⟨cmd [0, 0, 0, 0], rd, by decide +kernel⟩,
⟨cmd [0, 0, 0, 0], { rd with ring := { log := [⟨0, 0, 1, 0, 0, 0, 0, [], [], .east⟩] } }, ⟨0, 0, 1, 0, 0, 0, 0, [], [],
      .east⟩, by decide +kernel⟩,
⟨cmd [31, 4, 1, 0, 15, 14, 0xFF, 3, 0xFF, 3, 0x10, 0x0E, 0, 0, 0, 0],
      { rd with ring := { role := 1, bind := [(14, [1]), (15, [2])] } }, by decide +kernel⟩,
⟨cmd [31, 0, 0, 0], { rd with ring := { pairs := [(31, { held := true })] } }, by decide +kernel⟩⟩

/-- The premises of each clause of LinkRowsComplete are met. -/
theorem witness_LinkRowsComplete :
(∃ (p : Port) (s : State), (domOn s 31) ∧ ((portGet s p).state = .down) ∧ (heldDown s p = false)) ∧
(∃ (p : Port) (s : State), ((portGet s p).state = .align)) ∧
(∃ (p : Port) (s : State) (d : _), ((portGet s p).state = .align) ∧ ((portGet s p).deadline = some d) ∧ (d ≤ s.now)) ∧
(∃ (p : Port) (d : Nat) (s : State), ((portGet s p).state = .up) ∧ ((portGet s p).deadline = some d) ∧ (d ≤ s.now) ∧ (stepsOn
      s p)) ∧
(∃ (p : Port) (s : State), ((portGet s p).state = .step)) ∧
(∃ (p : Port) (s : State) (d : _), ((portGet s p).state = .step) ∧ ((portGet s p).deadline = some d) ∧ (d ≤ s.now)) ∧
(∃ (p : Port) (n : Nat) (s : State), ((portGet s p).state = .up) ∧ (1 ≤ n) ∧ (n < 16)) ∧
(∃ (p : Port) (n : Nat) (s : State), ((portGet s p).state = .up) ∧ (n = 0 ∨ 16 ≤ n)) ∧
(∃ (p : Port) (l : List Byte) (s : State), (arrives s p) ∧ (parseMsg l = none)) ∧
(∃ (p : Port) (l : List Byte) (s : State) (m : _), (arrives s p) ∧ (parseMsg l = some m) ∧ (m.dst ≠ 0xFF) ∧ (m.dst ≠ ringSelf
      s) ∧ (m.hops < 15) ∧ (m.src ≠ ringSelf s) ∧ ((portGet s (otherPort p)).state = .up)) ∧
(∃ (p : Port) (l : List Byte) (s : State) (m : _), (arrives s p) ∧ (parseMsg l = some m) ∧ (m.dst ≠ 0xFF) ∧ (m.dst ≠ ringSelf
      s) ∧ (15 ≤ m.hops ∨ m.src = ringSelf s ∨ (portGet s (otherPort p)).state ≠ .up)) ∧
(∃ (p : Port) (c : Nat) (s : State), (arrives s p)) ∧
(∃ (p : Port) (a : Nat) (b : Nat) (s : State), (arrives s p)) ∧
(∃ (p : Port) (t1 : Nat) (t2 : Nat) (t3 : Nat) (t4 : Nat) (s : State), (arrives s p) ∧ ((portGet s p).t1 = some t1)) ∧
(∃ (s : State), (domOn s 31) ∧ ((portGet s .east).state = .up) ∧ ((portGet s .west).state = .down)) ∧
(∃ (p : Port) (m : RingMsg) (sec : Nat) (ns : Nat) (s : State), (arrives s p) ∧ (s.ring.role ≠ 2)) ∧
(∃ (s : State), (domOn s 31)) ∧
(∃ (s : State), (domOn s 31) ∧ (s.ring.role = 1)) :=
⟨⟨.east, rd, by decide +kernel⟩,
⟨.east, { rd with ring := { ports := ⟨{ state := .align }, {}⟩ } }, by decide +kernel⟩,
⟨.east, { rd with ring := { ports := ⟨{ state := .align, deadline := some 5 }, {}⟩ } }, 5, by decide +kernel⟩,
⟨.east, 5, { rd with ring := { ports := ⟨{ state := .up, deadline := some 5, farCeil := some 3 }, {}⟩ } }, by decide +kernel⟩,
⟨.east, { rd with ring := { ports := ⟨{ state := .step }, {}⟩ } }, by decide +kernel⟩,
⟨.east, { rd with ring := { ports := ⟨{ state := .step, deadline := some 5 }, {}⟩ } }, 5, by decide +kernel⟩,
⟨.east, 15, { rd with ring := { ports := ⟨{ state := .up }, {}⟩ } }, by decide +kernel⟩,
⟨.east, 16, { rd with ring := { ports := ⟨{ state := .up }, {}⟩ } }, by decide +kernel⟩,
⟨.east, [], { rd with ring := { ports := ⟨{ state := .up }, {}⟩ } }, by decide +kernel⟩,
⟨.east, msgBytes (msg0 14), { rd with ring := { ports := ⟨{ state := .up }, { state := .up }⟩ } }, msg0 14, by decide +kernel⟩,
⟨.east, msgBytes (msg0 15), { rd with ring := { ports := ⟨{ state := .up }, { state := .up }⟩ } }, msg0 15, by decide +kernel⟩,
⟨.east, 3, { rd with ring := { ports := ⟨{ state := .up }, {}⟩ } }, by decide +kernel⟩,
⟨.east, 1, 2, { rd with ring := { ports := ⟨{ state := .up }, {}⟩ } }, by decide +kernel⟩,
⟨.east, 1, 2, 3, 4, { rd with ring := { ports := ⟨{ state := .up, t1 := some 1 }, {}⟩ } }, by decide +kernel⟩,
⟨{ rd with ring := { ports := ⟨{ state := .up }, {}⟩ } }, by decide +kernel⟩,
⟨.east, ⟨0, 0, 0, 0, 0, 0, []⟩, 1, 2, { rd with ring := { role := 1, ports := ⟨{ state := .up }, {}⟩ } }, by decide +kernel⟩,
⟨rd, by decide +kernel⟩,
⟨{ rd with ring := { role := 1 } }, by decide +kernel⟩⟩

/-- The premises of each clause of RelayRowsComplete are met. -/
theorem witness_RelayRowsComplete :
(∃ (p : Port) (m : RingMsg) (s : State), (arrives s p) ∧ (s.ring.role = 1) ∧ (u8 m.body 11 ≠ 1) ∧ (1 ≤ u8 m.body 12) ∧ (u8
      m.body 12 ≤ 15) ∧ (m.src = u8 m.body 12) ∧ (tget [] s.ring.bind m.src = slice m.body 0 11)) ∧
(∃ (t : Nat) (s : State), (s.ring.conflict = some t) ∧ (t ≤ s.now)) ∧
(∃ (w : Nat) (t : Nat) (s : State), ((tget {} s.ring.workers w).goneAt = some t) ∧ ((tget {} s.ring.workers w).joined) ∧
      (unreachable s w) ∧ (t + 100 * msNs ≤ s.now)) ∧
(∃ (w : Nat) (p : Port) (s : State), (tget 0 (portGet s p).heard w ≠ 0) ∧ (tget 0 (portGet s p).heard w + 30 * msNs ≤ s.now)) ∧
(∃ (m : RingMsg) (s : State), (domOn s 31) ∧ (s.ring.role = 2) ∧ (m.src = 0)) ∧
(∃ (p : Port) (m : RingMsg) (s : State), (arrives s p) ∧ (s.ring.role = 2) ∧ (s.ring.number = some m.dst) ∧ (m.epoch =
      s.ring.epoch) ∧ ((s.ring.log.find? fun e => e.epoch == m.epoch && e.tag == m.tag) = none) ∧ (tagStale s m = false) ∧
      (linesFor m.body.length ≤ linesFree s .relay)) ∧
(∃ (p : Port) (w : Nat) (g : Nat) (s : State), (arrives s p) ∧ (s.ring.role = 1)) ∧
(∃ (w : Nat) (d : Nat) (r : Relay) (s : State), ((s.ring.relays.find? fun r => r.worker == w && !r.receipt) = some r) ∧
      (r.nextAt = some d) ∧ (d ≤ s.now) ∧ (s.ring.conflict = none) ∧ (8 ≤ r.copies)) ∧
(∃ (w : Nat) (d : Nat) (r : Relay) (s : State) (p : _), ((s.ring.relays.find? fun r => r.worker == w && !r.receipt) = some r)
      ∧ (r.nextAt = some d) ∧ (d ≤ s.now) ∧ (s.ring.conflict = none) ∧ (1 ≤ r.copies) ∧ (r.copies < 8) ∧ (retryDir s r = some
      p)) ∧
(∃ (w : Nat) (d : Nat) (r : Relay) (s : State), ((s.ring.relays.find? fun r => r.worker == w && !r.receipt) = some r) ∧
      (r.nextAt = some d) ∧ (d ≤ s.now) ∧ (s.ring.conflict = none) ∧ (r.copies = 0) ∧ (unreachable s w = false)) ∧
(∃ (w : Nat) (t : Nat) (s : State), ((tget {} s.ring.workers w).goneAt = some t) ∧ (unreachable s w) ∧ (t + 50 * msNs ≤
      s.now)) ∧
(∃ (p : Port) (m : RingMsg) (r : Relay) (s : State), (arrives s p) ∧ (s.ring.role = 1) ∧ (m.epoch = s.ring.epoch) ∧ (relayOf s
      m.src m.tag = some r) ∧ (u8 m.body 14 ≠ 1)) ∧
(∃ (p : Port) (o : RespOut) (s : State), (arrives s p) ∧ (s.ring.role = 2) ∧ (s.ring.resp = [o])) ∧
(∃ (p : Port) (m : RingMsg) (s : State), (arrives s p) ∧ (s.ring.role = 1) ∧ (seqNew (tget {} s.ring.workers m.src).evSeq (u32
      m.body 4))) ∧
(∃ (p : Port) (m : RingMsg) (s : State), (arrives s p) ∧ (s.ring.role = 1) ∧ (seqNew (tget {} s.ring.workers m.src).pmSeq (u32
      m.body 20))) ∧
(∃ (p : Port) (q : Nat) (s : State), (arrives s p) ∧ (s.ring.role = 2)) ∧
(∃ (e : EvRec) (s : State), (ringWorker s) ∧ (s.ring.evOut = [e]) ∧ (s.ring.pmOut = [])) ∧
(∃ (m : RingMsg) (x : PPair) (s : State), (domOn s 31) ∧ (tget {} s.ring.pairs (u8 m.body 0) = x) ∧ (x.held) ∧ (x.lost =
      false) ∧ (m.src = (if pairIsW s x then x.pDev else x.wDev)) ∧ (u8 m.body 1 = b2n (pairIsW s x))) ∧
(∃ (k : Nat) (t : Nat) (s : State), ((tget {} s.ring.pairs k).wtrAt = some t) ∧ (t ≤ s.now)) ∧
(∃ (k : Nat) (t : Nat) (s : State), ((tget {} s.ring.pairs k).heardAt = some t) ∧ ((tget {} s.ring.pairs k).held) ∧ ((tget {}
      s.ring.pairs k).lost = false) ∧ (t + 5 * msNs ≤ s.now)) :=
⟨⟨.east, ⟨1, 15, 0, 0, 0, 0, List.replicate 11 65 ++ [0, 15]⟩,
      { rd with ring := { role := 1, bind := [(15, List.replicate 11 65)], ports := ⟨{ state := .up }, {}⟩ } },
      by decide +kernel⟩,
⟨5, { rd with ring := { conflict := some 5 } }, by decide +kernel⟩,
⟨15, 5, { rd with ring := { workers := [(15, { goneAt := some 5, joined := true })] } }, by decide +kernel⟩,
⟨15, .east, { rd with ring := { ports := ⟨{ heard := [(15, 5)] }, {}⟩ } }, by decide +kernel⟩,
⟨⟨0, 0, 0, 0, 0, 0, []⟩, rd, by decide +kernel⟩,
⟨.east, ⟨0x10, 0, 1, 0, 0, 0, []⟩, { rd with ring := { number := some 1, ports := ⟨{ state := .up }, {}⟩ } },
      by decide +kernel⟩,
⟨.east, 15, 0, { rd with ring := { role := 1, ports := ⟨{ state := .up }, {}⟩ } }, by decide +kernel⟩,
⟨15, 5, ⟨15, 0, ⟨.q3, 0⟩, [], false, 8, .east, some 5, false, false, none⟩,
      { rd with ring := { relays := [⟨15, 0, ⟨.q3, 0⟩, [], false, 8, .east, some 5, false, false, none⟩] } },
      by decide +kernel⟩,
⟨15, 5, ⟨15, 0, ⟨.q3, 0⟩, [], false, 7, .east, some 5, false, false, none⟩,
      { rd with ring := { relays := [⟨15, 0, ⟨.q3, 0⟩, [], false, 7, .east, some 5, false, false, none⟩], ports := ⟨{ state := .up, heard := [(15, 1000000000)] }, {}⟩ } },
      .east, by decide +kernel⟩,
⟨15, 5, ⟨15, 0, ⟨.q3, 0⟩, [], false, 0, .east, some 5, false, false, none⟩,
      { rd with ring := { relays := [⟨15, 0, ⟨.q3, 0⟩, [], false, 0, .east, some 5, false, false, none⟩], ports := ⟨{ state := .up, heard := [(15, 1000000000)] }, {}⟩ } },
      by decide +kernel⟩,
⟨15, 5, { rd with ring := { workers := [(15, { goneAt := some 5 })] } }, by decide +kernel⟩,
⟨.east, ⟨0x12, 15, 0, 0, 0, 0, []⟩, ⟨15, 0, ⟨.q3, 0⟩, [], false, 1, .east, some 5, false, false, none⟩,
      { rd with ring := { role := 1, relays := [⟨15, 0, ⟨.q3, 0⟩, [], false, 1, .east, some 5, false, false, none⟩], ports := ⟨{ state := .up }, {}⟩ } },
      by decide +kernel⟩,
⟨.east, ⟨0, 0, [], .east⟩, { rd with ring := { resp := [⟨0, 0, [], .east⟩], ports := ⟨{ state := .up }, {}⟩ } },
      by decide +kernel⟩,
⟨.east, ⟨0x20, 15, 0, 0, 0, 0, []⟩, { rd with ring := { role := 1, ports := ⟨{ state := .up }, {}⟩ } }, by decide +kernel⟩,
⟨.east, ⟨0x21, 15, 0, 0, 0, 0, []⟩, { rd with ring := { role := 1, ports := ⟨{ state := .up }, {}⟩ } }, by decide +kernel⟩,
⟨.east, 7, { rd with ring := { ports := ⟨{ state := .up }, {}⟩ } }, by decide +kernel⟩,
⟨ev0, { rd with ring := { number := some 1, evOut := [ev0] } }, by decide +kernel⟩,
⟨⟨0x30, 2, 1, 0, 0, 0, [0, 1, 0]⟩, { held := true, wDev := 1, pDev := 2 },
      { rd with ring := { number := some 1, pairs := [(0, { held := true, wDev := 1, pDev := 2 })] } }, by decide +kernel⟩,
⟨31, 5, { rd with ring := { pairs := [(31, { wtrAt := some 5 })] } }, by decide +kernel⟩,
⟨31, 5, { rd with ring := { pairs := [(31, { held := true, heardAt := some 5 })] } }, by decide +kernel⟩⟩

/-- The premises of each clause of FailedChecksRefuse are met. -/
theorem witness_FailedChecksRefuse :
(∃ (i : Instr) (op : Nat) (pk : Packet) (c : Ctx → State → Nat) (s : State), (commandOf i = some (op, pk, c)) ∧ (starts op pk
      s) ∧ (c (ctxOf pk s) (begun op pk s) ≠ stOk)) :=
⟨.fence (cmd []), 1, cmd [], checkFence, rd, ⟨rfl, by decide +kernel, by decide +kernel⟩⟩

/-- The premises of each clause of GatedGroupsRefuse are met. -/
theorem witness_GatedGroupsRefuse :
(∃ (i : Instr) (op : Nat) (pk : Packet) (c : Ctx → State → Nat) (s : State), (commandOf i = some (op, pk, c)) ∧ (reaches op pk
      s) ∧ (s.fw.recovery) ∧ (op / 256 ≠ 0) ∧ (op / 256 ≠ 0x0D)) ∧
(∃ (i : Instr) (op : Nat) (pk : Packet) (c : Ctx → State → Nat) (s : State), (commandOf i = some (op, pk, c)) ∧ (reaches op pk
      s) ∧ (s.fw.recovery = false) ∧ (s.fw.activation.isSome) ∧ (heldByActivation op)) :=
⟨⟨.setPmConfig (cmd []), 0x0601, cmd [], checkSetPmConfig, { rd with fw := { recovery := true } }, ⟨rfl, by decide +kernel⟩⟩,
⟨.setMode (cmd []), 0x0101, cmd [], checkSetMode, { rd with fw := { activation := some ⟨0, 0, 0, 0, false⟩ } }, ⟨rfl,
      by decide +kernel⟩⟩⟩

/-- The premises of each clause of StepTakesFront are met. -/
theorem witness_StepTakesFront :
(∃ (s : State), (s.pending = [])) :=
⟨rd, by decide +kernel⟩

/-- The premises of each clause of CommandsKeepQueue are met. -/
theorem witness_CommandsKeepQueue :
(∃ (c : Instr) (s : State) (t : State), (exec c s = .next t)) :=
⟨.poresetNAssert, rd, _, rfl⟩

/-- The premises of each clause of EveryStepKeepsThePlanRules are met. -/
theorem witness_EveryStepKeepsThePlanRules :
(∃ (s : State) (t : State), (PlanOk s) ∧ (step s = .next t)) :=
⟨State.reset, _, ⟨⟨.inl rfl, .inl rfl, .inl ⟨rfl, rfl⟩⟩, rfl⟩⟩

/-- The premises of each clause of NopReturnsItsParameters are met. -/
theorem witness_NopReturnsItsParameters :
(∃ (pk : Packet) (s : State), (starts 0x0000 pk s) ∧ (pk.tenant = 0xFFFFFFFF) ∧ (pk.params.length ≤ 4080)) :=
⟨cmd [1, 2, 3], rd, by decide +kernel⟩

/-- The premises of each clause of ClearPairFaultRule are met. -/
theorem witness_ClearPairFaultRule :
(∃ (pk : Packet) (s : State), (starts 0x0105 pk s) ∧ (pk.tenant = 0xFFFFFFFF) ∧ (pk.params = []) ∧ ((s.pins.safeA ∨
      s.pins.safeB))) ∧
(∃ (pk : Packet) (s : State), (starts 0x0105 pk s) ∧ (pk.tenant = 0xFFFFFFFF) ∧ (pk.params = []) ∧ (s.pins.safeA = false) ∧
      (s.pins.safeB = false)) :=
⟨⟨cmd [], { rd with pins := { poreset := false, safeA := true, safeB := false } }, by decide +kernel⟩,
⟨cmd [], rd, by decide +kernel⟩⟩

/-- The premises of each clause of CaptureCommandsRule are met. -/
theorem witness_CaptureCommandsRule :
(∃ (pk : Packet) (s : State), (pk.tenant = 0xFFFFFFFF) ∧ (pk.params = []) ∧ (s.mode.cur ≠ .dormant) ∧ (s.mode.trans = none) ∧
      (starts 0x0C07 pk s) ∧ (s.test.cap.state = 0)) ∧
(∃ (pk : Packet) (s : State), (pk.tenant = 0xFFFFFFFF) ∧ (pk.params = []) ∧ (s.mode.cur ≠ .dormant) ∧ (s.mode.trans = none) ∧
      (starts 0x0C07 pk s) ∧ (s.test.cap.state ≠ 0)) ∧
(∃ (pk : Packet) (s : State), (pk.tenant = 0xFFFFFFFF) ∧ (pk.params = []) ∧ (s.mode.cur ≠ .dormant) ∧ (s.mode.trans = none) ∧
      (starts 0x0C08 pk s) ∧ (s.test.cap.state = 0)) ∧
(∃ (pk : Packet) (s : State), (pk.tenant = 0xFFFFFFFF) ∧ (pk.params = []) ∧ (s.mode.cur ≠ .dormant) ∧ (s.mode.trans = none) ∧
      (starts 0x0C08 pk s) ∧ (s.test.cap.state ≠ 0)) :=
⟨⟨cmd [], { rd with mode := { cur := .maintain } }, by decide +kernel⟩,
⟨cmd [], { rd with mode := { cur := .maintain }, test := { cap := { state := 1 } } }, by decide +kernel⟩,
⟨cmd [], { rd with mode := { cur := .maintain } }, by decide +kernel⟩,
⟨cmd [], { rd with mode := { cur := .maintain }, test := { cap := { state := 2 } } }, by decide +kernel⟩⟩

/-- The premises of each clause of SymbolRateRange are met. -/
theorem witness_SymbolRateRange :
(∃ (pk : Packet) (s : State) (o : _), (starts 0x0201 pk s) ∧ (checkSetLinePlan (ctxOf pk s) (begun 0x0201 pk s) = stOk) ∧ ((o
      = 0 ∨ o = 8)) ∧ (planField pk.params o ≠ {}) ∧ ((u32 pk.params (o + 4) ≤ 15359 ∨ 86017 ≤ u32 pk.params (o + 4)))) ∧
(∃ (pk : Packet) (s : State), (starts 0x0201 pk s) ∧ (checkSetLinePlan (ctxOf pk s) (begun 0x0201 pk s) = stOk) ∧ ((∀ o, (o =
      0 ∨ o = 8) → 15360 ≤ u32 pk.params (o + 4) ∧ u32 pk.params (o + 4) ≤ 86016))) :=
⟨⟨cmd ([1, 0, 0, 0, 0xFF, 0x3B, 0, 0] ++ List.replicate 16 0), rd, 0, by decide +kernel⟩,
⟨cmd ([1, 0, 0, 0, 0, 0x3C, 0, 0, 1, 0, 0, 0, 0, 0x50, 1, 0] ++ List.replicate 8 0), rd, ⟨by decide +kernel,
      by decide +kernel, by rintro o (rfl | rfl) <;> decide +kernel⟩⟩⟩

/-- The premises of each clause of JustificationRule are met. -/
theorem witness_JustificationRule :
(∃ (t : Nat) (c : Nat) (l : Nat) (arrived : List Block66) (s : State), (t < 1024) ∧ (domOn s 2) ∧ (sizeTx s t ≠ 0) ∧ ((tenGet
      s t).tx.freq = false) ∧ ((tenGet s t).tx.resize = 0) ∧ (((tenGet (offerBlocks t arrived s) t).tx : TenTx).c = c) ∧
      (((tenGet (offerBlocks t arrived s) t).tx : TenTx).level = l) ∧ (2 * c < l) ∧ (l < 14 * c)) :=
⟨0, 1, 8, [],
      { rd with cal := { t0 := ⟨[(0, 0x8000)], []⟩ }, ten := [(0, { tx := { c := 1, store := List.replicate 8 0 } })] },
      by decide +kernel⟩

/-- The premises of each clause of CountersWrap are met. -/
theorem witness_CountersWrap :
(∃ (i : Nat) (n : Nat) (s : State), (i < 128) ∧ ((tget {} s.cnt.cfg i).enable) ∧ ((tget {} s.cnt.cfg i).chain = false) ∧
      (tblWf 0 s.cnt.val) ∧ (tget 0 s.cnt.val i < 2 ^ 48) ∧ (n ≤ 2 ^ 48) ∧ (2 ^ 48 ≤ tget 0 s.cnt.val i + n) ∧ (tget 0
      s.cnt.val (i + 1) + 1 < 2 ^ 48)) ∧
(∃ (pk : Packet) (s : State), (starts 0x0B01 pk s) ∧ (checkSetCounter (ctxOf pk s) (begun 0x0B01 pk s) = stOk) ∧ (tblWf 0
      (begun 0x0B01 pk s).cnt.val)) :=
⟨⟨126, 1,
      { rd with cnt := { cfg := [(126, { enable := true, source := 9 }), (127, { enable := true, chain := true })], val := [(126, 2 ^ 48 - 1)] } },
      by decide +kernel⟩,
⟨cmd [127, 1, 1, 0, 5, 0, 0, 0], rd, by decide +kernel⟩⟩

/-- The premises of each clause of FinalRecordIsStored are met. -/
theorem witness_FinalRecordIsStored :
(∃ (pk : Packet) (st : Nat) (res : List Byte) (s : State) (t : State) (c : Running), (pk.queue = .q0 ∨ pk.queue = .q1 ∨
      pk.queue = .q2) ∧ (tblWf 0 t.hostMem) ∧ (res.length ≤ 4080) ∧ (runningOf t (refOf pk s) = some c) ∧ (c.flags.testBit 1 =
      false) ∧ (c.withheld = false) ∧ ((qget t pk.queue : Queue).hold = []) ∧ (recordRoom pk.queue (⟨c.opcode, c.tag, st, 0,
      0, res, c.sub, true, c.accepted⟩ : Rec) t)) :=
⟨{ cmd [] with queue := .q0 }, 0, [1], rd,
      { rd with swiys := { q0 := { ring := ring0, running := [⟨0, 1, 2, 0, false, false⟩] } } }, ⟨0, 1, 2, 0, false, false⟩,
      by decide +kernel⟩

/-- The premises of each clause of SectorLinesLie are met. -/
theorem witness_SectorLinesLie :
(∃ (s : Nat) (j : Nat), (s < 2097152) ∧ (j < 64)) ∧
(∃ (s : Nat) (j : Nat) (r : Nat) (k : Nat), (s < 2097152) ∧ (r < 2097152) ∧ (j < 64) ∧ (k < 64) ∧ (s % 2 = r % 2) ∧ (lineOf s
      j = lineOf r k)) :=
⟨⟨2097151, 63, by decide +kernel⟩,
⟨2097151, 63, 2097151, 63, by decide +kernel⟩⟩

/-- The premises of each clause of FecFailFollowsRuns are met. -/
theorem witness_FecFailFollowsRuns :
    (∃ (f : Fec) (l : List Nat), 1 ≤ f.failUse.failCount ∧ 1 ≤ f.failUse.failSet ∧ 1 ≤ f.failUse.failClr ∧ l ≠ [] ∧
      f.failW.neutral = false ∧ ∀ n ∈ l, f.failUse.failCount ≤ n) ∧
    (∃ (f : Fec) (l : List Nat), 1 ≤ f.failUse.failCount ∧ 1 ≤ f.failUse.failSet ∧ 1 ≤ f.failUse.failClr ∧ l ≠ [] ∧
      f.failW.neutral = false ∧ ∀ n ∈ l, n = 0) ∧
    (∃ (f : Fec) (l : List Nat), 1 ≤ f.failUse.failCount ∧ 1 ≤ f.failUse.failSet ∧ 1 ≤ f.failUse.failClr ∧ l ≠ [] ∧
      f.failW.neutral = false ∧ ∀ n ∈ l, 0 < n ∧ n < f.failUse.failCount) :=
  ⟨⟨{ failUse := { failCount := 2, failSet := 1, failClr := 1 } }, [2, 3], by decide⟩,
   ⟨{ failUse := { failCount := 2, failSet := 1, failClr := 1 } }, [0, 0], by decide⟩,
   ⟨{ failUse := { failCount := 2, failSet := 1, failClr := 1 } }, [1], by decide⟩⟩

/-- The premises of each clause of ReadCommandsFrame are met. -/
theorem witness_ReadCommandsFrame :
  (∃ (i : Instr) (pk : Packet) (s t : State), i ∈ [ .nop pk, .getIdentity pk, .getQueueStatus pk, .getLinePlan pk, .getCalendar
      pk, .getPmCurrent pk, .getRingStatus pk, .getOutcome pk, .getRingProtect pk, .readCounters pk, .getFwStatus pk] ∧ exec i
      s = .next t) ∧
  (∃ (i : Instr) (pk : Packet) (s t : State), i ∈ [ .getLinkQuality pk, .getPcieStatus pk] ∧ exec i s = .next t) ∧
  (∃ (pk : Packet) (s t : State), exec (.getPowerStatus pk) s = .next t) ∧
  (∃ (pk : Packet) (s t : State), exec (.getJournalStatus pk) s = .next t) ∧
  (∃ (i : Instr) (pk : Packet) (s t : State), i ∈ [ .getTxStatus pk, .getRxStatus pk, .getCalStatus pk, .getChannelEstimates pk]
      ∧ exec i s = .next t) ∧
  (∃ (i : Instr) (pk : Packet) (s t : State), i ∈ [ .getFecStatus pk, .getFrameStatus pk] ∧ exec i s = .next t) ∧
  (∃ (pk : Packet) (s t : State), exec (.getTenantStatus pk) s = .next t) ∧
  (∃ (pk : Packet) (s t : State), exec (.getSkewStatus pk) s = .next t) ∧
  (∃ (pk : Packet) (s t : State), exec (.getMergeStatus pk) s = .next t) ∧
  (∃ (pk : Packet) (s t : State), exec (.getClientStatus pk) s = .next t) ∧
  (∃ (i : Instr) (pk : Packet) (s t : State), i ∈ [ .getKeyStatus pk, .getTurretStatus pk] ∧ exec i s = .next t) ∧
  (∃ (i : Instr) (pk : Packet) (s t : State), i ∈ [ .getMemoryStatus pk, .getCeLog pk] ∧ exec i s = .next t) ∧
  (∃ (pk : Packet) (s t : State), exec (.getTime pk) s = .next t) ∧
  (∃ (pk : Packet) (s t : State), exec (.getHostStatus pk) s = .next t) ∧
  (∃ (pk : Packet) (s t : State), exec (.getPmHistory pk) s = .next t) ∧
  (∃ (pk : Packet) (s t : State), exec (.getTimingStatus pk) s = .next t) ∧
  (∃ (pk : Packet) (s t : State), exec (.getPatternStatus pk) s = .next t) :=
  ⟨⟨.nop (cmd []), (cmd []), rd, _, List.mem_cons_self, rfl⟩,
   ⟨.getLinkQuality (cmd []), (cmd []), rd, _, List.mem_cons_self, rfl⟩,
   ⟨(cmd []), rd, _, rfl⟩,
   ⟨(cmd []), rd, _, rfl⟩,
   ⟨.getTxStatus (cmd []), (cmd []), rd, _, List.mem_cons_self, rfl⟩,
   ⟨.getFecStatus (cmd []), (cmd []), rd, _, List.mem_cons_self, rfl⟩,
   ⟨(cmd []), rd, _, rfl⟩,
   ⟨(cmd []), rd, _, rfl⟩,
   ⟨(cmd []), rd, _, rfl⟩,
   ⟨(cmd []), rd, _, rfl⟩,
   ⟨.getKeyStatus (cmd []), (cmd []), rd, _, List.mem_cons_self, rfl⟩,
   ⟨.getMemoryStatus (cmd []), (cmd []), rd, _, List.mem_cons_self, rfl⟩,
   ⟨(cmd []), rd, _, rfl⟩,
   ⟨(cmd []), rd, _, rfl⟩,
   ⟨(cmd []), rd, _, rfl⟩,
   ⟨(cmd []), rd, _, rfl⟩,
   ⟨(cmd []), rd, _, rfl⟩⟩

/-- The premises of each clause of WriteCommandsFrame are met. -/
theorem witness_WriteCommandsFrame :
  (∃ (i : Instr) (pk : Packet) (s t : State), i ∈ [ .fence pk, .resetQueue pk, .setQueueConfig pk, .setRingProtect pk,
      .setCounter pk, .grantCounters pk, .setBwWindow pk] ∧ exec i s = .next t) ∧
  (∃ (pk : Packet) (s t : State), exec (.assignWorker pk) s = .next t) ∧
  (∃ (i : Instr) (pk : Packet) (s t : State), i ∈ [ .fwPrepare pk, .fwVerify pk, .fwActivate pk] ∧ exec i s = .next t) ∧
  (∃ (i : Instr) (pk : Packet) (s t : State), i ∈ [ .setTxShaping pk, .setTxCorrection pk, .setTxOutput pk, .setTxState pk,
      .setRxFrontEnd pk, .setMonitor pk, .monitorControl pk, .runToneSearch pk, .setRxDsp pk] ∧ exec i s = .next t) ∧
  (∃ (i : Instr) (pk : Packet) (s t : State), i ∈ [ .setFecDefects pk, .setFrameConfig pk] ∧ exec i s = .next t) ∧
  (∃ (i : Instr) (pk : Packet) (s t : State), i ∈ [ .setCalendar pk, .swapCalendar pk] ∧ exec i s = .next t) ∧
  (∃ (pk : Packet) (s t : State), exec (.setTenantControl pk) s = .next t) ∧
  (∃ (pk : Packet) (s t : State), exec (.setSkewConfig pk) s = .next t) ∧
  (∃ (i : Instr) (pk : Packet) (s t : State), i ∈ [ .setHostLaneTx pk, .setFlexeGroup pk, .setFlexeCalendar pk,
      .switchFlexeCalendar pk] ∧ exec i s = .next t) ∧
  (∃ (i : Instr) (pk : Packet) (s t : State), i ∈ [ .setPmConfig pk, .setPmThresholds pk, .setPmProfile pk] ∧ exec i s = .next
      t) ∧
  (∃ (i : Instr) (pk : Packet) (s t : State), i ∈ [ .establishKek pk, .loadKey pk, .generateKey pk, .rotateKey pk, .eraseKey pk,
      .setTenantCipher pk] ∧ exec i s = .next t) ∧
  (∃ (i : Instr) (pk : Packet) (s t : State), i ∈ [ .setMemoryConfig pk, .repairRow pk] ∧ exec i s = .next t) ∧
  (∃ (i : Instr) (pk : Packet) (s t : State), i ∈ [ .setRefConfig pk, .setDpllConfig pk, .setSelection pk, .setTime pk,
      .setTodConfig pk] ∧ exec i s = .next t) ∧
  (∃ (i : Instr) (pk : Packet) (s t : State), i ∈ [ .setLanePattern pk, .setTenantPattern pk, .startCapture pk, .triggerCapture
      pk, .busTransfer pk] ∧ exec i s = .next t) ∧
  (∃ (pk : Packet) (s t : State), exec (.stopCapture pk) s = .next t) ∧
  (∃ (pk : Packet) (s t : State), exec (.setMode pk) s = .next t) ∧
  (∃ (pk : Packet) (s t : State), exec (.setSupervision pk) s = .next t) ∧
  (∃ (pk : Packet) (s t : State), exec (.clearPairFault pk) s = .next t) ∧
  (∃ (pk : Packet) (s t : State), exec (.fwCommit pk) s = .next t) ∧
  (∃ (pk : Packet) (s t : State), exec (.setRemap pk) s = .next t) ∧
  (∃ (pk : Packet) (s t : State), exec (.setLearning pk) s = .next t) ∧
  (∃ (pk : Packet) (s t : State), exec (.setLinePattern pk) s = .next t) ∧
  (∃ (pk : Packet) (s t : State), exec (.setMergeConfig pk) s = .next t) ∧
  (∃ (pk : Packet) (s t : State), exec (.setClient pk) s = .next t) ∧
  (∃ (pk : Packet) (s t : State), exec (.setFec pk) s = .next t) ∧
  (∃ (pk : Packet) (s t : State), exec (.setLoop pk) s = .next t) ∧
  (∃ (pk : Packet) (s t : State), exec (.setCalControl pk) s = .next t) ∧
  (∃ (pk : Packet) (s t : State), exec (.stepPhase pk) s = .next t) ∧
  (∃ (pk : Packet) (s t : State), exec (.restartAcquisition pk) s = .next t) :=
  ⟨⟨.fence (cmd []), (cmd []), rd, _, List.mem_cons_self, rfl⟩,
   ⟨(cmd []), rd, _, rfl⟩,
   ⟨.fwPrepare (cmd []), (cmd []), rd, _, List.mem_cons_self, rfl⟩,
   ⟨.setTxShaping (cmd []), (cmd []), rd, _, List.mem_cons_self, rfl⟩,
   ⟨.setFecDefects (cmd []), (cmd []), rd, _, List.mem_cons_self, rfl⟩,
   ⟨.setCalendar (cmd []), (cmd []), rd, _, List.mem_cons_self, rfl⟩,
   ⟨(cmd []), rd, _, rfl⟩,
   ⟨(cmd []), rd, _, rfl⟩,
   ⟨.setHostLaneTx (cmd []), (cmd []), rd, _, List.mem_cons_self, rfl⟩,
   ⟨.setPmConfig (cmd []), (cmd []), rd, _, List.mem_cons_self, rfl⟩,
   ⟨.establishKek (cmd []), (cmd []), rd, _, List.mem_cons_self, rfl⟩,
   ⟨.setMemoryConfig (cmd []), (cmd []), rd, _, List.mem_cons_self, rfl⟩,
   ⟨.setRefConfig (cmd []), (cmd []), rd, _, List.mem_cons_self, rfl⟩,
   ⟨.setLanePattern (cmd []), (cmd []), rd, _, List.mem_cons_self, rfl⟩,
   ⟨(cmd []), rd, _, rfl⟩,
   ⟨(cmd []), rd, _, rfl⟩,
   ⟨(cmd []), rd, _, rfl⟩,
   ⟨(cmd []), rd, _, rfl⟩,
   ⟨(cmd []), rd, _, rfl⟩,
   ⟨(cmd []), rd, _, rfl⟩,
   ⟨(cmd []), rd, _, rfl⟩,
   ⟨(cmd []), rd, _, rfl⟩,
   ⟨(cmd []), rd, _, rfl⟩,
   ⟨(cmd []), rd, _, rfl⟩,
   ⟨(cmd []), rd, _, rfl⟩,
   ⟨(cmd []), rd, _, rfl⟩,
   ⟨(cmd []), rd, _, rfl⟩,
   ⟨(cmd []), rd, _, rfl⟩,
   ⟨(cmd []), rd, _, rfl⟩⟩

/-- The premises of each clause of EventsFrame are met. -/
theorem witness_EventsFrame :
  (∃ (i : Instr) (x0 : QueueId) (x1 : List Byte) (x2 : Byte) (x3 : MemErr) (x4 : Nat) (x5 : Nat) (x6 : Bool) (x7 : Bool) (x8 :
      Access) (x9 : Port) (x10 : RingMsg) (x11 : Nat) (s t : State), i ∈ [ .invalidPacket x0 x1, .relayRequest x0 x1,
      .twiQdataWrite x2 x3, .twiQendWrite x1, .twiRspRead, .responseWrite x0, .fenceComplete x0, .pcieLink x4 x5,
      .evtLostRead, .bwPeakRead x4 x6 x7, .counterLowRead x6 x4, .bar2CounterRead x4 x6, .violation x8, .eventRingWrite,
      .counterWrap x4 x5, .ringSignalDetect x9, .ringAlignDone x9, .ringLink x9 x4, .ringMessageForward x9 x1,
      .ringStatusReceive x9 x10, .rosterReceive x10, .negReceive x9 x4, .statusSend, .rosterSend, .delayExchange x9 x4,
      .delayReqReceive x9 x4 x5, .delayRespReceive x9 x4 x5 x11, .timingSend, .requestReceive x9 x10, .receiptReceive x9 x4 x5
      x6, .responseReceive x9 x10, .respAckReceive x9 x4 x5, .responseResend, .eventReceive x9 x10, .streamAckReceive x9 x4
      x5, .streamResend, .protectReceive x10, .protectSend x4, .perstNDeassert] ∧ exec i s = .next t) ∧
  (∃ (x0 : CfgAccess) (s t : State), exec (.configRequest x0) s = .next t) ∧
  (∃ (i : Instr) (x0 : QueueId) (x1 : BitVec 32) (x2 : MemErr) (x3 : Nat) (x4 : List Host.Cell) (x5 : Bool) (x6 : Port) (x7 :
      RingMsg) (s t : State), i ∈ [ .qdataWrite x0 x1 x2, .queueWriteResume x0, .qend x0 x3 x2, .functionLevelReset,
      .perstNAssert, .qrspSizeWrite x0 x1, .qrspHeadWrite x0 x1, .evtSizeWrite x1, .evtHeadWrite x1, .msixUnmask x3,
      .dmaDoorbell x3 x4 x5, .dmaAbort x3, .dmaCplHeadWrite x3 x1, .cntSnapshot x1, .cntOvfClear x3 x1, .violationClear x1,
      .registerWrite x3 x1, .pmReceive x6 x7] ∧ exec i s = .next t) ∧
  (∃ (i : Instr) (s t : State), i ∈ [ .modeAnnounce, .rampDownDone] ∧ exec i s = .next t) ∧
  (∃ (s t : State), exec .controllerRestartDone s = .next t) ∧
  (∃ (i : Instr) (x0 : Nat) (s t : State), i ∈ [ .engineFailed x0, .engineFailover x0, .engineCheckpoint x0] ∧ exec i s = .next
      t) ∧
  (∃ (x0 : Nat) (s t : State), exec (.domainReturnStart x0) s = .next t) ∧
  (∃ (s t : State), exec .journalWrite s = .next t) ∧
  (∃ (i : Instr) (s t : State), i ∈ [ .fwSlotErased, .fwVerifyDone] ∧ exec i s = .next t) ∧
  (∃ (i : Instr) (x0 : Carrier) (x1 : Nat) (x2 : OsaObs) (x3 : Bool) (x4 : Bool) (x5 : Int) (s t : State), i ∈ [ .txClipInterval
      x0 x1, .agcSettleFail x0, .agcLimit x0, .rxClipInterval x0 x1, .overlapSaveBlock x0 x2, .calApply x0 x1, .txCalApply x0,
      .eqConverged x0 x3 x1, .sfSyncFound x0 x3 x4, .freqFineDone x0 x5, .xtalkFallback x0 x1] ∧ exec i s = .next t) ∧
  (∃ (x0 : Carrier) (s t : State), exec (.fullHuntDone x0) s = .next t) ∧
  (∃ (i : Instr) (x0 : Nat) (x1 : List (List Int)) (x2 : LaneObs) (x3 : HostScope) (x4 : Nat) (s t : State), i ∈ [
      .laneForegroundAdaptDone x0 x1, .laneAdaptWindow x0 x2, .laneAdaptApply x0, .hostDefect x3 x0 x4,
      .flexeMultiframeBoundary x0] ∧ exec i s = .next t) ∧
  (∃ (i : Instr) (x0 : Nat) (x1 : Nat) (x2 : EccKind) (s t : State), i ∈ [ .pipeFenced x0, .keepEccError x0 x1 x2] ∧ exec i s =
      .next t) ∧
  (∃ (i : Instr) (x0 : Nat) (x1 : Int) (x2 : Int) (s t : State), i ∈ [ .esmcInfoPdu x0, .holdoverCorrectionUpdate x1,
      .learningSample x1 x2] ∧ exec i s = .next t) ∧
  (∃ (i : Instr) (x0 : Nat) (x1 : Nat) (x2 : List Bool) (x3 : Carrier) (x4 : List Byte) (s t : State), i ∈ [ .patternLock x0 x1
      x2, .timingFallback x3, .busTransferDone x0 x1 x4, .busStuckRelease x0] ∧ exec i s = .next t) ∧
  (∃ (i : Instr) (x0 : QueueId) (x1 : Bool) (x2 : Nat) (x3 : Port) (s t : State), i ∈ [ .twiStretchExpiry, .pointerWindowClose
      x0 x1, .bwWindowEnd x2, .slewDone, .setTimeEdgeTimeout, .ppsLoss, .ringAlignTimeout x3, .ringStepStart x3, .ringStepEnd
      x3 x1, .managerResume, .workerLeft x2, .workerReachabilityTimeout x2 x3, .relayRetry x2, .relayUnreachableTimeout x2,
      .protectWtrExpiry x2, .protectPartner x2, .ringTimingTimeout, .holdoverReady] ∧ exec i s = .next t) ∧
  (∃ (i : Instr) (x0 : Nat) (x1 : List Bool) (s t : State), i ∈ [ .kekEstablished, .keyGenerated x0, .trngHealthFail x1] ∧ exec
      i s = .next t) ∧
  (∃ (s t : State), exec .modelUpdate s = .next t) ∧
  (∃ (x0 : Nat) (s t : State), exec (.captureEndEarly x0) s = .next t) ∧
  (∃ (x0 : FlashRead) (s t : State), exec (.firmwareVerified x0) s = .next t) ∧
  (∃ (x0 : Nat) (s t : State), exec (.fwClusterSwitch x0) s = .next t) ∧
  (∃ (s t : State), exec .pfailNDeassert s = .next t) ∧
  (∃ (x0 : List Nat) (s t : State), exec (.rowRepairDone x0) s = .next t) ∧
  (∃ (i : Instr) (x0 : Nat) (x1 : Int) (x2 : Int) (x3 : Bool) (s t : State), i ∈ [ .refPhaseMeasure x0 x1 x2, .refSignalChange
      x0 x3, .selectionEvaluation] ∧ exec i s = .next t) ∧
  (∃ (s t : State), exec .spacingErr s = .next t) ∧
  (∃ (i : Instr) (x0 : Carrier) (x1 : Nat) (x2 : List Int) (s t : State), i ∈ [ .calWindowClose x0 x1 x2, .ldpcBlockEnter x0,
      .losClear x0] ∧ exec i s = .next t) ∧
  (∃ (x0 : Nat) (x1 : FlexeOh) (s t : State), exec (.flexeOverheadFrameRx x0 x1) s = .next t) ∧
  (∃ (x0 : Nat) (s t : State), exec (.receiveFlushTimeout x0) s = .next t) ∧
  (∃ (x0 : Nat) (s t : State), exec (.fifoWindowClose x0) s = .next t) ∧
  (∃ (i : Instr) (x0 : Nat) (s t : State), i ∈ [ .refFreqCheck x0, .refWtrExpiry x0, .holdOffExpiry, .dpllLock, .lockFail,
      .modelJournal] ∧ exec i s = .next t) ∧
  (∃ (i : Instr) (x0 : Carrier) (x1 : Bool) (s t : State), i ∈ [ .settleExpiry x0, .txCalTimeout x0, .warmPathTimeout x0,
      .eqLimit x0 x1, .xtalkResume x0, .waitSignalTimeout x0] ∧ exec i s = .next t) ∧
  (∃ (i : Instr) (x0 : Carrier) (s t : State), i ∈ [ .fecDegWindow x0, .fecFailWindow x0, .fecThrottle x0] ∧ exec i s = .next t) ∧
  (∃ (s t : State), exec .excessEnd s = .next t) ∧
  (∃ (i : Instr) (x0 : Carrier) (s t : State), i ∈ [ .legQualificationHoldExpiry x0, .mergeWtrExpiry] ∧ exec i s = .next t) ∧
  (∃ (i : Instr) (x0 : Nat) (s t : State), i ∈ [ .flexeCaTimeout x0, .esmcTimeout x0] ∧ exec i s = .next t) ∧
  (∃ (s t : State), exec .pmSecondSettle s = .next t) ∧
  (∃ (x0 : Nat) (x1 : Nat) (s t : State), exec (.keyRotated x0 x1) s = .next t) ∧
  (∃ (i : Instr) (x0 : Nat) (x1 : Bool) (s t : State), i ∈ [ .domeRefresh x0 x1, .scrubPassStart x0, .scrubLate x0] ∧ exec i s =
      .next t) ∧
  (∃ (x0 : CapSource) (s t : State), exec (.captureTrigger x0) s = .next t) ∧
  (∃ (x0 : Carrier) (x1 : Nat) (s t : State), exec (.monitorRecordClose x0 x1) s = .next t) ∧
  (∃ (x0 : Carrier) (x1 : FifoLevel) (s t : State), exec (.superframeTransmit x0 x1) s = .next t) ∧
  (∃ (x0 : Nat) (x1 : Bool) (x2 : Bool) (s t : State), exec (.framerCipherRequest x0 x1 x2) s = .next t) ∧
  (∃ (s t : State), exec .controllerMismatch s = .next t) ∧
  (∃ (i : Instr) (x0 : Carrier) (s t : State), i ∈ [ .txsafeAssert x0, .txsafeDeassert x0] ∧ exec i s = .next t) ∧
  (∃ (x0 : Option (List Byte)) (s t : State), exec (.flashOperationDone x0) s = .next t) ∧
  (∃ (i : Instr) (x0 : Carrier) (x1 : CdObs) (x2 : Int) (s t : State), i ∈ [ .cdScanDone x0 x1, .freqCoarseDone x0 x2,
      .timingAcquired x0 x2] ∧ exec i s = .next t) ∧
  (∃ (x0 : Carrier) (s t : State), exec (.superframeReceive x0) s = .next t) ∧
  (∃ (i : Instr) (x0 : Carrier) (s t : State), i ∈ [ .decoderIterationPeriod x0, .blockLeave x0] ∧ exec i s = .next t) ∧
  (∃ (x0 : Carrier) (x1 : GroupObs) (s t : State), exec (.symbolGroupReceive x0 x1) s = .next t) ∧
  (∃ (i : Instr) (x0 : Nat) (x1 : Int) (x2 : List (List Nat)) (s t : State), i ∈ [ .tcFreqOffsetWindow x0 x1, .rsFecCodeword x0
      x2] ∧ exec i s = .next t) ∧
  (∃ (i : Instr) (x0 : List Bool) (s t : State), i ∈ [ .trngRetest x0, .maskRekey] ∧ exec i s = .next t) ∧
  (∃ (s t : State), exec .capturePostDone s = .next t) ∧
  (∃ (s t : State), exec .pairFault s = .next t) ∧
  (∃ (i : Instr) (x0 : Carrier) (x1 : List (List Int)) (s t : State), i ∈ [ .foregroundCalDone x0 x1, .calDeferred x0] ∧ exec i
      s = .next t) ∧
  (∃ (x0 : Carrier) (x1 : Nat) (x2 : Nat) (s t : State), exec (.turboPass x0 x1 x2) s = .next t) ∧
  (∃ (x0 : Nat) (x1 : Nat) (x2 : Nat) (x3 : Nat) (s t : State), exec (.pmSecondEnd x0 x1 x2 x3) s = .next t) ∧
  (∃ (x0 : Nat) (x1 : FifoRef) (s t : State), exec (.fifoMismatch x0 x1) s = .next t) :=
  ⟨⟨.invalidPacket .q0 [], .q0, [], 0, .clean, 0, 0, true, true, ⟨true, 0, true, 32⟩, .east, ⟨0, 0, 0, 0, 0, 0, []⟩, 0, rd, _, List.mem_cons_self, rfl⟩,
   ⟨(.read 0), rd, _, rfl⟩,
   ⟨.qdataWrite .q0 0 .clean, .q0, 0, .clean, 0, [], true, .east, ⟨0, 0, 0, 0, 0, 0, []⟩, rd, _, List.mem_cons_self, rfl⟩,
   ⟨.modeAnnounce, rd, _, List.mem_cons_self, rfl⟩,
   ⟨rd, _, rfl⟩,
   ⟨.engineFailed 0, 0, rd, _, List.mem_cons_self, rfl⟩,
   ⟨0, rd, _, rfl⟩,
   ⟨rd, _, rfl⟩,
   ⟨.fwSlotErased, rd, _, List.mem_cons_self, rfl⟩,
   ⟨.txClipInterval .a 0, .a, 0, ⟨0, 0, 0, 0, 0⟩, true, true, 0, rd, _, List.mem_cons_self, rfl⟩,
   ⟨.a, rd, _, rfl⟩,
   ⟨.laneForegroundAdaptDone 0 [], 0, [], ⟨0, [], 0⟩, (.lane 0), 0, rd, _, List.mem_cons_self, rfl⟩,
   ⟨.pipeFenced 0, 0, 0, .corrected, rd, _, List.mem_cons_self, rfl⟩,
   ⟨.esmcInfoPdu 0, 0, 0, 0, rd, _, List.mem_cons_self, rfl⟩,
   ⟨.patternLock 0 0 [], 0, 0, [], .a, [], rd, _, List.mem_cons_self, rfl⟩,
   ⟨.twiStretchExpiry, .q0, true, 0, .east, rd, _, List.mem_cons_self, rfl⟩,
   ⟨.kekEstablished, 0, [], rd, _, List.mem_cons_self, rfl⟩,
   ⟨rd, _, rfl⟩,
   ⟨0, rd, _, rfl⟩,
   ⟨.ok, rd, _, rfl⟩,
   ⟨0, rd, _, rfl⟩,
   ⟨rd, _, rfl⟩,
   ⟨[], rd, _, rfl⟩,
   ⟨.refPhaseMeasure 0 0 0, 0, 0, 0, true, rd, _, List.mem_cons_self, rfl⟩,
   ⟨rd, _, rfl⟩,
   ⟨.calWindowClose .a 0 [], .a, 0, [], rd, _, List.mem_cons_self, rfl⟩,
   ⟨0, ⟨false, false, false, true, true, none, false, none⟩, rd, _, rfl⟩,
   ⟨0, rd, _, rfl⟩,
   ⟨0, rd, _, rfl⟩,
   ⟨.refFreqCheck 0, 0, rd, _, List.mem_cons_self, rfl⟩,
   ⟨.settleExpiry .a, .a, true, rd, _, List.mem_cons_self, rfl⟩,
   ⟨.fecDegWindow .a, .a, rd, _, List.mem_cons_self, rfl⟩,
   ⟨rd, _, rfl⟩,
   ⟨.legQualificationHoldExpiry .a, .a, rd, _, List.mem_cons_self, rfl⟩,
   ⟨.flexeCaTimeout 0, 0, rd, _, List.mem_cons_self, rfl⟩,
   ⟨rd, _, rfl⟩,
   ⟨0, 0, rd, _, rfl⟩,
   ⟨.domeRefresh 0 true, 0, true, rd, _, List.mem_cons_self, rfl⟩,
   ⟨.command, rd, _, rfl⟩,
   ⟨.a, 0, rd, _, rfl⟩,
   ⟨.a, .low, rd, _, rfl⟩,
   ⟨0, true, true, rd, _, rfl⟩,
   ⟨rd, _, rfl⟩,
   ⟨.txsafeAssert .a, .a, rd, _, List.mem_cons_self, rfl⟩,
   ⟨none, rd, _, rfl⟩,
   ⟨.cdScanDone .a ⟨[], [], []⟩, .a, ⟨[], [], []⟩, 0, rd, _, List.mem_cons_self, rfl⟩,
   ⟨.a, rd, _, rfl⟩,
   ⟨.decoderIterationPeriod .a, .a, rd, _, List.mem_cons_self, rfl⟩,
   ⟨.a, group0, rd, _, rfl⟩,
   ⟨.tcFreqOffsetWindow 0 0, 0, 0, [], rd, _, List.mem_cons_self, rfl⟩,
   ⟨.trngRetest [], [], rd, _, List.mem_cons_self, rfl⟩,
   ⟨rd, _, rfl⟩,
   ⟨rd, _, rfl⟩,
   ⟨.foregroundCalDone .a [], .a, [], rd, _, List.mem_cons_self, rfl⟩,
   ⟨.a, 0, 0, rd, _, rfl⟩,
   ⟨0, 0, 0, 0, rd, _, rfl⟩,
   ⟨0, .other, rd, _, rfl⟩⟩

end Sys2Proof.Tests
end

section
/-! SUPPORT and PROOF. The symbol-rate rule of SET_LINE_PLAN (R28): the result block of R41, the reason it names, and the refusal. -/

namespace Sys2Proof.Machine

/-! The result block of R41. -/

@[simp] theorem le_length (n v : Nat) : (le n v).length = n := by
  induction n generalizing v with
  | zero => rfl
  | succ n ih => simp [le, ih]

@[simp] theorem leS_length (n : Nat) (v : Int) : (leS n v).length = n := le_length n _

@[simp] theorem planResult_length (a b : CarrierPlan) (r : Nat × Nat) : (planResult a b r).length = 16 := by
  simp [planResult]

/-- Byte 12 of the result names the reason. -/
theorem u8_planResult_reason (a b : CarrierPlan) {r : Nat × Nat} (h : r.1 < 256) : u8 (planResult a b r) 12 = r.1 := by
  have hdrop : (planResult a b r).drop 12 = le 1 r.1 ++ (le 1 r.2 ++ le 2 0) := by
    simp [planResult, List.drop_append, -List.append_assoc, ← List.append_assoc]
  simp [u8, uField, hdrop, le, leNat, Nat.mod_eq_of_lt h]

/-! The reason that a plan is refused with. -/

/-- The symbol-rate check of a carrier fails where the carrier is used and its rate lies outside the range of R28. -/
theorem carrierFails_symbolRate_iff (p : CarrierPlan) :
    carrierFails p 4 = true ↔ p ≠ {} ∧ (p.rs256 ≤ 15359 ∨ 86017 ≤ p.rs256) := by
  by_cases hp : p = {}
  · simp [carrierFails, unused, hp]
  · have hrs : rsOk p.rs256 = false ↔ p.rs256 ≤ 15359 ∨ 86017 ≤ p.rs256 := by
      simp only [rsOk, Bool.and_eq_false_iff, decide_eq_false_iff_not]
      omega
    simp [carrierFails, unused, hp, hrs]

/-- The carrier checks of R41 name the least reason at which a carrier fails, so never one above a reason at which one does. -/
theorem planReason_le_of_carrierFails {a b : CarrierPlan} {r : Nat} (h1 : 1 ≤ r) (h6 : r ≤ 6)
    (h : (carrierFails a r || carrierFails b r) = true) (s : State) (spacing : Int) (fibre : Nat) (reservedBad : Bool) :
    1 ≤ (planReason s a b spacing fibre reservedBad).1 ∧ (planReason s a b spacing fibre reservedBad).1 ≤ r := by
  have hmem : r ∈ [1, 2, 3, 4, 5, 6] := by simp; omega
  simp only [planReason]
  split
  · next k hk =>
    obtain ⟨-, hk1, hleast⟩ := List.find?_range'_eq_some (s := 1) (n := 6).1 hk
    refine ⟨(List.mem_range'_1.1 hk1).1, not_lt.1 fun hlt => ?_⟩
    have := hleast r h1 hlt
    simp [h] at this
  · next hk => exact absurd h (List.find?_eq_none.1 hk r hmem)

/-- A reason from 1 to 6 is named only where a carrier fails that check. -/
theorem carrierFails_of_planReason {a b : CarrierPlan} {s : State} {spacing : Int} {fibre : Nat} {reservedBad : Bool} {r : Nat}
    (h1 : 1 ≤ r) (h6 : r ≤ 6) (h : (planReason s a b spacing fibre reservedBad).1 = r) :
    (carrierFails a r || carrierFails b r) = true := by
  simp only [planReason] at h
  split at h
  · next k hk =>
    obtain rfl : k = r := h
    simpa using List.find?_some hk
  · exfalso
    split_ifs at h <;> dsimp only at h <;> omega

/-! SET_LINE_PLAN. -/

/-- A plan for which R41 names a reason leaves the state alone and is answered BAD_PARAM with the result block. -/
theorem runSetLinePlan_of_reason {c : Ctx} {s : State} {r : Nat × Nat}
    (hr : planReason s (planField c.pk.params 0) (planField c.pk.params 8) (i32 c.pk.params 16) (u8 c.pk.params 20)
      (!zeroAt c.pk.params 21 3) = r) (h : r.1 ≠ 0) :
    runSetLinePlan c s =
      { s := s, final := some (stBadParam, planResult (planField c.pk.params 0) (planField c.pk.params 8) r) } := by
  simp [runSetLinePlan, hr, h]

/-- A started SET_LINE_PLAN with a carrier that fails a check from 1 to 6 is refused with BAD_PARAM, and its result names that reason or
a lower one. -/
theorem exec_setLinePlan_of_carrierFails {pk : Packet} {s : State} (hs : starts 0x0201 pk s = true)
    (hc : checkSetLinePlan (ctxOf pk s) (begun 0x0201 pk s) = stOk) {k : Nat} (h1 : 1 ≤ k) (h6 : k ≤ 6)
    (hf : (carrierFails (planField pk.params 0) k || carrierFails (planField pk.params 8) k) = true) :
    ∃ r, exec (.setLinePlan pk) s = .next (complete (refOf pk s) stBadParam r (begun 0x0201 pk s)) ∧ r.length = 16 ∧
      1 ≤ u8 r 12 ∧ u8 r 12 ≤ k := by
  obtain ⟨hlo, hhi⟩ := planReason_le_of_carrierFails h1 h6 hf (begun 0x0201 pk s) (i32 pk.params 16) (u8 pk.params 20)
    (!zeroAt pk.params 21 3)
  generalize hr : planReason (begun 0x0201 pk s) _ _ _ _ _ = r at hlo hhi
  refine ⟨planResult (planField pk.params 0) (planField pk.params 8) r, ?_, planResult_length _ _ _, ?_⟩
  · have hrun := runSetLinePlan_of_reason (c := ctxOf pk s) hr (Nat.one_le_iff_ne_zero.1 hlo)
    have hexec : exec (.setLinePlan pk) s = .next (serve 0x0201 checkSetLinePlan runSetLinePlan pk s) := rfl
    rw [hexec, serve_runs hs hc, hrun]
    rfl
  · rw [u8_planResult_reason _ _ (by omega)]
    exact ⟨hlo, hhi⟩

/-- Settles O52: a rate outside the range fails check 4 of its carrier, and reason 4 is named only where that check fails. -/
theorem symbolRateRange : Obligations.SymbolRateRange := by
  intro pk s hs hc
  refine ⟨fun o ho hused hrate => ?_, fun hrates hreason => ?_⟩
  · have hf : carrierFails (planField pk.params o) 4 = true := (carrierFails_symbolRate_iff _).2 ⟨hused, hrate⟩
    refine exec_setLinePlan_of_carrierFails hs hc (by decide) (by decide) ?_
    obtain rfl | rfl := ho <;> simp [hf]
  · have hpass (o : Nat) (ho : o = 0 ∨ o = 8) : ¬ carrierFails (planField pk.params o) 4 = true := by
      rw [carrierFails_symbolRate_iff]
      rintro ⟨-, hout⟩
      have hin := hrates o ho
      simp only [planField] at hout
      omega
    have hfails := carrierFails_of_planReason (by decide) (by decide) hreason
    simp [hpass] at hfails

end Sys2Proof.Machine
end

section
/-! SUPPORT and PROOF. The runs of FEC-FAIL over consecutive judged windows (R144): what one window answers, and a row of alike windows. -/

namespace Sys2Proof.Machine

/-! The length of a run. -/

/-- A run of length `r` after `k` more windows, each of which counts towards it or none of which does. -/
def runAfter (counts : Bool) (r k : Nat) : Nat := if counts then r + k else 0

theorem runAfter_runAfter (p : Bool) (r j k : Nat) : runAfter p (runAfter p r j) k = runAfter p r (j + k) := by
  cases p
  · rfl
  · exact Nat.add_assoc r j k

theorem runAfter_le_add (p : Bool) (r j k : Nat) : runAfter p r j ≤ runAfter p r (j + k) := by
  cases p
  · exact Nat.le_refl 0
  · exact Nat.add_le_add_left (Nat.le_add_right j k) r

/-! One window. -/

/-- A window that is sound throughout and holds `n` uncorrectable outer codewords is judged. -/
def judgeCount (f : Fec) (n : Nat) : Fec := judgeFail true { f with failW := { f.failW with count := n } }

/-- FEC-FAIL under the settings `u` after runs of `a` failing and `b` clean windows, from the state `fail`. -/
def failAfter (u : FecSet) (a b : Nat) (fail : Bool) : Bool :=
  if u.failSet ≤ a then true else if u.failClr ≤ b then false else fail

/-- Without a failing run, only the clean run moves the defect. -/
theorem failAfter_zero_left {u : FecSet} (h : 1 ≤ u.failSet) (b : Nat) (fail : Bool) :
    failAfter u 0 b fail = if u.failClr ≤ b then false else fail :=
  if_neg (Nat.not_le.2 h)

/-- Without a clean run, only the failing run moves the defect. -/
theorem failAfter_zero_right {u : FecSet} (h : 1 ≤ u.failClr) (a : Nat) (fail : Bool) :
    failAfter u a 0 fail = if u.failSet ≤ a then true else fail := by
  rw [failAfter, if_neg (Nat.not_le.2 h)]

/-- Longer runs decide the defect alone, whatever shorter ones decided before them. -/
theorem failAfter_failAfter {a b a' b' : Nat} (ha : a ≤ a') (hb : b ≤ b') (u : FecSet) (fail : Bool) :
    failAfter u a' b' (failAfter u a b fail) = failAfter u a' b' fail := by
  by_cases hset : u.failSet ≤ a'
  · simp [failAfter, hset]
  · by_cases hclr : u.failClr ≤ b'
    · simp [failAfter, hclr]
    · have hset' : ¬ u.failSet ≤ a := fun h => hset (h.trans ha)
      have hclr' : ¬ u.failClr ≤ b := fun h => hclr (h.trans hb)
      simp [failAfter, hset', hclr']

/-- The decoder with `n` in the window's count, runs of `a` failing and `b` clean windows, and the state of FEC-FAIL that they give. -/
def withRuns (f : Fec) (n a b : Nat) : Fec :=
  { f with failW := { f.failW with count := n, failing := a, clean := b }, fail := failAfter f.failUse a b f.fail }

@[simp] theorem withRuns_failing (f : Fec) (n a b : Nat) : (withRuns f n a b).failW.failing = a := rfl

@[simp] theorem withRuns_clean (f : Fec) (n a b : Nat) : (withRuns f n a b).failW.clean = b := rfl

theorem withRuns_withRuns {a b a' b' : Nat} (ha : a ≤ a') (hb : b ≤ b') (f : Fec) (n m : Nat) :
    withRuns (withRuns f n a b) m a' b' = withRuns f m a' b' := by
  simp only [withRuns, failAfter_failAfter ha hb]

/-- A judged window lengthens the runs that its count counts towards and ends the others. -/
theorem judgeCount_eq_withRuns {f : Fec} {n : Nat} (hf : f.failW.neutral = false) :
    judgeCount f n = withRuns f n (runAfter (decide (f.failUse.failCount ≤ n)) f.failW.failing 1)
      (runAfter (decide (n = 0)) f.failW.clean 1) := by
  simp [judgeCount, judgeFail, hf, withRuns, failAfter, runAfter]

/-! Consecutive windows. -/

/-- Windows that all fail or all do not, and that are all clean or all are not, answer the runs over their whole number. -/
theorem foldl_judgeCount_eq_withRuns {f : Fec} {l : List Nat} {failing clean : Bool} (hf : f.failW.neutral = false) (hl : l ≠ [])
    (hfailing : ∀ n ∈ l, decide (f.failUse.failCount ≤ n) = failing) (hclean : ∀ n ∈ l, decide (n = 0) = clean) :
    l.foldl judgeCount f =
      withRuns f (l.getLast hl) (runAfter failing f.failW.failing l.length) (runAfter clean f.failW.clean l.length) := by
  induction l generalizing f with
  | nil => exact absurd rfl hl
  | cons n l ih =>
    obtain ⟨hfn, hfl⟩ := List.forall_mem_cons.1 hfailing
    obtain ⟨hcn, hcl⟩ := List.forall_mem_cons.1 hclean
    have hstep := judgeCount_eq_withRuns (n := n) hf
    rw [hfn, hcn] at hstep
    rw [List.foldl_cons, hstep]
    by_cases hnil : l = []
    · subst hnil
      rfl
    · have hrest := ih (f := withRuns f n (runAfter failing f.failW.failing 1) (runAfter clean f.failW.clean 1)) hf hnil hfl hcl
      simp only [withRuns_failing, withRuns_clean, runAfter_runAfter] at hrest
      rw [hrest, withRuns_withRuns (runAfter_le_add ..) (runAfter_le_add ..), List.getLast_cons hnil, List.length_cons,
        Nat.add_comm l.length]

/-- Settles O53: a row of failing, of clean or of other windows answers the runs over its length, and no run of 0 reaches its threshold. -/
theorem fecFailFollowsRuns : Obligations.FecFailFollowsRuns := by
  intro f l hcount hset hclr hl hf
  refine ⟨?failing, ?clean, ?other⟩
  case failing =>
    intro hall g hg
    obtain rfl := hg.trans (foldl_judgeCount_eq_withRuns (failing := true) (clean := false) hf hl
      (fun n hn => decide_eq_true (hall n hn)) (fun n hn => decide_eq_false (Nat.ne_of_gt (hcount.trans (hall n hn)))))
    exact ⟨rfl, rfl, failAfter_zero_right hclr _ _⟩
  case clean =>
    intro hall g hg
    obtain rfl := hg.trans (foldl_judgeCount_eq_withRuns (failing := false) (clean := true) hf hl
      (fun n hn => decide_eq_false (by have := hall n hn; omega)) (fun n hn => decide_eq_true (hall n hn)))
    exact ⟨rfl, rfl, failAfter_zero_left hset _ _⟩
  case other =>
    intro hall g hg
    obtain rfl := hg.trans (foldl_judgeCount_eq_withRuns (failing := false) (clean := false) hf hl
      (fun n hn => decide_eq_false (Nat.not_le.2 (hall n hn).2)) (fun n hn => decide_eq_false (Nat.ne_of_gt (hall n hn).1)))
    exact ⟨rfl, rfl, (failAfter_zero_left hset _ _).trans (if_neg (Nat.not_le.2 hclr))⟩

end Sys2Proof.Machine
end

section
/-! SUPPORT and PROOF. The layout of the Dome's sectors (R323, R324): the fields of a line's address, the pseudo-channel line index that
they give back, and the sector and line that this index and the pseudo-channel determine. -/

namespace Sys2Proof.Machine

/-! Fields of a number. -/

theorem bits_lt (v hi lo : Nat) : bits v hi lo < 2 ^ (hi + 1 - lo) := Nat.mod_lt _ (Nat.two_pow_pos _)

/-- ROW, BANK and LINE, in this order, are the 21 bits of an index. -/
theorem bits_row_bank_line {m : Nat} (h : m < 2 ^ 21) : bits m 20 9 * 2 ^ 9 + bits m 8 4 * 2 ^ 4 + bits m 3 0 = m := by
  simp only [bits]
  omega

/-! A line address and its fields (R323). -/

/-- The line address of the four fields of R323. -/
def packAddr (pc bank row line : Nat) : Nat := pc * 2 ^ 21 + bank * 2 ^ 16 + row * 2 ^ 4 + line

theorem packAddr_lt {pc bank row line : Nat} (hp : pc < 2 ^ 5) (hb : bank < 2 ^ 5) (hr : row < 2 ^ 12) (hl : line < 2 ^ 4) :
    packAddr pc bank row line < 2 ^ 26 := by
  simp only [packAddr]
  omega

theorem pc_packAddr {pc bank row line : Nat} (hp : pc < 2 ^ 5) (hb : bank < 2 ^ 5) (hr : row < 2 ^ 12) (hl : line < 2 ^ 4) :
    bits (packAddr pc bank row line) 25 21 = pc := by
  simp only [bits, packAddr]
  omega

theorem bank_packAddr {bank row line : Nat} (pc : Nat) (hb : bank < 2 ^ 5) (hr : row < 2 ^ 12) (hl : line < 2 ^ 4) :
    bits (packAddr pc bank row line) 20 16 = bank := by
  simp only [bits, packAddr]
  omega

theorem row_packAddr {row line : Nat} (pc bank : Nat) (hr : row < 2 ^ 12) (hl : line < 2 ^ 4) :
    bits (packAddr pc bank row line) 15 4 = row := by
  simp only [bits, packAddr]
  omega

theorem line_packAddr {line : Nat} (pc bank row : Nat) (hl : line < 2 ^ 4) : bits (packAddr pc bank row line) 3 0 = line := by
  simp only [bits, packAddr]
  omega

/-! The address of a sector's line (R324). -/

/-- The pseudo-channel line index `m` of line `j` of sector `s`. -/
def lineIndex (s j : Nat) : Nat := 2 * (s / 2) + j / 32

theorem lineIndex_lt {s j : Nat} (hs : s < 2097152) (hj : j < 64) : lineIndex s j < 2 ^ 21 := by
  simp only [lineIndex]
  omega

/-- The line of a sector lies at PC `j mod 32` and at the bank, row and line of its index. -/
theorem lineOf_eq_packAddr (s j : Nat) :
    lineOf s j = packAddr (j % 32) (bits (lineIndex s j) 8 4) (bits (lineIndex s j) 20 9) (bits (lineIndex s j) 3 0) := rfl

theorem pc_lineOf (s j : Nat) : bits (lineOf s j) 25 21 = j % 32 :=
  pc_packAddr (Nat.mod_lt _ (by decide)) (bits_lt _ 8 4) (bits_lt _ 20 9) (bits_lt _ 3 0)

theorem bank_lineOf (s j : Nat) : bits (lineOf s j) 20 16 = bits (lineIndex s j) 8 4 :=
  bank_packAddr _ (bits_lt _ 8 4) (bits_lt _ 20 9) (bits_lt _ 3 0)

theorem row_lineOf (s j : Nat) : bits (lineOf s j) 15 4 = bits (lineIndex s j) 20 9 :=
  row_packAddr _ _ (bits_lt _ 20 9) (bits_lt _ 3 0)

theorem line_lineOf (s j : Nat) : bits (lineOf s j) 3 0 = bits (lineIndex s j) 3 0 :=
  line_packAddr _ _ _ (bits_lt _ 3 0)

theorem lineOf_lt (s j : Nat) : lineOf s j < 2 ^ 26 :=
  packAddr_lt (Nat.mod_lt _ (by decide)) (bits_lt _ 8 4) (bits_lt _ 20 9) (bits_lt _ 3 0)

/-! From the address back to the sector and its line. -/

/-- The pseudo-channel line index that a line address gives. -/
def addrIndex (addr : Nat) : Nat := bits addr 15 4 * 2 ^ 9 + bits addr 20 16 * 2 ^ 4 + bits addr 3 0

theorem sectorOf_eq_addrIndex (d addr : Nat) : sectorOf d addr = addrIndex addr / 2 * 2 + d := rfl

theorem addrIndex_lineOf {s j : Nat} (hs : s < 2097152) (hj : j < 64) : addrIndex (lineOf s j) = lineIndex s j := by
  rw [addrIndex, row_lineOf, bank_lineOf, line_lineOf]
  exact bits_row_bank_line (lineIndex_lt hs hj)

/-- A stack sector holds two consecutive indices, so half of the index is the stack sector. -/
theorem lineIndex_div_two (s : Nat) {j : Nat} (hj : j < 64) : lineIndex s j / 2 = s / 2 := by
  simp only [lineIndex]
  omega

theorem sectorOf_lineOf {s j : Nat} (hs : s < 2097152) (hj : j < 64) : sectorOf (s % 2) (lineOf s j) = s := by
  rw [sectorOf_eq_addrIndex, addrIndex_lineOf hs hj, lineIndex_div_two s hj]
  exact Nat.div_add_mod' s 2

/-- Lines of one stack at one address are the same line: the address gives the sector, then its index and its PC give the line. -/
theorem lineOf_inj {s j r k : Nat} (hs : s < 2097152) (hr : r < 2097152) (hj : j < 64) (hk : k < 64) (hstack : s % 2 = r % 2)
    (h : lineOf s j = lineOf r k) : s = r ∧ j = k := by
  obtain rfl : s = r :=
    calc s = sectorOf (s % 2) (lineOf s j) := (sectorOf_lineOf hs hj).symm
      _ = sectorOf (r % 2) (lineOf r k) := by rw [hstack, h]
      _ = r := sectorOf_lineOf hr hk
  have hpc : j % 32 = k % 32 := by rw [← pc_lineOf s j, h, pc_lineOf]
  have hindex : lineIndex s j = lineIndex s k := by rw [← addrIndex_lineOf hs hj, h, addrIndex_lineOf hr hk]
  have hdiv : j / 32 = k / 32 := Nat.add_left_cancel hindex
  exact ⟨rfl, by rw [← Nat.div_add_mod j 32, hdiv, hpc, Nat.div_add_mod]⟩

/-- Settles O57: the fields are read back from the packed address, and the address determines the sector and its line. -/
theorem sectorLinesLie : Obligations.SectorLinesLie :=
  ⟨fun s j hs hj => ⟨pc_lineOf s j, bank_lineOf s j, row_lineOf s j, line_lineOf s j, lineOf_lt s j, sectorOf_lineOf hs hj⟩,
    fun _ _ _ _ hs hr hj hk hstack h => lineOf_inj hs hr hj hk hstack h⟩

end Sys2Proof.Machine
end

section
/-! SUPPORT and PROOF. NOP (R402): its check looks at the tenant only, so any parameters pass, and its effect answers them. -/

namespace Sys2Proof.Machine

theorem exec_nop (pk : Packet) (s : State) : exec (.nop pk) s = .next (serve 0x0000 checkNop runNop pk s) := rfl

/-- NOP is refused only where its tenant field is used. -/
theorem checkNop_eq_stOk_iff (c : Ctx) (s : State) : checkNop c s = stOk ↔ c.pk.tenant = 0xFFFFFFFF := by
  by_cases h : c.pk.tenant = 0xFFFFFFFF
  · simp [checkNop, noTenant, firstBad, h]
  · simp [checkNop, noTenant, firstBad, h, stOk, stBadParam]

/-- Settles O49: the check of NOP passes, and its effect leaves the started state alone and answers the parameters. -/
theorem nopReturnsItsParameters : Obligations.NopReturnsItsParameters := by
  intro pk s hs htenant _
  have hcheck : checkNop (ctxOf pk s) (begun 0x0000 pk s) = stOk := (checkNop_eq_stOk_iff _ _).2 htenant
  rw [exec_nop, serve_runs hs hcheck, runNop, answer_doneWith]
  rfl

end Sys2Proof.Machine
end

section
/-! SUPPORT and PROOF. Counters that pass 2^48 - 1 (R429): one bit of a mask, what a counter's own count leaves of value, OVF bit and
endpoint, and the carry of a chained pair; then the overflow of a counter and its clearing by SET_COUNTER. -/

namespace Sys2Proof.Machine

/-! One bit of a mask. -/

/-- A power of two added where its bit is 0 carries nowhere. -/
theorem testBit_add_two_pow {m i : Nat} (h : m.testBit i = false) (j : Nat) :
    (m + 2 ^ i).testBit j = if j = i then true else m.testBit j := by
  induction i generalizing m j with
  | zero =>
    have hm : m % 2 = 0 := by simpa using h
    cases j with
    | zero =>
      have hodd : (m + 1) % 2 = 1 := by omega
      simp [Nat.testBit_zero, hodd]
    | succ j =>
      have hhalf : (m + 1) / 2 = m / 2 := by omega
      simp [Nat.testBit_succ, hhalf]
  | succ i ih =>
    have hhalf : (m + 2 ^ (i + 1)) / 2 = m / 2 + 2 ^ i := by omega
    have hbit : (m / 2).testBit i = false := by rwa [← Nat.testBit_succ]
    cases j with
    | zero => simp [Nat.testBit_zero, Nat.pow_succ]
    | succ j => simp [Nat.testBit_succ, hhalf, ih hbit]

/-- A power of two taken where its bit is 1 borrows nowhere. -/
theorem testBit_sub_two_pow {m i : Nat} (h : m.testBit i = true) (j : Nat) :
    (m - 2 ^ i).testBit j = if j = i then false else m.testBit j := by
  have hsum : m - 2 ^ i + 2 ^ i = m := Nat.sub_add_cancel (Nat.ge_two_pow_of_testBit h)
  have hbit : (m - 2 ^ i).testBit i = false := by
    have hflip := Nat.testBit_two_pow_add_eq (m - 2 ^ i) i
    rw [Nat.add_comm, hsum, h] at hflip
    simpa using hflip.symm
  by_cases hj : j = i
  · rw [if_pos hj, hj, hbit]
  · have hadd := testBit_add_two_pow hbit j
    rw [hsum, if_neg hj] at hadd
    rw [if_neg hj, hadd]

/-- A bit that is set or cleared reads as written, and every other bit reads as before. -/
theorem testBit_setBit (m i : Nat) (v : Bool) (j : Nat) : (setBit m i v).testBit j = if j = i then v else m.testBit j := by
  have hsame {b : Bool} (hb : m.testBit i = b) : m.testBit j = if j = i then b else m.testBit j := by
    by_cases hj : j = i <;> simp [hj, hb]
  cases v <;> cases hb : m.testBit i <;> simp only [setBit, hb, if_true, if_false, Bool.false_eq_true]
  · exact hsame hb
  · exact testBit_sub_two_pow hb j
  · exact testBit_add_two_pow hb j
  · exact hsame hb

/-! A counter's own count. -/

/-- What a vector does to the endpoint depends on the endpoint alone. -/
theorem signalVector_pcie_congr (v : Nat) {s t : State} (h : s.pcie = t.pcie) :
    (signalVector v s).pcie = (signalVector v t).pcie := by
  have hopen : vectorOpen v s = vectorOpen v t := by simp only [vectorOpen, h]
  by_cases ht : vectorOpen v t = true <;> simp [signalVector, hopen, ht, h]

/-- A count that stays below 2^48 changes the counter's value only. -/
theorem countOwn_of_lt {i n : Nat} {s : State} (h : tget 0 s.cnt.val i + n < 2 ^ 48) :
    countOwn i n s = { s with cnt := { s.cnt with val := tset 0 s.cnt.val i (tget 0 s.cnt.val i + n) } } := by
  simp only [countOwn, if_pos h, Nat.mod_eq_of_lt h]

/-- A count that passes 2^48 - 1 wraps the value and sets the OVF bit; of the counters nothing else changes. -/
theorem countOwn_cnt_of_le {i n : Nat} {s : State} (h : 2 ^ 48 ≤ tget 0 s.cnt.val i + n) :
    (countOwn i n s).cnt = { s.cnt with
      val := tset 0 s.cnt.val i ((tget 0 s.cnt.val i + n) % 2 ^ 48), ovf := setBit s.cnt.ovf i true } := by
  simp only [countOwn, if_neg (Nat.not_lt.2 h)]
  split <;> simp

/-- A count that passes 2^48 - 1 signals vector 20 where the counter's overflow interrupt is set. -/
theorem countOwn_pcie_of_le {i n : Nat} {s : State} (h : 2 ^ 48 ≤ tget 0 s.cnt.val i + n) :
    (countOwn i n s).pcie = (if (tget {} s.cnt.cfg i).irq then signalVector 20 s else s).pcie := by
  simp only [countOwn, if_neg (Nat.not_lt.2 h)]
  split
  · exact signalVector_pcie_congr 20 rfl
  · rfl

/-! The chained pair. -/

/-- Counter `i` is the low counter of a pair whose high counter is chained and enabled, so that its wraps carry (R428). -/
def carriesUp (i : Nat) (s : State) : Bool :=
  i % 2 == 0 && (tget {} s.cnt.cfg (i + 1)).chain && (tget {} s.cnt.cfg (i + 1)).enable

theorem carriesUp_iff (i : Nat) (s : State) : carriesUp i s = true ↔
    i % 2 = 0 ∧ (tget {} s.cnt.cfg (i + 1)).chain = true ∧ (tget {} s.cnt.cfg (i + 1)).enable = true := by
  simp [carriesUp, and_assoc]

/-- The high counter counts the wraps of a low counter that carries. -/
theorem countOne_eq_ite_carriesUp {i n : Nat} {s : State} (h : 2 ^ 48 ≤ tget 0 s.cnt.val i + n) :
    countOne i n s = if carriesUp i s then countOwn (i + 1) ((tget 0 s.cnt.val i + n) / 2 ^ 48) (countOwn i n s)
      else countOwn i n s := by
  have hwraps : (tget 0 s.cnt.val i + n) / 2 ^ 48 ≠ 0 := by omega
  have hstays : (decide ((tget 0 s.cnt.val i + n) / 2 ^ 48 = 0) || decide (i % 2 = 1) ||
      !((tget {} s.cnt.cfg (i + 1)).chain && (tget {} s.cnt.cfg (i + 1)).enable)) = !carriesUp i s := by
    rw [decide_eq_false hwraps, carriesUp]
    rcases Nat.mod_two_eq_zero_or_one i with hlow | hlow <;> simp [hlow]
  simp only [countOne, hstays]
  cases carriesUp i s <;> rfl

section one_wrap
variable {i n : Nat} {s : State} (hwf : tblWf 0 s.cnt.val) (hle : 2 ^ 48 ≤ tget 0 s.cnt.val i + n)
  (hlt : tget 0 s.cnt.val i + n < 2 ^ 49) (hhigh : tget 0 s.cnt.val (i + 1) + 1 < 2 ^ 48)
include hwf hle

/-- After a count that passes 2^48 - 1 the counter holds the rest, and every other counter holds what it held. -/
theorem tget_countOwn_val_of_le (j : Nat) :
    tget 0 (countOwn i n s).cnt.val j = if j = i then (tget 0 s.cnt.val i + n) % 2 ^ 48 else tget 0 s.cnt.val j := by
  rw [countOwn_cnt_of_le hle, tget_tset hwf]

include hlt hhigh

/-- One wrap of a counter that carries adds one to the high counter and changes nothing else. -/
theorem countOne_of_one_wrap :
    countOne i n s = if carriesUp i s then { countOwn i n s with cnt := { (countOwn i n s).cnt with
        val := tset 0 (countOwn i n s).cnt.val (i + 1) (tget 0 s.cnt.val (i + 1) + 1) } }
      else countOwn i n s := by
  have hwraps : (tget 0 s.cnt.val i + n) / 2 ^ 48 = 1 := by omega
  have hkeeps : tget 0 (countOwn i n s).cnt.val (i + 1) = tget 0 s.cnt.val (i + 1) := by
    simp [tget_countOwn_val_of_le hwf hle]
  rw [countOne_eq_ite_carriesUp hle, hwraps, countOwn_of_lt (by rwa [hkeeps]), hkeeps]

theorem countOne_ovf_of_one_wrap : (countOne i n s).cnt.ovf = setBit s.cnt.ovf i true := by
  rw [countOne_of_one_wrap hwf hle hlt hhigh]
  split <;> simp [countOwn_cnt_of_le hle]

theorem countOne_pcie_of_one_wrap :
    (countOne i n s).pcie = (if (tget {} s.cnt.cfg i).irq then signalVector 20 s else s).pcie := by
  rw [countOne_of_one_wrap hwf hle hlt hhigh, ← countOwn_pcie_of_le hle]
  split <;> rfl

/-- One wrap leaves the counter at the rest, adds the carry to the counter above, and leaves every other counter as it was. -/
theorem tget_countOne_val_of_one_wrap (j : Nat) :
    tget 0 (countOne i n s).cnt.val j =
      if j = i then tget 0 s.cnt.val i + n - 2 ^ 48
      else if j = i + 1 then tget 0 s.cnt.val (i + 1) + (if carriesUp i s then 1 else 0)
      else tget 0 s.cnt.val j := by
  have hrest : (tget 0 s.cnt.val i + n) % 2 ^ 48 = tget 0 s.cnt.val i + n - 2 ^ 48 := by omega
  have hown := tget_countOwn_val_of_le hwf hle
  have hwf' : tblWf 0 (countOwn i n s).cnt.val := by
    rw [countOwn_cnt_of_le hle]
    exact tset_wf hwf ..
  rw [hrest] at hown
  rw [countOne_of_one_wrap hwf hle hlt hhigh]
  by_cases hc : carriesUp i s = true
  · simp only [if_pos hc, tget_tset hwf', hown]
    by_cases hj : j = i + 1 <;> simp [hj]
  · simp only [if_neg hc, hown]
    by_cases hj : j = i + 1 <;> simp [hj]

end one_wrap

/-- COUNTER_WRAP counts on an enabled counter that takes no carry itself. -/
theorem exec_counterWrap_of_enable {i : Nat} (n : Nat) {s : State} (hi : i < 128) (henable : (tget {} s.cnt.cfg i).enable = true)
    (hchain : (tget {} s.cnt.cfg i).chain = false) : exec (.counterWrap i n) s = .next (countOne i n s) := by
  have hexec : exec (.counterWrap i n) s = execCounterWrap i n s := rfl
  simp [hexec, execCounterWrap, hi, henable, hchain]

/-! SET_COUNTER. -/

theorem exec_setCounter (pk : Packet) (s : State) :
    exec (.setCounter pk) s = .next (serve 0x0B01 checkSetCounter runSetCounter pk s) := rfl

@[simp] theorem runSetCounter_val (c : Ctx) (s : State) :
    (runSetCounter c s).s.cnt.val = tset 0 s.cnt.val (u8 c.pk.params 0) 0 := rfl

@[simp] theorem runSetCounter_ovf (c : Ctx) (s : State) :
    (runSetCounter c s).s.cnt.ovf = setBit s.cnt.ovf (u8 c.pk.params 0) false := rfl

/-- Settles O55: a count of at most 2^48 wraps the counter once, so the values, OVF bits and endpoint after one wrap give the first
clause; the second reads back what SET_COUNTER writes. -/
theorem countersWrap : Obligations.CountersWrap := by
  refine ⟨?wrap, ?clear⟩
  case wrap =>
    intro i n s hi henable hchain hwf hval hn hle hhigh
    have hlt : tget 0 s.cnt.val i + n < 2 ^ 49 := by omega
    have hvals := tget_countOne_val_of_one_wrap hwf hle hlt hhigh
    have hovf (j : Nat) : (countOne i n s).cnt.ovf.testBit j = if j = i then true else s.cnt.ovf.testBit j := by
      rw [countOne_ovf_of_one_wrap hwf hle hlt hhigh, testBit_setBit]
    refine ⟨countOne i n s, exec_counterWrap_of_enable n hi henable hchain, ?low, ?bit, ?high,
      countOne_pcie_of_one_wrap hwf hle hlt hhigh, fun j hj hj' => ⟨?_, ?_⟩⟩
    case low => rw [hvals, if_pos rfl]
    case bit => rw [hovf, if_pos rfl]
    case high => simp [hvals, carriesUp_iff]
    · rw [hvals, if_neg hj, if_neg hj']
    · rw [hovf, if_neg hj]
  case clear =>
    intro pk s hs hcheck hwf
    refine ⟨(runSetCounter (ctxOf pk s) (begun 0x0B01 pk s)).s, ?answer, ?value, ?bit⟩
    case answer =>
      rw [exec_setCounter, serve_runs hs hcheck]
      rfl
    case value => rw [runSetCounter_val, tget_tset hwf, ctxOf, if_pos rfl]
    case bit => rw [runSetCounter_ovf, testBit_setBit, ctxOf, if_pos rfl]

end Sys2Proof.Machine
end

section
/-! SUPPORT and PROOF. CLEAR_PAIR_FAULT (R497): its check looks at the packet's form and the two TXSAFE inputs, and its effect leaves the
latch clear. -/

namespace Sys2Proof.Machine

/-! The safety causes change transmitters, never pins. -/

@[simp] theorem txUpd_pins (c : Carrier) (f : Tx → Tx) (s : State) : (txUpd c f s).pins = s.pins := rfl

@[simp] theorem squelchTx_pins (c : Carrier) (s : State) : (squelchTx c s).pins = s.pins := rfl

@[simp] theorem startRelease_pins (c : Carrier) (s : State) : (startRelease c s).pins = s.pins := rfl

@[simp] theorem noteSafety_pins (old s : State) : (noteSafety old s).pins = s.pins := by
  unfold noteSafety
  split
  · split <;> simp [postEv]
  · split <;> simp

/-! The command. -/

theorem begun_pins (op : Nat) (pk : Packet) (s : State) : (begun op pk s).pins = s.pins := by
  have h := congrArg State.pins (begun_outer op pk s)
  exact h

theorem exec_clearPairFault (pk : Packet) (s : State) :
    exec (.clearPairFault pk) s = .next (serve 0x0105 checkClearPairFault runClearPairFault pk s) := rfl

/-- A well-formed CLEAR_PAIR_FAULT is refused only where an input is asserted. -/
theorem checkClearPairFault_of_plainLen {c : Ctx} (h : plainLen 0 c = true) (s : State) :
    checkClearPairFault c s = if s.pins.safeA || s.pins.safeB then stBadState else stOk := by
  simp [checkClearPairFault, firstBad, h]

/-- A latch already clear is no reason to change anything. -/
theorem runClearPairFault_of_clear (c : Ctx) {s : State} (h : s.pins.pairFault = false) : runClearPairFault c s = done s := by
  simp [runClearPairFault, h]

/-- A latch that is set clears, and the release from the safety squelch is judged against the state before. -/
theorem runClearPairFault_of_set (c : Ctx) {s : State} (h : s.pins.pairFault = true) :
    runClearPairFault c s = done (noteSafety s
      (post 0x0109 false [s.pins.faultInput] { s with pins := { s.pins with pairFault := false } })) := by
  simp [runClearPairFault, h]

/-- The effect is done at once, and the latch is clear after it. -/
theorem runClearPairFault_clears (c : Ctx) (s : State) :
    ∃ t, runClearPairFault c s = done t ∧ t.pins.pairFault = false := by
  cases h : s.pins.pairFault with
  | false => exact ⟨s, runClearPairFault_of_clear c h, h⟩
  | true => exact ⟨_, runClearPairFault_of_set c h, by simp⟩

/-- Settles O50: an asserted input fails the check; where none is, the effect runs on the started state, which it keeps when the latch is
already clear. -/
theorem clearPairFaultRule : Obligations.ClearPairFaultRule := by
  intro pk s hs htenant hparams
  have hcheck : checkClearPairFault (ctxOf pk s) (begun 0x0105 pk s) =
      if s.pins.safeA || s.pins.safeB then stBadState else stOk := by
    rw [checkClearPairFault_of_plainLen (by simp [plainLen, ctxOf, htenant, hparams]), begun_pins]
  rw [exec_clearPairFault]
  refine ⟨fun hasserted => ?refused, fun hA hB => ?ok⟩
  case refused =>
    rw [serve_refuses hs (hcheck.trans (if_pos (Bool.or_eq_true_iff.2 hasserted))) (by decide)]
  case ok =>
    rw [serve_runs hs (hcheck.trans (by simp [hA, hB]))]
    obtain ⟨t, hrun, hclear⟩ := runClearPairFault_clears (ctxOf pk s) (begun 0x0105 pk s)
    refine ⟨t, by rw [hrun, answer_done], hclear, fun hlatch => ?_⟩
    have hkeeps := runClearPairFault_of_clear (ctxOf pk s) (s := begun 0x0105 pk s) (by rwa [begun_pins])
    exact congrArg Res.s (hrun.symm.trans hkeeps)

end Sys2Proof.Machine
end

section
/-! SUPPORT and PROOF. TRIGGER_CAPTURE and STOP_CAPTURE (R544): one check decides both, which looks at the packet's form, the common gate
and the capture; no start of a command touches the mode or the capture. -/

namespace Sys2Proof.Machine

/-! The common gate. -/

/-- With the mode open and the form right, only the rest of a gated check decides. -/
theorem gated_of_modeOpen {s : State} (h : modeOpen s) (l : List (Bool × Nat)) : gated s false l = firstBad l := by
  obtain ⟨hcur, htrans⟩ := h
  simp [gated, modeGate, firstBad, hcur, htrans]

theorem begun_mode (op : Nat) (pk : Packet) (s : State) : (begun op pk s).mode = s.mode := by
  have h := congrArg State.mode (begun_outer op pk s)
  exact h

theorem begun_test (op : Nat) (pk : Packet) (s : State) : (begun op pk s).test = s.test := by
  have h := congrArg State.test (begun_outer op pk s)
  exact h

/-! The commands. -/

theorem exec_triggerCapture (pk : Packet) (s : State) :
    exec (.triggerCapture pk) s = .next (serve 0x0C07 checkTriggerCapture runTriggerCapture pk s) := rfl

theorem exec_stopCapture (pk : Packet) (s : State) :
    exec (.stopCapture pk) s = .next (serve 0x0C08 checkStopCapture runStopCapture pk s) := rfl

theorem checkStopCapture_eq_checkTriggerCapture : checkStopCapture = checkTriggerCapture := rfl

/-- In the started state, with the mode open, a well-formed packet is refused only where no capture is ARMED or RUNNING. -/
theorem checkTriggerCapture_begun {pk : Packet} {s : State} (htenant : pk.tenant = 0xFFFFFFFF) (hparams : pk.params = [])
    (hopen : modeOpen s) (op : Nat) :
    checkTriggerCapture (ctxOf pk s) (begun op pk s) = if s.test.cap.state = 0 then stBadState else stOk := by
  have hform : plainLen 0 (ctxOf pk s) = true := by simp [plainLen, ctxOf, htenant, hparams]
  have hopen' : modeOpen (begun op pk s) := by rwa [modeOpen, begun_mode]
  simp [checkTriggerCapture, hform, gated_of_modeOpen hopen', firstBad, captureRuns, begun_test]

/-- Settles O51: in both commands the check is BAD_STATE just where no capture is ARMED or RUNNING, and the effect is done at once. -/
theorem captureCommandsRule : Obligations.CaptureCommandsRule := by
  intro pk s htenant hparams hcur htrans
  have hcheck := checkTriggerCapture_begun htenant hparams ⟨hcur, htrans⟩
  rw [exec_triggerCapture, exec_stopCapture, checkStopCapture_eq_checkTriggerCapture]
  refine ⟨fun hs => ⟨fun hidle => ?triggerRefused, fun hruns => ?triggerOk⟩,
    fun hs => ⟨fun hidle => ?stopRefused, fun hruns => ?stopOk⟩⟩
  case triggerRefused | stopRefused =>
    rw [serve_refuses hs ((hcheck _).trans (if_pos hidle)) (by decide)]
  case triggerOk =>
    exact ⟨_, by rw [serve_runs hs ((hcheck _).trans (if_neg hruns)), runTriggerCapture, answer_done]⟩
  case stopOk =>
    exact ⟨_, by rw [serve_runs hs ((hcheck _).trans (if_neg hruns)), runStopCapture, answer_done]⟩

end Sys2Proof.Machine
end

section
/-! SUPPORT and PROOF. The rules over all commands: every command answers a next state and keeps the queue of waiting commands, so the queue
drains; and a command packet runs through the steps of R382 with its own checks. -/

namespace Sys2Proof.Machine

/-! Every command answers, and keeps the queue. -/

/-- No arm of `exec` stops the block. -/
theorem exec_answers_next (i : Instr) (s : State) : ∃ t, exec i s = .next t := by
  cases i <;> exact ⟨_, rfl⟩

/-- SET_LINE_PLAN keeps the queue of waiting commands. -/
theorem execSetLinePlan_pending (pk : Packet) {s t : State} (h : execSetLinePlan pk s = .next t) : t.pending = s.pending := by
  obtain rfl := Host.Outcome.next.inj h
  exact serve_keeps (fun u => u.pending = s.pending) (fun _ _ hk hp => hk.1.trans hp) _ _ _ _ _
    (fun c u hp => (runSetLinePlan_pending c u).trans hp) rfl

theorem exec_pending {i : Instr} {s t : State} (h : exec i s = .next t) : t.pending = s.pending := by
  cases hi : changesPlan i with
  | false => exact (exec_kept i s hi h).1
  | true =>
    cases i <;> simp only [changesPlan, Bool.false_eq_true] at hi
    case setLinePlan pk => exact execSetLinePlan_pending pk h
    case railReset r mv => exact (execRailReset_kept r mv s h).1
    case poresetNAssert => exact (execPoresetNAssert_kept s h).1

/-- Settles O45. -/
theorem commandsKeepQueue : Obligations.CommandsKeepQueue := fun _ _ _ h => exec_pending h

/-! A step. -/

theorem step_of_cons (c : Instr) (r : List Instr) (s : State) :
    step { s with pending := c :: r } = exec c { s with pending := r } := rfl

theorem step_of_pending {c : Instr} {r : List Instr} {s : State} (h : s.pending = c :: r) :
    step s = exec c { s with pending := r } := by
  simp only [step, h]

theorem step_of_nil {s : State} (h : s.pending = []) : step s = .next (idle s) := by
  simp only [step, h]

/-- Settles O44. -/
theorem stepTakesFront : Obligations.StepTakesFront := ⟨step_of_cons, fun _ h => step_of_nil h⟩

/-- One step takes one command off a queue that holds one. -/
theorem step_pending {c : Instr} {r : List Instr} {s : State} (h : s.pending = c :: r) :
    ∃ t, step s = .next t ∧ t.pending = r := by
  obtain ⟨t, ht⟩ := exec_answers_next c { s with pending := r }
  exact ⟨t, (step_of_pending h).trans ht, exec_pending ht⟩

/-- As many steps as commands wait empty the queue. -/
theorem run_empties_pending {l : List Instr} {s : State} (h : s.pending = l) :
    ∃ t, Sys2Proof.core.run l.length s = .next t ∧ t.pending = [] := by
  induction l generalizing s with
  | nil => exact ⟨s, rfl, h⟩
  | cons c r ih =>
    obtain ⟨u, hstep, hu⟩ := step_pending h
    obtain ⟨t, hrun, ht⟩ := ih hu
    refine ⟨t, ?_, ht⟩
    have hcore : Sys2Proof.core.step s = .next u := hstep
    simp only [List.length_cons, Host.Core.run, hcore]
    exact hrun

/-- Settles O46, by induction over the waiting commands. -/
theorem queueDrains : Obligations.QueueDrains := fun _ => run_empties_pending rfl

/-! The rules of a stored line plan. -/

/-- A carrier that fails none of the checks 1 to 6 of R41 is unused or lies in its ranges. -/
theorem planInRange_of_not_carrierFails {p : CarrierPlan} (h : ∀ r ∈ [1, 2, 3, 4, 5, 6], carrierFails p r = false) :
    PlanInRange p := by
  by_cases hp : p = {}
  · exact .inl hp
  have hn := h 1 (by simp)
  have hfmt := h 2 (by simp)
  have hh := h 3 (by simp)
  have hrs := h 4 (by simp)
  have hlow := h 5 (by simp)
  have hhigh := h 6 (by simp)
  simp only [carrierFails, unused, hp, beq_iff_eq, if_false, Bool.or_eq_false_iff, Bool.and_eq_false_iff, beq_eq_false_iff_ne,
    decide_eq_false_iff_not, Bool.not_eq_false', rsOk, Bool.and_eq_true, decide_eq_true_eq, fillLow, fillHigh, fillPossible,
    bne_eq_false_iff_eq] at hn hfmt hh hrs hlow hhigh
  have hpos : p.h64 ≠ 0 := by
    have hbase : 0 < (hRange p.fmt).1 := by
      unfold hRange
      split <;> decide
    omega
  exact .inr (by omega)

/-- Spacing and fibre that pass check 8 of R41 agree with the two plans. -/
theorem fibreAgrees_of_fibreOk {a b : CarrierPlan} {spacing : Int} {fibre : Nat} (h : fibreOk a b spacing fibre = true) :
    FibreAgrees a b spacing fibre := by
  by_cases hu : a = {} ∨ b = {}
  · have hzero : spacing = 0 ∧ fibre = 0 := by simpa [fibreOk, unused, hu] using h
    exact .inl hzero
  · have hcases : fibre = 0 ∧ spacing = 0 ∨ (fibre = 1 ∧ 15360 ≤ spacing.natAbs) ∧ spacing.natAbs ≤ 512000 := by
      simpa [fibreOk, unused, hu] using h
    obtain ⟨ha, hb⟩ := not_or.1 hu
    obtain ⟨hf, hs⟩ | ⟨⟨hf, hlo⟩, hhi⟩ := hcases
    · exact .inl ⟨hs, hf⟩
    · exact .inr ⟨ha, hb, hf, hlo, hhi⟩

/-- R41 names no reason only where every check passes. -/
theorem passes_of_planReason_eq_zero {a b : CarrierPlan} {s : State} {spacing : Int} {fibre : Nat} {reservedBad : Bool}
    (h : (planReason s a b spacing fibre reservedBad).1 = 0) :
    (∀ r ∈ [1, 2, 3, 4, 5, 6], carrierFails a r = false ∧ carrierFails b r = false) ∧ fibreOk a b spacing fibre = true := by
  simp only [planReason] at h
  split at h
  · next r hr =>
    have hmem := List.mem_of_find?_eq_some hr
    obtain rfl : r = 0 := h
    simp at hmem
  · next hnone =>
    refine ⟨fun r hr => ?_, ?_⟩
    · simpa using List.find?_eq_none.1 hnone r hr
    · by_contra hf
      rw [Bool.not_eq_true] at hf
      simp only [hf, Bool.not_false, if_true] at h
      split at h <;> cases h

/-- A plan for which R41 names no reason obeys the rules, in whatever state holds it. -/
theorem planOk_of_planReason_eq_zero {s t : State} {reservedBad : Bool}
    (h : (planReason s t.plan.car.a t.plan.car.b t.plan.spacing t.plan.fibre reservedBad).1 = 0) : PlanOk t := by
  obtain ⟨hcar, hfibre⟩ := passes_of_planReason_eq_zero h
  exact ⟨planInRange_of_not_carrierFails fun r hr => (hcar r hr).1, planInRange_of_not_carrierFails fun r hr => (hcar r hr).2,
    fibreAgrees_of_fibreOk hfibre⟩

/-- The empty plan, as it is after a reset, obeys the rules. -/
theorem planOk_of_plan_empty {s : State} (h : s.plan = {}) : PlanOk s := by
  simp [PlanOk, h, PlanInRange, FibreAgrees]

theorem Kept.planOk {s t : State} (h : Kept s t) (hs : PlanOk s) : PlanOk t := by
  obtain ⟨-, hcar, hspacing, hfibre⟩ := h
  rwa [PlanOk, hcar, hspacing, hfibre]

theorem runSetLinePlan_planOk (c : Ctx) {s : State} (hs : PlanOk s) : PlanOk (runSetLinePlan c s).s := by
  obtain hkept | ⟨hreason, hcar, hspacing, hfibre⟩ := runSetLinePlan_plan c s
  · exact hkept.planOk hs
  · refine planOk_of_planReason_eq_zero (s := s) (reservedBad := !zeroAt c.pk.params 21 3) ?_
    rwa [hcar, hspacing, hfibre]

theorem execSetLinePlan_planOk (pk : Packet) {s t : State} (h : execSetLinePlan pk s = .next t) (hs : PlanOk s) : PlanOk t := by
  obtain rfl := Host.Outcome.next.inj h
  exact serve_keeps PlanOk (fun _ _ hk hp => hk.planOk hp) _ _ _ _ _ (fun c _ hp => runSetLinePlan_planOk c hp) hs

/-- What a reset of the whole device keeps of the plan, nothing, obeys the rules as well as the plan before. -/
theorem planOk_of_empty_or_kept {s t : State} (h : t.plan = {} ∨ Kept s t) (hs : PlanOk s) : PlanOk t :=
  h.elim planOk_of_plan_empty fun hk => hk.planOk hs

theorem exec_planOk {i : Instr} {s t : State} (h : exec i s = .next t) (hs : PlanOk s) : PlanOk t := by
  cases hi : changesPlan i with
  | false => exact (exec_kept i s hi h).planOk hs
  | true =>
    cases i <;> simp only [changesPlan, Bool.false_eq_true] at hi
    case setLinePlan pk => exact execSetLinePlan_planOk pk h hs
    case railReset r mv => exact planOk_of_empty_or_kept (execRailReset_kept r mv s h).2 hs
    case poresetNAssert => exact planOk_of_empty_or_kept (execPoresetNAssert_kept s h).2 hs

/-- Settles O47: a command at the front keeps the rules, and an idle step keeps the plan. -/
theorem everyStepKeepsThePlanRules : Obligations.EveryStepKeepsThePlanRules := by
  intro s t hs ht
  cases hp : s.pending with
  | nil =>
    rw [step_of_nil hp] at ht
    obtain rfl := Host.Outcome.next.inj ht
    exact (advanceTo_kept _ _ : Kept s (idle s)).planOk hs
  | cons c r =>
    rw [step_of_pending hp] at ht
    exact exec_planOk ht hs

/-- Settles O48. -/
theorem resetState : Obligations.ResetState := by
  refine ⟨planOk_of_plan_empty rfl, rfl, reset_memoryOk, rfl, rfl, rfl, ?domains, rfl, fun q => ?queues, rfl, fun c => ?transmitters, rfl⟩
  case domains => decide
  case queues => cases q <;> exact ⟨rfl, rfl⟩
  case transmitters => cases c <;> rfl

/-! A command packet. -/

/-- Every command packet is served: submitted, started, checked by its own chapter's checks, and then run. -/
theorem exec_of_commandOf {i : Instr} {op : Nat} {pk : Packet} {check : Ctx → State → Nat}
    (h : commandOf i = some (op, pk, check)) : ∃ run, ∀ s, exec i s = .next (serve op check run pk s) := by
  cases i <;> simp only [commandOf, Option.some.injEq, Prod.mk.injEq, reduceCtorEq] at h <;>
    (obtain ⟨rfl, rfl, rfl⟩ := h; exact ⟨_, fun _ => rfl⟩)

/-- A packet that reaches step 7 and whose group is held back is answered with the status of R486 or R488. -/
theorem serve_gated {op : Nat} {pk : Packet} {s : State} (h : reaches op pk s = true) {st : Nat} (hg : gateStatus op s = st)
    (h0 : st ≠ stOk) (check : Ctx → State → Nat) (run : Ctx → State → Res) :
    serve op check run pk s = refusedWith st pk s (begun op pk s) := by
  have hb : gateStatus op (begun op pk s) = st := (gateStatus_begun op pk s).trans hg
  rw [serve_starts h]
  simp [runCommand, hb, firstBad, h0, refusedWith, ctxOf]

/-- Settles O42. -/
theorem failedChecksRefuse : Obligations.FailedChecksRefuse := by
  intro i op pk check s hi hs hbad
  obtain ⟨run, hexec⟩ := exec_of_commandOf hi
  rw [hexec, serve_refuses hs rfl hbad]

/-- Settles O43: R486 is judged before R488. -/
theorem gatedGroupsRefuse : Obligations.GatedGroupsRefuse := by
  intro i op pk check s hi hr
  obtain ⟨run, hexec⟩ := exec_of_commandOf hi
  refine ⟨fun hrec h0 hD => ?recovery, fun hrec hact hheld => ?activation⟩
  case recovery =>
    have hgate : gateStatus op s = stBadState := by simp [gateStatus, firstBad, hrec, h0, hD]
    rw [hexec, serve_gated hr hgate (by decide)]
  case activation =>
    have hgate : gateStatus op s = stNotReady := by simp [gateStatus, firstBad, hrec, hact, hheld]
    rw [hexec, serve_gated hr hgate (by decide)]

end Sys2Proof.Machine
end

section
/-! SUPPORT. How a started command ends, what the start leaves alone, and fields read back from the bytes of a result. -/

namespace Sys2Proof.Machine

/-! The three ends of a started command whose checks pass. -/

@[simp] theorem ctxOf_pk (pk : Packet) (s : State) : (ctxOf pk s).pk = pk := rfl
@[simp] theorem ctxOf_ref (pk : Packet) (s : State) : (ctxOf pk s).ref = refOf pk s := rfl

/-- Two answers agree where their states do. -/
theorem next_congr {s t : State} (h : s = t) : (Host.Outcome.next s : Out) = .next t := congrArg _ h

@[simp] theorem firstBad_nil : firstBad [] = stOk := rfl

/-- Checks pass where the first one does and the rest do. -/
@[simp] theorem firstBad_cons_eq_stOk {bad : Bool} {st : Nat} (h : st ≠ stOk) (l : List (Bool × Nat)) :
    firstBad ((bad, st) :: l) = stOk ↔ bad = false ∧ firstBad l = stOk := by
  cases bad <;> simp [firstBad, h]

section served
variable {op : Nat} {pk : Packet} {s t : State} {check : Ctx → State → Nat} {run : Ctx → State → Res}

theorem serve_done (hs : starts op pk s = true) (hk : check (ctxOf pk s) (begun op pk s) = stOk)
    (hr : run (ctxOf pk s) (begun op pk s) = done t) : serve op check run pk s = endsOk pk [] s t := by
  rw [serve_runs hs hk, hr, answer_done]

theorem serve_doneWith {l : List Byte} (hs : starts op pk s = true) (hk : check (ctxOf pk s) (begun op pk s) = stOk)
    (hr : run (ctxOf pk s) (begun op pk s) = doneWith t l) : serve op check run pk s = endsOk pk l s t := by
  rw [serve_runs hs hk, hr, answer_doneWith]

theorem serve_later (hs : starts op pk s = true) (hk : check (ctxOf pk s) (begun op pk s) = stOk)
    (hr : run (ctxOf pk s) (begun op pk s) = later t) : serve op check run pk s = accepts pk s t := by
  rw [serve_runs hs hk, hr, answer_later]

end served

/-- The start of a command leaves all but queues, records, events, endpoint, counters, page and ring alone. -/
@[simp] theorem begun_frame (op : Nat) (pk : Packet) (s : State) :
    (begun op pk s).now = s.now ∧ (begun op pk s).tod = s.tod ∧ (begun op pk s).subns = s.subns ∧
    (begun op pk s).free = s.free ∧ (begun op pk s).dma = s.dma ∧ (begun op pk s).mode = s.mode ∧
    (begun op pk s).clk = s.clk ∧ (begun op pk s).ctl = s.ctl ∧ (begun op pk s).eng = s.eng ∧
    (begun op pk s).power = s.power ∧ (begun op pk s).pins = s.pins ∧ (begun op pk s).therm = s.therm ∧
    (begun op pk s).journal = s.journal ∧ (begun op pk s).fw = s.fw ∧ (begun op pk s).plan = s.plan ∧
    (begun op pk s).spire = s.spire ∧ (begun op pk s).line = s.line ∧ (begun op pk s).txFc = s.txFc ∧
    (begun op pk s).cal = s.cal ∧ (begun op pk s).ten = s.ten ∧ (begun op pk s).skew = s.skew ∧
    (begun op pk s).mrg = s.mrg ∧ (begun op pk s).host = s.host ∧ (begun op pk s).pm = s.pm ∧
    (begun op pk s).turret = s.turret ∧ (begun op pk s).mem = s.mem ∧ (begun op pk s).bel = s.bel ∧
    (begun op pk s).test = s.test ∧ (begun op pk s).pending = s.pending :=
  outer_fields (begun_outer op pk s)

/-- What is read from the outer part alone reads as before once a command has started. -/
theorem begun_congr {α : Type} {f : State → α} (hf : ∀ s, f (outer s) = f s) (op : Nat) (pk : Packet) (s : State) :
    f (begun op pk s) = f s := by
  rw [← hf, begun_outer, hf]

/-! Fields of a result. -/

@[simp] theorem be_length (n v : Nat) : (be n v).length = n := by simp [be]

@[simp] theorem slice_length (l : List Byte) (o n : Nat) : (slice l o n).length = n := by
  simp only [slice, List.length_append, List.length_take, List.length_drop, List.length_replicate]
  omega

@[simp] theorem asciiOf_length (l : List Nat) : (asciiOf l).length = l.length := List.length_map _

@[simp] theorem fusedIdentity_length (f : Fuses) : (fusedIdentity f).length = 11 := by
  unfold fusedIdentity
  split_ifs
  · exact slice_length _ _ _
  · exact slice_length _ _ _
  · rfl

theorem leNat_le (n v : Nat) : leNat (le n v) = v % 256 ^ n := by
  induction n generalizing v with
  | zero => simp [le, leNat, Nat.mod_one]
  | succ n ih =>
    rw [le, leNat, ih, BitVec.toNat_ofNat, Nat.pow_succ' (n := n), Nat.mod_mul (x := v)]

theorem leNat_lt (l : List Byte) : leNat l < 256 ^ l.length := by
  induction l with
  | nil => decide
  | cons b r ih =>
    have hb := b.isLt
    rw [leNat, List.length_cons, Nat.pow_succ']
    omega

theorem uField_lt (l : List Byte) (o n : Nat) : uField l o n < 256 ^ n :=
  (leNat_lt _).trans_le (Nat.pow_le_pow_right (by decide) (by rw [List.length_take]; exact Nat.min_le_left _ _))

theorem u8_lt (l : List Byte) (o : Nat) : u8 l o < 256 := uField_lt l o 1
theorem u16_lt (l : List Byte) (o : Nat) : u16 l o < 65536 := uField_lt l o 2
theorem u32_lt (l : List Byte) (o : Nat) : u32 l o < 4294967296 := uField_lt l o 4
@[simp] theorem u8_mod (l : List Byte) (o : Nat) : u8 l o % 256 = u8 l o := Nat.mod_eq_of_lt (u8_lt l o)
@[simp] theorem u16_mod (l : List Byte) (o : Nat) : u16 l o % 65536 = u16 l o := Nat.mod_eq_of_lt (u16_lt l o)
@[simp] theorem u32_mod (l : List Byte) (o : Nat) : u32 l o % 4294967296 = u32 l o := Nat.mod_eq_of_lt (u32_lt l o)

/-- A field inside the first part of a result is read from that part. -/
theorem uField_append_left {l m : List Byte} {o n : Nat} (h : o + n ≤ l.length) : uField (l ++ m) o n = uField l o n := by
  rw [uField, uField, List.drop_append_of_le_length (by omega), List.take_append_of_le_length (by rw [List.length_drop]; omega)]

/-- A field behind the first part of a result is read from the rest. -/
theorem uField_append_right {l m : List Byte} {o n : Nat} (h : l.length ≤ o) : uField (l ++ m) o n = uField m (o - l.length) n := by
  rw [uField, uField, List.drop_append, List.drop_eq_nil_of_le h, List.nil_append]

theorem uField_le (n v : Nat) : uField (le n v) 0 n = v % 256 ^ n := by
  rw [uField, List.drop_zero, List.take_of_length_le (le_length n v).le, leNat_le]

theorem u8_append_left {l m : List Byte} {o : Nat} (h : o + 1 ≤ l.length) : u8 (l ++ m) o = u8 l o := uField_append_left h
theorem u8_append_right {l m : List Byte} {o : Nat} (h : l.length ≤ o) : u8 (l ++ m) o = u8 m (o - l.length) := uField_append_right h
theorem u16_append_left {l m : List Byte} {o : Nat} (h : o + 2 ≤ l.length) : u16 (l ++ m) o = u16 l o := uField_append_left h
theorem u16_append_right {l m : List Byte} {o : Nat} (h : l.length ≤ o) : u16 (l ++ m) o = u16 m (o - l.length) :=
  uField_append_right h
theorem u32_append_left {l m : List Byte} {o : Nat} (h : o + 4 ≤ l.length) : u32 (l ++ m) o = u32 l o := uField_append_left h
theorem u32_append_right {l m : List Byte} {o : Nat} (h : l.length ≤ o) : u32 (l ++ m) o = u32 m (o - l.length) :=
  uField_append_right h
@[simp] theorem u8_le (v : Nat) : u8 (le 1 v) 0 = v % 256 := uField_le 1 v
@[simp] theorem u16_le (v : Nat) : u16 (le 2 v) 0 = v % 65536 := uField_le 2 v
@[simp] theorem u32_le (v : Nat) : u32 (le 4 v) 0 = v % 4294967296 := uField_le 4 v

end Sys2Proof.Machine
end

section
/-! SUPPORT and PROOF. The generic commands (R402 to R407): the packets that their checks pass, and where each completes. -/

namespace Sys2Proof.Machine

/-! The checks. -/

theorem checkFence_eq_stOk_iff (c : Ctx) (s : State) :
    checkFence c s = stOk ↔ plainLen 4 c ∧ u8 c.pk.params 0 < 16 ∧ zeroAt c.pk.params 1 3 := by
  simp [checkFence, and_assoc]

theorem checkGetIdentity_eq_stOk_iff (c : Ctx) (s : State) : checkGetIdentity c s = stOk ↔ plainLen 0 c := by
  simp [checkGetIdentity]

theorem checkGetQueueStatus_eq_stOk_iff (c : Ctx) (s : State) :
    checkGetQueueStatus c s = stOk ↔ plainLen 4 c ∧ u8 c.pk.params 0 ≤ 3 ∧ zeroAt c.pk.params 1 3 := by
  simp [checkGetQueueStatus, and_assoc]

theorem checkResetQueue_eq_stOk_iff (c : Ctx) (s : State) :
    checkResetQueue c s = stOk ↔ plainLen 4 c ∧ u8 c.pk.params 0 ≤ 3 ∧ zeroAt c.pk.params 1 3 :=
  checkGetQueueStatus_eq_stOk_iff c s

theorem checkSetQueueConfig_eq_stOk_iff (c : Ctx) (s : State) :
    checkSetQueueConfig c s = stOk ↔ plainLen 4 c ∧ u8 c.pk.params 1 < 4 ∧ zeroAt c.pk.params 2 2 := by
  simp [checkSetQueueConfig, and_assoc]

/-! The effects. -/

/-- Without a final status nothing is answered. -/
theorem serve_waits {op : Nat} {pk : Packet} {s t : State} {check : Ctx → State → Nat} {run : Ctx → State → Res}
    (hs : starts op pk s = true) (hk : check (ctxOf pk s) (begun op pk s) = stOk)
    (hr : run (ctxOf pk s) (begun op pk s) = { s := t, final := none }) : serve op check run pk s = t := by
  rw [serve_runs hs hk, hr]
  rfl

/-- RESET_QUEUE of a queue other than its own is done at once. -/
theorem runResetQueue_of_ne {c : Ctx} (h : queueOf (u8 c.pk.params 0) ≠ c.ref.queue) (s : State) :
    runResetQueue c s = done (resetQueue (queueOf (u8 c.pk.params 0)) 0 none s) := if_neg h

theorem queueNum_queueOf {n : Nat} (h : n ≤ 3) : queueNum (queueOf n) = n := by
  interval_cases n <;> rfl

/-- A queue of the host has at most 512 free lines (R387). -/
theorem qfree_queueOf_lt (s : State) (n : Nat) : qfree s (queueOf n) < 65536 := by
  have hlines : linesTotal (queueOf n) ≤ 512 := by
    unfold queueOf
    split <;> decide
  simp only [qfree, linesFree]
  omega

theorem modeCode_lt (m : Mode) : modeCode m < 256 := by
  cases m <;> decide

/-- Settles O1. -/
theorem genericCommandsComplete : Obligations.GenericCommandsComplete := by
  refine ⟨?nop, ?fence, ?getIdentity, ?getQueueStatus, ?resetQueue, ?setQueueConfig⟩
  case nop =>
    intro pk s hs htenant
    exact next_congr (serve_doneWith hs ((checkNop_eq_stOk_iff _ _).2 htenant) rfl)
  case fence =>
    intro pk s hs hlen hmask hzero
    exact next_congr (serve_waits hs ((checkFence_eq_stOk_iff _ _).2 ⟨hlen, hmask, hzero⟩) rfl)
  case getIdentity =>
    intro pk s hs hlen
    refine ⟨_, next_congr (serve_doneWith hs ((checkGetIdentity_eq_stOk_iff _ _).2 hlen) rfl), ?length, ?vendor, ?part, ?mode, ?time⟩
    case length => simp
    case vendor => simp [u16_append_left]
    case part => simp [u16_append_left, u16_append_right]
    case mode => simp [u8_append_left, u8_append_right, Nat.mod_eq_of_lt (modeCode_lt _)]
    case time => simp [u32_append_left, u32_append_right, uptime]
  case getQueueStatus =>
    intro pk s hs hlen hq hzero
    refine ⟨_, next_congr (serve_doneWith hs ((checkGetQueueStatus_eq_stOk_iff _ _).2 ⟨hlen, hq, hzero⟩) rfl), ?length, ?queue, ?free⟩
    case length => simp
    case queue => simp [u8_append_left, queueNum_queueOf hq]
    case free => simp [u16_append_left, u16_append_right, Nat.mod_eq_of_lt (qfree_queueOf_lt _ _)]
  case resetQueue =>
    intro pk s hs hlen hq hzero hother
    exact next_congr (serve_done hs ((checkResetQueue_eq_stOk_iff _ _).2 ⟨hlen, hq, hzero⟩) (runResetQueue_of_ne hother _))
  case setQueueConfig =>
    intro pk s hs hlen hflags hzero
    exact next_congr (serve_done hs ((checkSetQueueConfig_eq_stOk_iff _ _).2 ⟨hlen, hflags, hzero⟩) rfl)

end Sys2Proof.Machine
end

section
/-! SUPPORT and PROOF. The counter and bandwidth rows (R410, R418, R427 to R436): the packets that the checks of their commands pass, the
reads of a counter, and where each row completes. -/

namespace Sys2Proof.Machine

/-! What leaves the link of the endpoint alone (R436). -/

/-- Speed and width of the link. -/
def linkOf (s : State) : Nat × Nat := (s.pcie.speed, s.pcie.width)

theorem linkOf_eq_of_pcie {s t : State} (h : t.pcie = s.pcie) : linkOf t = linkOf s := by rw [linkOf, linkOf, h]

@[simp] theorem linkOf_ite {c : Prop} [Decidable c] (a b : State) :
    linkOf (if c then a else b) = if c then linkOf a else linkOf b := apply_ite linkOf c a b

@[simp] theorem linkOf_cnt (s : State) (x : Counters) : linkOf { s with cnt := x } = linkOf s := rfl

theorem foldl_linkOf {α : Type} (f : State → α → State) (h : ∀ t x, linkOf (f t x) = linkOf t) (l : List α) (s : State) :
    linkOf (l.foldl f s) = linkOf s := by
  induction l generalizing s with
  | nil => rfl
  | cons x r ih => exact (ih (f s x)).trans (h s x)

@[simp] theorem signalVector_linkOf (v : Nat) (s : State) : linkOf (signalVector v s) = linkOf s := by
  unfold signalVector
  split <;> rfl

@[simp] theorem countOwn_linkOf (i n : Nat) (s : State) : linkOf (countOwn i n s) = linkOf s := by
  simp only [countOwn, linkOf_ite, signalVector_linkOf, linkOf_cnt, ite_self]

@[simp] theorem countOne_linkOf (i n : Nat) (s : State) : linkOf (countOne i n s) = linkOf s := by
  simp [countOne]

@[simp] theorem countWindow_linkOf (a b n : Nat) (s : State) : linkOf (countWindow a b n s) = linkOf s := by
  unfold countWindow
  split_ifs <;> rfl

@[simp] theorem countSrc_linkOf (a b n : Nat) (s : State) : linkOf (countSrc a b n s) = linkOf s :=
  (foldl_linkOf _ (fun t x => by simp) _ _).trans (countWindow_linkOf a b n s)

@[simp] theorem raiseVector_linkOf (v : Nat) (s : State) : linkOf (raiseVector v s) = linkOf s := by
  simp [raiseVector]

@[simp] theorem hostStore_linkOf (a : Nat) (l : List Byte) (s : State) : linkOf (hostStore a l s) = linkOf s :=
  countSrc_linkOf _ _ _ _

@[simp] theorem qset_linkOf (s : State) (q : QueueId) (v : Queue) : linkOf (qset s q v) = linkOf s := by
  cases q <;> rfl

@[simp] theorem qupd_linkOf (s : State) (q : QueueId) (f : Queue → Queue) : linkOf (qupd s q f) = linkOf s := qset_linkOf _ _ _

@[simp] theorem violation_linkOf (last : Nat) (s : State) : linkOf (violation last s) = linkOf s := by
  simp only [violation, noteStatus, linkOf_ite, raiseVector_linkOf]
  exact ite_self _

@[simp] theorem sendMsg_linkOf (p : Port) (m : RingMsg) (s : State) : linkOf (sendMsg p m s) = linkOf s := by
  simp only [sendMsg]
  split
  · exact countSrc_linkOf _ _ _ _
  · rfl
  · rfl

@[simp] theorem writeRecord_linkOf (q : QueueId) (r : Rec) (s : State) : linkOf (writeRecord q r s) = linkOf s := by
  have hring (p : QueueId) : linkOf (writeRingRecord p r s) = linkOf s := by simp [writeRingRecord]
  have hrelay : linkOf (writeRelayRecord r s) = linkOf s := by
    simp only [writeRelayRecord]
    split
    · exact sendMsg_linkOf _ _ _
    · rfl
  cases q
  case relay => exact hrelay
  case q3 => rfl
  all_goals exact hring _

@[simp] theorem emit_linkOf (q : QueueId) (r : Rec) (s : State) : linkOf (emit q r s) = linkOf s := by
  simp [emit, writePad]

@[simp] theorem closePacket_linkOf (q : QueueId) (n u : Nat) (s : State) : linkOf (closePacket q n u s) = linkOf s := by
  simp only [closePacket]
  split
  · exact (qupd_linkOf _ _ _).trans (qset_linkOf _ _ _)
  · simp

@[simp] theorem submit_linkOf (q : QueueId) (l : List Byte) (s : State) : linkOf (submit q l s) = linkOf s := by
  simp only [submit, linkOf_ite, closePacket_linkOf, appendOpen, qupd_linkOf, ite_self,
    foldl_linkOf _ (fun t _ => violation_linkOf _ t)]

@[simp] theorem takeHead_linkOf (q : QueueId) (w : WaitPk) (s : State) : linkOf (takeHead q w s) = linkOf s := by
  simp only [takeHead, linkOf_ite, countSrc_linkOf]
  exact (ite_self _).trans (qupd_linkOf _ _ _)

theorem begun_linkOf (op : Nat) (pk : Packet) (s : State) : linkOf (begun op pk s) = linkOf s := by
  simp [begun, submitted]

/-! The checks. -/

theorem checkSetCounter_eq_stOk {c : Ctx} (hlen : plainLen 8 c) (hi : u8 c.pk.params 0 ≤ 127) (hf : u8 c.pk.params 4 < 8)
    (hz : zeroAt c.pk.params 5 3) (ho : objectOk (u8 c.pk.params 1) (u16 c.pk.params 2))
    (hchain : (u8 c.pk.params 4).testBit 1 = false) (s : State) : checkSetCounter c s = stOk := by
  simp [checkSetCounter, hlen, hi, hf, hz, ho, hchain]

theorem checkGrantCounters_eq_stOk_iff (c : Ctx) (s : State) :
    checkGrantCounters c s = stOk ↔ plainLen 20 c ∧ u8 c.pk.params 0 ≤ 2 ∧ zeroAt c.pk.params 1 3 := by
  simp [checkGrantCounters, and_assoc]

theorem checkSetBwWindow_eq_stOk_iff (c : Ctx) (s : State) : checkSetBwWindow c s = stOk ↔
    plainLen 8 c ∧ u8 c.pk.params 0 ≤ 62 ∧ zeroAt c.pk.params 1 3 ∧ u32 c.pk.params 4 ≤ 1000000 := by
  simp [checkSetBwWindow, and_assoc]

theorem checkReadCounters_eq_stOk {c : Ctx} (hlen : plainLen 4 c) (hfirst : u8 c.pk.params 0 ≤ 127) (hcount : u8 c.pk.params 1 ≠ 0)
    (hlast : u8 c.pk.params 0 + u8 c.pk.params 1 ≤ 128) (hsnap : u8 c.pk.params 2 = 1) (hz : zeroAt c.pk.params 3 1) (s : State) :
    checkReadCounters c s = stOk := by
  simp [checkReadCounters, hlen, hfirst, hcount, hlast, hsnap, hz]

theorem checkGetPcieStatus_eq_stOk_iff (c : Ctx) (s : State) : checkGetPcieStatus c s = stOk ↔ plainLen 0 c := by
  simp [checkGetPcieStatus]

/-! The effects. -/

theorem runSetCounter_of_unchained {c : Ctx} (h : (u8 c.pk.params 4).testBit 1 = false) (s : State) :
    runSetCounter c s = done { s with cnt := { s.cnt with
      cfg := tset {} s.cnt.cfg (u8 c.pk.params 0)
        ⟨u8 c.pk.params 1, u16 c.pk.params 2, (u8 c.pk.params 4).testBit 0, false, (u8 c.pk.params 4).testBit 2⟩
      val := tset 0 s.cnt.val (u8 c.pk.params 0) 0
      ovf := setBit s.cnt.ovf (u8 c.pk.params 0) false } } := by
  simp only [runSetCounter, h]

theorem runGrantCounters_eq {c : Ctx} (h : u8 c.pk.params 0 ≤ 2) (s : State) :
    runGrantCounters c s = done { s with cnt := { s.cnt with
      grant := if u8 c.pk.params 0 = 0 then uField c.pk.params 4 16
        else if u8 c.pk.params 0 = 1 then s.cnt.grant ||| uField c.pk.params 4 16
        else s.cnt.grant - (s.cnt.grant &&& uField c.pk.params 4 16) } } := by
  unfold runGrantCounters
  interval_cases u8 c.pk.params 0 <;> rfl

theorem runReadCounters_of_snapshot {c : Ctx} (h : u8 c.pk.params 2 = 1) (s : State) :
    runReadCounters c s = doneWith (takeSnapshot s)
      ((List.range (u8 c.pk.params 1)).flatMap fun j => le 8 (tget 0 s.cnt.val (u8 c.pk.params 0 + j))) := by
  simp [runReadCounters, h, takeSnapshot]

/-! Reads of counters. -/

/-- No queue page lies from 0x1920 on (R413). -/
theorem queueBlock_eq_none {off : Nat} (h : 0x1920 ≤ off) : queueBlock off = none := by
  have h0 : ¬ off < 0x1120 := by omega
  have h1 : ¬ off < 0x1520 := by omega
  simp [queueBlock, h0, h1, h]

/-- A 32-bit read of the low half of a counter of BAR0 is allowed. -/
theorem accessOk_counterLow {i : Nat} (h : i < 128) (s : State) : accessOk s ⟨false, 0x4000 + 8 * i, false, 32⟩ = true := by
  have hblock : queueBlock (0x4000 + 8 * i) = none := queueBlock_eq_none (by omega)
  have hassigned : bar0Assigned (0x4000 + 8 * i) = true := by
    have hle : 0x4000 + 8 * i ≤ 0x45FC := by omega
    simp [bar0Assigned, hle]
  simp [accessOk, hblock, hassigned, List.range_succ]
  omega

theorem wideValue_counter {i : Nat} (h : i < 128) (s : State) : wideValue s (0x4000 + 8 * i) = some (counterValue s i) := by
  have hle : 0x4000 + 8 * i < 0x4400 := by omega
  have hmod : (0x4000 + 8 * i) % 8 = 0 := by omega
  simp [wideValue, hle, hmod]

theorem clearRead_counter {i : Nat} (h : i < 128) (s : State) : clearRead (0x4000 + 8 * i) s = s := by
  have hlost : 0x4000 + 8 * i ≠ 0x2014 := by omega
  have hpeak : ¬ 0x4800 ≤ 0x4000 + 8 * i := by omega
  simp [clearRead, hlost, hpeak]

theorem readLatched_counterLow {i : Nat} (h : i < 128) (s : State) {r : State} (hr : r = countSrc 0x0A 60 4 s) :
    readLatched (0x4000 + 8 * i) s = { r with
      cnt := { r.cnt with latchKey := some (0x4000 + 8 * i), latchVal := counterValue r i / 2 ^ 32 }
      page := { r.page with readData := counterValue r i % 2 ^ 32 } } := by
  have hmod : (0x4000 + 8 * i) % 8 = 0 := by omega
  have hoff : (0x4000 + 8 * i) / 8 * 8 = 0x4000 + 8 * i := by omega
  simp [readLatched, ← hr, accessOk_counterLow h, hoff, wideValue_counter h, hmod, clearRead_counter h]

/-- A 64-bit read of a granted counter of BAR2 is allowed. -/
theorem accessOk_bar2 {i : Nat} (h : i < 128) {s : State} (hg : s.cnt.grant.testBit i = true) :
    accessOk s ⟨true, 8 * i, false, 64⟩ = true := by
  simp [accessOk, hg]
  omega

theorem readBar2_wide {i : Nat} (h : i < 128) (s : State) {r : State} (hr : r = countSrc 0x0A 60 8 s)
    (hg : r.cnt.grant.testBit i = true) :
    readBar2 (8 * i) true s = { r with page := { r.page with readData := counterValue r i } } := by
  simp [readBar2, ← hr, accessOk_bar2 h hg]

theorem peakRead_in {p : Nat} (h : p < 63) {s r : State} (hr : r = countSrc 0x0A 60 8 s) :
    exec (.bwPeakRead p false true) s = .next { r with
      cnt := { r.cnt with bwPeakIn := tset 0 r.cnt.bwPeakIn p 0 }
      page := { r.page with readData := tget 0 r.cnt.bwPeakIn p } } := by
  subst hr
  exact next_congr (if_neg (Nat.not_le.2 h))

theorem peakRead_out {p : Nat} (h : p < 63) {s r : State} (hr : r = countSrc 0x0A 60 8 s) :
    exec (.bwPeakRead p true true) s = .next { r with
      cnt := { r.cnt with bwPeakOut := tset 0 r.cnt.bwPeakOut p 0 }
      page := { r.page with readData := tget 0 r.cnt.bwPeakOut p } } := by
  subst hr
  exact next_congr (if_neg (Nat.not_le.2 h))

/-- A deadline that does not lie ahead lets no time pass. -/
theorem advanceTo_of_le {t : Nat} {s : State} (h : t ≤ s.now) : advanceTo t s = s := if_pos h

/-- Settles O6. -/
theorem counterRowsComplete : Obligations.CounterRowsComplete := by
  refine ⟨?setCounter, ?grantCounters, ?setBwWindow, ?readCounters, ?getPcieStatus, ?bwPeakRead, ?counterLowRead, ?bar2CounterRead,
    ?counterWrap, ?bwWindowEnd⟩
  case setCounter =>
    intro pk s hs hlen hi hf hz ho hchain
    exact next_congr (serve_done hs (checkSetCounter_eq_stOk hlen hi hf hz ho hchain _) (runSetCounter_of_unchained hchain _))
  case grantCounters =>
    intro pk s hs hlen hmode hz
    exact next_congr (serve_done hs ((checkGrantCounters_eq_stOk_iff _ _).2 ⟨hlen, hmode, hz⟩) (runGrantCounters_eq hmode _))
  case setBwWindow =>
    intro pk s hs hlen hport hz hwin
    exact next_congr (serve_done hs ((checkSetBwWindow_eq_stOk_iff _ _).2 ⟨hlen, hport, hz, hwin⟩) rfl)
  case readCounters =>
    intro pk s hs hlen hfirst hcount hlast hsnap hz
    exact next_congr (serve_doneWith hs (checkReadCounters_eq_stOk hlen hfirst hcount hlast hsnap hz _)
      (runReadCounters_of_snapshot hsnap _))
  case getPcieStatus =>
    intro pk s hs hlen
    obtain ⟨hspeed, hwidth⟩ := Prod.mk.inj (begun_linkOf 0x0B05 pk s)
    refine ⟨_, next_congr (serve_doneWith hs ((checkGetPcieStatus_eq_stOk_iff _ _).2 hlen) rfl), ?length, ?speed, ?width⟩
    case length => simp
    case speed => simp [u8_append_left, linkErrors, drawNat, hspeed]
    case width => simp [u8_append_left, u8_append_right, linkErrors, drawNat, hwidth]
  case bwPeakRead => exact fun p s hp r hr => ⟨peakRead_in hp hr, peakRead_out hp hr⟩
  case counterLowRead => exact fun i s hi r hr => next_congr (readLatched_counterLow hi s hr)
  case bar2CounterRead => exact fun i s hi r hr hg => next_congr (readBar2_wide hi s hr hg)
  case counterWrap =>
    intro i n s hi henable hchain hlt
    rw [exec_counterWrap_of_enable n hi henable hchain, countOne, Nat.div_eq_of_lt hlt, countOwn_of_lt hlt]
    simp
  case bwWindowEnd =>
    intro p e i o s hend hnow hi ho hacci hacco
    have hexec : exec (.bwWindowEnd p) s = execBwWindowEnd p s := rfl
    have hi' := Nat.mod_eq_of_lt hi
    have ho' := Nat.mod_eq_of_lt ho
    simp only [hexec, execBwWindowEnd, hend, advanceTo_of_le hnow, hacci, hacco, hi', ho', tupd]

end Sys2Proof.Machine
end

section
/-! SUPPORT and PROOF. The packet, queue and register rows (R382 to R426): what a posted write reaches in BAR0, and where each row
completes. -/

namespace Sys2Proof.Machine

/-! Queues. -/

@[simp] theorem qget_qupd_same (s : State) (q : QueueId) (f : Queue → Queue) : qget (qupd s q f) q = f (qget s q) :=
  qget_qset_same _ _ _

/-- Queues are read from the interface alone. -/
theorem qget_congr {s t : State} (h : t.swiys = s.swiys) (q : QueueId) : qget t q = qget s q := by
  cases q <;> simp only [qget, h]

@[simp] theorem qget_countSrc (a b n : Nat) (s : State) (q : QueueId) : qget (countSrc a b n s) q = qget s q :=
  qget_congr (by simp) q

@[simp] theorem lineRoom_countSrc (a b n : Nat) (s : State) (q : QueueId) : lineRoom (countSrc a b n s) q = lineRoom s q := by
  rw [lineRoom, lineRoom, linesFree, linesFree, qget_countSrc]

/-! Posted writes. -/

/-- Where nothing stalls, a posted write is counted and takes effect. -/
theorem posted_of_unstalled {s : State} (h : s.swiys.stalled = []) (w : PostedWrite) (err : MemErr) :
    posted w err s = takePosted w err (countSrc 0x09 60 4 s) := by
  simp [posted, inOrder, h]

theorem takePosted_qdata {q : QueueId} {s : State} (hopen : queuesOpen s = true) (hroom : lineRoom s q = true) (w : BitVec 32) :
    takePosted (.qdata q w) .clean s = appendOpen q (le 4 w.toNat) s := by
  simp [takePosted, hopen, hroom, takeWord, lineCheck]

theorem takePosted_qend {s : State} (hopen : queuesOpen s = true) (q : QueueId) (n : Nat) :
    takePosted (.qend q n) .clean s = closePacket q (n % 2 ^ 13) 4 s := by
  simp [takePosted, hopen, lineCheck]

/-- A write past the queue pages reaches the register that the offset assigns. -/
theorem writeReg_size {q : QueueId} (h3 : q ≠ .q3) (hrelay : q ≠ .relay) (v : Nat) (s : State) :
    writeReg (queueBase q + 0x110) v s = qupd s q fun x => { x with ring := writeSize 13 24 (v % 32) x.ring } := by
  cases q with
  | q3 => exact absurd rfl h3
  | relay => exact absurd rfl hrelay
  | _ => rfl

theorem writeReg_head {q : QueueId} (h3 : q ≠ .q3) (hrelay : q ≠ .relay) (v : Nat) {s : State} (hhold : (qget s q).hold = []) :
    writeReg (queueBase q + 0x114) v s = qupd s q fun x => { x with ring := writeHead 32 (v % 2 ^ 24) x.ring } := by
  have hreg : writeReg (queueBase q + 0x114) v s = writeQueueReg q 0x114 v s := by
    cases q with
    | q3 => exact absurd rfl h3
    | relay => exact absurd rfl hrelay
    | _ => rfl
  simp [hreg, writeQueueReg, hhold]

theorem writeReg_evtSize (v : Nat) (s : State) :
    writeReg 0x2008 v s = { s with ev := { s.ev with ring := writeSize 12 20 (v % 32) s.ev.ring } } := rfl

theorem writeReg_evtHead (v : Nat) (s : State) :
    writeReg 0x200C v s = { s with ev := { s.ev with ring := writeHead 32 (v % 2 ^ 20) s.ev.ring } } := rfl

theorem writeReg_snapshot (v : Nat) (s : State) : writeReg 0x4610 v s = if v.testBit 0 then takeSnapshot s else s := rfl

theorem writeReg_violationClear (v : Nat) (s : State) :
    writeReg 0x5008 v s = if v.testBit 0 then { s with page := { s.page with violations := 0, last := 0 } } else s := rfl

/-- The vector control of a vector (R414). -/
theorem writeReg_msixCtrl {i : Nat} (h : i < 22) (v : Nat) (s : State) :
    writeReg (0x2800 + 16 * i + 12) v s = writeMsix (16 * i + 12) v s := by
  interval_cases i <;> rfl

/-- A register of a DMA block (R417). -/
theorem writeReg_dma {c o : Nat} (hc : c < 16) (ho : o ≤ 0x34) (h4 : o % 4 = 0) (v : Nat) (s : State) :
    writeReg (0x3000 + 0x100 * c + o) v s = writeDmaReg c o v s := by
  have hblock : queueBlock (0x3000 + 0x100 * c + o) = none := queueBlock_eq_none (by omega)
  have hpage : (0x3000 + 0x100 * c + o) % 0x100 = o := by omega
  have hchan : (0x3000 + 0x100 * c + o - 0x3000) / 0x100 = c := by omega
  have hlo : 0x3000 ≤ 0x3000 + 0x100 * c + o := by omega
  have hhi : 0x3000 + 0x100 * c + o < 0x4000 := by omega
  have hassigned : bar0Assigned (0x3000 + 0x100 * c + o) = true := by
    simp only [bar0Assigned, hblock, hpage, hhi, hlo, ho, decide_true, Bool.and_true, Bool.or_true, Bool.true_or]
  have halign : (0x3000 + 0x100 * c + o) % 4 = 0 := by omega
  have hno0 : 0x3000 + 0x100 * c + o ≠ 0x2000 := by omega
  have hno4 : 0x3000 + 0x100 * c + o ≠ 0x2004 := by omega
  have hno8 : 0x3000 + 0x100 * c + o ≠ 0x2008 := by omega
  have hnoC : 0x3000 + 0x100 * c + o ≠ 0x200C := by omega
  have hmsix : ¬ 0x3000 + 0x100 * c + o ≤ 0x295C := by omega
  simp only [writeReg, hblock, hassigned, halign, hno0, hno4, hno8, hnoC, hmsix, hlo, hhi, hchan, hpage, Bool.not_true, bne_self_eq_false,
    Bool.or_self, Bool.false_eq_true, if_false, decide_false, Bool.and_false, decide_true, Bool.and_self, if_true]

/-- A word of CNT_OVF (R418). -/
theorem writeReg_ovf {i : Nat} (h : i < 4) (v : Nat) (s : State) :
    writeReg (0x4620 + 4 * i) v s =
      { s with cnt := { s.cnt with ovf := s.cnt.ovf - (s.cnt.ovf &&& (v % 2 ^ 32 * 2 ^ (32 * i))) } } := by
  interval_cases i <;> rfl

/-! Rings. -/

theorem writeSize_of_range {lo hi v : Nat} {r : HostRing} (h0 : 0 < lo) (hr : r.sizeLog = 0) (hlo : lo ≤ v) (hhi : v ≤ hi) :
    writeSize lo hi v r = { r with sizeLog := v } := by
  have hv : v ≠ 0 := by omega
  simp [writeSize, hv, hr, hlo, hhi]

theorem writeHead_of_valid {unit v : Nat} {r : HostRing} (h : headValid unit v r = true) :
    writeHead unit v r = { r with head := v, headErr := false } := if_pos h

/-! Channels. -/

/-- Two updates of a place that agree on its present value are one. -/
theorem lupd_congr {α : Type} {l : List α} {i : Nat} {d : α} {f g : α → α} (h : f (l.getD i d) = g (l.getD i d)) :
    lupd l i f = lupd l i g := by
  refine List.ext_getElem? fun j => ?_
  simp only [lupd, List.getElem?_modify]
  split
  · next hij =>
    subst hij
    cases hl : l[i]? with
    | none => rfl
    | some x =>
      rw [List.getD_eq_getElem?_getD, hl, Option.getD_some] at h
      simp [h]
  · rfl

theorem chanUpd_congr {s : State} {c : Nat} {f g : Channel → Channel} (h : f (chanGet s c) = g (chanGet s c)) :
    chanUpd c f s = chanUpd c g s := by
  rw [chanUpd, chanUpd, lupd_congr h]

@[simp] theorem chanGet_countSrc (a b n : Nat) (s : State) (c : Nat) : chanGet (countSrc a b n s) c = chanGet s c := by
  simp [chanGet]

@[simp] theorem chanGet_hostCells (l : List (Nat × Byte)) (s : State) (c : Nat) : chanGet (hostCells l s) c = chanGet s c := by
  simp [chanGet]

/-! Two updates of a queue that agree on its present value. -/

theorem qupd_congr {s : State} {q : QueueId} {f g : Queue → Queue} (h : f (qget s q) = g (qget s q)) : qupd s q f = qupd s q g := by
  rw [qupd, qupd, h]

end Sys2Proof.Machine
end

section
/-! SUPPORT and PROOF. Where the packet, queue, endpoint, ring and DMA rows complete (R382 to R426, R436, R447). -/

namespace Sys2Proof.Machine

/-! Raw packets. -/

/-- The packet that has just entered an empty queue runs where the controller chooses it. -/
theorem serveRaw_of_chosen {q : QueueId} {l : List Byte} {s : State} (hempty : (qget s q).waiting = [])
    (hwait : (qget (submit q l s) q).waiting = [⟨l, s.swiys.subCount⟩]) (hchosen : chosen (submit q l s) = some q)
    (f : WaitPk → State → State) : serveRaw q l f s = f ⟨l, s.swiys.subCount⟩ (submit q l s) := by
  simp [serveRaw, hempty, hwait, hchosen]

/-! Rows of a PCIe queue. -/

section pcie_queue
variable {q : QueueId} (h3 : q ≠ .q3) (hrelay : q ≠ .relay)
include h3 hrelay

theorem exec_qdataWrite (w : BitVec 32) (err : MemErr) (s : State) :
    exec (.qdataWrite q w err) s = .next (posted (.qdata q w) err s) := by
  cases q with
  | q3 => exact absurd rfl h3
  | relay => exact absurd rfl hrelay
  | _ => rfl

theorem exec_queueWriteResume (s : State) : exec (.queueWriteResume q) s = .next (resumePosted s) := by
  cases q with
  | q3 => exact absurd rfl h3
  | relay => exact absurd rfl hrelay
  | _ => rfl

theorem exec_qend (n : Nat) (err : MemErr) (s : State) : exec (.qend q n err) s = .next (posted (.qend q n) err s) := by
  cases q with
  | q3 => exact absurd rfl h3
  | relay => exact absurd rfl hrelay
  | _ => rfl

theorem exec_qrspSizeWrite (v : BitVec 32) (s : State) :
    exec (.qrspSizeWrite q v) s = .next (posted (.reg (queueBase q + 0x110) v.toNat) .clean s) := by
  cases q with
  | q3 => exact absurd rfl h3
  | relay => exact absurd rfl hrelay
  | _ => rfl

theorem exec_qrspHeadWrite (v : BitVec 32) (s : State) :
    exec (.qrspHeadWrite q v) s = .next (posted (.reg (queueBase q + 0x114) v.toNat) .clean s) := by
  cases q with
  | q3 => exact absurd rfl h3
  | relay => exact absurd rfl hrelay
  | _ => rfl

end pcie_queue

/-- The one stalled word goes on. -/
theorem resumePosted_qdata {q : QueueId} {w : BitVec 32} {s : State} (hstalled : s.swiys.stalled = [.qdata q w])
    (hopen : queuesOpen s = true) (hroom : lineRoom s q = true) :
    resumePosted s = appendOpen q (le 4 w.toNat) { s with swiys := { s.swiys with stalled := [] } } := by
  have hroom' : lineRoom { s with swiys := { s.swiys with stalled := [] } } q = true := by
    cases q <;> exact hroom
  have hopen' : queuesOpen { s with swiys := { s.swiys with stalled := [] } } = true := hopen
  simp [resumePosted, hstalled, inOrder, takePosted_qdata hopen' hroom']

/-- Settles O2. -/
theorem packetEventsComplete : Obligations.PacketEventsComplete := by
  refine ⟨?invalidPacket, ?relayRequest, ?qdataWrite, ?queueWriteResume, ?qend, ?twiQdataWrite, ?twiQendWrite, ?twiRspRead,
    ?twiStretchExpiry⟩
  case invalidPacket =>
    intro q l s hempty hwait hchosen hbad
    exact next_congr ((serveRaw_of_chosen hempty hwait hchosen _).trans (if_neg hbad))
  case relayRequest =>
    intro q l s hempty hwait hchosen hok hworker hrelay
    exact next_congr ((serveRaw_of_chosen hempty hwait hchosen _).trans (if_pos (by simp [hok, hworker, hrelay])))
  case qdataWrite =>
    intro q w s h3 hrelay hstalled hopen hroom
    rw [exec_qdataWrite h3 hrelay, posted_of_unstalled hstalled, takePosted_qdata hopen hroom]
    simp [appendOpen]
  case queueWriteResume =>
    intro q w s h3 hrelay hstalled hopen hroom
    rw [exec_queueWriteResume h3 hrelay, resumePosted_qdata hstalled hopen hroom]
  case qend =>
    intro q n s h3 hrelay hstalled hopen
    rw [exec_qend h3 hrelay, posted_of_unstalled hstalled, takePosted_qend hopen]
  case twiQdataWrite =>
    intro b s hopen hheld hroom
    have hexec : exec (.twiQdataWrite b .clean) s = .next (twiByte b .clean s) := rfl
    simp [hexec, twiByte, hopen, hheld, hroom, lineCheck]
  case twiQendWrite =>
    intro l s hopen hheld hlen
    have hexec : exec (.twiQendWrite l) s = .next (twiClose l s) := rfl
    simp [hexec, twiClose, hopen, hheld, hlen]
  case twiRspRead =>
    intro b c l r s hbuf
    have hexec : exec .twiRspRead s = .next (twiRead s) := rfl
    simp [hexec, twiRead, hbuf]
  case twiStretchExpiry =>
    intro h t s hheld hlimit hnow
    have hexec : exec .twiStretchExpiry s = execTwiStretchExpiry s := rfl
    simp [hexec, execTwiStretchExpiry, hheld, hlimit, advanceTo_of_le hnow]

/-- Settles O3. -/
theorem queueEventsComplete : Obligations.QueueEventsComplete := by
  refine ⟨?responseWrite, ?pointerWindowClose, ?fenceComplete⟩
  case responseWrite =>
    intro q r l s hhold hpad hroom
    have hexec : exec (.responseWrite q) s = .next (flushRecord q s) := rfl
    simp [hexec, flushRecord, hhold, hpad, hroom]
  case pointerWindowClose =>
    intro q t s hwindow
    have hexec (m : Bool) : exec (.pointerWindowClose q m) s = execPointerWindowClose q m s := rfl
    simp [hexec, execPointerWindowClose, hwindow]
  case fenceComplete =>
    intro q f s hfence hmask hrelay
    have hexec : exec (.fenceComplete q) s = execFenceComplete q s := rfl
    have hall : ([QueueId.q0, .q1, .q2, .q3].all fun p => !f.mask.testBit (queueNum p) || fencePassed f (qget s p)) = true := by
      simp only [List.all_eq_true, Bool.or_eq_true, Bool.not_eq_true']
      intro p hp
      cases hbit : f.mask.testBit (queueNum p)
      · exact .inl rfl
      · exact .inr (hmask p (by rintro rfl; simp at hp) hbit)
    have hown : (q != .relay || fencePassed f (qget s q)) = true := by
      by_cases hq : q = .relay
      · subst hq
        simp [hrelay rfl]
      · simp [hq]
    simp only [hexec, execFenceComplete, hfence, hall, hown, Bool.and_self, if_true]

/-- The state once a configuration request has been answered normally (R409). -/
def cfgAnswered (s : State) : State := { s with pcie := { s.pcie with retry := false, answerAt := none } }

/-- A read of the configuration space takes a free value at most. -/
theorem cfgRead_eq (off : Nat) (s : State) :
    cfgRead off s = ((cfgRead off s).1, { s with free := (cfgRead off s).2.free }) := by
  unfold cfgRead
  split_ifs <;> rfl

/-- Once READY, a read of the configuration space answers its word. -/
theorem exec_configRequest_read {s : State} (hready : s.ctl.ready = true) (hperst : s.pcie.perst = false) (off : Nat) :
    exec (.configRequest (.read off)) s = .next { cfgAnswered s with
      free := (cfgRead off (cfgAnswered s)).2.free
      page := { s.page with readData := (cfgRead off (cfgAnswered s)).1 } } := by
  have hexec : exec (.configRequest (.read off)) s = execConfigRequest (.read off) s := rfl
  have hopen : ¬ (!s.ctl.ready || s.pcie.perst) = true := by simp [hready, hperst]
  rw [hexec, execConfigRequest, if_neg hopen]
  change Host.Outcome.next { (cfgRead off (cfgAnswered s)).2 with
    page := { (cfgRead off (cfgAnswered s)).2.page with readData := (cfgRead off (cfgAnswered s)).1 } } = _
  rw [cfgRead_eq]
  rfl

/-- Settles O4. -/
theorem endpointEventsComplete : Obligations.EndpointEventsComplete := by
  refine ⟨?configRequest, ?functionLevelReset, ?perstNAssert, ?perstNDeassert, ?pcieLink, ?evtLostRead, ?msixUnmask, ?violationRead,
    ?violationWrite, ?violationClear, ?eventRingWrite⟩
  case configRequest =>
    intro v s hready hperst
    have hexec (w : CfgAccess) : exec (.configRequest w) s = execConfigRequest w s := rfl
    refine ⟨?idWord, fun off => ⟨_, _, exec_configRequest_read hready hperst off, rfl, rfl, rfl⟩, ?busMaster, ?msixEnable, ?msixMask⟩
    case idWord => exact exec_configRequest_read hready hperst 0
    case busMaster | msixEnable | msixMask => simp [hexec, execConfigRequest, hready, hperst]
  case functionLevelReset => exact fun s hready => next_congr (if_pos hready)
  case perstNAssert =>
    intro s hready hperst
    have hexec : exec .perstNAssert s = execPerstNAssert s := rfl
    simp [hexec, execPerstNAssert, hready, hperst]
  case perstNDeassert =>
    intro s hready
    have hexec : exec .perstNDeassert s = execPerstNDeassert s := rfl
    simp [hexec, execPerstNDeassert, hready]
  case pcieLink =>
    intro speed width s hchange hup
    have hexec : exec (.pcieLink speed width) s = execPcieLink speed width s := rfl
    simp [hexec, execPcieLink, hchange, hup, b2n]
  case evtLostRead =>
    intro s
    have hexec : exec .evtLostRead s = execEvtLostRead s := rfl
    simp [hexec, execEvtLostRead]
  case msixUnmask =>
    intro v s hv hstalled
    have hexec : exec (.msixUnmask v) s = execMsixUnmask v s := rfl
    have hentry : (16 * v + 12) / 16 = v := by omega
    simp [hexec, execMsixUnmask, hv, posted_of_unstalled hstalled, takePosted, writeReg_msixCtrl hv, writeMsix, hentry]
  case violationRead =>
    intro a s hbad hread
    have hexec : exec (.violation a) s = execViolation a s := rfl
    simp [hexec, execViolation, hbad, hread]
  case violationWrite =>
    intro a s hbad hwrite
    have hexec : exec (.violation a) s = execViolation a s := rfl
    simp [hexec, execViolation, hbad, hwrite]
  case violationClear =>
    intro v s hbit hstalled
    have hexec : exec (.violationClear v) s = .next (posted (.reg 0x5008 v.toNat) .clean s) := rfl
    have hbit' : v.toNat.testBit 0 = true := hbit
    rw [hexec, posted_of_unstalled hstalled, takePosted, writeReg_violationClear, if_pos hbit']
  case eventRingWrite =>
    intro e l s hhold hroom
    have hexec : exec .eventRingWrite s = .next (flushEvent s) := rfl
    simp [hexec, flushEvent, hhold, hroom]

/-- Settles O5. -/
theorem ringAndDmaRowsComplete : Obligations.RingAndDmaRowsComplete := by
  refine ⟨?qrspSizeWrite, ?qrspHeadWrite, ?evtSizeWrite, ?evtHeadWrite, ?dmaDoorbell, ?dmaAbort, ?dmaCplHeadWrite, ?cntSnapshot,
    ?cntOvfClear, ?registerWrite, ?dmaBurst, ?receiveFlushTimeout⟩
  case qrspSizeWrite =>
    intro q v s h3 hrelay hstalled hsize hlo hhi
    rw [exec_qrspSizeWrite h3 hrelay, posted_of_unstalled hstalled, takePosted, writeReg_size h3 hrelay]
    exact next_congr (qupd_congr (by simp [writeSize_of_range, hsize, hlo, hhi]))
  case qrspHeadWrite =>
    intro q v s h3 hrelay hstalled hhold hvalid
    rw [exec_qrspHeadWrite h3 hrelay, posted_of_unstalled hstalled, takePosted, writeReg_head h3 hrelay _ (by simpa using hhold)]
    exact next_congr (qupd_congr (by rw [qget_countSrc, writeHead_of_valid hvalid]))
  case evtSizeWrite =>
    intro v s hstalled hsize hlo hhi
    have hexec : exec (.evtSizeWrite v) s = .next (posted (.reg 0x2008 v.toNat) .clean s) := rfl
    rw [hexec, posted_of_unstalled hstalled, takePosted, writeReg_evtSize]
    simp [writeSize_of_range, hsize, hlo, hhi]
  case evtHeadWrite =>
    intro v s hstalled hvalid
    have hexec : exec (.evtHeadWrite v) s = .next (posted (.reg 0x200C v.toNat) .clean s) := rfl
    rw [hexec, posted_of_unstalled hstalled, takePosted, writeReg_evtHead,
      (countSrc_frame 0x09 60 4 s).2.2.2.2.2.2.1, writeHead_of_valid hvalid]
  case dmaDoorbell =>
    intro c host s hc hstalled hrun hpre hwaits hhead
    have hexec : exec (.dmaDoorbell c host false) s = execDmaDoorbell c host false s := rfl
    simp [hexec, execDmaDoorbell, hc, posted_of_unstalled hstalled, takePosted, doorbell, hrun, hpre, hwaits, hhead]
  case dmaAbort =>
    intro c d s hc hstalled hbusy hdesc
    have hexec : exec (.dmaAbort c) s = execDmaAbort c s := rfl
    have hidle : (chanGet s c).state ≠ 0 ∧ (chanGet s c).state ≠ 3 := by omega
    simp [hexec, execDmaAbort, hc, posted_of_unstalled hstalled, takePosted, writeReg_dma hc, writeDmaReg, abortChannel, hidle, hdesc]
  case dmaCplHeadWrite =>
    intro c v s hc hstalled hvalid
    have hexec : exec (.dmaCplHeadWrite c v) s = execDmaCplHeadWrite c v s := rfl
    rw [hexec, execDmaCplHeadWrite, if_pos hc, posted_of_unstalled hstalled, takePosted, writeReg_dma hc (by decide) (by decide)]
    exact next_congr (chanUpd_congr (by rw [chanGet_countSrc, writeHead_of_valid hvalid]))
  case cntSnapshot =>
    intro v s hstalled hbit
    have hexec : exec (.cntSnapshot v) s = .next (posted (.reg 0x4610 v.toNat) .clean s) := rfl
    have hbit' : v.toNat.testBit 0 = true := hbit
    rw [hexec, posted_of_unstalled hstalled, takePosted, writeReg_snapshot, if_pos hbit']
    rfl
  case cntOvfClear =>
    intro i v s hi hstalled
    have hrow : exec (.cntOvfClear i v) s = execCntOvfClear i v s := rfl
    rw [execCntOvfClear, if_pos hi, posted_of_unstalled hstalled, takePosted, writeReg_ovf hi, Nat.mod_eq_of_lt v.isLt] at hrow
    exact ⟨_, hrow, rfl, rfl⟩
  case registerWrite =>
    intro off v s hstalled
    exact next_congr (posted_of_unstalled hstalled _ _)
  case dmaBurst =>
    intro c d host hostErr domeErr s hchosen hdesc b hb
    have hexec : exec (.dmaBurst host hostErr domeErr) s = execDmaBurst host hostErr domeErr s := rfl
    have hpcie : (hostCells host s).pcie = s.pcie := by simp
    rw [← hb] at hdesc
    simp only [hexec, execDmaBurst, hchosen, hpcie, ← hb, hdesc, Option.isNone_some, Bool.false_eq_true, if_false, Option.isSome_some,
      Bool.and_true]
    generalize descKind d = k
    obtain _ | _ | k := k <;> simp
  case receiveFlushTimeout =>
    intro c t d s hdesc hflush hnow hmoved hnone hcrc
    have hexec : exec (.receiveFlushTimeout c) s = execReceiveFlushTimeout c s := rfl
    simp [hexec, execReceiveFlushTimeout, hdesc, hflush, hmoved, hnone, advanceTo_of_le hnow, hcrc]

end Sys2Proof.Machine
end

section
/-! SUPPORT and PROOF. Modes, domains, supplies and pins (R18, R22 to R25, R56, R57, R465 to R475, R493 to R497): the packets that the checks
pass, the effects, and where each row completes. -/

namespace Sys2Proof.Machine

/-! The commands. -/

theorem checkGetPowerStatus_eq_stOk_iff (c : Ctx) (s : State) : checkGetPowerStatus c s = stOk ↔ plainLen 0 c := by
  simp [checkGetPowerStatus]

/-- What a transition starts is judged from the outer part of the state. -/
theorem transStarts_begun (op : Nat) (pk : Packet) (s : State) (m : Mode) : transStarts (begun op pk s) m = transStarts s m :=
  begun_congr (f := fun t => transStarts t m) (fun _ => rfl) op pk s

theorem onMask_begun (op : Nat) (pk : Packet) (s : State) : onMask (begun op pk s) = onMask s :=
  begun_congr (fun _ => rfl) op pk s

/-- The domains of a mask wanted ON, or not. -/
def wantDomains (up : Bool) (ds : List Nat) (s : State) : State :=
  ds.foldl (fun t d => domUpd d (fun x => { x with wanted := up }) t) s

theorem runSetDomains_down {c : Ctx} (h : u8 c.pk.params 4 = 0) (s : State) {t : State}
    (ht : t = powerDown (maskDoms (u32 c.pk.params 0)) (wantDomains false (maskDoms (u32 c.pk.params 0)) s)) :
    runSetDomains c s = { s := t, accepted := true, final := some (stOk, le 4 (onMask t) ++ le 4 0) } := by
  subst ht
  simp [runSetDomains, h, wantDomains]

theorem runSetDomains_up {c : Ctx} (h : u8 c.pk.params 4 = 1) (s : State) {t : State}
    (ht : t = wantDomains true (maskDoms (u32 c.pk.params 0)) s) (hon : (maskDoms (u32 c.pk.params 0)).all (domOn t) = false) :
    runSetDomains c s = later (requestUp (maskDoms (u32 c.pk.params 0)) { t with
      power := { t.power with jobs := t.power.jobs ++ [⟨c.ref, maskDoms (u32 c.pk.params 0), true, [], stOk⟩] } }) := by
  subst ht
  simp only [wantDomains] at hon ⊢
  simp only [runSetDomains, h, beq_self_eq_true, Bool.not_true, Bool.false_or, hon, Bool.false_eq_true, if_false]

theorem runSetSupervision_rail {c : Ctx} (h : u8 c.pk.params 0 ≠ 0xFF) (s : State) :
    runSetSupervision c s = done { s with
      power := { s.power with
        rails := lupd s.power.rails (u8 c.pk.params 0) fun r =>
          { r with warnLvl := u8 c.pk.params 1, resetLvl := u8 c.pk.params 2, deglitch := u8 c.pk.params 3 }
        autoReturn := u8 c.pk.params 4 == 1 }
      pins := { s.pins with td := u16 c.pk.params 6 } } := by
  simp [runSetSupervision, h]

/-- Settles O7. -/
theorem powerCommandsComplete : Obligations.PowerCommandsComplete := by
  refine ⟨?setMode, ?setDomainsDown, ?setDomainsUp, ?getPowerStatus, ?setSupervision, ?clearPairFault⟩
  case setMode =>
    intro pk s hs hcheck ups hups
    refine next_congr (serve_later hs hcheck ?_)
    rw [← transStarts_begun 0x0101 pk] at hups
    subst hups
    simp [runSetMode]
  case setDomainsDown =>
    intro pk s hs hcheck hdown
    exact ⟨_, rfl, next_congr (by rw [serve_runs hs hcheck, runSetDomains_down hdown _ rfl]; rfl)⟩
  case setDomainsUp =>
    intro pk s hs hcheck hup
    exact ⟨_, rfl, fun hon => next_congr (serve_later hs hcheck (runSetDomains_up hup _ rfl hon))⟩
  case getPowerStatus =>
    intro pk s hs hlen
    refine ⟨_, next_congr (serve_doneWith hs ((checkGetPowerStatus_eq_stOk_iff _ _).2 hlen) (by simp [runGetPowerStatus]; rfl)), ?length,
      ?mask⟩
    case length => simp
    case mask => simp [u32_append_left, onMask_begun]
  case setSupervision =>
    intro pk s hs hcheck hrail
    refine next_congr (serve_done hs hcheck ?_)
    rw [runSetSupervision_rail hrail]
    simp
  case clearPairFault =>
    intro pk s hs hlen hA hB hfault
    have hcheck : checkClearPairFault (ctxOf pk s) (begun 0x0105 pk s) = stOk := by
      simp [checkClearPairFault_of_plainLen hlen, hA, hB]
    refine next_congr (serve_done hs hcheck ?_)
    rw [runClearPairFault_of_set _ (by simpa using hfault)]
    simp

/-! Transitions and domains. -/

/-- Settles O8. -/
theorem transitionEventsComplete : Obligations.TransitionEventsComplete := by
  refine ⟨?modeAnnounce, ?modeBoundary, ?rampDownDone, ?domainPllLock, ?domainInitDone, ?fifoMismatch, ?fifoWindowClose⟩
  case modeAnnounce =>
    intro t s htrans hstep
    have hexec : exec .modeAnnounce s = execModeAnnounce s := rfl
    simp [hexec, execModeAnnounce, htrans, hstep]
  case modeBoundary =>
    intro t s htrans hstep hframer hmode
    have hexec : exec .modeBoundary s = execModeBoundary s := rfl
    simp [hexec, execModeBoundary, htrans, hstep, hframer, hmode]
  case rampDownDone =>
    intro t s htrans hstep hA hB
    have hexec : exec .rampDownDone s = execRampDownDone s := rfl
    simp [hexec, execRampDownDone, htrans, hstep, hA, hB]
  case domainPllLock =>
    intro d s hstate
    exact next_congr (if_pos (by simp [hstate]))
  case domainInitDone =>
    intro d s hstate h23 h24
    exact next_congr (if_pos (by simp [hstate, h23, h24]))
  case fifoMismatch =>
    intro d t f s hwindow hdom r hr
    have hexec : exec (.fifoMismatch d f) s = execFifoMismatch d f s := rfl
    have hown : (fifoDom f).getD d = d := by
      obtain h | h := hdom <;> simp [h]
    simp [hexec, execFifoMismatch, hwindow, hown, hr]
  case fifoWindowClose =>
    intro d t s hwindow
    have hexec : exec (.fifoWindowClose d) s = execFifoWindowClose d s := rfl
    simp [hexec, execFifoWindowClose, hwindow]

/-! Pins and rails. -/

/-- A rail below its warning level warns for the first time (R471). -/
theorem warnRail_low {r mv : Nat} {s : State} (hr : r ≤ 8) (hwarn : (s.power.rails.getD r {}).warn = 0)
    (hlow : mv * 1000 < railNominal r * (1000 - (s.power.rails.getD r {}).warnLvl)) :
    warnRail r mv s = noteStatus s (dropWaiting (railDomains r) false stSupply ((railQuads r).foldl (fun t q => spoilQuad q t)
      ((railCarriers r).foldl (fun t c => warnSpire c t)
        (post 0x0101 true [r, 1] (railUpd r (fun x => { x with mv := mv, warn := 1 }) s))))) := by
  have hr' : ¬ 8 < r := by omega
  simp only [warnRail, hlow, hr', hwarn, if_true, decide_false, Nat.one_ne_zero, Bool.or_self, Bool.false_eq_true, if_false,
    bne_self_eq_false]

/-- The state with the level of a TXSAFE input replaced. -/
def withSafeLevel (c : Carrier) (v : Bool) (s : State) : State :=
  { s with pins := match c with
    | .a => { s.pins with safeA := v }
    | .b => { s.pins with safeB := v } }

/-- A level that a TXSAFE input did not have is taken (R56, R57). -/
theorem takeSafe_of_ne {c : Carrier} {v : Bool} {s : State} (h : safeLevel c s ≠ v) (hp : s.pins.poreset = false) :
    takeSafe c v s = noteDiscrepancy (noteSafety s (withSafeLevel c v s)) := by
  cases c <;> exact (if_neg h).trans (if_neg (by simp [hp]))

/-- A disagreement that ends as a fault latches it (R473). -/
theorem latchPairFault_of_clear {s : State} (h : s.pins.pairFault = false) :
    latchPairFault s = post 0x0109 true [b2n s.pins.safeB] (noteSafety s { s with
      pins := { s.pins with discSince := none, pairFault := true, faultInput := b2n s.pins.safeB } }) :=
  if_neg (by simp [h])

/-- The one domain of a rail that is ready to return starts where it is wanted (R468). -/
theorem execDomainReturnStart_one {r d : Nat} {s : State}
    (hready : (railDomains r).filter (fun d => (domGet s d).state == .reset && !(railsOf d).any (railLow s)) = [d])
    (hauto : s.power.autoReturn = true) (hwanted : (domGet s d).wanted = true) :
    execDomainReturnStart r s = .next (domUpd d (fun x => { x with returning := true }) (requestUp [d] s)) := by
  simp [execDomainReturnStart, hready, hauto, hwanted]

/-- Settles O9. -/
theorem pinAndRailEventsComplete : Obligations.PinAndRailEventsComplete := by
  refine ⟨?txsafeAssert, ?txsafeDeassert, ?pairFault, ?settleExpiry, ?pfailNAssert, ?pfailNDeassert, ?railWarn, ?railWarnClear,
    ?railResetAll, ?railReset, ?domainReturnStart, ?localOscWindowEnd, ?localOscEdgeLoss⟩
  case txsafeAssert =>
    intro c s hp hlevel
    cases c <;> exact next_congr (takeSafe_of_ne (v := true) (by simp [hlevel]) hp)
  case txsafeDeassert =>
    intro c s hp hlevel
    cases c <;> exact next_congr (takeSafe_of_ne (v := false) (by simp [hlevel]) hp)
  case pairFault =>
    intro t s hsince hdue hfault
    have hexec : exec .pairFault s = execPairFault s := rfl
    rw [hexec, execPairFault, hsince]
    dsimp only
    rw [advanceTo_of_le hdue, latchPairFault_of_clear hfault]
  case settleExpiry =>
    intro c t s hsettle hdue hstate hsafe
    have hexec : exec (.settleExpiry c) s = execSettleExpiry c s := rfl
    simp [hexec, execSettleExpiry, hsettle, advanceTo_of_le hdue, hstate, hsafe]
  case pfailNAssert =>
    intro s hpfail hp
    have hexec : exec .pfailNAssert s = execPfailNAssert s := rfl
    simp [hexec, execPfailNAssert, hpfail, hp]
  case pfailNDeassert =>
    intro s hpfail hp
    have hexec : exec .pfailNDeassert s = execPfailNDeassert s := rfl
    simp [hexec, execPfailNDeassert, hpfail, hp]
  case railWarn => exact fun r mv s hr hwarn hlow => next_congr (warnRail_low hr hwarn hlow)
  case railWarnClear =>
    intro r mv s hr hwarn hlo hhi
    have hexec : exec (.railWarnClear r mv) s = execRailWarnClear r mv s := rfl
    have hr' : ¬ 8 < r := by omega
    simp only [hexec, execRailWarnClear, hr', hwarn, hlo, hhi, decide_true, decide_false, Bool.and_self, Bool.not_true, Bool.or_self,
      Bool.false_eq_true, if_false]
  case railResetAll =>
    intro r mv s hr hlow
    have hexec : exec (.railReset r mv) s = execRailReset r mv s := rfl
    have hr' : ¬ 8 < r := by omega
    simp only [hexec, execRailReset, hr', Nat.not_le.2 hlow, decide_false, Bool.or_self, Bool.false_eq_true, if_false, hr, if_true]
  case railReset =>
    intro r mv s hr hr8 hlow
    have hexec : exec (.railReset r mv) s = execRailReset r mv s := rfl
    simp only [hexec, execRailReset, Nat.not_lt.2 hr8, Nat.not_le.2 hlow, decide_false, Bool.or_self, Bool.false_eq_true, if_false,
      Nat.not_le.2 hr]
  case domainReturnStart => exact fun r d s hready hauto hwanted => execDomainReturnStart_one hready hauto hwanted
  case localOscWindowEnd =>
    intro p s hp hqual hppb
    have hexec : exec (.localOscWindowEnd (some p)) s = execLocalOscWindowEnd (some p) s := rfl
    simp [hexec, execLocalOscWindowEnd, hp, hqual, hppb]
  case localOscEdgeLoss =>
    intro s hqual hon
    have hexec : exec .localOscEdgeLoss s = .next (oscLost s) := rfl
    have hon' (t : State) (h : t.power = s.power) : domOn t 1 = true := by simpa [domOn, domGet, h] using hon
    simp [hexec, oscLost, hqual, hon', postEv]

end Sys2Proof.Machine
end

section
/-! SUPPORT and PROOF. Firmware, flash and journal (R480 to R489, R498 to R503): the packets that the checks pass, and where each row
completes. -/

namespace Sys2Proof.Machine

/-! The commands. -/

theorem checkFwPrepare_eq_stOk_iff (c : Ctx) (s : State) : checkFwPrepare c s = stOk ↔ plainLen 0 c ∧ s.fw.jobs = [] := by
  simp [checkFwPrepare, fwBusy]

theorem checkFwVerify_eq_stOk_iff (c : Ctx) (s : State) : checkFwVerify c s = stOk ↔ plainLen 0 c ∧ s.fw.jobs = [] := by
  simp [checkFwVerify, fwBusy]

/-- Outside RECOVERY an image that checks is activated in the settings format of the running one. -/
theorem checkFwActivate_eq_stOk_iff {s : State} (hrec : s.fw.recovery = false) (c : Ctx) : checkFwActivate c s = stOk ↔
    plainLen 0 c ∧ s.fw.jobs = [] ∧ s.fw.verified ∧ (checkSlot s.fw.fuses (slotGet s (inactiveSlot s))).1 = 0 ∧
      settingsFormat s = some (checkSlot s.fw.fuses (slotGet s (inactiveSlot s))).2.settings := by
  simp [checkFwActivate, fwBusy, hrec]

theorem checkFwCommit_eq_stOk_iff (c : Ctx) (s : State) : checkFwCommit c s = stOk ↔
    (plainLen 4 c ∧ u8 c.pk.params 0 ≤ 1 ∧ zeroAt c.pk.params 1 3) ∧ s.fw.jobs = [] ∧ s.fw.image.isSome := by
  simp [checkFwCommit, fwBusy, and_assoc]

theorem checkGetFwStatus_eq_stOk_iff (c : Ctx) (s : State) : checkGetFwStatus c s = stOk ↔ plainLen 0 c := by
  simp [checkGetFwStatus]

theorem checkGetJournalStatus_eq_stOk_iff (c : Ctx) (s : State) : checkGetJournalStatus c s = stOk ↔ plainLen 0 c := by
  simp [checkGetJournalStatus]

/-- The checks of the inactive slot read the firmware's state and the journal. -/
theorem checkFwActivate_begun (c : Ctx) (op : Nat) (pk : Packet) (s : State) :
    checkFwActivate c (begun op pk s) = checkFwActivate c s :=
  begun_congr (fun _ => rfl) op pk s

/-- The committed image named again is done at once. -/
theorem runFwCommit_of_committed {c : Ctx} {s : State} (hraise : u8 c.pk.params 0 = 0) (h : s.fw.committed = s.fw.running) :
    runFwCommit c s = done s := by
  simp [runFwCommit, hraise, h]

/-- Another image is committed by a BOOT record. -/
theorem runFwCommit_of_ne {c : Ctx} {s : State} {h : ImageHdr} (hraise : u8 c.pk.params 0 = 0)
    (hne : s.fw.committed ≠ s.fw.running) (himage : s.fw.image = some h) :
    runFwCommit c s = later (journalAdd jBoot 0 (le 1 s.fw.running ++ (le 1 h.major ++ le 1 h.minor) ++ le 1 0) (some c.ref)
      (fwJob 0x0D04 false c s)) := by
  simp [runFwCommit, hraise, hne, himage]

/-- A firmware command that waits alone. -/
theorem fwJob_of_idle {op : Nat} {raise : Bool} {c : Ctx} {s : State} (h : s.fw.jobs = []) :
    fwJob op raise c s = { s with fw := { s.fw with jobs := [⟨op, c.ref, raise⟩] } } := by
  simp [fwJob, h]

/-- Settles O11. -/
theorem firmwareCommandsComplete : Obligations.FirmwareCommandsComplete := by
  refine ⟨?fwPrepare, ?fwVerify, ?fwActivate, ?fwCommit, ?getFwStatus, ?getJournalStatus⟩
  case fwPrepare =>
    intro pk s hs hlen hjobs
    refine next_congr (serve_later hs ((checkFwPrepare_eq_stOk_iff _ _).2 ⟨hlen, by simpa using hjobs⟩) ?_)
    simp [runFwPrepare, fwJob, hjobs]
  case fwVerify =>
    intro pk s hs hlen hjobs
    refine next_congr (serve_later hs ((checkFwVerify_eq_stOk_iff _ _).2 ⟨hlen, by simpa using hjobs⟩) ?_)
    simp [runFwVerify, fwJob, hjobs]
  case fwActivate =>
    intro pk s hs hlen hjobs hver hslot hrec hset
    have hcheck := (checkFwActivate_eq_stOk_iff hrec (ctxOf pk s)).2 ⟨hlen, hjobs, hver, hslot, hset⟩
    refine next_congr (serve_later hs ((checkFwActivate_begun _ _ _ _).trans hcheck) ?_)
    simp [runFwActivate, fwJob, hjobs]
  case fwCommit =>
    intro pk s h hs hlen hraise hzero hjobs himage
    have hcheck : checkFwCommit (ctxOf pk s) (begun 0x0D04 pk s) = stOk :=
      (checkFwCommit_eq_stOk_iff _ _).2 ⟨⟨hlen, hraise.trans_le (Nat.zero_le 1), hzero⟩, by simpa using hjobs, by simp [himage]⟩
    refine ⟨fun heq => ?committed, fun hne => ?other⟩
    case committed => exact next_congr (serve_done hs hcheck (runFwCommit_of_committed hraise (by simpa using heq)))
    case other =>
      refine next_congr (serve_later hs hcheck ?_)
      rw [runFwCommit_of_ne hraise (by simpa using hne) (by simpa using himage), fwJob_of_idle (by simpa using hjobs)]
      simp
  case getFwStatus =>
    intro pk s hs hlen
    refine ⟨_, next_congr (serve_doneWith hs ((checkGetFwStatus_eq_stOk_iff _ _).2 hlen) rfl), ?length, ?running, ?committed⟩
    case length => cases himage : s.fw.image <;> simp [himage]
    case running => simp [u8_append_left]
    case committed => simp [u8_append_left, u8_append_right]
  case getJournalStatus =>
    intro pk s hs hlen
    refine ⟨_, next_congr (serve_doneWith hs ((checkGetJournalStatus_eq_stOk_iff _ _).2 hlen) (by simp [runGetJournalStatus]; rfl)),
      ?length, ?seq⟩
    case length => simp
    case seq => simp [u32_append_left]

/-! The events. -/

/-- Settles O12. -/
theorem firmwareEventsComplete : Obligations.FirmwareEventsComplete := by
  refine ⟨?fwSlotErased, ?fwVerifyDone, ?fwVerifyFailed, ?fwControllerSwitch, ?fwClusterSwitch, ?journalWrite, ?firstCopy, ?secondCopy⟩
  case fwSlotErased =>
    intro s hjob hsuspended hdeferred
    exact next_congr (if_neg (by simp [hjob, hsuspended, hdeferred]))
  case fwVerifyDone =>
    intro s hjob hslot
    have hexec : exec .fwVerifyDone s = execFwVerifyDone s := rfl
    refine ⟨_, by simp only [hexec, execFwVerifyDone, hjob, hslot, Bool.not_true, Bool.false_eq_true, if_false, decide_true,
      bne_self_eq_false]; rfl, ?length, ?security⟩
    case length => simp
    case security => simp [u32_append_left, u32_append_right]
  case fwVerifyFailed =>
    intro s hjob hslot
    have hexec : exec .fwVerifyDone s = execFwVerifyDone s := rfl
    simp [hexec, execFwVerifyDone, hjob, hslot]
  case fwControllerSwitch =>
    intro a s hact hdone hrec
    have hexec : exec .fwControllerSwitch s = execFwControllerSwitch s := rfl
    simp [hexec, execFwControllerSwitch, hact, hdone, hrec]
  case fwClusterSwitch =>
    intro a h k s hact hdone himage hnext
    have hexec : exec (.fwClusterSwitch k) s = execFwClusterSwitch k s := rfl
    simp only [hexec, execFwClusterSwitch, hact, hdone, himage, hnext, Bool.not_true, bne_self_eq_false, Bool.or_self, Bool.false_eq_true,
      if_false]
  case journalWrite =>
    intro p l s hdeferred hwriting hpending
    have hexec : exec .journalWrite s = execJournalWrite s := rfl
    simp [hexec, execJournalWrite, hdeferred, hwriting, startRecord, hpending]
  case firstCopy =>
    intro p s hwriting
    have hexec (found : Option (List Byte)) : exec (.flashOperationDone found) s = execFlashOperationDone found s := rfl
    refine ⟨?_, fun l hl => ?_⟩
    · simp [hexec, execFlashOperationDone, hwriting, copyVerified]
    · simp [hexec, execFlashOperationDone, hwriting, copyVerified, hl]
  case secondCopy =>
    intro p s hwriting
    have hexec (found : Option (List Byte)) : exec (.flashOperationDone found) s = execFlashOperationDone found s := rfl
    refine ⟨?_, fun l hl => ?_⟩
    · simp [hexec, execFlashOperationDone, hwriting, copyVerified]
    · simp [hexec, execFlashOperationDone, hwriting, copyVerified, hl]

end Sys2Proof.Machine
end

section
/-! SUPPORT. What the Spire and the line of a carrier read as after an update of one of their parts and after the start of a command, and
the packets that a gated check passes. -/

namespace Sys2Proof.Machine

section access
variable (c d : Carrier) (s : State)

@[simp] theorem spireGet_spireUpd (f : Spire → Spire) : spireGet (spireUpd c f s) c = f (spireGet s c) := pget_pupd_same ..
@[simp] theorem spireGet_txUpd (f : Tx → Tx) : spireGet (txUpd c f s) c = { spireGet s c with tx := f (spireGet s c).tx } :=
  pget_pupd_same ..
@[simp] theorem spireGet_rxUpd (f : Rx → Rx) : spireGet (rxUpd c f s) c = { spireGet s c with rx := f (spireGet s c).rx } :=
  pget_pupd_same ..
@[simp] theorem spireGet_calUpd (f : Cal → Cal) : spireGet (calUpd c f s) c = { spireGet s c with cal := f (spireGet s c).cal } :=
  pget_pupd_same ..
@[simp] theorem spireGet_acqUpd (f : Acq → Acq) : spireGet (acqUpd c f s) c = { spireGet s c with acq := f (spireGet s c).acq } :=
  pget_pupd_same ..
@[simp] theorem spireGet_eqUpd (f : Eq → Eq) : spireGet (eqUpd c f s) c = { spireGet s c with eq := f (spireGet s c).eq } :=
  pget_pupd_same ..
@[simp] theorem txGet_txUpd (f : Tx → Tx) : txGet (txUpd c f s) c = f (txGet s c) :=
  congrArg Spire.tx (spireGet_txUpd c s f)
@[simp] theorem lineGet_fecUpd (f : Fec → Fec) : lineGet (fecUpd c f s) c = { lineGet s c with fec := f (lineGet s c).fec } :=
  pget_pupd_same ..
@[simp] theorem lineGet_frmUpd (f : Frm → Frm) : lineGet (frmUpd c f s) c = { lineGet s c with frm := f (lineGet s c).frm } :=
  pget_pupd_same ..
@[simp] theorem lineGet_spireUpd (f : Spire → Spire) : lineGet (spireUpd c f s) d = lineGet s d := rfl
@[simp] theorem lineGet_rxUpd (f : Rx → Rx) : lineGet (rxUpd c f s) d = lineGet s d := rfl
@[simp] theorem lineGet_calUpd (f : Cal → Cal) : lineGet (calUpd c f s) d = lineGet s d := rfl
@[simp] theorem lineGet_acqUpd (f : Acq → Acq) : lineGet (acqUpd c f s) d = lineGet s d := rfl
@[simp] theorem lineGet_eqUpd (f : Eq → Eq) : lineGet (eqUpd c f s) d = lineGet s d := rfl
@[simp] theorem spireGet_fecUpd (f : Fec → Fec) : spireGet (fecUpd c f s) d = spireGet s d := rfl
@[simp] theorem spireGet_frmUpd (f : Frm → Frm) : spireGet (frmUpd c f s) d = spireGet s d := rfl

@[simp] theorem spireGet_post (code : Nat) (set : Bool) (args : List Nat) : spireGet (post code set args s) d = spireGet s d := by
  simp [spireGet]
@[simp] theorem lineGet_post (code : Nat) (set : Bool) (args : List Nat) : lineGet (post code set args s) d = lineGet s d := by
  simp [lineGet]
@[simp] theorem spireGet_postEv (code : Nat) (args : List Nat) : spireGet (postEv code args s) d = spireGet s d := spireGet_post d s ..
@[simp] theorem lineGet_postEv (code : Nat) (args : List Nat) : lineGet (postEv code args s) d = lineGet s d := lineGet_post d s ..
@[simp] theorem planOf_post (code : Nat) (set : Bool) (args : List Nat) : planOf (post code set args s) d = planOf s d := by
  simp [planOf]

/-! Two updates that agree on the present value are one. -/

variable {c s}

theorem spireUpd_congr {f g : Spire → Spire} (h : f (spireGet s c) = g (spireGet s c)) : spireUpd c f s = spireUpd c g s := by
  simp only [spireGet] at h
  simp only [spireUpd, pupd, h]
theorem rxUpd_congr {f g : Rx → Rx} (h : f (spireGet s c).rx = g (spireGet s c).rx) : rxUpd c f s = rxUpd c g s :=
  spireUpd_congr (congrArg (fun v => { spireGet s c with rx := v }) h)
/-- An update gives the value that its function has now. -/
theorem rxUpd_const (f : Rx → Rx) : rxUpd c f s = rxUpd c (fun _ => f (spireGet s c).rx) s := rxUpd_congr rfl
theorem eqUpd_congr {f g : Eq → Eq} (h : f (spireGet s c).eq = g (spireGet s c).eq) : eqUpd c f s = eqUpd c g s :=
  spireUpd_congr (congrArg (fun v => { spireGet s c with eq := v }) h)
theorem acqUpd_congr {f g : Acq → Acq} (h : f (spireGet s c).acq = g (spireGet s c).acq) : acqUpd c f s = acqUpd c g s :=
  spireUpd_congr (congrArg (fun v => { spireGet s c with acq := v }) h)
theorem fecUpd_congr {f g : Fec → Fec} (h : f (lineGet s c).fec = g (lineGet s c).fec) : fecUpd c f s = fecUpd c g s := by
  simp only [lineGet] at h
  simp only [fecUpd, pupd, h]
theorem frmUpd_congr {f g : Frm → Frm} (h : f (lineGet s c).frm = g (lineGet s c).frm) : frmUpd c f s = frmUpd c g s := by
  simp only [lineGet] at h
  simp only [frmUpd, pupd, h]

end access

section started
variable (op : Nat) (pk : Packet) (s : State) (c : Carrier)

@[simp] theorem spireGet_begun : spireGet (begun op pk s) c = spireGet s c :=
  begun_congr (f := fun t => spireGet t c) (fun _ => rfl) op pk s
@[simp] theorem txGet_begun : txGet (begun op pk s) c = txGet s c := congrArg Spire.tx (spireGet_begun op pk s c)
@[simp] theorem lineGet_begun : lineGet (begun op pk s) c = lineGet s c :=
  begun_congr (f := fun t => lineGet t c) (fun _ => rfl) op pk s
@[simp] theorem planOf_begun : planOf (begun op pk s) c = planOf s c :=
  begun_congr (f := fun t => planOf t c) (fun _ => rfl) op pk s
@[simp] theorem domGet_begun (d : Nat) : domGet (begun op pk s) d = domGet s d :=
  begun_congr (f := fun t => domGet t d) (fun _ => rfl) op pk s
@[simp] theorem domOn_begun (d : Nat) : domOn (begun op pk s) d = domOn s d :=
  begun_congr (f := fun t => domOn t d) (fun _ => rfl) op pk s
@[simp] theorem rxPowered_begun : rxPowered (begun op pk s) c = rxPowered s c :=
  begun_congr (f := fun t => rxPowered t c) (fun _ => rfl) op pk s
theorem modeOpen_begun (h : modeOpen s) : modeOpen (begun op pk s) := by rwa [modeOpen, begun_mode]

end started

/-- With the mode open a gated check passes where its form and its rest do. -/
theorem gated_eq_stOk_iff {s : State} (h : modeOpen s) (bad : Bool) (l : List (Bool × Nat)) :
    gated s bad l = stOk ↔ bad = false ∧ firstBad l = stOk := by
  obtain ⟨hcur, htrans⟩ := h
  simp [gated, modeGate, hcur, htrans]

end Sys2Proof.Machine
end

section
/-! SUPPORT and PROOF. The line plan and the transmitters (R41, R42, R51, R52, R59 to R63): the packets that the checks pass, the effects, and
where each row completes. -/

namespace Sys2Proof.Machine

/-! What a carrier's return to IDLE leaves alone. -/

@[simp] theorem pmSpoil_power (c : Carrier) (s : State) : (pmSpoil c s).power = s.power := rfl
@[simp] theorem neutralize_power (c : Carrier) (s : State) : (neutralize c s).power = s.power := by simp [neutralize]
@[simp] theorem spoilCal_power (c : Carrier) (s : State) : (spoilCal c s).power = s.power := by simp [spoilCal]
@[simp] theorem frmHunt_power (c : Carrier) (s : State) : (frmHunt c s).power = s.power := by
  simp only [frmHunt]
  split_ifs <;> simp
@[simp] theorem unlockFec_power (c : Carrier) (s : State) : (unlockFec c s).power = s.power := by simp [unlockFec]
@[simp] theorem leaveLocked_power (c : Carrier) (s : State) : (leaveLocked c s).power = s.power := by
  simp only [leaveLocked]
  split_ifs <;> simp
@[simp] theorem acqEnter_power (c : Carrier) (st : AcqState) (s : State) : (acqEnter c st s).power = s.power := by simp [acqEnter]
@[simp] theorem finishRestart_power (c : Carrier) (s : State) : (finishRestart c s).power = s.power := by
  simp only [finishRestart]
  split <;> simp
@[simp] theorem acqIdle_power (c : Carrier) (s : State) : (acqIdle c s).power = s.power := by
  simp only [acqIdle]
  split_ifs <;> simp

/-- The receive domains of a carrier are read from the power state alone. -/
theorem rxPowered_congr {s t : State} (h : t.power = s.power) (c : Carrier) : rxPowered t c = rxPowered s c := by
  simp only [rxPowered, domOn, domGet, h]

/-! The line plan. -/

theorem checkSetLinePlan_eq_stOk {c : Ctx} {s : State} (hlen : plainLen 24 c) (hcur : s.mode.cur = .configure) (htrans : s.mode.trans = none)
    (happ : s.plan.applying = ⟨none, none⟩) : checkSetLinePlan c s = stOk := by
  obtain ⟨hl, ht⟩ : c.pk.params.length = 24 ∧ c.pk.tenant = 0xFFFFFFFF := by simpa [plainLen] using hlen
  simp [checkSetLinePlan, hl, ht, gated_eq_stOk_iff ⟨by simp [hcur], htrans⟩, happ]

/-- The rules of R41 read the mode and the roll-offs of the transmitters. -/
theorem planReason_begun (op : Nat) (pk : Packet) (s : State) (a b : CarrierPlan) (spacing : Int) (fibre : Nat) (bad : Bool) :
    planReason (begun op pk s) a b spacing fibre bad = planReason s a b spacing fibre bad :=
  begun_congr (f := fun t => planReason t a b spacing fibre bad) (fun _ => rfl) op pk s

/-- A qualified oscillator holds no domain back. -/
theorem startsUnqualified_of_qualified {s : State} (h : s.clk.qualified) (t : State) : startsUnqualified s t = false := by
  simp [startsUnqualified, h]

/-! The transmitters. -/

theorem txCode_lt (x : TxState) : txCode x < 256 := by cases x <;> decide

/-- A clip alarm that is clear stays so up to 1 in 100,000 samples. -/
theorem clipStep_quiet {clipped samples : Nat} (h : clipped * 100000 ≤ samples) : clipStep 10 clipped samples none = (none, none) :=
  if_neg (by omega)

theorem clipStep_clips {clipped samples : Nat} (h : samples < clipped * 100000) :
    clipStep 10 clipped samples none = (some 0, some true) :=
  if_pos (by omega)

/-- Settles O14. -/
theorem transmitRowsComplete : Obligations.TransmitRowsComplete := by
  refine ⟨?setLinePlan, ?getLinePlan, ?computedShaping, ?loadedShaping, ?setTxCorrection, ?setTxOutput, ?setTxState, ?getTxStatus,
    ?superframeTransmit, ?txClipInterval, ?linePlanApplyDone⟩
  case setLinePlan =>
    intro pk s hs hlen hcur htrans happ hqual hreason
    have hcheck : checkSetLinePlan (ctxOf pk s) (begun 0x0201 pk s) = stOk :=
      checkSetLinePlan_eq_stOk hlen (by simpa using hcur) (by simpa using htrans) (by simpa using happ)
    obtain ⟨-, ht⟩ : pk.params.length = 24 ∧ pk.tenant = 0xFFFFFFFF := by simpa [plainLen] using hlen
    refine next_congr (serve_doneWith hs hcheck ?_)
    simp [runSetLinePlan, planReason_begun, hreason, ht, hcur, trafficMode, startsUnqualified_of_qualified, hqual]
  case getLinePlan =>
    intro pk s hs hcheck
    refine ⟨_, next_congr (serve_doneWith hs hcheck rfl), ?length, ?fillA, ?fillB⟩
    case length => simp [planBytes]
    case fillA => simp [planBytes, u8_append_left]
    case fillB => simp [planBytes, u8_append_left, u8_append_right]
  case computedShaping =>
    intro pk s hs hcheck hsrc
    exact next_congr (serve_done hs hcheck (by simp [runSetTxShaping, hsrc]))
  case loadedShaping =>
    intro pk s hs hcheck hsrc
    exact next_congr (serve_done hs hcheck (by simp [runSetTxShaping, hsrc]))
  case setTxCorrection =>
    intro pk s hs hcheck
    exact next_congr (serve_done hs hcheck rfl)
  case setTxOutput =>
    intro pk s hs hcheck
    refine ⟨_, next_congr (serve_done hs hcheck rfl), ?_⟩
    simp
  case setTxState =>
    intro pk s hs hcheck
    refine ⟨fun hrun => ?run, fun hstop => ?stop⟩
    case run => exact next_congr (serve_doneWith hs hcheck (by simp [runSetTxState, hrun]))
    case stop => exact next_congr (serve_doneWith hs hcheck (by simp [runSetTxState, hstop]))
  case getTxStatus =>
    intro pk s hs hcheck
    refine ⟨_, next_congr (serve_doneWith hs hcheck rfl), ?length, ?state⟩
    case length => simp [List.length_flatMap]
    case state => simp [u8_append_left, Nat.mod_eq_of_lt (txCode_lt _)]
  case superframeTransmit =>
    intro c s hoff u hu
    subst hu
    have hexec (l : FifoLevel) : exec (.superframeTransmit c l) s = execSuperframeTransmit c l s := rfl
    simp [hexec, execSuperframeTransmit, hoff]
  case txClipInterval =>
    intro c d n s hd hoff hclear hn
    have hexec : exec (.txClipInterval c d) s = execTxClipInterval c d s := rfl
    have hcond : ¬ (decide (4 ≤ d) || (txGet s c).state == .off) = true := by simp [hoff, hd]
    refine ⟨fun hfew => ?few, fun hmany => ?many⟩
    case few => simp only [hexec, execTxClipInterval, if_neg hcond, hclear, hn, clipStep_quiet hfew]
    case many => simp only [hexec, execTxClipInterval, if_neg hcond, hclear, hn, clipStep_clips hmany]
  case linePlanApplyDone =>
    intro c t s happ hpow
    have hexec : exec (.linePlanApplyDone c) s = execLinePlanApplyDone c s := rfl
    have hpow' (x : State) (h : x.power = s.power) : ¬ rxPowered x c = true := by simp [rxPowered_congr h, hpow]
    simp only [hexec, execLinePlanApplyDone, happ, Option.isNone_some, Bool.false_eq_true, if_false]
    rw [if_neg (hpow' _ (by simp))]

end Sys2Proof.Machine
end

section
/-! SUPPORT and PROOF. The receive front end (R65 to R71, R76 to R79, R90, R91, R94, R95, R167): the packets that the checks pass, the
effects, and where each row completes. -/

namespace Sys2Proof.Machine

/-- What each step of a fold leaves alone, the fold leaves alone. -/
theorem foldl_leaves {σ α β : Type} {f : σ → β} {g : σ → α → σ} (h : ∀ t x, f (g t x) = f t) (l : List α) (s : σ) :
    f (l.foldl g s) = f s := by
  induction l generalizing s with
  | nil => rfl
  | cons x r ih => exact (ih (g s x)).trans (h s x)

/-! Settings and status. -/

theorem checkSetRxFrontEnd_eq_stOk_iff {s : State} (h : modeOpen s) (c : Ctx) : checkSetRxFrontEnd c s = stOk ↔
    plainLen 16 c ∧ u8 c.pk.params 0 ≤ 1 ∧ 3 ≤ u8 c.pk.params 1 ∧ u8 c.pk.params 1 ≤ 13 ∧ u8 c.pk.params 2 ≤ 2 ∧
      1 ≤ u8 c.pk.params 3 ∧ u8 c.pk.params 3 ≤ 15 ∧ -180 ≤ i16 c.pk.params 4 ∧ i16 c.pk.params 4 ≤ -60 ∧ 4 ≤ u8 c.pk.params 6 ∧
      u8 c.pk.params 6 ≤ 16 ∧ 1 ≤ u8 c.pk.params 7 ∧ u8 c.pk.params 7 ≤ 50 ∧ 1 ≤ u8 c.pk.params 8 ∧ u8 c.pk.params 8 ≤ 32 ∧
      zeroAt c.pk.params 9 7 := by
  simp [checkSetRxFrontEnd, gated_eq_stOk_iff h, carrierBad, and_assoc, Nat.one_le_iff_ne_zero]

theorem checkGetRxStatus_eq_stOk_iff {s : State} (h : modeOpen s) (c : Ctx) : checkGetRxStatus c s = stOk ↔
    plainLen 4 c ∧ u8 c.pk.params 0 ≤ 1 ∧ zeroAt c.pk.params 1 3 := by
  simp [checkGetRxStatus, gated_eq_stOk_iff h, carrierBad]

theorem agcCode_lt (x : AgcState) : agcCode x < 256 := by cases x <;> decide
theorem timingCode_lt (x : TimingState) : timingCode x < 256 := by cases x <;> decide
theorem alarmBits_lt (a b c d : Bool) : b2n a + 2 * b2n b + 4 * b2n c + 8 * b2n d < 256 := by revert a b c d; decide

theorem checkSetMonitor_eq_stOk_iff {s : State} (h : modeOpen s) (c : Ctx) : checkSetMonitor c s = stOk ↔
    plainLen 16 c ∧ u8 c.pk.params 0 ≤ 1 ∧ u8 c.pk.params 1 ≤ 3 ∧ u8 c.pk.params 2 ≤ 1 ∧ u8 c.pk.params 3 ≤ 1 ∧
      ¬ (u8 c.pk.params 2 = 1 ∧ u8 c.pk.params 3 = 1) ∧ 1 ≤ u16 c.pk.params 4 ∧ u16 c.pk.params 4 ≤ 4096 ∧ 1000 ≤ u32 c.pk.params 6 ∧
      u32 c.pk.params 6 ≤ 10000000 ∧ u8 c.pk.params 10 ≤ 15 ∧ zeroAt c.pk.params 11 5 ∧
      (monGet s (carrierOf (u8 c.pk.params 0)) (u8 c.pk.params 1)).running = false := by
  simp [checkSetMonitor, gated_eq_stOk_iff h, carrierBad, and_assoc, Nat.one_le_iff_ne_zero]

@[simp] theorem monGet_begun (op : Nat) (pk : Packet) (s : State) (c : Carrier) (i : Nat) :
    monGet (begun op pk s) c i = monGet s c i := by
  simp [monGet]

theorem checkMonitorControl_eq_stOk_iff {s : State} (h : modeOpen s) (c : Ctx) : checkMonitorControl c s = stOk ↔
    plainLen 4 c ∧ u8 c.pk.params 0 ≤ 1 ∧ u8 c.pk.params 1 ≤ 15 ∧ u8 c.pk.params 2 ≤ 1 ∧ zeroAt c.pk.params 3 1 ∧
      (u8 c.pk.params 2 = 1 → domOn s (adcDom (carrierOf (u8 c.pk.params 0)))) := by
  simp [checkMonitorControl, gated_eq_stOk_iff h, carrierBad, and_assoc]

/-- Of a mask with one bit only its chain is reached. -/
theorem foldl_testBit_pow {α : Type} {i : Nat} (hi : i ≤ 3) (f : α → Nat → α) (a : α) :
    (List.range 4).foldl (fun t j => if (2 ^ i).testBit j then f t j else t) a = f a i := by
  obtain rfl | rfl | rfl | rfl : i = 0 ∨ i = 1 ∨ i = 2 ∨ i = 3 := by omega
  all_goals rfl

theorem two_pow_le_fifteen {i : Nat} (hi : i ≤ 3) : 2 ^ i ≤ 15 :=
  (Nat.pow_le_pow_right (by decide) hi).trans (by decide)

theorem runMonitorControl_start {c : Ctx} {i : Nat} (hmask : u8 c.pk.params 1 = 2 ^ i) (hi : i ≤ 3) (hstart : u8 c.pk.params 2 = 1)
    (s : State) : runMonitorControl c s = done (monUpd (carrierOf (u8 c.pk.params 0)) i (fun m =>
      if m.running then m
      else { m with running := true, closing := false, seq := 0, first := true, gap := false, stages := {} }) s) := by
  simp [runMonitorControl, hmask, hstart, foldl_testBit_pow hi]

theorem runMonitorControl_stop {c : Ctx} {i : Nat} (hmask : u8 c.pk.params 1 = 2 ^ i) (hi : i ≤ 3) (hstop : u8 c.pk.params 2 = 0)
    (s : State) : runMonitorControl c s = done (monUpd (carrierOf (u8 c.pk.params 0)) i (fun m =>
      if m.running then { m with running := false, closing := true } else m) s) := by
  have hone (m : Mon) : (if m.running == false then m else { m with running := false, closing := true }) =
      if m.running then { m with running := false, closing := true } else m := by
    cases m.running <;> rfl
  simp only [runMonitorControl, hmask, hstop, foldl_testBit_pow hi, show ((0 : Nat) == 1) = false from rfl, Bool.false_eq_true, if_false,
    hone]

/-! Windows of samples. -/

@[simp] theorem spireGet_captureFeed (n : Nat) (c d : Carrier) (l : List Byte) (s : State) :
    spireGet (captureFeed n c l s) d = spireGet s d := by
  simp only [captureFeed]
  split_ifs <;> rfl
@[simp] theorem lineGet_captureFeed (n : Nat) (c d : Carrier) (l : List Byte) (s : State) :
    lineGet (captureFeed n c l s) d = lineGet s d := by
  simp only [captureFeed]
  split_ifs <;> rfl
@[simp] theorem spoilCal_rx (c : Carrier) (s : State) : (spireGet (spoilCal c s) c).rx = (spireGet s c).rx := by simp [spoilCal]
@[simp] theorem lineGet_spoilCal (c d : Carrier) (s : State) : lineGet (spoilCal c s) d = lineGet s d := by simp [spoilCal]

/-- The monitor chains leave the front end and the line alone. -/
@[simp] theorem feedMonitors_rx (c : Carrier) (xs : List (List Int)) (s : State) :
    (spireGet (feedMonitors c xs s) c).rx = (spireGet s c).rx := by
  refine foldl_leaves (f := fun t => (spireGet t c).rx) (fun t i => ?_) _ _
  dsimp only
  split_ifs
  · rfl
  · rw [spireGet_spireUpd]
    rfl
@[simp] theorem lineGet_feedMonitors (c d : Carrier) (xs : List (List Int)) (s : State) :
    lineGet (feedMonitors c xs s) d = lineGet s d := by
  refine foldl_leaves (f := fun t => lineGet t d) (fun t i => ?_) _ _
  dsimp only
  split_ifs <;> rfl

/-- A settled FAST in SYNC freezes. -/
theorem agcMove_settled {r : Rx} (hfast : r.agc = .fast) (hlof : r.lofArose = false) (hsettled : 2000 ≤ r.settledNs) :
    agcMove false true r = freezeAgc r := by
  simp [agcMove, hfast, hlof, stepSeen, hsettled]

/-- What a window of samples leaves: the front end after its transition, and the levels for LOS. -/
theorem execAgcWindow_of_on {c : Carrier} {o : AgcObs} {s : State} (hon : (spireGet s c).rx.agc ≠ .off) {xs : List (List Int)} {r1 : Rx}
    (hxs : xs = windowChannels (planOf s c).rs256 (spireGet s c).cal.vals o (spireGet s c).rx)
    (hr1 : r1 = measureWindow (planOf s c).rs256 xs o (spireGet s c).rx) :
    ∃ t, execAgcWindow c o s = .next t ∧
      (spireGet t c).rx = { agcMove (lineGet s c).frm.los (syncOn s c) r1 with lofArose := false } ∧
      (lineGet t c).frm = measureLos xs (lineGet s c).frm := by
  subst hr1 hxs
  refine ⟨_, next_congr (if_neg (by simpa using hon)), ?rx, ?frm⟩
  case rx =>
    dsimp only
    split_ifs <;> simp
  case frm =>
    dsimp only
    split_ifs <;> simp

/-! Records of the monitor chains. -/

theorem chanGet_chanUpd_same {d : Nat} {s : State} (h : d < s.dma.length) (f : Channel → Channel) :
    chanGet (chanUpd d f s) d = f (chanGet s d) := by
  simp [chanGet, chanUpd, lupd, h]

/-- A record that finds room joins the stream of its DMA channel. -/
theorem closeRecord_of_room {c : Carrier} {i n : Nat} {s : State} (hroom : monitorHeld s c i < 64) (hdma : (monGet s c i).dma < s.dma.length) :
    ∃ r, (closeRecord c i n s).pcie.posted = s.pcie.posted + 1 ∧ (closeRecord c i n s).ev = s.ev ∧
      (chanGet (closeRecord c i n s) (monGet s c i).dma).stream = (chanGet s (monGet s c i).dma).stream ++ [r] ∧
      r.from_ = 4 * carrierNum c + i ∧ r.order = s.pcie.posted := by
  simp only [closeRecord, if_neg (Nat.not_le.2 hroom)]
  exact ⟨⟨_, _, _⟩, rfl, rfl, congrArg Channel.stream (chanGet_chanUpd_same (s := s) hdma _), rfl, rfl⟩

/-- Settles O15. -/
theorem frontEndRowsComplete : Obligations.FrontEndRowsComplete := by
  refine ⟨?setRxFrontEnd, ?getRxStatus, ?setMonitor, ?startMonitor, ?stopMonitor, ?agcWindow, ?agcSettleFail, ?limitRaised,
    ?limitCleared, ?losDeclare, ?losClear, ?rxClipInterval, ?recordJoins, ?recordDiscarded⟩
  case setRxFrontEnd =>
    intro pk s hs hlen hopen h0 h1 h1' h2 h3 h3' h4 h4' h6 h6' h7 h7' h8 h8' hzero
    exact next_congr (serve_done hs ((checkSetRxFrontEnd_eq_stOk_iff (modeOpen_begun _ _ _ hopen) _).2
      ⟨hlen, h0, h1, h1', h2, h3, h3', h4, h4', h6, h6', h7, h7', h8, h8', hzero⟩) rfl)
  case getRxStatus =>
    intro pk s hs hlen hopen h0 hzero r hr
    subst hr
    refine ⟨_, next_congr (serve_doneWith hs ((checkGetRxStatus_eq_stOk_iff (modeOpen_begun _ _ _ hopen) _).2 ⟨hlen, h0, hzero⟩) rfl),
      ?length, ?agc, ?timing, ?alarms⟩
    case length => simp [List.length_flatMap]
    case agc => simp [u8_append_left, Nat.mod_eq_of_lt (agcCode_lt _)]
    case timing => simp [u8_append_left, u8_append_right, Nat.mod_eq_of_lt (timingCode_lt _)]
    case alarms =>
      simp [u8_append_left, u8_append_right]
      exact alarmBits_lt ..
  case setMonitor =>
    intro pk s hs hlen hopen h0 h1 h2 h3 hone h4 h4' h6 h6' h10 hzero hstopped
    exact next_congr (serve_done hs ((checkSetMonitor_eq_stOk_iff (modeOpen_begun _ _ _ hopen) _).2
      ⟨hlen, h0, h1, h2, h3, by simp only [ctxOf_pk]; omega, h4, h4', h6, h6', h10, hzero, by simpa using hstopped⟩) rfl)
  case startMonitor =>
    intro pk i s hs hlen hopen h0 hmask hi hstart hzero hadc _
    refine next_congr (serve_done hs ((checkMonitorControl_eq_stOk_iff (modeOpen_begun _ _ _ hopen) _).2
      ⟨hlen, h0, hmask.trans_le (two_pow_le_fifteen hi), hstart.le, hzero, fun _ => by simpa using hadc⟩) ?_)
    exact runMonitorControl_start hmask hi hstart _
  case stopMonitor =>
    intro pk i s hs hlen hopen h0 hmask hi hstop hzero
    refine next_congr (serve_done hs ((checkMonitorControl_eq_stOk_iff (modeOpen_begun _ _ _ hopen) _).2
      ⟨hlen, h0, hmask.trans_le (two_pow_le_fifteen hi), hstop.trans_le (by decide), hzero, fun h => by simp [hstop] at h⟩) ?_)
    exact runMonitorControl_stop hmask hi hstop _
  case agcWindow =>
    intro c o s hon xs r1 hxs hr1
    obtain ⟨t, hexec, hrx, hfrm⟩ := execAgcWindow_of_on hon hxs hr1
    refine ⟨t, hexec, hrx, hfrm, fun hfast hlos hsync hlof hsettled => ?_⟩
    rw [hrx, hlos, hsync, agcMove_settled hfast hlof hsettled]
    exact ⟨rfl, rfl⟩
  case agcSettleFail =>
    intro c s hrefast htime
    exact next_congr (if_neg (by simp [hrefast, htime]))
  case limitRaised =>
    intro c s hon hclear htime
    have hexec : exec (.agcLimit c) s = execAgcLimit c s := rfl
    simp [hexec, execAgcLimit, hon, hclear, htime]
  case limitCleared =>
    intro c s hon hset htime
    have hexec : exec (.agcLimit c) s = execAgcLimit c s := rfl
    simp [hexec, execAgcLimit, hon, hset, htime.not_gt]
  case losDeclare =>
    intro c s hpow hlos htime
    exact next_congr (if_neg (by simp [hpow, hlos, htime]))
  case losClear =>
    intro c s hpow hlos htime t ht
    subst ht
    exact next_congr ((if_neg (by simp [hpow, hlos, htime])).trans (if_congr (by simp [acqState]) rfl rfl))
  case rxClipInterval =>
    intro c d n s hd hon hclear hn
    have hexec : exec (.rxClipInterval c d) s = execRxClipInterval c d s := rfl
    have hcond : ¬ (decide (4 ≤ d) || (spireGet s c).rx.agc == .off) = true := by simp [hon, hd]
    refine ⟨fun hfew => ?few, fun hmany => ?many⟩
    case few => simp only [hexec, execRxClipInterval, if_neg hcond, hclear, hn, clipStep_quiet hfew]
    case many => simp only [hexec, execRxClipInterval, if_neg hcond, hclear, hn, clipStep_clips hmany]
  case recordJoins =>
    intro c i s hi hrun hfull hroom hdma
    obtain ⟨r, hr⟩ := closeRecord_of_room (n := 244) hroom hdma
    refine ⟨_, r, next_congr (if_pos ?_), ?_⟩
    · simp [hi, hrun, hfull]
    · rwa [Nat.min_eq_left hfull]
  case recordDiscarded =>
    intro c i s hi hrun hfull hheld
    have hexec : exec (.monitorRecordClose c i) s = execMonitorRecordClose c i s := rfl
    simp [hexec, execMonitorRecordClose, hi, hrun, hfull, closeRecord, hheld]

end Sys2Proof.Machine
end

section
/-! SUPPORT and PROOF. Calibration (R84 to R89, R92, R93, R163): the packets that the checks pass, and where each row completes. -/

namespace Sys2Proof.Machine

theorem checkSetCalControl_eq_stOk_iff {s : State} (h : modeOpen s) (c : Ctx) : checkSetCalControl c s = stOk ↔
    plainLen 8 c ∧ u8 c.pk.params 0 ≤ 1 ∧ u8 c.pk.params 1 ≤ 1 ∧ u16 c.pk.params 2 ≤ 0x1FF ∧ zeroAt c.pk.params 4 4 ∧
      (u8 c.pk.params 1 = 1 → trafficMode s.mode.cur = false ∧ rxPowered s (carrierOf (u8 c.pk.params 0))) := by
  simp [checkSetCalControl, gated_eq_stOk_iff h, carrierBad, and_assoc]

theorem checkGetCalStatus_eq_stOk_iff {s : State} (h : modeOpen s) (c : Ctx) : checkGetCalStatus c s = stOk ↔
    plainLen 4 c ∧ u8 c.pk.params 0 ≤ 1 ∧ zeroAt c.pk.params 1 3 := by
  simp [checkGetCalStatus, gated_eq_stOk_iff h, carrierBad]

/-- The one value that waits for its item is taken, kept, and waits no more. -/
theorem execCalApply_single {c : Carrier} {key : Nat} {v : Int} {s : State} (hpow : rxPowered s c) (hsync : syncOn s c)
    (hnext : (spireGet s c).cal.next = [(key, some v)]) :
    execCalApply c (key / 1024) s = .next (calUpd c (fun k =>
      { k with vals := tset 0 k.vals key v, kept := tset 0 k.kept key v, next := tset none k.next key none }) s) := by
  refine next_congr ((if_neg (by simp [hpow, hsync])).trans ?_)
  simp only [calUpd, spireUpd, pupd]
  rw [show pget s.spire c = spireGet s c from rfl, hnext]
  simp [hnext]

/-- Settles O16. -/
theorem calibrationRowsComplete : Obligations.CalibrationRowsComplete := by
  refine ⟨?setCalControl, ?getCalStatus, ?spoiledWaits, ?foregroundDone, ?foregroundRepeat, ?calDeferred, ?calWindowClose, ?calApply,
    ?txCalApply, ?txCalTimeout⟩
  case setCalControl =>
    intro pk s hs hlen hopen h0 h2 hzero
    have hcheck := checkSetCalControl_eq_stOk_iff (modeOpen_begun 0x0222 pk s hopen) (ctxOf pk s)
    refine ⟨fun hstore => ?store, fun hrestart htraffic hpow => ?restart⟩
    case store =>
      refine next_congr (serve_done hs (hcheck.2 ⟨hlen, h0, hstore.trans_le (by decide), h2, hzero, fun h => ?_⟩) (by simp [runSetCalControl, hstore]))
      simp [hstore] at h
    case restart =>
      refine next_congr (serve_later hs (hcheck.2 ⟨hlen, h0, hrestart.le, h2, hzero, fun _ => ?_⟩) (by simp [runSetCalControl, hrestart]))
      exact ⟨by simpa using htraffic, by simpa using hpow⟩
  case getCalStatus =>
    intro pk s hs hlen hopen h0 hzero
    refine ⟨_, next_congr (serve_doneWith hs ((checkGetCalStatus_eq_stOk_iff (modeOpen_begun _ _ _ hopen) _).2 ⟨hlen, h0, hzero⟩) rfl),
      ?length, ?stuck, ?enabled⟩
    case length => simp [List.length_flatMap]
    case stuck => simp [u16_append_left]
    case enabled => simp [u16_append_left, u16_append_right]
  case spoiledWaits =>
    intro c l t s hrun hdue hspoiled hwarn
    have hexec : exec (.foregroundCalDone c l) s = execForegroundCalDone c l s := rfl
    simp [hexec, execForegroundCalDone, hrun, advanceTo_of_le hdue, hspoiled, hwarn]
  case foregroundDone =>
    intro c l t s hrun hdue hclean
    have hexec : exec (.foregroundCalDone c l) s = execForegroundCalDone c l s := rfl
    simp [hexec, execForegroundCalDone, hrun, advanceTo_of_le hdue, hclean]
  case foregroundRepeat =>
    intro c t s hclear hwait hwarn
    have hexec : exec (.foregroundCalRepeat c) s = execForegroundCalRepeat c s := rfl
    simp [hexec, execForegroundCalRepeat, hclear, hwait, hwarn]
  case calDeferred =>
    intro c t s hdefer hstate
    have hexec : exec (.calDeferred c) s = execCalDeferred c s := rfl
    have hcond : ¬ ((spireGet s c).cal.fg.running.isNone && !(spireGet s c).cal.fg.waiting) = true := by
      obtain h | h := hstate <;> simp [h]
    simp only [hexec, execCalDeferred, hdefer, if_neg hcond]
  case calWindowClose =>
    intro c i l s hi hpow hrun hwait hen hage u hu
    subst hu
    have hexec : exec (.calWindowClose c i l) s = execCalWindowClose c i l s := rfl
    have hitem : ¬ 8 < i := by omega
    simp only [hexec, execCalWindowClose]
    refine ⟨fun hspoiled hmeas => ?spoiled, fun hmeas => ?unmeasured, fun hclean hmeas => ?checked⟩
    case spoiled => simp [hpow, hrun, hwait, hitem, hage.not_gt, hi, hen, hspoiled, hmeas]
    case unmeasured => simp [hpow, hrun, hwait, hitem, hage.not_gt, hi, hen, hmeas]
    case checked => simp [hpow, hrun, hwait, hitem, hage.not_gt, hi, hen, hclean, hmeas]
  case calApply =>
    intro c i key v s hpow hsync hnext hi
    subst hi
    refine ⟨_, execCalApply_single hpow hsync hnext, ?_⟩
    simp [hnext, tset, terase]
  case txCalApply =>
    intro c l s hest hon
    have hexec : exec (.txCalApply c) s = execTxCalApply c s := rfl
    simp [hexec, execTxCalApply, hest, hon]
  case txCalTimeout =>
    intro c t s hdue hest hon
    have hexec : exec (.txCalTimeout c) s = execTxCalTimeout c s := rfl
    simp [hexec, execTxCalTimeout, hdue, hest, hon]

end Sys2Proof.Machine
end

section
/-! SUPPORT and PROOF. Acquisition (R80, R81, R119 to R122): the packets that the checks pass, and where the commands and their timers
complete. -/

namespace Sys2Proof.Machine

@[simp] theorem cdMax_begun (op : Nat) (pk : Packet) (s : State) (c : Carrier) : cdMax (begun op pk s) c = cdMax s c :=
  begun_congr (f := fun t => cdMax t c) (fun _ => rfl) op pk s

@[simp] theorem sweepNs_begun (op : Nat) (pk : Packet) (s : State) (c : Carrier) : sweepNs (begun op pk s) c = sweepNs s c :=
  begun_congr (f := fun t => sweepNs t c) (fun _ => rfl) op pk s

/-- The settings of R119 lie in their ranges; with cd_mode 2 the centre lies within CD_max of the plan. -/
theorem dspOk_of_ranges {s : State} {c : Carrier} {d : DspSet} (hcentre : d.centre.natAbs ≤ 80000)
    (hfixed : d.cdMode = 2 → ∀ m, cdMax s c = some m → d.centre.natAbs ≤ m)
    (hrest : d.cdMode ≤ 2 ∧ 100 ≤ d.half ∧ d.half ≤ 80000 ∧ 6 ≤ d.mu ∧ d.mu ≤ 16 ∧ 8 ≤ d.cprN ∧ d.cprN ≤ 128 ∧ 1 ≤ d.freqBw ∧
      d.freqBw ≤ 50 ∧ 1 ≤ d.i1 ∧ d.i1 ≤ 10 ∧ (d.i2 = 0 ∨ d.i1 + 6 ≤ d.i2 ∧ d.i2 ≤ 10)) : dspOk s c d = true := by
  simp only [dspOk]
  split
  · next m hmode hmax => simpa [hfixed hmode m hmax, and_assoc] using hrest
  · simpa [hcentre, and_assoc] using hrest

theorem checkSetRxDsp_eq_stOk_iff {s : State} (h : modeOpen s) (c : Ctx) : checkSetRxDsp c s = stOk ↔
    plainLen 16 c ∧ u8 c.pk.params 0 ≤ 1 ∧ u8 c.pk.params 2 ≤ 15 ∧ dspOk s (carrierOf (u8 c.pk.params 0)) (dspField c.pk.params) := by
  simp [checkSetRxDsp, gated_eq_stOk_iff h, carrierBad, and_assoc]

theorem checkGetChannelEstimates_eq_stOk_iff {s : State} (h : modeOpen s) (c : Ctx) : checkGetChannelEstimates c s = stOk ↔
    plainLen 4 c ∧ u8 c.pk.params 0 ≤ 1 ∧ zeroAt c.pk.params 1 3 := by
  simp [checkGetChannelEstimates, gated_eq_stOk_iff h, carrierBad]

theorem checkRestartAcquisition_eq_stOk_iff {s : State} (h : modeOpen s) (c : Ctx) : checkRestartAcquisition c s = stOk ↔
    plainLen 4 c ∧ u8 c.pk.params 0 ≤ 1 ∧ u8 c.pk.params 1 ≤ 1 ∧ zeroAt c.pk.params 2 2 ∧
      rxPowered s (carrierOf (u8 c.pk.params 0)) ∧ (spireGet s (carrierOf (u8 c.pk.params 0))).cal.fg.running = none ∧
      (spireGet s (carrierOf (u8 c.pk.params 0))).cal.fg.waiting = false ∧
      (spireGet s (carrierOf (u8 c.pk.params 0))).acq.restart = none := by
  simp [checkRestartAcquisition, gated_eq_stOk_iff h, carrierBad, and_assoc]

theorem checkRunToneSearch_eq_stOk_iff {s : State} (h : modeOpen s) (c : Ctx) : checkRunToneSearch c s = stOk ↔
    plainLen 4 c ∧ u8 c.pk.params 0 ≤ 1 ∧ zeroAt c.pk.params 1 3 ∧ rxPowered s (carrierOf (u8 c.pk.params 0)) ∧
      (spireGet s (carrierOf (u8 c.pk.params 0))).acq.sweep = none := by
  simp [checkRunToneSearch, gated_eq_stOk_iff h, carrierBad, and_assoc]

theorem acqCode_lt (x : AcqState) : acqCode x < 256 := by cases x <;> decide

/-! Leaving LOCKED does not touch LOS. -/

@[simp] theorem lineGet_pmSpoil (c d : Carrier) (s : State) : lineGet (pmSpoil c s) d = lineGet s d := rfl
@[simp] theorem neutralize_frm (c : Carrier) (s : State) : (lineGet (neutralize c s) c).frm = (lineGet s c).frm := by simp [neutralize]
@[simp] theorem frmHunt_los (c : Carrier) (s : State) : (lineGet (frmHunt c s) c).frm.los = (lineGet s c).frm.los := by
  simp only [frmHunt]
  split_ifs <;> simp
@[simp] theorem unlockFec_los (c : Carrier) (s : State) : (lineGet (unlockFec c s) c).frm.los = (lineGet s c).frm.los := by simp [unlockFec]
@[simp] theorem leaveLocked_los (c : Carrier) (s : State) : (lineGet (leaveLocked c s) c).frm.los = (lineGet s c).frm.los := by
  simp only [leaveLocked]
  split_ifs
  · rfl
  · simp
    rfl

/-- Settles O17. -/
theorem acquisitionCommandsComplete : Obligations.AcquisitionCommandsComplete := by
  refine ⟨?setRxDsp, ?getChannelEstimates, ?restartAcquisition, ?waitSignalTimeout, ?runToneSearch, ?toneSweepDone⟩
  case setRxDsp =>
    intro pk s hs hlen hopen h0 h1 h2 h3 h3' h4 hfixed h8 h8' h12 h12' h13 h13' h14 h15 h15'
    refine next_congr (serve_done hs ((checkSetRxDsp_eq_stOk_iff (modeOpen_begun _ _ _ hopen) _).2 ⟨hlen, h0, h2, ?_⟩) rfl)
    exact dspOk_of_ranges h4 (fun h m hm => hfixed h m (by simpa using hm)) ⟨h1, h8, h8', h3, h3', h12, h12', h15, h15', h13, h13', h14⟩
  case getChannelEstimates =>
    intro pk s hs hlen hopen h0 hzero
    refine ⟨_, next_congr (serve_doneWith hs ((checkGetChannelEstimates_eq_stOk_iff (modeOpen_begun _ _ _ hopen) _).2 ⟨hlen, h0, hzero⟩)
      rfl), ?length, ?state⟩
    case length => simp
    case state => simp [u8_append_left, acqState, Nat.mod_eq_of_lt (acqCode_lt _)]
  case restartAcquisition =>
    intro pk c s hs hlen hopen h0 h1 hzero hc hpow hrun hwait hfree hlos t ht
    subst hc
    have hcheck := (checkRestartAcquisition_eq_stOk_iff (modeOpen_begun 0x0231 pk s hopen) (ctxOf pk s)).2
      ⟨hlen, h0, h1, hzero, by simpa using hpow, by simpa using hrun, by simpa using hwait, by simpa using hfree⟩
    subst ht
    refine ⟨fun hfull => ?full, fun hwarm => ?warm⟩
    case full => exact next_congr (serve_later hs hcheck (by simp [runRestartAcquisition, hlos, hfull]))
    case warm => exact next_congr (serve_later hs hcheck (by simp [runRestartAcquisition, hlos, hwarm]))
  case waitSignalTimeout =>
    intro c r t s hr
    have hexec : exec (.waitSignalTimeout c) s = execWaitSignalTimeout c s := rfl
    simp [hexec, execWaitSignalTimeout, hr]
  case runToneSearch =>
    intro pk c s hs hlen hopen h0 hzero hc hpow hfree
    subst hc
    exact next_congr (serve_later hs ((checkRunToneSearch_eq_stOk_iff (modeOpen_begun _ _ _ hopen) _).2
      ⟨hlen, h0, hzero, by simpa using hpow, by simpa using hfree⟩) (by simp [runRunToneSearch]))
  case toneSweepDone =>
    intro c bins t r s hsweep hdue htone
    have hexec : exec (.toneSweepDone c bins) s = execToneSweepDone c bins s := rfl
    simp [hexec, execToneSweepDone, hsweep, advanceTo_of_le hdue, show (spireGet s c).acq.state ≠ .tone from htone]
    rfl

end Sys2Proof.Machine
end

section
/-! SUPPORT and PROOF. The steps of acquisition and the rows of equalisation (R32, R38, R72 to R74, R99 to R117, R138): where each completes. -/

namespace Sys2Proof.Machine

/-- Settles O18. -/
theorem acquisitionStepsComplete : Obligations.AcquisitionStepsComplete := by
  refine ⟨?scan, ?fixedScan, ?warmScan, ?freqCoarseDone, ?timingAcquired, ?eqConverged, ?sfSyncFound, ?freqFineDone, ?locked,
    ?acquisitionTimeout, ?warmPathTimeout, ?lossOfLock⟩
  case scan =>
    intro c obs s hst hwarm hmode t ht
    subst ht
    have hexec : exec (.cdScanDone c obs) s = execCdScanDone c obs s := rfl
    refine ⟨fun hattempt => ?_, fun hattempt => ?_⟩
    · simp [hexec, execCdScanDone, hst, hwarm, hmode, hattempt]
    · simp [hexec, execCdScanDone, hst, hwarm, hmode, hattempt]
  case fixedScan =>
    intro c obs m s hst hwarm hmode hattempt hmax
    have hexec : exec (.cdScanDone c obs) s = execCdScanDone c obs s := rfl
    simp [hexec, execCdScanDone, hst, hwarm, hmode, hattempt, hmax, -Nat.cast_natAbs]
  case warmScan =>
    intro c obs s hst hwarm hmode
    have hexec : exec (.cdScanDone c obs) s = execCdScanDone c obs s := rfl
    simp [hexec, execCdScanDone, hst, hwarm, hmode]
  case freqCoarseDone =>
    intro c k s hst
    exact next_congr (if_neg (by simp [hst]))
  case timingAcquired =>
    intro c o s hst hlimit
    exact next_congr (if_neg (by simp [hst, hlimit]))
  case eqConverged =>
    intro c g s hst
    exact ⟨next_congr (if_neg (by simp [hst])), next_congr (if_neg (by simp [hst]))⟩
  case sfSyncFound =>
    intro c x y s hst
    exact next_congr (if_neg (by simp [hst]))
  case freqFineDone =>
    intro c k s hst hclamp
    exact next_congr (if_neg (by simp [hst, hclamp]))
  case locked =>
    intro c e s hst hlimit herr
    exact ⟨_, _, next_congr (if_neg (by simp [hst, hlimit, herr])), rfl, rfl⟩
  case acquisitionTimeout =>
    intro c t s hdue
    have hexec : exec (.acquisitionTimeout c) s = execAcquisitionTimeout c s := rfl
    simp [hexec, execAcquisitionTimeout, hdue]
  case warmPathTimeout =>
    intro c t s hwarm htimed
    have hexec : exec (.warmPathTimeout c) s = execWarmPathTimeout c s := rfl
    simp [hexec, execWarmPathTimeout, hwarm, htimed]
  case lossOfLock =>
    intro c s hlocked
    have hexec (x : LockLoss) : exec (.lossOfLock c x) s = execLossOfLock c x s := rfl
    refine ⟨?phase, ?lag, ?singular, fun hlimit => ?timing, fun hlos => ?los⟩
    case phase => simp [hexec, execLossOfLock, hlocked]
    case lag => simp [hexec, execLossOfLock, hlocked]
    case singular => simp [hexec, execLossOfLock, hlocked]
    case timing => simp [hexec, execLossOfLock, hlocked, hlimit]
    case los => simp [hexec, execLossOfLock, hlocked, hlos]

/-! Equalisation. -/

theorem acqState_of_lockedOn {s : State} {c : Carrier} (h : lockedOn s c = true) : acqState s c = .locked := by
  exact eq_of_beq h

/-- A LOCKED carrier's equaliser works. -/
theorem eqActive_of_locked {s : State} {c : Carrier} (h : acqState s c = .locked) : eqActive s c = true := by
  simp [eqActive, h]

/-- A measured spacing as written, free of error, stays so. -/
theorem noteSpacing_of_equal {s : State} (hfibre : s.plan.fibre = 1) (ha : lockedOn s .a) (hb : lockedOn s .b)
    (hfreq : (spireGet s .a).eq.est.freq = (spireGet s .b).eq.est.freq) (herr : s.plan.err = false) :
    noteSpacing s = noteNeighbours { s with plan := { s.plan with measured := s.plan.spacingUse, measValid := true, err := false } } := by
  have hzero : roundDiv (((spireGet s .b).eq.est.freq - (spireGet s .a).eq.est.freq) * 256) 1000000 = 0 := by
    rw [hfreq, sub_self]
    rfl
  simp [noteSpacing, hfibre, ha, hb, hzero, herr]

/-- The superframe settings leave the acquisition machine alone, and what has been received. -/
theorem spireGet_superframeSettings (c : Carrier) (s : State) :
    (spireGet (superframeSettings c s) c).acq = (spireGet s c).acq ∧
      (spireGet (superframeSettings c s) c).rx.pilots = (spireGet s c).rx.pilots := by
  cases c <;> exact ⟨rfl, rfl⟩

theorem sfAligned_superframeSettings (c : Carrier) (s : State) : sfAligned (superframeSettings c s) c = sfAligned s c := by
  simp only [sfAligned, acqState, (spireGet_superframeSettings c s).1]

theorem lockedOn_superframeSettings (c : Carrier) (s : State) : lockedOn (superframeSettings c s) c = lockedOn s c := by
  simp only [lockedOn, (spireGet_superframeSettings c s).1]

/-- In TRACK a block moves the resampler within the clamp of its correction, and then the bulk stage where the equaliser works. -/
theorem execOverlapSaveBlock_of_track {c : Carrier} {o : OsaObs} {s : State} (hpow : rxPowered s c) (htrack : (spireGet s c).rx.timing = .track)
    {r : Rx} (hr : r = resamplerStep (planOf s c).rs256 { (spireGet s c).rx with
      correction := clampInt (-400000) 400000 o.correction
      clockOffset := o.clockOffset
      timingLimit := decide (400000 ≤ o.correction.natAbs) }) :
    ∃ u, execOverlapSaveBlock c o s = .next (if eqActive s c then eqUpd c (bulkStep (planOf s c).rs256 o) u else u) ∧
      spireGet u c = { spireGet s c with rx := r } := by
  have hactive (u : State) (h : spireGet u c = { spireGet s c with rx := r }) : eqActive u c = eqActive s c := by
    simp only [eqActive, acqState, h]
  refine ⟨if decide (400000 ≤ o.correction.natAbs) = (spireGet s c).rx.timingLimit then rxUpd c (fun _ => r) s
    else post 0x0208 (decide (400000 ≤ o.correction.natAbs)) [carrierNum c] (rxUpd c (fun _ => r) s), ?_, ?read⟩
  case read => split_ifs <;> simp
  refine next_congr ((if_neg (by simp [hpow])).trans ?_)
  dsimp only
  rw [rxUpd_congr (g := fun _ => r)]
  rotate_left
  · simp [htrack, hr]
  simp only [htrack, beq_self_eq_true, Bool.or_true, Bool.true_and]
  by_cases hlimit : decide (400000 ≤ o.correction.natAbs) = (spireGet s c).rx.timingLimit
  · simp only [if_pos hlimit]
    rw [hactive _ (spireGet_rxUpd c s _)]
    rfl
  · simp only [if_neg hlimit, planOf_post]
    rw [hactive _ (by simp)]
    rfl

/-- Settles O19. -/
theorem equaliserRowsComplete : Obligations.EqualiserRowsComplete := by
  refine ⟨?eqSingularCheck, ?spacingErr, ?overlapSaveBlock, ?symbolGroupReceive, ?limitRaised, ?limitCleared, ?xtalkFallback,
    ?xtalkResume, ?superframeReceive, ?turboPass⟩
  case eqSingularCheck =>
    intro c e s hpow hlocked
    have hexec (b : Bool) : exec (.eqSingularCheck c b e) s = execEqSingularCheck c b e s := rfl
    have hst := acqState_of_lockedOn hlocked
    have hst' : acqState (singularEq c s) c = .locked := by simpa [acqState, singularEq] using hst
    refine ⟨?sound, ?singular⟩
    case sound => simp [hexec, execEqSingularCheck, eqActive_of_locked hst, hpow, hlocked]
    case singular => simp [hexec, execEqSingularCheck, eqActive_of_locked hst, hpow, hst']
  case spacingErr =>
    intro s hfibre ha hb hfreq herr
    exact next_congr (noteSpacing_of_equal hfibre ha hb hfreq herr)
  case overlapSaveBlock =>
    intro c o s hpow htrack r hr
    subst hr
    have hexec : exec (.overlapSaveBlock c o) s = execOverlapSaveBlock c o s := rfl
    obtain ⟨u, hu, hread⟩ := execOverlapSaveBlock_of_track hpow htrack rfl
    refine ⟨_, hexec.trans hu, ?rx, fun htiming => ?still, fun hlocked => ?moves⟩
    case rx => split_ifs <;> simp [hread]
    case still => simp [eqActive, htiming, hread]
    case moves => simp [eqActive, hlocked, hread]
  case symbolGroupReceive =>
    intro c o s hpow f hf
    subst hf
    exact next_congr (if_neg (by simp [hpow]))
  case limitRaised =>
    intro c s hactive hclear
    have hexec : exec (.eqLimit c true) s = execEqLimit c true s := rfl
    simp [hexec, execEqLimit, hactive, hclear]
  case limitCleared =>
    intro c t s hactive hlimit hfree hdgd
    have hexec : exec (.eqLimit c false) s = execEqLimit c false s := rfl
    simp [hexec, execEqLimit, hactive, hlimit, hfree, hdgd.not_gt]
  case xtalkFallback =>
    intro c n s hmode hpow t ht hcross hsound
    subst ht
    have hexec : exec (.xtalkFallback c n) s = execXtalkFallback c n s := rfl
    simp [hexec, execXtalkFallback, hmode, hpow, hcross, hsound]
  case xtalkResume =>
    intro c n s hmode hpow t ht hsince hoff hset
    subst ht
    have hexec : exec (.xtalkResume c) s = execXtalkResume c s := rfl
    simp [hexec, execXtalkResume, hmode, hpow, hsince, hoff, hset]
  case superframeReceive =>
    intro c s hpow
    refine ⟨fun hloose => ?unaligned, fun haligned hwhole => ?aligned⟩
    case unaligned =>
      refine next_congr ((if_neg (by simp [hpow])).trans (if_pos ?_))
      rw [sfAligned_superframeSettings, hloose, Bool.not_false]
    case aligned =>
      refine next_congr ((if_neg (by simp [hpow])).trans ((if_neg ?_).trans (rxUpd_congr ?_)))
      · rw [sfAligned_superframeSettings, haligned, Bool.not_true]
        exact Bool.false_ne_true
      · rw [(spireGet_superframeSettings c s).2, lockedOn_superframeSettings, if_neg hwhole.not_gt]
        rfl
  case turboPass =>
    intro c b p r s hturbo hb hp hdue hlocked hlos hloc
    have hexec : exec (.turboPass c b p) s = execTurboPass c b p s := rfl
    subst hb hp
    simp [hexec, execTurboPass, hturbo, advanceTo_of_le hdue, hlocked, hlos, hloc]
    exact congrArg _ (eqUpd_congr (by simp [hturbo]))

end Sys2Proof.Machine
end

section
/-! SUPPORT and PROOF. The concatenated code (R133 to R149): the packets that the checks pass, the effects, and where each row completes. -/

namespace Sys2Proof.Machine

theorem checkSetFec_eq_stOk_iff {s : State} (h : modeOpen s) (c : Ctx) : checkSetFec c s = stOk ↔
    plainLen 8 c ∧ u8 c.pk.params 0 ≤ 1 ∧ 1 ≤ u8 c.pk.params 1 ∧ u8 c.pk.params 1 ≤ 16 ∧ 4 ≤ u8 c.pk.params 2 ∧ u8 c.pk.params 2 ≤ 16 ∧
      u8 c.pk.params 1 ≤ u8 c.pk.params 2 ∧ 4 ≤ u8 c.pk.params 3 ∧ u8 c.pk.params 3 ≤ 16 ∧ u8 c.pk.params 4 ≤ 16 ∧
      u8 c.pk.params 5 ≤ 3 ∧ zeroAt c.pk.params 6 2 ∧
      (u8 c.pk.params 2 ≠ (lineGet s (carrierOf (u8 c.pk.params 0))).fec.set.lDec →
        domOn s (fecDom (carrierOf (u8 c.pk.params 0))) → trafficMode s.mode.cur = false) := by
  simp [checkSetFec, gated_eq_stOk_iff h, carrierBad, and_assoc, Nat.one_le_iff_ne_zero]

theorem checkSetFecDefects_eq_stOk_iff {s : State} (h : modeOpen s) (c : Ctx) : checkSetFecDefects c s = stOk ↔
    plainLen 20 c ∧ u8 c.pk.params 0 ≤ 1 ∧ zeroAt c.pk.params 1 3 ∧ 100 ≤ u32 c.pk.params 4 ∧ u32 c.pk.params 4 ≤ 24000 ∧
      50 ≤ u32 c.pk.params 8 ∧ u32 c.pk.params 8 < u32 c.pk.params 4 ∧ 1 ≤ u8 c.pk.params 12 ∧ u8 c.pk.params 12 ≤ 100 ∧
      1 ≤ u8 c.pk.params 13 ∧ u8 c.pk.params 13 ≤ 100 ∧ 1 ≤ u16 c.pk.params 14 ∧ u16 c.pk.params 14 ≤ 1000 ∧
      1 ≤ u16 c.pk.params 16 ∧ zeroAt c.pk.params 18 2 := by
  simp [checkSetFecDefects, gated_eq_stOk_iff h, carrierBad, and_assoc, Nat.one_le_iff_ne_zero]

theorem checkGetFecStatus_eq_stOk_iff {s : State} (h : modeOpen s) (c : Ctx) : checkGetFecStatus c s = stOk ↔
    plainLen 4 c ∧ u8 c.pk.params 0 ≤ 1 ∧ zeroAt c.pk.params 1 3 := by
  simp [checkGetFecStatus, gated_eq_stOk_iff h, carrierBad]

/-! Blocks that stay or leave. -/

/-- Blocks younger than L_dec stay. -/
theorem leaveDue_of_young {c : Carrier} {s : State} (h : ∀ b ∈ (lineGet s c).fec.window, b.age < (lineGet s c).fec.set.lDec) :
    leaveDue c s = s := by
  simp only [leaveDue]
  split
  · rfl
  · next b rest hw =>
    have hb := h b (by simp [hw])
    simp [hb]

theorem leaveAll_of_leaveDue {c : Carrier} {s : State} (h : leaveDue c s = s) (n : Nat) : leaveAll n c s = s := by
  induction n with
  | zero => rfl
  | succ n ih => rw [leaveAll, h, ih]

@[simp] theorem passOn_fec (c : Carrier) (l : List (Nat × Bool)) (s : State) : (lineGet (passOn c l s) c).fec = (lineGet s c).fec := by
  simp only [passOn]
  split_ifs
  · rfl
  · simp [deliver]
@[simp] theorem lineGet_countSources (c d : Carrier) (f g : Fec) (s : State) : lineGet (countSources c f g s) d = lineGet s d := by
  simp [lineGet, countSources]

/-- A block with few unsatisfied checks leaves, is counted, and keeps the alignment. -/
theorem leaveWindow_fec {c : Carrier} {b : DecBlock} {r : List DecBlock} {s : State} (hchecks : (leaveObs (lineGet s c).fec b).unsatisfied ≤ 460) :
    (lineGet (leaveWindow c b r s) c).fec = { forgetBlock b (countBlock b (leaveObs (lineGet s c).fec b) (lineGet s c).fec) with
      window := r, badRun := 0 } := by
  simp [leaveWindow, hchecks.not_gt]

/-! Defects. -/

/-- A window above the threshold that completes the run raises FEC-DEG. -/
theorem judgeDeg_of_high {f : Fec} (hcounts : f.degW.neutral = false) (hhigh : f.degUse.degSet * f.degW.bits < f.degW.errors * 1000000)
    (hrun : f.degUse.degWin ≤ f.degW.high + 1) : (judgeDeg true f).deg = true := by
  simp only [judgeDeg, hcounts, Bool.not_true, Bool.or_self, Bool.false_eq_true, if_false, decide_eq_true hhigh, Bool.true_or, if_true,
    if_pos hrun]

/-- Settles O20. -/
theorem fecRowsComplete : Obligations.FecRowsComplete := by
  refine ⟨?setFec, ?setFecDefects, ?getFecStatus, ?ldpcBlockEnter, ?decoderIterationPeriod, ?blockLeave, ?fullHuntDone, ?degNeutral,
    ?degRaised, ?failRaised, ?fecThrottle⟩
  case setFec =>
    intro pk k s hs hlen hopen h0 h1 h12 h2 h2' h3 h3' h4 h5 hzero hk hstate t ht
    subst hk ht
    refine next_congr (serve_done hs ((checkSetFec_eq_stOk_iff (modeOpen_begun _ _ _ hopen) _).2
      ⟨hlen, h0, h1, h12.trans h2', h2, h2', h12, h3, h3', h4, h5, hzero, ?_⟩) (by simp [runSetFec]))
    intro hchange hon
    obtain h | h | h := hstate
    · exact absurd (by simpa using h) hchange
    · simp [h] at hon
    · simpa using h
  case setFecDefects =>
    intro pk s hs hlen hopen h0 hzero h4 h4' h8 h84 h12 h12' h13 h13' h14 h14' h16 hzero'
    exact next_congr (serve_done hs ((checkSetFecDefects_eq_stOk_iff (modeOpen_begun _ _ _ hopen) _).2
      ⟨hlen, h0, hzero, h4, h4', h8, h84, h12, h12', h13, h13', h14, h14', h16, hzero'⟩) rfl)
  case getFecStatus =>
    intro pk s hs hlen hopen h0 hzero
    refine ⟨_, next_congr (serve_doneWith hs ((checkGetFecStatus_eq_stOk_iff (modeOpen_begun _ _ _ hopen) _).2 ⟨hlen, h0, hzero⟩) rfl),
      ?length, ?limit⟩
    case length => simp [List.length_flatMap]
    case limit => simp [u8_append_left, u8_append_right]
  case ldpcBlockEnter =>
    intro c x y z r s haligned hchan
    have hexec : exec (.ldpcBlockEnter c) s = execLdpcBlockEnter c s := rfl
    refine ⟨openWindow c x y z s, (enterBlock s c x).1, by simp [hexec, execLdpcBlockEnter, haligned, hchan], ?_⟩
    simp [openWindow, hchan, enterBlock]
  case decoderIterationPeriod =>
    intro c r s haligned hyoung hr
    subst hr
    have hexec : exec (.decoderIterationPeriod c) s = execDecoderIterationPeriod c s := rfl
    simp [hexec, execDecoderIterationPeriod, leaveAll_of_leaveDue (leaveDue_of_young hyoung), haligned]
  case blockLeave =>
    intro c b r s hwindow haligned hage hchecks
    have hexec : exec (.blockLeave c) s = .next (leaveDue c s) := rfl
    refine ⟨leaveWindow c b r s, by simp [hexec, leaveDue, hwindow, haligned, hage.not_gt], ?_⟩
    simp [leaveWindow_fec hchecks, forgetBlock, countBlock, haligned]
  case fullHuntDone =>
    intro c q s hhunt hraw hq
    have hexec : exec (.fullHuntDone c) s = execFullHuntDone c s := rfl
    refine ⟨fun hgood => ?_, fun hbad => ?_⟩
    · simp [hexec, execFullHuntDone, hhunt, hraw.not_gt, ← hq, hgood]
    · simp [hexec, execFullHuntDone, hhunt, hraw.not_gt, ← hq, hbad.not_ge]
  case degNeutral =>
    intro c t s hend hdue hneutral
    have hexec : exec (.fecDegWindow c) s = execFecDegWindow c s := rfl
    simp [hexec, execFecDegWindow, hend, advanceTo_of_le hdue, judgeDeg, hneutral]
  case degRaised =>
    intro c t f s hf hend hdue hcounts hsound hhigh hrun
    subst hf
    have hexec : exec (.fecDegWindow c) s = execFecDegWindow c s := rfl
    refine ⟨_, by simp only [hexec, execFecDegWindow, hend, advanceTo_of_le hdue, hsound]; rfl, ?_⟩
    simp [judgeDeg_of_high hcounts hhigh hrun]
  case failRaised =>
    intro c t f s hf hend hdue hcounts hsound hcount hrun
    subst hf
    have hexec : exec (.fecFailWindow c) s = execFecFailWindow c s := rfl
    simp [hexec, execFecFailWindow, hend, advanceTo_of_le hdue, judgeFail, hcounts, hsound, hcount, hrun]
  case fecThrottle =>
    intro c t s hat hdue hwarn
    have hexec : exec (.fecThrottle c) s = execFecThrottle c s := rfl
    refine ⟨_, by simp only [hexec, execFecThrottle, throttleStep, hat, advanceTo_of_le hdue, hwarn, Bool.false_eq_true, if_false]; rfl, ?_⟩
    simp

end Sys2Proof.Machine
end

section
/-! SUPPORT and PROOF. The framer (R153 to R169, R175 to R177): the packets that the checks pass, the effects, and where each row completes. -/

namespace Sys2Proof.Machine

theorem checkSetFrameConfig_eq_stOk_iff {s : State} (h : modeOpen s) (c : Ctx) : checkSetFrameConfig c s = stOk ↔
    plainLen 144 c ∧ u8 c.pk.params 0 ≤ 1 ∧ u8 c.pk.params 1 ≤ 7 ∧ -500 ≤ i16 c.pk.params 2 ∧ i16 c.pk.params 2 ≤ -200 ∧
      i16 c.pk.params 2 + 10 ≤ i16 c.pk.params 4 ∧ i16 c.pk.params 4 ≤ -150 ∧ 1 ≤ u8 c.pk.params 6 ∧ u8 c.pk.params 6 ≤ 100 ∧
      zeroAt c.pk.params 7 1 ∧ 10 ≤ u16 c.pk.params 8 ∧ u16 c.pk.params 8 ≤ 10000 ∧ zeroAt c.pk.params 10 6 := by
  simp [checkSetFrameConfig, gated_eq_stOk_iff h, carrierBad, and_assoc, Nat.one_le_iff_ne_zero]

theorem checkGetFrameStatus_eq_stOk_iff {s : State} (h : modeOpen s) (c : Ctx) : checkGetFrameStatus c s = stOk ↔
    plainLen 4 c ∧ u8 c.pk.params 0 ≤ 1 ∧ zeroAt c.pk.params 1 3 := by
  simp [checkGetFrameStatus, gated_eq_stOk_iff h, carrierBad]

theorem alignCode_lt (x : AlignState) : alignCode x < 256 := by cases x <;> decide

/-! What follows a frame leaves the framers alone. -/

@[simp] theorem pmCount_line (e : Nat) (f : PmAcc → PmAcc) (s : State) : (pmCount e f s).line = s.line := by
  simp only [pmCount]
  split_ifs <;> rfl
@[simp] theorem settleTen_line (t : Nat) (s : State) : (settleTen t s).line = s.line := by
  simp only [settleTen, pmCount_line, tenUpd_frame]
  split_ifs
  · rfl
  · simp [postEv]
@[simp] theorem tenAcq_line (t : Nat) (fresh : Bool) (s : State) : (tenAcq t fresh s).line = s.line := by
  simp [tenAcq, Machine.startHunt]
@[simp] theorem lineEffect_line (s : State) (t : Nat) : (lineEffect s t).line = s.line := by
  simp only [lineEffect]
  split_ifs <;> simp
@[simp] theorem lineEffects_line (s : State) : (lineEffects s).line = s.line :=
  foldl_leaves (f := State.line) lineEffect_line _ _
@[simp] theorem noteLeg_line (c : Carrier) (s : State) : (noteLeg c s).line = s.line := by
  simp only [noteLeg]
  split_ifs <;> simp [postEv]
@[simp] theorem noteLossEnd_line (s : State) : (noteLossEnd s).line = s.line := by
  simp only [noteLossEnd]
  split_ifs <;> simp
@[simp] theorem noteLegs_line (s : State) : (noteLegs s).line = s.line := by
  simp only [noteLegs]
  split_ifs <;> simp
@[simp] theorem countCopy_line (c : Carrier) (good : Bool) (s : State) : (countCopy c good s).line = s.line := by
  simp only [countCopy]
  split_ifs <;> simp
@[simp] theorem lineGet_noteLegs (s : State) (c : Carrier) : lineGet (noteLegs s) c = lineGet s c := by simp [lineGet]
@[simp] theorem lineGet_countCopy (d : Carrier) (good : Bool) (s : State) (c : Carrier) : lineGet (countCopy d good s) c = lineGet s c := by
  simp [lineGet]

/-! A header in HUNT. -/

/-- The settings that apply at a frame boundary change nothing of the search. -/
theorem applyFrmSettings_frm (c : Carrier) (s : State) : ∃ m n, (lineGet (applyFrmSettings c s) c).frm =
    { (lineGet s c).frm with use := (lineGet s c).frm.set, belowNs := m, aboveNs := n } := by
  simp only [applyFrmSettings, lineGet_frmUpd]
  split_ifs with hsame hlevels
  · exact ⟨(lineGet s c).frm.belowNs, (lineGet s c).frm.aboveNs, congrArg (fun u => { (lineGet s c).frm with use := u }) hsame.symm⟩
  · exact ⟨_, _, rfl⟩
  · exact ⟨_, _, rfl⟩

@[simp] theorem planOf_applyFrmSettings (c d : Carrier) (s : State) : planOf (applyFrmSettings c s) d = planOf s d := rfl

theorem nextPosition_applyFrmSettings (c : Carrier) (s : State) : nextPosition (applyFrmSettings c s) c = nextPosition s c := by
  obtain ⟨m, n, h⟩ := applyFrmSettings_frm c s
  simp [nextPosition, h]

theorem nextHeader_applyFrmSettings (c : Carrier) (s : State) : nextHeader (applyFrmSettings c s) c = nextHeader s c := by
  obtain ⟨m, n, h⟩ := applyFrmSettings_frm c s
  simp [nextHeader, nextPosition_applyFrmSettings, h]

theorem nextPosition_of_hunt {s : State} {c : Carrier} (h : (lineGet s c).frm.align = .hunt) : nextPosition s c = (lineGet s c).frm.pos := by
  simp [nextPosition, h]

theorem examine_hunt_good {c : Carrier} {s : State} (h : (lineGet s c).frm.align = .hunt) (fc : Nat) : examine c true fc s =
    frmUpd c (fun f => { f with lastFc := fc }) (frmUpd c (fun f => { f with align := .presync, goodRun := 1, rising := true }) s) := by
  simp [examine, h]

theorem examine_hunt_bad {c : Carrier} {s : State} (h : (lineGet s c).frm.align = .hunt) (fc : Nat) : examine c false fc s = s := by
  simp [examine, h]

/-! The frames sent. -/

/-- What an update of one carrier's part leaves alone reads as before on both. -/
theorem pget_pupd_keeps {α β : Type} {f : α → α} {g : α → β} (h : ∀ x, g (f x) = g x) (p : Pair α) (c d : Carrier) :
    g (pget (pupd p c f) d) = g (pget p d) := by
  by_cases hd : d = c
  · rw [hd, pget_pupd_same, h]
  · rw [pget_pupd_other _ hd]

theorem encodeFrame_frame (c : Carrier) (fc : Nat) (l : List Nat) (s : State) : (encodeFrame c fc l s).mode = s.mode ∧
    (encodeFrame c fc l s).txFc = s.txFc ∧ (encodeFrame c fc l s).test = s.test := by
  simp only [encodeFrame]
  split_ifs <;> simp

theorem emitFrame_frame (c : Carrier) (fc : Nat) (h : BitVec 64) (ann ssm : Nat) (tti : Byte) (p : Payload) (s : State) :
    (emitFrame c fc h ann ssm tti p s).mode = s.mode ∧ (emitFrame c fc h ann ssm tti p s).txFc = s.txFc ∧
      (emitFrame c fc h ann ssm tti p s).test = s.test := by
  simp only [emitFrame]
  split_ifs <;> simp [deliver, encodeFrame_frame]

/-- A frame sent changes neither the mode, nor the frame counter, nor a loop. -/
theorem sendOwn_frame (c : Carrier) (fc : Nat) (fdi : Bool) (s : State) : (sendOwn c fc fdi s).mode = s.mode ∧
    (sendOwn c fc fdi s).txFc = s.txFc ∧ ∀ d, lineLoop (sendOwn c fc fdi s) d = lineLoop s d := by
  unfold sendOwn
  split
  · exact ⟨rfl, rfl, fun _ => rfl⟩
  · obtain ⟨hmode, hfc, htest⟩ := emitFrame_frame c fc _ _ _ _ _ _
    exact ⟨hmode, hfc, fun d => by
      simp only [lineLoop, htest]
      exact pget_pupd_keeps (fun x => by split_ifs <;> rfl) _ c d⟩

/-- Outside REGENERATE and without a loop a carrier sends frames of its own. -/
theorem regenSource_eq_none {s : State} {c : Carrier} (hmode : s.mode.cur ≠ .regenerate) (hloop : lineLoop s c ≠ some 1) :
    regenSource s c = none := by
  simp [regenSource, hmode, hloop]

/-- Settles O21. -/
theorem frameRowsComplete : Obligations.FrameRowsComplete := by
  refine ⟨?setFrameConfig, ?getFrameStatus, ?frameTransmit, ?frameReceive, ?flywheelTick, ?multiframeBoundaryRx⟩
  case setFrameConfig =>
    intro pk s hs hlen hopen h0 h1 h2 h2' h24 h4 h6 h6' hzero h8 h8' hzero'
    exact next_congr (serve_done hs ((checkSetFrameConfig_eq_stOk_iff (modeOpen_begun _ _ _ hopen) _).2
      ⟨hlen, h0, h1, h2, h2', h24, h4, h6, h6', hzero, h8, h8', hzero'⟩) rfl)
  case getFrameStatus =>
    intro pk s hs hlen hopen h0 hzero f hf
    subst hf
    refine ⟨_, next_congr (serve_doneWith hs ((checkGetFrameStatus_eq_stOk_iff (modeOpen_begun _ _ _ hopen) _).2 ⟨hlen, h0, hzero⟩) rfl),
      ?length, ?align⟩
    case length =>
      simp [List.length_flatMap, -List.reduceReplicate]
      ring
    case align => simp [u8_append_left, Nat.mod_eq_of_lt (alignCode_lt _)]
  case frameTransmit =>
    intro s hpow hmode ha hb
    obtain ⟨hmode', hfc, hloop⟩ := sendOwn_frame .a s.txFc false s
    have hb' := regenSource_eq_none (hmode' ▸ hmode) ((hloop .b).symm ▸ hb)
    refine next_congr ((if_neg (by simp [hpow])).trans ?_)
    simp only [regenSource_eq_none hmode ha, hb', hfc]
    exact if_neg (by simp [hmode])
  case frameReceive =>
    intro c s hfed hready hhunt
    obtain ⟨m, n, hfrm⟩ := applyFrmSettings_frm c s
    have halign : (lineGet (applyFrmSettings c s) c).frm.align = .hunt := by simp [hfrm, hhunt]
    have hcond : ¬ (!framerFed s c || !headerReady s c) = true := by simp [hfed, hready]
    refine ⟨fun hgood => ?good, fun hbad => ?bad⟩
    case good =>
      refine ⟨_, next_congr (if_neg hcond), ?_⟩
      simp [nextHeader_applyFrmSettings, hgood, examine_hunt_good halign, syncOn, hhunt, afterHeader, hfrm]
    case bad =>
      refine ⟨_, next_congr (if_neg hcond), ?_⟩
      simp [nextHeader_applyFrmSettings, hbad, examine_hunt_bad halign, syncOn, hhunt, afterHeader, hfrm, movePosition,
        nextPosition_applyFrmSettings, nextPosition_of_hunt hhunt]
  case flywheelTick =>
    intro c s hpow hsync
    refine ⟨_, next_congr (if_neg (by simp [hpow, hsync])), ?_⟩
    obtain ⟨m, n, hfrm⟩ := applyFrmSettings_frm c s
    simp [hfrm]
  case multiframeBoundaryRx =>
    intro c a s hpow hpend
    have hexec : exec (.multiframeBoundaryRx c) s = execMultiframeBoundaryRx c s := rfl
    simp [hexec, execMultiframeBoundaryRx, hpow, annBoundary, hpend]

end Sys2Proof.Machine
end

section
/-! SUPPORT and PROOF. The commands of host lanes, PHYs, groups and clients (R200 to R208): what reading a table of the host shows after an
update, and where each command completes. -/

namespace Sys2Proof.Machine

/-! Lists and tables of records. -/

theorem getD_lupd_same {α : Type} {l : List α} {i : Nat} (h : i < l.length) (d : α) (f : α → α) : (lupd l i f).getD i d = f (l.getD i d) := by
  simp [lupd, h]

theorem getD_lupd_other {α : Type} (l : List α) {i j : Nat} (h : i ≠ j) (d : α) (f : α → α) : (lupd l i f).getD j d = l.getD j d := by
  simp [lupd, h]

@[simp] theorem lupd_length {α : Type} (l : List α) (i : Nat) (f : α → α) : (lupd l i f).length = l.length := by simp [lupd]

/-- What an update of an entry leaves alone reads as before at every key. -/
theorem tget_tupd_keeps {α β : Type} [DecidableEq α] {d : α} {t : Tbl α} (hwf : tblWf d t = true) {f : α → α} {g : α → β}
    (h : ∀ x, g (f x) = g x) (k x : Nat) : g (tget d (tupd d t k f) x) = g (tget d t x) := by
  rw [tupd, tget_tset hwf]
  split_ifs with hx
  · rw [h, hx]
  · rfl

/-- A check that passes has passed its form and every entry. -/
theorem of_gated_eq_stOk {s : State} {bad : Bool} {l : List (Bool × Nat)} (h : gated s bad l = stOk) : bad = false ∧ firstBad l = stOk := by
  obtain ⟨hbad, -, -, hl⟩ : bad = false ∧ s.mode.cur ≠ .dormant ∧ s.mode.trans = none ∧ firstBad l = stOk := by
    simpa [gated, modeGate] using h
  exact ⟨hbad, hl⟩

section readings
variable (op : Nat) (pk : Packet) (s : State)

@[simp] theorem quadGet_begun (q : Nat) : quadGet (begun op pk s) q = quadGet s q := by simp [quadGet]
@[simp] theorem groupOf_begun (g : Nat) : groupOf (begun op pk s) g = groupOf s g := by simp [groupOf]
@[simp] theorem clientOf_begun (t : Nat) : clientOf (begun op pk s) t = clientOf s t := by simp [clientOf]
@[simp] theorem phyOf_begun (p : Nat) : phyOf (begun op pk s) p = phyOf s p := by simp [phyOf]
@[simp] theorem laneGet_begun (l : Nat) : laneGet (begun op pk s) l = laneGet s l := by simp [laneGet]
@[simp] theorem instanceNumbers_begun (l : List (Nat × Nat)) : instanceNumbers (begun op pk s) l = instanceNumbers s l := by
  simp [instanceNumbers]
theorem phyFail_begun (p : Nat) : phyFail (begun op pk s) p = phyFail s p :=
  begun_congr (f := fun t => phyFail t p) (fun _ => rfl) op pk s

@[simp] theorem groupOf_phyUpd (p : Nat) (f : Phy → Phy) (g : Nat) : groupOf (phyUpd p f s) g = groupOf s g := rfl
@[simp] theorem groupOf_foldl_phyUpd {α : Type} (l : List α) (p : α → Nat) (f : α → Phy → Phy) (g : Nat) :
    groupOf (l.foldl (fun t m => phyUpd (p m) (f m) t) s) g = groupOf s g :=
  foldl_leaves (f := fun t => groupOf t g) (fun t m => groupOf_phyUpd t (p m) (f m) g) l s
@[simp] theorem groups_foldl_phyUpd {α : Type} (l : List α) (p : α → Nat) (f : α → Phy → Phy) :
    (l.foldl (fun t m => phyUpd (p m) (f m) t) s).host.groups = s.host.groups :=
  foldl_leaves (f := fun t => t.host.groups) (fun t m => (rfl : (phyUpd (p m) (f m) t).host.groups = t.host.groups)) l s
@[simp] theorem groupOf_sendOverhead (h g : Nat) : groupOf (sendOverhead h s) g = groupOf s g := groupOf_foldl_phyUpd ..
variable {s}
theorem groupOf_groupUpd_same {g : Nat} (h : g < s.host.groups.length) (f : FlexGroup → FlexGroup) :
    groupOf (groupUpd g f s) g = f (groupOf s g) := getD_lupd_same h _ _

end readings

/-! The commands. -/

theorem quad_le_of_check {c : Ctx} {s : State} (h : checkSetHostQuad c s = stOk) : u8 c.pk.params 0 ≤ 9 := by
  have h := (of_gated_eq_stOk h).2
  simp only [firstBad_cons_eq_stOk (show stBadParam ≠ stOk by decide), Bool.or_eq_false_iff, decide_eq_false_iff_not] at h
  omega

theorem quad_le_of_getHostStatus {c : Ctx} {s : State} (h : checkGetHostStatus c s = stOk) : u8 c.pk.params 0 ≤ 9 := by
  have h := (of_gated_eq_stOk h).2
  simp only [firstBad_cons_eq_stOk (show stBadParam ≠ stOk by decide), Bool.or_eq_false_iff, decide_eq_false_iff_not] at h
  omega

theorem b2n_lt (b : Bool) : b2n b < 2 := by cases b <;> decide

theorem group_le_of_setFlexeGroup {c : Ctx} {s : State} (h : checkSetFlexeGroup c s = stOk) : u8 c.pk.params 0 ≤ 15 := by
  have h := (of_gated_eq_stOk h).2
  simp only [firstBad_cons_eq_stOk (show stBadParam ≠ stOk by decide), Bool.or_eq_false_iff, decide_eq_false_iff_not] at h
  omega

theorem group_le_of_setFlexeCalendar {c : Ctx} {s : State} (h : checkSetFlexeCalendar c s = stOk) : u8 c.pk.params 0 ≤ 15 := by
  have h := (of_gated_eq_stOk h).2
  simp only [firstBad_cons_eq_stOk (show stBadParam ≠ stOk by decide), Bool.or_eq_false_iff, decide_eq_false_iff_not] at h
  omega

theorem group_le_of_switchFlexeCalendar {c : Ctx} {s : State} (h : checkSwitchFlexeCalendar c s = stOk) : u8 c.pk.params 0 ≤ 15 := by
  have h := (of_gated_eq_stOk h).2
  simp only [firstBad_cons_eq_stOk (show stBadParam ≠ stOk by decide), Bool.or_eq_false_iff, decide_eq_false_iff_not] at h
  omega

@[simp] theorem phyIdle_clients (t : Nat) (s : State) : (phyIdle t s).host.clients = s.host.clients := by
  simp only [phyIdle]
  split_ifs <;> rfl

/-- A tenant without a client is bound afresh. -/
theorem runSetClient_of_unbound {c : Ctx} {s : State} (hkind : u8 c.pk.params 0 ≠ 0) (hold : (clientOf s c.pk.tenant).kind = 0) :
    runSetClient c s = done (pmDrop (pmTen c.pk.tenant) (phyIdle c.pk.tenant { phyIdle c.pk.tenant s with
      host := { (phyIdle c.pk.tenant s).host with
        clients := tset {} s.host.clients c.pk.tenant (askedClient c.pk.params) } })) := by
  simp [runSetClient, askedClient, hkind, hold]

theorem endSwitch_of_none {g st : Nat} {s : State} (h : (groupOf s g).switch = none) : endSwitch g st s = s := by
  simp [endSwitch, h]

/-- The switch is noted, and CA counts anew on every PHY of the group. -/
theorem runSwitchFlexeCalendar_eq (c : Ctx) (s : State) : runSwitchFlexeCalendar c s =
    later (sendOverhead (u8 c.pk.params 0) (groupUpd (u8 c.pk.params 0) (fun x => { x with
      switch := some ⟨c.ref, !(u8 c.pk.params 1).testBit 0, s.now + u16 c.pk.params 2 * msNs, (u8 c.pk.params 1).testBit 0⟩ })
      ((groupOf s (u8 c.pk.params 0)).phys.foldl (fun t m => phyUpd m.1 (fun k => { k with caRun := 0 }) t) s))) := by
  simp [runSwitchFlexeCalendar, phyUpd]

/-! The status of lanes and clients. -/

theorem lanesStatus_length (l : List Nat) (s : State) : (lanesStatus l s).1.length = 16 * l.length := by
  induction l generalizing s with
  | nil => rfl
  | cons x r ih =>
    rw [lanesStatus, List.length_append, ih]
    simp [laneStatus, drawBytes]
    omega

@[simp] theorem lanes_length_laneStatus (x : Nat) (s : State) : (laneStatus x s).2.host.lanes.length = s.host.lanes.length := by
  simp [laneStatus, laneUpd, drawBytes]

/-- The status of a lane clears its own count and leaves the others. -/
theorem failed_laneStatus {l : Nat} {s : State} (h : l < s.host.lanes.length) (x : Nat) :
    (laneGet (laneStatus x s).2 l).failed = if x = l then 0 else (laneGet s l).failed := by
  split_ifs with hx
  · subst hx
    exact congrArg HostLane.failed (getD_lupd_same h _ _)
  · exact congrArg HostLane.failed (getD_lupd_other _ hx _ _)

/-- The status of several lanes leaves no count of any of them. -/
theorem failed_lanesStatus {l : Nat} (r : List Nat) {s : State} (h : l < s.host.lanes.length) (hl : l ∈ r ∨ (laneGet s l).failed = 0) :
    (laneGet (lanesStatus r s).2 l).failed = 0 := by
  induction r generalizing s with
  | nil => exact hl.resolve_left (List.not_mem_nil)
  | cons x r ih =>
    refine ih (by simpa using h) ?_
    rw [failed_laneStatus h]
    by_cases hx : x = l
    · exact .inr (if_pos hx)
    · rw [if_neg hx]
      exact hl.imp_left fun hm => (List.mem_cons.1 hm).resolve_left (Ne.symm hx)

/-- Whether a PHY fails is read from its lanes and from what is declared on it. -/
theorem phyFail_congr {s t : State} {p : Nat} (hlanes : t.host.lanes = s.host.lanes) (hn : (phyOf t p).lanes = (phyOf s p).lanes)
    (hd : (phyOf t p).declared = (phyOf s p).declared) : phyFail t p = phyFail s p := by
  simp only [phyFail, phyReported, phyDeclared, laneGet, hlanes, hn, hd]

theorem phyOf_phyUpd_keeps {β : Type} {s : State} (hwf : tblWf {} s.host.phys = true) (f : Phy → Phy) {g : Phy → β} (h : ∀ k, g (f k) = g k)
    (q p : Nat) : g (phyOf (phyUpd q f s) p) = g (phyOf s p) :=
  tget_tupd_keeps hwf h q p

/-- The clearing of codeword counts leaves the failure of every PHY as it was. -/
theorem phyFail_clearCounts (l : List Nat) {s : State} (hwf : tblWf {} s.host.phys = true) (p : Nat) :
    phyFail (l.foldl (fun t q => phyUpd q (fun k => { k with cwCorr := 0, symCorr := 0, cwUncorr := 0 }) t) s) p = phyFail s p := by
  induction l generalizing s with
  | nil => rfl
  | cons q r ih =>
    refine (ih (tset_wf hwf _ _)).trans (phyFail_congr rfl ?_ ?_)
    · exact phyOf_phyUpd_keeps hwf _ (g := Phy.lanes) (by intro; rfl) q p
    · exact phyOf_phyUpd_keeps hwf _ (g := Phy.declared) (by intro; rfl) q p

/-- Settles O22. -/
theorem hostCommandsComplete : Obligations.HostCommandsComplete := by
  refine ⟨?setHostQuad, ?setHostLaneTx, ?setHostPhy, ?setClient, ?setFlexeGroup, ?setFlexeCalendar, ?switchFlexeCalendar,
    ?getHostStatus, ?getClientStatus⟩
  case setHostQuad =>
    intro pk s hs hcheck hquads
    have hq : u8 pk.params 0 ≤ 9 := quad_le_of_check hcheck
    refine ⟨storeQuad pk.params (begun 0x0E01 pk s), next_congr (serve_done hs hcheck (by simp [runSetHostQuad])), ?quad, ?tap, ?lanes⟩
    case quad => exact getD_lupd_same (by simp [hquads]; omega) _ _
    case tap =>
      intro hrclk hset
      rw [storeQuad]
      simp only [hset, if_true]
      refine getD_lupd_same ?_ _ _
      simpa [hrclk] using bits_lt _ 6 5
    case lanes => simp [storeQuad]
  case setHostLaneTx =>
    intro pk s hs hcheck
    exact next_congr (serve_done hs hcheck rfl)
  case setHostPhy =>
    intro pk s hs hcheck hkind
    refine ⟨storePhy pk.params (begun 0x0E03 pk s), next_congr (serve_done hs hcheck rfl), ?phys, ?lanes⟩
    case phys => simp [storePhy, hkind]
    case lanes => simp [storePhy]
  case setClient =>
    intro pk s hs hcheck hkind hold
    refine ⟨_, next_congr (serve_done hs hcheck (runSetClient_of_unbound hkind (by simpa using hold))), ?_⟩
    simp [askedClient, hkind]
  case setFlexeGroup =>
    intro pk s hs hcheck hkind hswitch hgroups
    have hg : u8 pk.params 0 ≤ 15 := group_le_of_setFlexeGroup hcheck
    refine ⟨_, next_congr (serve_done hs hcheck (by simp [runSetFlexeGroup, endSwitch_of_none, hkind, hswitch]; rfl)), ?_⟩
    rw [groupOf_sendOverhead, groupOf_groupUpd_same]
    · simp
    · simp [hgroups]
      omega
  case setFlexeCalendar =>
    intro pk s hs hcheck
    have hg : u8 pk.params 0 ≤ 15 := group_le_of_setFlexeCalendar hcheck
    have hread (f : FlexGroup → FlexGroup) (hgroups : s.host.groups.length = 16) :
        groupOf (groupUpd (u8 pk.params 0) f (begun 0x0E06 pk s)) (u8 pk.params 0) = f (groupOf s (u8 pk.params 0)) := by
      rw [groupOf_groupUpd_same (by simp [hgroups]; omega), groupOf_begun]
    refine ⟨fun huse hgroups => ⟨_, next_congr (serve_done hs hcheck rfl), ?_⟩, fun huse hgroups =>
      ⟨_, next_congr (serve_done hs hcheck rfl), ?_⟩⟩
    · simp [hread, hgroups, huse]
    · simp [hread, hgroups, huse]
  case switchFlexeCalendar =>
    intro pk s hs hcheck hgroups
    have hg : u8 pk.params 0 ≤ 15 := group_le_of_switchFlexeCalendar hcheck
    refine ⟨_, next_congr (serve_later hs hcheck (runSwitchFlexeCalendar_eq _ _)), ?_⟩
    simp only [groupOf_sendOverhead, ctxOf_pk, ctxOf_ref]
    rw [groupOf_groupUpd_same (by simp [hgroups]; omega)]
    simp
  case getHostStatus =>
    intro pk s hs hcheck
    refine ⟨_, _, next_congr (serve_doneWith hs hcheck rfl), ?length, ?power, ?rate, ?failed⟩
    case length => simp [lanesStatus_length]
    case power => simp [u8_append_left, (b2n_lt _).trans (by decide : 2 < 256)]
    case rate => simp [u8_append_left, u8_append_right]
    case failed =>
      intro hlanes i hi
      refine failed_lanesStatus _ ?_ (.inl ?_)
      · have hq : u8 pk.params 0 ≤ 9 := quad_le_of_getHostStatus hcheck
        simp only [begun_frame, hlanes]
        omega
      · simpa using hi
  case getClientStatus =>
    intro pk s hs hcheck
    refine ⟨_, _, next_congr (serve_doneWith hs hcheck rfl), ?length, ?kind, ?fails⟩
    case length => simp
    case kind => simp [u8_append_left]
    case fails =>
      intro hwf p
      have hwf' : tblWf {} (begun 0x0E09 pk s).host.phys = true := by simpa using hwf
      refine Eq.trans ?_ (phyFail_begun 0x0E09 pk s p)
      split_ifs
      · exact phyFail_clearCounts _ hwf' p
      · exact phyFail_clearCounts _ hwf' p

end Sys2Proof.Machine
end

section
/-! SUPPORT and PROOF. The calendars (R227 to R230, R234 to R236): what passes when time goes on and frames are sent, reading and writing the
tables, and where each row completes. -/

namespace Sys2Proof.Machine

/-! Time and frames that pass. -/

/-- Time that passes moves the clock, the time of day with its slew, and the counters only. -/
@[simp] theorem advanceTo_frame (t : Nat) (s : State) :
    (advanceTo t s).free = s.free ∧ (advanceTo t s).hostMem = s.hostMem ∧ (advanceTo t s).swiys = s.swiys ∧
    (advanceTo t s).ev = s.ev ∧ (advanceTo t s).dma = s.dma ∧ (advanceTo t s).page = s.page ∧ (advanceTo t s).mode = s.mode ∧
    (advanceTo t s).clk = s.clk ∧ (advanceTo t s).ctl = s.ctl ∧ (advanceTo t s).eng = s.eng ∧ (advanceTo t s).power = s.power ∧
    (advanceTo t s).pins = s.pins ∧ (advanceTo t s).therm = s.therm ∧ (advanceTo t s).journal = s.journal ∧
    (advanceTo t s).fw = s.fw ∧ (advanceTo t s).ring = s.ring ∧ (advanceTo t s).plan = s.plan ∧
    (advanceTo t s).spire = s.spire ∧ (advanceTo t s).line = s.line ∧ (advanceTo t s).txFc = s.txFc ∧
    (advanceTo t s).cal = s.cal ∧ (advanceTo t s).ten = s.ten ∧ (advanceTo t s).skew = s.skew ∧ (advanceTo t s).mrg = s.mrg ∧
    (advanceTo t s).host = s.host ∧ (advanceTo t s).pm = s.pm ∧ (advanceTo t s).turret = s.turret ∧
    (advanceTo t s).mem = s.mem ∧ (advanceTo t s).test = s.test ∧ (advanceTo t s).pending = s.pending := by
  simp only [advanceTo, slewTime, addTod]
  split_ifs <;> simp

@[simp] theorem wrapTx_cal (s : State) : (wrapTx s).cal = s.cal := rfl
@[simp] theorem skipEncoder_cal (n : Nat) (c : Carrier) (s : State) : (skipEncoder n c s).cal = s.cal := rfl
@[simp] theorem sendFrames_cal (n : Nat) (s : State) : (sendFrames n s).cal = s.cal := by
  simp only [sendFrames]
  split_ifs <;> simp
theorem advanceTo_cal (t : Nat) (s : State) : (advanceTo t s).cal = s.cal := by simp

@[simp] theorem toFrame_cal (fc : Nat) (s : State) : (toFrame fc s).cal = s.cal := by
  simp only [toFrame]
  generalize (fc % 2 ^ 24 + 2 ^ 24 - s.txFc) % 2 ^ 24 = n
  by_cases hn : 2 ^ 23 ≤ n
  · rw [if_pos hn]
  · rw [if_neg hn, sendFrames_cal, skipEncoder_cal, skipEncoder_cal]
    exact advanceTo_cal _ _
@[simp] theorem settleTxTen_cal (s : State) (t : Nat) : (settleTxTen s t).cal = s.cal := by
  simp only [settleTxTen]
  split_ifs <;> simp
@[simp] theorem settleTxAll_cal (s : State) : (settleTxAll s).cal = s.cal := foldl_leaves (f := State.cal) settleTxTen_cal _ _

/-! Buffers. -/

theorem calBuf_putTable_same (c : Carrier) (b : Nat) (t : Tbl Nat) (s : State) : calBuf (putTable c b t s) c b = t := by
  simp only [calBuf, putTable]
  split_ifs <;> simp

theorem putTable_frame (c : Carrier) (b : Nat) (t : Tbl Nat) (s : State) : (putTable c b t s).cal.tx = s.cal.tx ∧
    (putTable c b t s).cal.rx = s.cal.rx ∧ ∀ d, d ≠ c → pget (putTable c b t s).cal.t0 d = pget s.cal.t0 d ∧
      pget (putTable c b t s).cal.t1 d = pget s.cal.t1 d := by
  simp only [putTable]
  split_ifs
  · exact ⟨rfl, rfl, fun d hd => ⟨pget_pupd_other _ hd fun _ => t, rfl⟩⟩
  · exact ⟨rfl, rfl, fun d hd => ⟨rfl, pget_pupd_other _ hd fun _ => t⟩⟩

/-- The entries of a carrier written to its free buffer, where the mask names it. -/
def putNamed (p : List Byte) (c : Carrier) (off : Nat) (s0 s : State) : State :=
  if named (u8 p 0) c then putTable c ((bufToWrite s0 c).getD 0) ((writtenEntries p off).filter fun x => x.2 != 0) s else s

theorem putNamed_frame (p : List Byte) (c : Carrier) (off : Nat) (s0 s : State) : (putNamed p c off s0 s).cal.tx = s.cal.tx ∧
    (putNamed p c off s0 s).cal.rx = s.cal.rx ∧ ∀ d, d ≠ c → pget (putNamed p c off s0 s).cal.t0 d = pget s.cal.t0 d ∧
      pget (putNamed p c off s0 s).cal.t1 d = pget s.cal.t1 d := by
  simp only [putNamed]
  split_ifs
  · exact putTable_frame ..
  · exact ⟨rfl, rfl, fun _ _ => ⟨rfl, rfl⟩⟩

theorem putNamed_of_named {p : List Byte} {c : Carrier} (h : named (u8 p 0) c = true) (off : Nat) (s0 s : State) :
    putNamed p c off s0 s = putTable c ((bufToWrite s0 c).getD 0) ((writtenEntries p off).filter fun x => x.2 != 0) s := if_pos h

theorem putNamed_of_not_named {p : List Byte} {c : Carrier} (h : named (u8 p 0) c = false) (off : Nat) (s0 s : State) :
    putNamed p c off s0 s = s := if_neg (by simp [h])

theorem calBuf_putNamed_other (p : List Byte) {c d : Carrier} (off : Nat) (s0 s : State) (b : Nat) (h : d ≠ c) :
    calBuf (putNamed p c off s0 s) d b = calBuf s d b := by
  obtain ⟨-, -, hother⟩ := putNamed_frame p c off s0 s
  simp only [calBuf, hother d h]

/-- SET_CALENDAR writes carrier A's entries and then carrier B's, which follow those of A. -/
theorem runSetCalendar_eq (c : Ctx) (s : State) : runSetCalendar c s =
    doneWith (putNamed c.pk.params .b (4 + 1280 * b2n ((u8 c.pk.params 0).testBit 0)) s (putNamed c.pk.params .a 4 s s))
      (le 1 (if named (u8 c.pk.params 0) .a then (bufToWrite s .a).getD 0 else 0xFF) ++
        le 1 (if named (u8 c.pk.params 0) .b then (bufToWrite s .b).getD 0 else 0xFF)) := by
  have ha : named (u8 c.pk.params 0) .a = (u8 c.pk.params 0).testBit 0 := rfl
  have hb : named (u8 c.pk.params 0) .b = (u8 c.pk.params 0).testBit 1 := rfl
  cases h0 : (u8 c.pk.params 0).testBit 0 <;> cases h1 : (u8 c.pk.params 0).testBit 1 <;>
    simp [runSetCalendar, entryOffsets, namedCarriers, putNamed, ha, hb, h0, h1, b2n]

@[simp] theorem bufToWrite_begun (op : Nat) (pk : Packet) (s : State) (c : Carrier) : bufToWrite (begun op pk s) c = bufToWrite s c :=
  begun_congr (f := fun t => bufToWrite t c) (fun _ => rfl) op pk s

@[simp] theorem calBuf_begun (op : Nat) (pk : Packet) (s : State) (c : Carrier) (b : Nat) : calBuf (begun op pk s) c b = calBuf s c b :=
  begun_congr (f := fun t => calBuf t c b) (fun _ => rfl) op pk s

theorem swapFailure_begun (op : Nat) (pk : Packet) (s : State) (m : Nat) : swapFailure (begun op pk s) m = swapFailure s m :=
  begun_congr (f := fun t => swapFailure t m) (fun _ => rfl) op pk s

theorem length_flatMap_le (k : Nat) (f : Nat → Nat) (n : Nat) : ((List.range n).flatMap fun j => le k (f j)).length = k * n := by
  simp [List.length_flatMap, mul_comm]

/-- A field of a list of fields of one size. -/
theorem uField_flatMap_le (k : Nat) (f : Nat → Nat) {n i : Nat} (h : i < n) :
    uField ((List.range n).flatMap fun j => le k (f j)) (k * i) k = f i % 256 ^ k := by
  induction n with
  | zero => omega
  | succ n ih =>
    have hlen := length_flatMap_le k f n
    rw [List.range_succ, List.flatMap_append, List.flatMap_singleton]
    obtain hi | rfl := Nat.lt_succ_iff_lt_or_eq.1 h
    · rw [uField_append_left, ih hi]
      rw [hlen, ← Nat.mul_succ]
      exact Nat.mul_le_mul_left k hi
    · rw [uField_append_right hlen.le, hlen, Nat.sub_self, uField_le]

/-- Settles O24. -/
theorem calendarRowsComplete : Obligations.CalendarRowsComplete := by
  refine ⟨?setCalendar, ?swapCalendar, ?getCalendar, ?calendarSwapBoundary⟩
  case setCalendar =>
    intro pk s hs hcheck
    refine ⟨_, _, next_congr (serve_doneWith hs hcheck (runSetCalendar_eq _ _)), ?length, ?tx, ?rx, ?writtenA, ?writtenB, ?keptA, ?keptB⟩
    case length => simp
    case tx => simp [putNamed_frame]
    case rx => simp [putNamed_frame]
    case writtenA =>
      intro b hnamed hb hlt
      have hA : named (u8 pk.params 0) .a = true := hnamed
      refine ⟨by simp [u8_append_left, hA, hb, Nat.mod_eq_of_lt hlt], ?_⟩
      simp only [ctxOf_pk]
      rw [calBuf_putNamed_other _ _ _ _ _ (by decide), putNamed_of_named hA, bufToWrite_begun, hb]
      exact calBuf_putTable_same ..
    case writtenB =>
      intro b hnamed hb hlt
      have hB : named (u8 pk.params 0) .b = true := hnamed
      refine ⟨by simp [u8_append_right, hB, hb, Nat.mod_eq_of_lt hlt], ?_⟩
      simp only [ctxOf_pk]
      rw [putNamed_of_named hB, bufToWrite_begun, hb]
      exact calBuf_putTable_same ..
    case keptA =>
      intro hnamed
      have hA : named (u8 pk.params 0) .a = false := hnamed
      obtain ⟨-, -, hother⟩ := putNamed_frame pk.params .b (4 + 1280 * b2n ((u8 pk.params 0).testBit 0)) (begun 0x0410 pk s)
        (putNamed pk.params .a 4 (begun 0x0410 pk s) (begun 0x0410 pk s))
      obtain ⟨h0, h1⟩ := hother .a (by decide)
      rw [putNamed_of_not_named hA] at h0 h1
      exact ⟨by simp [u8_append_left, hA], by simpa [putNamed_of_not_named hA, pget] using h0,
        by simpa [putNamed_of_not_named hA, pget] using h1⟩
    case keptB =>
      intro hnamed
      have hB : named (u8 pk.params 0) .b = false := hnamed
      obtain ⟨-, -, hother⟩ := putNamed_frame pk.params .a 4 (begun 0x0410 pk s) (begun 0x0410 pk s)
      obtain ⟨h0, h1⟩ := hother .b (by decide)
      exact ⟨by simp [u8_append_right, hB], by simpa [putNamed_of_not_named hB, pget] using h0,
        by simpa [putNamed_of_not_named hB, pget] using h1⟩
  case swapCalendar =>
    intro pk s hs hcheck
    refine ⟨fun hnone => ?allowed, fun r c i e hfail => ?forbidden⟩
    case allowed =>
      refine ⟨_, next_congr (serve_later hs hcheck (by simp [runSwapCalendar, swapFailure_begun, hnone]; rfl)), ?_⟩
      simp [named, carrierNum]
    case forbidden =>
      refine next_congr ?_
      rw [serve_runs hs hcheck]
      simp [runSwapCalendar, swapFailure_begun, hfail, answer]
  case getCalendar =>
    intro pk s hs hcheck
    refine ⟨_, next_congr (serve_doneWith hs hcheck rfl), ?length, fun i hi => ?entry⟩
    case length => simp only [List.length_append, le_length, length_flatMap_le]
    case entry =>
      simp only [u16]
      rw [uField_append_right (by simp), show 4 + 2 * i - (le 1 _ ++ le 3 0).length = 2 * i by simp, uField_flatMap_le 2 _ hi]
      simp
  case calendarSwapBoundary =>
    intro w b s hswap hb
    have hexec : exec .calendarSwapBoundary s = execCalendarSwapBoundary s := rfl
    refine ⟨_, by simp only [hexec, execCalendarSwapBoundary, hswap, swapBuffers]; rfl, ?_⟩
    simp

end Sys2Proof.Machine
end

section
/-! SUPPORT and PROOF. The commands of performance monitoring (R283 to R288): the entity that a command names, the lengths of records, and
where each command completes. -/

namespace Sys2Proof.Machine

@[simp] theorem satField_length (n v : Nat) : (satField n v).length = n := le_length ..

theorem binExtra_length (e : Nat) (b : PmBin) : (binExtra e b).length = 56 := by
  simp only [binExtra]
  split_ifs <;> simp

@[simp] theorem binRecord_length (e period flags seq : Nat) (b : PmBin) : (binRecord e period flags seq b).length = 128 := by
  simp [binRecord, binExtra_length]

/-- The first byte of a bin record tells a line from a tenant. -/
theorem u8_binRecord_kind (e period flags seq : Nat) (b : PmBin) : u8 (binRecord e period flags seq b) 0 = if e < 2 then 0 else 1 := by
  simp only [binRecord, List.append_assoc]
  rw [u8_append_left (by simp), u8_le]
  split_ifs <;> rfl

/-- The second byte of a bin record is its period. -/
theorem u8_binRecord_period (e period flags seq : Nat) (b : PmBin) : u8 (binRecord e period flags seq b) 1 = period % 256 := by
  simp only [binRecord, List.append_assoc]
  rw [u8_append_right (by simp), u8_append_left (by simp)]
  simp

/-- An entity that a command names. -/
theorem namedEntity_eq {kind carrier : Nat} {c : Ctx} (h : (namedEntity kind carrier c).isNone = false) :
    namedEntity kind carrier c = some (if kind = 0 then carrier else 2 + c.pk.tenant) ∧ (kind = 0 → carrier ≤ 1) ∧ kind ≤ 1 := by
  simp only [namedEntity] at h ⊢
  split_ifs at h ⊢ <;> simp_all [pmTen]

/-- The entity that a command's own packet names. -/
theorem namedEntity_ctxOf (pk : Packet) (s : State) (h : (namedEntity (u8 pk.params 0) (u8 pk.params 1) (ctxOf pk s)).isNone = false) :
    namedEntity (u8 pk.params 0) (u8 pk.params 1) (ctxOf pk s) =
      some (if u8 pk.params 0 = 0 then u8 pk.params 1 else 2 + pk.tenant) :=
  (namedEntity_eq h).1

/-- The lowest bit of the flags of R288. -/
theorem testBit_lqFlags (a b : Nat) : (1 + 2 * a + 4 * b).testBit 0 = true := by
  rw [Nat.testBit_zero, decide_eq_true_eq]
  omega

/-- Sixteen thresholds written one after another. -/
theorem tget_foldl_tset {d : Nat} (f : Nat → Nat) (base : Nat) (t : Tbl Nat) (h : tblWf d t) (n : Nat) :
    tblWf d ((List.range n).foldl (fun t i => tset d t (base + i) (f i)) t) ∧
      ∀ k, tget d ((List.range n).foldl (fun t i => tset d t (base + i) (f i)) t) k =
        if base ≤ k ∧ k < base + n then f (k - base) else tget d t k := by
  induction n with
  | zero => exact ⟨h, fun k => by rw [if_neg (by omega)]; rfl⟩
  | succ n ih =>
    obtain ⟨hwf, hget⟩ := ih
    rw [List.range_succ, List.foldl_append, List.foldl_cons, List.foldl_nil]
    refine ⟨tset_wf hwf .., fun k => ?_⟩
    rw [tget_tset hwf, hget]
    by_cases hk : k = base + n
    · simp [hk]
    · rw [if_neg hk]
      exact if_congr (by omega) rfl rfl

theorem historyRead_begun (op : Nat) (pk : Packet) (s : State) (e period i : Nat) :
    historyRead (begun op pk s) e period i = historyRead s e period i :=
  begun_congr (f := fun t => historyRead t e period i) (fun _ => rfl) op pk s

/-- Settles O28. -/
theorem pmCommandsComplete : Obligations.PmCommandsComplete := by
  refine ⟨?setConfig, ?setThresholds, ?setProfile, ?getCurrent, ?getHistory, ?getLinkQuality⟩
  case setConfig =>
    intro pk s hs hcheck
    exact ⟨_, next_congr (serve_done hs hcheck rfl), by simp⟩
  case setThresholds =>
    intro pk s hs hcheck hwf
    refine ⟨_, next_congr (serve_done hs hcheck rfl), ?_⟩
    obtain ⟨-, hget⟩ := tget_foldl_tset (fun i => u32 pk.params (4 + 4 * i)) (16 * u8 pk.params 0) s.pm.thr hwf 16
    simp only [ctxOf_pk, begun_frame, hget]
    refine ⟨fun i hi => ?_, fun k hk => if_neg (by omega)⟩
    rw [if_pos (by omega), Nat.add_sub_cancel_left]
  case setProfile =>
    intro pk s hs hcheck
    have hok := (of_gated_eq_stOk hcheck).2
    simp only [firstBad_cons_eq_stOk (show stBadParam ≠ stOk by decide), Bool.or_eq_false_iff] at hok
    obtain ⟨⟨⟨hname, -⟩, -⟩, -⟩ := hok
    have hrun := namedEntity_ctxOf pk s hname
    exact ⟨_, next_congr (serve_done hs hcheck (by rw [runSetPmProfile]; simp only [ctxOf_pk, hrun]; rfl)), by simp⟩
  case getCurrent =>
    intro pk s hs hcheck
    have hok := (of_gated_eq_stOk hcheck).2
    simp only [firstBad_cons_eq_stOk (show stBadParam ≠ stOk by decide), Bool.or_eq_false_iff] at hok
    obtain ⟨⟨hname, -⟩, -⟩ := hok
    have hrun := namedEntity_ctxOf pk s hname
    obtain ⟨-, hline, hkind⟩ := namedEntity_eq hname
    refine ⟨_, next_congr (serve_doneWith hs hcheck (by rw [runGetPmCurrent]; simp only [ctxOf_pk, hrun]; rfl)), by simp, ?kind, ?first, ?second⟩
    case kind =>
      rw [u8_append_left (by simp), u8_binRecord_kind]
      simp only [ctxOf_pk] at hline hkind ⊢
      by_cases h0 : u8 pk.params 0 = 0
      · have := hline h0
        rw [if_pos h0, if_pos (by omega), h0]
      · rw [if_neg h0, if_neg (by omega)]
        omega
    case first => rw [u8_append_left (by simp), u8_binRecord_period]
    case second => rw [u8_append_right (by simp), binRecord_length, u8_binRecord_period]
  case getHistory =>
    intro pk s r hs hcheck hread
    have hok := (of_gated_eq_stOk hcheck).2
    simp only [firstBad_cons_eq_stOk (show stBadParam ≠ stOk by decide), Bool.or_eq_false_iff] at hok
    obtain ⟨⟨⟨⟨⟨hname, -⟩, -⟩, -⟩, -⟩, -⟩ := hok
    have hrun := namedEntity_ctxOf pk s hname
    refine next_congr (serve_doneWith hs hcheck ?_)
    rw [runGetPmHistory]
    simp only [ctxOf_pk, hrun, historyRead_begun, hread, Option.getD_some]
  case getLinkQuality =>
    intro pk s hs hcheck
    by_cases hvalid : (pget s.pm.lq (carrierOf (u8 pk.params 0))).valid = true
    · refine ⟨_, _, next_congr (serve_doneWith hs hcheck (by simp only [runGetLinkQuality, ctxOf_pk, begun_frame, hvalid, if_true]; rfl)), ?_⟩
      refine ⟨by simp [leS_length], by simp, ?_, fun _ => ?_⟩
      · rw [hvalid]
        simp [u8_append_left]
        omega
      · simp [u16_append_left, u16_append_right, u32_append_left, u32_append_right, leS_length]
    · rw [Bool.not_eq_true] at hvalid
      refine ⟨_, _, next_congr (serve_doneWith hs hcheck (by simp [runGetLinkQuality, hvalid]; rfl)), ?_⟩
      simp [drawBytes, u8_append_left, hvalid]

end Sys2Proof.Machine
end

section
/-! SUPPORT. The mapper of a tenant (R215 to R219): what leaves tenants alone, blocks that are offered, a period that is sent. -/

namespace Sys2Proof.Machine

/-! Entries of tables that are not the default. -/

/-- A value other than the default is read back from any table. -/
theorem tget_tset_same_of_ne {α : Type} [DecidableEq α] {d v : α} (t : Tbl α) (k : Nat) (h : v ≠ d) : tget d (tset d t k v) k = v := by
  rw [tset, if_neg h, tget_tput, if_pos rfl]

section tenant
variable {t : Nat} {s : State}

theorem tenGet_tenUpd_of_ne {f : Tenant → Tenant} (h : f (tenGet s t) ≠ {}) : tenGet (tenUpd t f s) t = f (tenGet s t) :=
  tget_tset_same_of_ne _ _ h

/-- An update that leaves a container size on transmit is read back. -/
theorem tenGet_tenUpd_of_size {f : Tenant → Tenant} (h : 0 < (f (tenGet s t)).tx.c) : tenGet (tenUpd t f s) t = f (tenGet s t) :=
  tenGet_tenUpd_of_ne fun hf => by simp [hf] at h

/-- An update that leaves the pointer interpreter in NORM is read back. -/
theorem tenGet_tenUpd_of_norm {f : Tenant → Tenant} (h : (f (tenGet s t)).rx.state = .norm) : tenGet (tenUpd t f s) t = f (tenGet s t) :=
  tenGet_tenUpd_of_ne fun hf => by simp [hf] at h

theorem tenGet_of_ten {u : State} (h : u.ten = s.ten) : tenGet u t = tenGet s t := by rw [tenGet, h, tenGet]

end tenant

/-! What leaves the tenants alone. -/

@[simp] theorem pmCount_ten (e : Nat) (f : PmAcc → PmAcc) (s : State) : (pmCount e f s).ten = s.ten := by
  simp only [pmCount]
  split_ifs <;> rfl
@[simp] theorem pmCount_host (e : Nat) (f : PmAcc → PmAcc) (s : State) : (pmCount e f s).host = s.host := by
  simp only [pmCount]
  split_ifs <;> rfl
@[simp] theorem pmCount_txFc (e : Nat) (f : PmAcc → PmAcc) (s : State) : (pmCount e f s).txFc = s.txFc := by
  simp only [pmCount]
  split_ifs <;> rfl
@[simp] theorem countClient_ten (i t n : Nat) (s : State) : (countClient i t n s).ten = s.ten := by
  simp only [countClient]
  split <;> simp
@[simp] theorem countClient_txFc (i t n : Nat) (s : State) : (countClient i t n s).txFc = s.txFc := by
  simp only [countClient]
  split <;> simp
@[simp] theorem txPeriod_ten (t : Nat) (s : State) : (txPeriod t s).ten = s.ten := rfl
@[simp] theorem rxPeriod_ten (t : Nat) (kp : Option Nat) (s : State) : (rxPeriod t kp s).ten = s.ten := rfl
@[simp] theorem wrapRx_ten (p : Nat → Bool) (s : State) : (wrapRx p s).ten = s.ten := rfl
@[simp] theorem followChecker_ten (t : Nat) (s : State) : (followChecker t s).ten = s.ten := rfl
@[simp] theorem checkerUpd_ten (kind i : Nat) (f : Checker → Checker) (s : State) : (checkerUpd kind i f s).ten = s.ten := by simp
@[simp] theorem takeChecker_ten (kind i : Nat) (r : Checker × List Bool) (s : State) : (takeChecker kind i r s).ten = s.ten := by
  rw [takeChecker, foldl_leaves (f := State.ten) (fun u b => by simp [postEv])]
  simp
@[simp] theorem feedPrbs_ten (kind i : Nat) (l : List Word64) (s : State) : (feedPrbs kind i l s).ten = s.ten := by
  simp only [feedPrbs]
  split_ifs
  · rfl
  · exact takeChecker_ten ..
@[simp] theorem phySend_ten (p : Nat) (b : List (List Bool)) (o : Int) (s : State) : (phySend p b o s).ten = s.ten := by
  simp only [phySend]
  split_ifs <;> rfl
@[simp] theorem tagVerdict_ten (t : Nat) (l : List Nat) (s : State) : (tagVerdict t l s).2.2.ten = s.ten := by
  simp only [tagVerdict]
  split_ifs <;> rfl

/-! The mapper (R215 to R219). -/

/-- A store that takes blocks. -/
def fedTx (blocks : List Nat) (v : TenTx) : TenTx :=
  { v with inflow := v.inflow ++ (wholeWords (addBlocks v.bits blocks)).1, bits := (wholeWords (addBlocks v.bits blocks)).2 }

/-- The store of a tenant once a period's blocks have been offered to it. -/
def offeredTx (replaced : Bool) (kind : Nat) (arrived : List Block66) (v : TenTx) : TenTx :=
  let credit := v.credit + shimShare * v.c
  let fit := shimFit (4 * (credit / 33)) (v.shim ++ arrived)
  if replaced then fedTx (List.replicate (credit / 33) (bitValue (faultBlock 1))) { v with shim := [], credit := credit % 33 }
  else if kind != 2 then v
  else fedTx (((pieces 4 fit.1).map transcode).map bitValue) { v with shim := fit.2, credit := credit % 33 }

theorem offeredTx_keeps (r : Bool) (k : Nat) (l : List Block66) (v : TenTx) :
    (offeredTx r k l v).c = v.c ∧ (offeredTx r k l v).store = v.store ∧ (offeredTx r k l v).since = v.since ∧
      (offeredTx r k l v).ptr = v.ptr ∧ (offeredTx r k l v).freq = v.freq ∧ (offeredTx r k l v).resize = v.resize := by
  simp only [offeredTx]
  split_ifs <;> exact ⟨rfl, rfl, rfl, rfl, rfl, rfl⟩

section offered
variable {t : Nat} {s : State} (hc : 0 < (tenGet s t).tx.c)
include hc

theorem tenGet_feedStore (blocks : List Nat) : tenGet (feedStore t blocks s) t = { tenGet s t with tx := fedTx blocks (tenGet s t).tx } :=
  tenGet_tenUpd_of_size hc

/-- Settings of the shim are read back, and decide nothing about the stream. -/
theorem shimKept (shim : List Block66) (credit : Nat) :
    tenGet (tenUpd t (fun x => { x with tx := { x.tx with shim := shim, credit := credit } }) s) t =
      { tenGet s t with tx := { (tenGet s t).tx with shim := shim, credit := credit } } ∧
    streamReplaced (tenUpd t (fun x => { x with tx := { x.tx with shim := shim, credit := credit } }) s) t = streamReplaced s t := by
  have hget := tenGet_tenUpd_of_size (s := s) (t := t)
    (f := fun x => { x with tx := { x.tx with shim := shim, credit := credit } }) hc
  exact ⟨hget, by simp only [streamReplaced, hget]; rfl⟩

theorem tenGet_offerBlocks (l : List Block66) : tenGet (offerBlocks t l s) t =
    { tenGet s t with tx := offeredTx (streamReplaced s t) (clientOf s t).kind l (tenGet s t).tx } := by
  simp only [offerBlocks, offeredTx]
  by_cases hrep : streamReplaced s t = true
  · obtain ⟨hget, -⟩ := shimKept hc [] (((tenGet s t).tx.credit + shimShare * (tenGet s t).tx.c) % 33)
    rw [if_pos hrep, if_pos hrep, tenGet_feedStore (by rw [hget]; exact hc), hget]
  rw [if_neg hrep, if_neg hrep]
  by_cases hkind : ((clientOf s t).kind != 2) = true
  · rw [if_pos hkind, if_pos hkind]
  rw [if_neg hkind, if_neg hkind]
  generalize hfit : shimFit (4 * (((tenGet s t).tx.credit + shimShare * (tenGet s t).tx.c) / 33)) ((tenGet s t).tx.shim ++ l) = fit
  obtain ⟨hget, hstream⟩ := shimKept hc fit.2 (((tenGet s t).tx.credit + shimShare * (tenGet s t).tx.c) % 33)
  rw [takeStream, if_neg (by simp [hget, hstream, hrep, hc.ne']), tenGet_of_ten (countClient_ten ..),
    tenGet_feedStore (by rw [hget]; exact hc), hget]

end offered

@[simp] theorem takeStream_txFc (t : Nat) (b : List (List Bool)) (s : State) : (takeStream t b s).txFc = s.txFc := by
  simp only [takeStream]
  split_ifs
  · rfl
  · exact countClient_txFc ..
@[simp] theorem offerBlocks_txFc (t : Nat) (l : List Block66) (s : State) : (offerBlocks t l s).txFc = s.txFc := by
  simp only [offerBlocks]
  split_ifs
  · rfl
  · rfl
  · exact takeStream_txFc ..

/-- What a period that is sent leaves of its tenant (R215, R216). -/
theorem tenGet_sendPeriod {t : Nat} {s : State} (hc : 0 < (tenGet s t).tx.c) {b : Nat}
    (hb : b = dataBits (tenGet s t).tx.c (s.txFc / 8 % 256) (if (tenGet s t).tx.freq then 0 else
      chooseJc (tenGet s t).tx.c (tenGet s t).tx.level (tenGet s t).tx.since (tenGet s t).tx.resize)) :
    (tenGet (sendPeriod t s) t).rx = (tenGet s t).rx ∧ (tenGet (sendPeriod t s) t).tx.ptr = nextPtr (tenGet s t).tx.ptr b ∧
      (tenGet (sendPeriod t s) t).tx.store = ((tenGet s t).tx.store ++ (tenGet s t).tx.inflow).drop (b / 64) ∧
      (tenGet (sendPeriod t s) t).tx.fresh = false := by
  subst hb
  simp only [sendPeriod]
  rw [tenGet_of_ten (txPeriod_ten ..), tenGet_of_ten (pmCount_ten ..), tenCnt, tenGet_tenUpd_of_size, tenGet_tenUpd_of_size]
  · exact ⟨rfl, rfl, rfl, rfl⟩
  · exact hc
  · rw [tenGet_tenUpd_of_size]
    · exact hc
    · exact hc

end Sys2Proof.Machine
end

section
/-! SUPPORT and PROOF. The demapper of a tenant (R220 to R226) and where the rows of the tenants complete (R215 to R226, R237, R238). -/

namespace Sys2Proof.Machine

/-! The steps of a received period. -/

section demapper
variable {t : Nat} {s : State} (hn : (tenGet s t).rx.state = .norm)
include hn

theorem tenGet_openPeriod : ∃ held, tenGet (openPeriod t s) t =
    { tenGet s t with rx := { (tenGet s t).rx with held := held, fresh := false } } := by
  simp only [openPeriod]
  generalize hs1 : (if (tenGet s t).rx.held.isSome = true then _ else s) = s1
  have hkept : tenGet s1 t = tenGet s t := by
    rw [← hs1]
    split_ifs <;> rfl
  exact ⟨_, by rw [tenGet_tenUpd_of_norm, hkept]; rw [hkept]; exact hn⟩

theorem tenGet_settleTen : ∃ rep replacing, tenGet (settleTen t s) t =
    { tenGet s t with rx := { (tenGet s t).rx with reported := rep, replacing := replacing } } := by
  simp only [settleTen]
  rw [tenGet_of_ten (pmCount_ten ..)]
  split_ifs
  · exact ⟨_, _, tenGet_tenUpd_of_norm hn⟩
  · have hpost : ∀ code args, tenGet (postEv code args s) t = tenGet s t := fun _ _ => tenGet_of_ten (by simp [postEv])
    rw [tenGet_tenUpd_of_norm (by rw [hpost]; exact hn), hpost]
    exact ⟨_, _, rfl⟩

theorem tenGet_tenCnt (f : TenCounts → TenCounts) : tenGet (tenCnt t f s) t = { tenGet s t with cnt := f (tenGet s t).cnt } :=
  tenGet_tenUpd_of_norm hn

theorem tenGet_countReplaced : ∃ cnt, tenGet (countReplaced t s) t = { tenGet s t with cnt := cnt } := by
  rw [countReplaced, tenGet_of_ten (by simp; rfl), tenGet_tenCnt hn]
  exact ⟨_, rfl⟩

theorem tenGet_followClock (replaced : Bool) (size b : Nat) : ∃ clk, tenGet (followClock t replaced size b s) t =
    { tenGet s t with rx := { (tenGet s t).rx with clk := clk } } := by
  simp only [followClock]
  split_ifs
  · exact ⟨_, rfl⟩
  · exact ⟨_, tenGet_tenUpd_of_norm hn⟩

/-- A marked period is counted; the interpreter stays as it is. -/
theorem tenGet_markPeriod (acc replaced : Bool) (p : PeriodMark) : ∃ now cnt, tenGet (markPeriod t acc replaced p s) t =
    { tenGet s t with rx := { (tenGet s t).rx with now := now, replaceNext := false }, cnt := cnt } := by
  simp only [markPeriod]
  generalize hm : ({ p with errored := !acc || replaced, replaced := replaced, countOnly := (tget {} s.turret.cipher t).action != 0 }
    : PeriodMark) = m
  have hget := tenGet_tenUpd_of_norm (s := s) (t := t)
    (f := fun x => { x with rx := { x.rx with now := m, replaceNext := false } }) hn
  generalize tenUpd t (fun x => { x with rx := { x.rx with now := m, replaceNext := false } }) s = s1 at hget ⊢
  have hn1 : (tenGet s1 t).rx.state = .norm := by rw [hget]; exact hn
  obtain ⟨cnt, hrep⟩ := tenGet_countReplaced hn1
  have hcounted : ∃ cnt, tenGet (if replaced = true then countReplaced t s1 else s1) t = { tenGet s1 t with cnt := cnt } := by
    split_ifs
    · exact ⟨cnt, hrep⟩
    · exact ⟨(tenGet s1 t).cnt, rfl⟩
  obtain ⟨cnt', hcounted⟩ := hcounted
  refine ⟨m, cnt', ?_⟩
  refine (tenGet_of_ten (s := if replaced = true then countReplaced t s1 else s1) ?_).trans (hcounted.trans (by rw [hget]))
  by_cases herr : (!acc || replaced) = true
  · rw [if_pos herr, countErrored, pmCount_ten]
  · rw [if_neg herr]

end demapper

theorem interpNorm_match {ptr : Nat} {r : TenRx} (h : ptr = r.expected) :
    interpNorm true ptr r = ⟨{ r with misRun := 0, noMatch := 0 }, false, false, false⟩ := by
  simp [interpNorm, h]

theorem interpret_match {ptr : Nat} {r : TenRx} (hs : r.state = .norm) (h : ptr = r.expected) (b : Nat) :
    interpret true ptr b r = ⟨{ r with misRun := 0, noMatch := 0, expected := nextPtr r.expected b, cand := nextPtr r.cand b },
      false, false, false⟩ := by
  simp [interpret, hs, interpNorm_match h, interpAdvance]

/-- The run of STAT leaves the pointer interpreter alone. -/
theorem takeStat_keeps (stat : Nat) (r : TenRx) : (takeStat stat r).state = r.state ∧ (takeStat stat r).noMatch = r.noMatch ∧
    (takeStat stat r).misRun = r.misRun ∧ (takeStat stat r).expected = r.expected := by
  simp only [takeStat]
  split_ifs <;> exact ⟨rfl, rfl, rfl, rfl⟩

/-- A received period up to the words of its container: the period before closes, and its base is FC of its first frame. -/
def receiveStart (t : Nat) (acc : Bool) (v : Nat) (s : State) : State :=
  tenUpd t (fun x => { x with rx := { x.rx with base := some (rxPeriodFc s t) } })
    (rxPeriod t (if acc then some (bits v 35 35) else none)
      (openPeriod t (followChecker t (countSrc 0x05 t 1 (pmCount (pmTen t) (fun a => { a with blocks := a.blocks + 1 })
        (if fcWraps (tenGet s t).rx.base (rxPeriodFc s t) then wrapRx (· == t) s else s))))))

theorem tenGet_receiveStart {t : Nat} {s : State} (hn : (tenGet s t).rx.state = .norm) (acc : Bool) (v : Nat) :
    ∃ held, tenGet (receiveStart t acc v s) t =
      { tenGet s t with rx := { (tenGet s t).rx with held := held, fresh := false, base := some (rxPeriodFc s t) } } := by
  rw [receiveStart]
  generalize hs1 : followChecker t _ = s1
  have hkept : tenGet s1 t = tenGet s t := by
    rw [← hs1]
    refine tenGet_of_ten ?_
    simp only [followChecker_ten, countSrc_frame, pmCount_ten]
    split_ifs <;> rfl
  obtain ⟨held, hopen⟩ := tenGet_openPeriod (s := s1) (t := t) (by rw [hkept]; exact hn)
  rw [hkept] at hopen
  have hrx : tenGet (rxPeriod t (if acc then some (bits v 35 35) else none) (openPeriod t s1)) t = tenGet (openPeriod t s1) t :=
    tenGet_of_ten (rxPeriod_ten ..)
  refine ⟨held, ?_⟩
  rw [tenGet_tenUpd_of_norm, hrx, hopen]
  rw [hrx, hopen]
  exact hn

/-- The rest of a received period of a tenant that no line defect suppresses: `s1` where its container's words start. -/
def receiveEnd (t : Nat) (acc : Bool) (h : Word64) (fc : Nat) (s1 : State) : State :=
  let r := (tenGet s1 t).rx
  let k := keySlot s1 t
  let jc := majorityJc h
  let b := dataBits r.c (fc / 8 % 256) jc.1
  let p : PeriodMark := { fc := fc, h := h, w := (keyReg k k.lastKp).wRx, size := r.c, data := b / 64 }
  let i := interpret acc (bits h.toNat 47 39) b r
  let r1 := if acc then takeStat (bits h.toNat 38 36) i.rx else i.rx
  let s2 := settleTen t (countClient 0x0A t (if r.state == .norm then b / 8 else 0) (countInterp t jc.2 i
    (tenUpd t (fun x => { x with rx := r1 }) s1)))
  let replaced := r.state != .norm || i.mismatch || r.replaceNext || (tenGet s2 t).rx.replacing
  followClock t replaced r.c b (markPeriod t acc replaced { p with ptr := r.expected } s2)

theorem exec_pointerPeriodReceive {t : Nat} {s : State} (ht : t < 1024) (hd : domOn s 2 = true) (hn : (tenGet s t).rx.state = .norm)
    {h : Word64 × Bool} (hh : h = rxHeader (tenGet s t).rx) {acc : Bool} (hacc : acceptH s t h.1 h.2 = acc)
    (hsup : (tenGet (receiveStart t acc h.1.toNat s) t).rx.suppressed = false) :
    exec (.pointerPeriodReceive t) s = .next (receiveEnd t acc h.1 (rxPeriodFc s t) (receiveStart t acc h.1.toNat s)) := by
  subst hh hacc
  refine next_congr ((if_neg (by simp [ht.not_ge, hd, hn])).trans ?_)
  exact (if_neg (by rw [Bool.not_eq_true]; exact hsup)).trans rfl

/-- A matching period of a tenant in NORM. -/
theorem tenGet_receiveEnd {t : Nat} {s1 : State} {h : Word64} (hn : (tenGet s1 t).rx.state = .norm)
    (hptr : bits h.toNat 47 39 = (tenGet s1 t).rx.expected) (fc : Nat) :
    (tenGet (receiveEnd t true h fc s1) t).rx.state = .norm ∧ (tenGet (receiveEnd t true h fc s1) t).rx.noMatch = 0 ∧
      (tenGet (receiveEnd t true h fc s1) t).rx.misRun = 0 ∧ (tenGet (receiveEnd t true h fc s1) t).rx.expected =
        nextPtr (tenGet s1 t).rx.expected (dataBits (tenGet s1 t).rx.c (fc / 8 % 256) (majorityJc h).1) := by
  simp only [receiveEnd, interpret_match hn hptr, if_true]
  generalize hb : dataBits (tenGet s1 t).rx.c (fc / 8 % 256) (majorityJc h).1 = b
  generalize hr1 : takeStat (bits h.toNat 38 36) _ = r1
  obtain ⟨hst, hno, hmis, hexp⟩ : r1.state = .norm ∧ r1.noMatch = 0 ∧ r1.misRun = 0 ∧
      r1.expected = nextPtr (tenGet s1 t).rx.expected b := by
    obtain ⟨h1, h2, h3, h4⟩ := takeStat_keeps (bits h.toNat 38 36) { (tenGet s1 t).rx with
      misRun := 0, noMatch := 0, expected := nextPtr (tenGet s1 t).rx.expected b, cand := nextPtr (tenGet s1 t).rx.cand b }
    rw [hr1] at h1 h2 h3 h4
    exact ⟨h1.trans hn, h2, h3, h4⟩
  have hput : tenGet (tenUpd t (fun x => { x with rx := r1 }) s1) t = { tenGet s1 t with rx := r1 } := tenGet_tenUpd_of_norm hst
  generalize tenUpd t (fun x => { x with rx := r1 }) s1 = s2 at hput ⊢
  generalize hs3 : countClient _ _ _ _ = s3
  obtain ⟨cnt, hcnt⟩ : ∃ cnt, tenGet s3 t = { tenGet s1 t with rx := r1, cnt := cnt } := by
    rw [← hs3, tenGet_of_ten (countClient_ten ..), countInterp, tenGet_tenCnt (by rw [hput]; exact hst), hput]
    exact ⟨_, rfl⟩
  obtain ⟨rep, replacing, hset⟩ := tenGet_settleTen (s := s3) (t := t) (by rw [hcnt]; exact hst)
  rw [hcnt] at hset
  generalize settleTen t s3 = s4 at hset ⊢
  generalize hs5 : markPeriod t _ _ _ s4 = s5
  obtain ⟨now, cnt', hmark⟩ : ∃ now cnt', tenGet s5 t = { tenGet s4 t with
      rx := { (tenGet s4 t).rx with now := now, replaceNext := false }, cnt := cnt' } := by
    rw [← hs5]
    exact tenGet_markPeriod (by rw [hset]; exact hst) ..
  rw [hset] at hmark
  generalize (_ || _ : Bool) = replaced
  obtain ⟨clk, hclk⟩ := tenGet_followClock (s := s5) (t := t) (by rw [hmark]; exact hst) replaced (tenGet s1 t).rx.c b
  rw [hclk, hmark]
  exact ⟨hst, hno, hmis, hexp⟩

/-! The check of a tag (R222, R224). -/

section checked
variable {t : Nat} {s : State} (hn : (tenGet s t).rx.state = .norm)
include hn

/-- What a period gives to the client leaves the interpreter, its period and its counts alone. -/
theorem tenGet_giveClient (replaced : Bool) (clear : List Word64) (m : PeriodMark) : ∃ egress part toHost shim credit,
    tenGet (giveClient t replaced clear m s) t = { tenGet s t with rx := { (tenGet s t).rx with
      egress := egress, part := part, toHost := toHost, shim := shim, credit := credit } } := by
  simp only [giveClient]
  generalize (if (replaced || m.replaced || localFaultToHost s t) = true then _ else _ : List Word64) = words
  generalize wholeBlocks (tenGet s t).rx.part m.ptr (wordBits words) = b
  have hget := tenGet_tenUpd_of_norm (s := s) (t := t) (f := fun x => { x with rx := { x.rx with egress := words, part := b.2 } }) hn
  generalize tenUpd t (fun x => { x with rx := { x.rx with egress := words, part := b.2 } }) s = s1 at hget ⊢
  by_cases hphy : (clientOf s t).kind = 1
  · rw [if_pos hphy, tenGet_of_ten (phySend_ten ..), hget]
    exact ⟨_, _, _, _, _, rfl⟩
  rw [if_neg hphy]
  by_cases hflex : (clientOf s t).kind = 2
  · rw [if_pos hflex, tenGet_tenUpd_of_norm (by rw [hget]; exact hn), hget]
    exact ⟨_, _, _, _, _, rfl⟩
  · rw [if_neg hflex, hget]
    exact ⟨_, _, _, _, _, rfl⟩

end checked

/-- A verified tag ends a run of failures and declares nothing. -/
theorem takeAuth_pass {r : TenRx} (h : r.state = .norm) : (takeAuth true r).state = .norm ∧ (takeAuth true r).held = r.held ∧
    (takeAuth true r).authFails = 0 ∧ ((takeAuth true r).auth = true → r.auth = true) := by
  simp only [takeAuth, h]
  refine ⟨rfl, rfl, rfl, ?_⟩
  simp

/-- The verdict of a tag that has passed while no hunt ran, for a tenant that no line defect suppresses. -/
def passTag (t : Nat) (m : PeriodMark) (clear : List Word64) (s : State) : State :=
  let s4 := tenUpd t (fun x => { x with rx := takeAuth true x.rx }) s
  let s6 := if m.replaced then s4 else feedPrbs 3 t clear s4
  settleTen t (giveClient t false clear m s6)

theorem exec_tagCheckResult_pass {t : Nat} {s s1 : State} {m : PeriodMark} {g : Word64} (hheld : (tenGet s t).rx.held = some m)
    (htag : periodTag (tenGet s t).rx m = some g) (hn : (tenGet s t).rx.state = .norm) (hsup : (tenGet s t).rx.suppressed = false)
    {l : List Nat} (hl : l = tagCandidates (keySlot s t) m g) (hpass : (tagVerdict t l s).1 = true)
    (hhunt : (tagVerdict t l s).2.1 = false)
    (hs1 : s1 = tenUpd t (fun x => { x with rx := { x.rx with held := none } })
      { (tagVerdict t l s).2.2 with free := s.free + m.data }) :
    exec (.tagCheckResult t) s = .next (passTag t m (periodClear s (keySlot s t) m) s1) ∧
      tenGet s1 t = { tenGet s t with rx := { (tenGet s t).rx with held := none } } := by
  have hkept : tenGet { (tagVerdict t l s).2.2 with free := s.free + m.data } t = tenGet s t := tenGet_of_ten (tagVerdict_ten ..)
  have hget : tenGet s1 t = { tenGet s t with rx := { (tenGet s t).rx with held := none } } := by
    rw [hs1, tenGet_tenUpd_of_norm, hkept]
    rw [hkept]
    exact hn
  refine ⟨?_, hget⟩
  have hexec : exec (.tagCheckResult t) s = execTagCheckResult t s := rfl
  have hput : tenGet (tenUpd t (fun x => { x with rx := takeAuth true x.rx }) s1) t =
      { tenGet s1 t with rx := takeAuth true (tenGet s1 t).rx } :=
    tenGet_tenUpd_of_norm (takeAuth_pass (by rw [hget]; exact hn)).1
  have hauth : ((tenGet (tenUpd t (fun x => { x with rx := takeAuth true x.rx }) s1) t).rx.auth && !(tenGet s1 t).rx.auth) = false := by
    rw [hput]
    obtain ⟨-, -, -, h⟩ := takeAuth_pass (r := (tenGet s1 t).rx) (by rw [hget]; exact hn)
    cases ha : (takeAuth true (tenGet s1 t).rx).auth
    · rfl
    · rw [h ha]; rfl
  simp only [hexec, execTagCheckResult, hheld, htag, Option.bind_some, Option.map_some, ← hl, ← hs1, hpass, hhunt]
  rw [if_neg (by rw [hget]; simp [hsup])]
  simp only [Bool.not_true, Bool.false_and, Bool.or_false, Bool.false_or, Bool.false_eq_true, if_false, hauth]
  rfl

theorem tenGet_passTag {t : Nat} {s : State} {m : PeriodMark} (hn : (tenGet s t).rx.state = .norm) (clear : List Word64) :
    (tenGet (passTag t m clear s) t).rx.held = (tenGet s t).rx.held ∧ (tenGet (passTag t m clear s) t).rx.authFails = 0 ∧
      (tenGet (passTag t m clear s) t).cnt = (tenGet s t).cnt := by
  simp only [passTag]
  obtain ⟨hst, hheld, hfails, -⟩ := takeAuth_pass hn
  have hput : tenGet (tenUpd t (fun x => { x with rx := takeAuth true x.rx }) s) t = { tenGet s t with rx := takeAuth true (tenGet s t).rx } :=
    tenGet_tenUpd_of_norm hst
  generalize tenUpd t (fun x => { x with rx := takeAuth true x.rx }) s = s4 at hput ⊢
  generalize hs6 : (if m.replaced = true then s4 else feedPrbs 3 t clear s4) = s6
  have hfed : tenGet s6 t = { tenGet s t with rx := takeAuth true (tenGet s t).rx } := by
    rw [← hs6, ← hput]
    refine tenGet_of_ten ?_
    split_ifs
    · rfl
    · exact feedPrbs_ten ..
  have hn6 : (tenGet s6 t).rx.state = .norm := by rw [hfed]; exact hst
  obtain ⟨e, p, h, sh, cr, hgive⟩ := tenGet_giveClient hn6 false clear m
  generalize giveClient t false clear m s6 = s7 at hgive ⊢
  obtain ⟨rep, replacing, hset⟩ := tenGet_settleTen (s := s7) (t := t) (by rw [hgive]; exact hn6)
  rw [hset, hgive, hfed]
  exact ⟨hheld, hfails, rfl⟩

/-! The obligation. -/

@[simp] theorem faultWords_length (ptr n : Nat) : (faultWords ptr n).length = n := by simp [faultWords, faultStream]

theorem ptrCode_lt (p : PtrState) : ptrCode p < 256 := by cases p <;> decide

@[simp] theorem tenGet_begun (op : Nat) (pk : Packet) (s : State) (t : Nat) : tenGet (begun op pk s) t = tenGet s t :=
  begun_congr (f := fun u => tenGet u t) (fun _ => rfl) op pk s
@[simp] theorem sizeTx_begun (op : Nat) (pk : Packet) (s : State) (t : Nat) : sizeTx (begun op pk s) t = sizeTx s t :=
  begun_congr (f := fun u => sizeTx u t) (fun _ => rfl) op pk s
@[simp] theorem sizeRx_begun (op : Nat) (pk : Packet) (s : State) (t : Nat) : sizeRx (begun op pk s) t = sizeRx s t :=
  begun_congr (f := fun u => sizeRx u t) (fun _ => rfl) op pk s

/-- The start of a transmitted period where no resize is to be settled: the written settings apply, and the store stays. -/
def transmitStart (t : Nat) (s : State) : State :=
  tenUpd t (fun x => { x with
      aisUse := x.forceAis
      tx := { x.tx with resize := if centred x.tx.c x.tx.level then 0 else x.tx.resize } })
    { s with test := { s.test with tens := tupd {} s.test.tens t fun g => { g with gen := g.genSet } } }

theorem tenGet_transmitStart {t : Nat} {s : State} (hc : 0 < (tenGet s t).tx.c) (hr : (tenGet s t).tx.resize = 0) :
    tenGet (transmitStart t s) t = { tenGet s t with aisUse := (tenGet s t).forceAis } := by
  rw [transmitStart, tenGet_tenUpd_of_size]
  · have hsame : tenGet { s with test := { s.test with tens := tupd {} s.test.tens t fun g => { g with gen := g.genSet } } } t =
      tenGet s t := rfl
    rw [hsame, hr, ite_self, ← hr]
  · exact hc

theorem streamReplaced_transmitStart {t : Nat} {s : State} (hc : 0 < (tenGet s t).tx.c) (hr : (tenGet s t).tx.resize = 0) :
    streamReplaced (transmitStart t s) t = streamReplaced s t := by
  simp only [streamReplaced, tenGet_transmitStart hc hr]
  rfl

theorem tenUpd_congr {t : Nat} {f g : Tenant → Tenant} {s : State} (h : f (tenGet s t) = g (tenGet s t)) : tenUpd t f s = tenUpd t g s := by
  simp only [tenGet] at h
  simp only [tenUpd, tupd, h]

/-- A window of the client's offset, as it is noted. -/
def offsetTaken (t : Nat) (o : Int) (s : State) : State :=
  pmCount (pmTen t) (fun a => { a with offMin := minOptI a.offMin (some o), offMax := maxOptI a.offMax (some o) })
    { s with host := { s.host with clients := tupd {} s.host.clients t fun k => { k with offset := o } } }

/-- What a window does to a tenant under TC-FREQ (R218). -/
def freqWindow (o : Int) (x : Tenant) : Tenant :=
  let n := if o.natAbs ≤ 19500 then x.tx.clean + 1 else 0
  { x with tx := if 10 ≤ n then { (x.tx.refill x.tx.c) with freq := false, clean := 0 } else { x.tx with clean := n } }

theorem freqWindow_size (o : Int) {x : Tenant} (h : 0 < x.tx.c) : 0 < (freqWindow o x).tx.c := by
  simp only [freqWindow]
  split_ifs <;> exact h

theorem clientOf_offset (t : Nat) (o : Int) {s : State} (h : (clientOf s t).kind ≠ 0) : (clientOf (offsetTaken t o s) t).offset = o := by
  rw [clientOf, offsetTaken, pmCount_host, tupd, tget_tset_same_of_ne]
  exact fun hd => h (congrArg Client.kind hd)

theorem exec_tcFreqOffsetWindow {t : Nat} {o : Int} {s : State} (ht : t < 1024) (hkind : (clientOf s t).kind ≠ 0) :
    exec (.tcFreqOffsetWindow t o) s = .next (if !(tenGet (offsetTaken t o s) t).tx.freq then offsetTaken t o s
      else tenUpd t (freqWindow o) (offsetTaken t o s)) :=
  next_congr ((if_neg (by simp [ht.not_ge, hkind])).trans (if_congr Iff.rfl rfl (tenUpd_congr rfl)))

/-- Settles O25. -/
theorem tenantRowsComplete : Obligations.TenantRowsComplete := by
  refine ⟨?setTenantControl, ?getTenantStatus, ?periodTransmit, ?freqOffsetWindow, ?periodReceive, ?tagCheckResult⟩
  case setTenantControl =>
    intro pk s hs hcheck
    exact next_congr (serve_done hs hcheck rfl)
  case getTenantStatus =>
    intro pk s hs hcheck
    refine ⟨_, next_congr (serve_doneWith hs hcheck rfl), by simp, ?_⟩
    simp [u8_append_left, u16_append_left, u16_append_right, u32_append_right, Nat.mod_eq_of_lt (ptrCode_lt _)]
  case periodTransmit =>
    intro t l v b s ht hd hsize hfreq hresize hc hv hlow hhigh hb
    have hstart := tenGet_transmitStart hc hresize
    have hc1 : 0 < (tenGet (transmitStart t s) t).tx.c := by rw [hstart]; exact hc
    have hoffer := tenGet_offerBlocks hc1 l
    rw [hstart, streamReplaced_transmitStart hc hresize, show clientOf (transmitStart t s) t = clientOf s t from rfl] at hoffer
    rw [tenGet_offerBlocks hc l] at hv
    simp only at hv hoffer
    obtain ⟨kc, kstore, -, kptr, kfreq, kresize⟩ := offeredTx_keeps (streamReplaced s t) (clientOf s t).kind l (tenGet s t).tx
    rw [← hv] at hoffer kc kstore kptr kfreq kresize
    have hlevel : v.level = (tenGet s t).tx.level := congrArg List.length kstore
    have hcalm : freqReached (tenGet s t).tx.c (tenGet s t).tx.level = false := by
      rw [← kc, ← hlevel]
      simp [freqReached, hlow, hhigh]
    have hquiet : (!(tenGet (transmitStart t s) t).tx.freq && freqReached (freqSize (tenGet (transmitStart t s) t).tx.c
        (tenGet (transmitStart t s) t).tx.resize) (tenGet (transmitStart t s) t).tx.level) = false := by
      simp [hstart, hresize, freqSize, hcalm]
    have hexec : exec (.pointerPeriodTransmit t l) s = .next (sendPeriod t (offerBlocks t l (transmitStart t s))) := by
      refine next_congr ((if_neg (by simp [ht.not_ge, hd, hsize])).trans ?_)
      refine congrArg (fun u => sendPeriod t (offerBlocks t l u)) (if_neg ?_)
      rw [Bool.not_eq_true]
      exact hquiet
    obtain ⟨hrx, hptr, hstore, hfresh⟩ := tenGet_sendPeriod (t := t) (s := offerBlocks t l (transmitStart t s)) (b := b)
      (by rw [hoffer]; exact kc ▸ hc) (by
        rw [hoffer, offerBlocks_txFc, hb]
        simp only [kfreq, hfreq, kresize, hresize]
        rfl)
    rw [hoffer] at hrx hptr hstore
    refine ⟨_, hexec, hptr.trans (by rw [kptr]), ?_, hfresh, hrx⟩
    simp only [TenTx.level, hstore, List.length_drop, List.length_append]
  case freqOffsetWindow =>
    intro t o s ht hkind hfreq hc
    have hhost := clientOf_offset t o hkind
    generalize hs2 : offsetTaken t o s = s2 at hhost
    have hkept : tenGet s2 t = tenGet s t := by rw [← hs2]; exact tenGet_of_ten (pmCount_ten ..)
    have hput := tenGet_tenUpd_of_size (s := s2) (t := t) (f := freqWindow o) (by rw [hkept]; exact freqWindow_size o hc)
    have hexec : exec (.tcFreqOffsetWindow t o) s = .next (tenUpd t (freqWindow o) s2) := by
      rw [exec_tcFreqOffsetWindow ht hkind, hs2, if_neg (by simp [hkept, hfreq])]
    rw [hkept] at hput
    refine ⟨_, hexec, ?_⟩
    rw [hput]
    refine ⟨hhost, ?far, ?near, ?tenth⟩
    case far => exact fun h => by simp [freqWindow, h.not_ge, hfreq, -Nat.cast_natAbs]
    case near => exact fun h hclean => by simp [freqWindow, h, hfreq, show ¬ 10 ≤ (tenGet s t).tx.clean + 1 by omega, -Nat.cast_natAbs]
    case tenth =>
      exact fun h hclean => by simp [freqWindow, h, TenTx.level, TenTx.refill, show 10 ≤ (tenGet s t).tx.clean + 1 by omega, -Nat.cast_natAbs]
  case periodReceive =>
    intro t h s ht hd hn hsup hh hacc hptr
    obtain ⟨held, hstart⟩ := tenGet_receiveStart hn true h.1.toNat
    refine ⟨_, exec_pointerPeriodReceive ht hd hn hh hacc (by rw [hstart]; exact hsup), ?_⟩
    have hend := tenGet_receiveEnd (s1 := receiveStart t true h.1.toNat s) (h := h.1) (by rw [hstart]; exact hn)
      (by rw [hstart]; exact hptr) (rxPeriodFc s t)
    rw [hstart] at hend
    exact hend
  case tagCheckResult =>
    intro t g m l s hheld htag hn hsup hl hpass hhunt
    obtain ⟨hexec, hget⟩ := exec_tagCheckResult_pass hheld htag hn hsup hl hpass hhunt rfl
    refine ⟨_, hexec, ?_⟩
    obtain ⟨h1, h2, h3⟩ := tenGet_passTag (m := m) (by rw [hget]; exact hn) (periodClear s (keySlot s t) m)
    exact ⟨h1.trans (by rw [hget]), h2, by rw [h3, hget]⟩

end Sys2Proof.Machine
end

section
/-! SUPPORT and PROOF. The skew buffers (R239 to R245, R258, R259, R261): what moves a schedule, and where each row completes. -/

namespace Sys2Proof.Machine

theorem groupCode_lt (g : GroupState) : groupCode g < 256 := by cases g <;> decide

/-- A signed field of four bytes reads back as its 32 bits. -/
theorem i32_leS (v : Int) : i32 (leS 4 v) 0 = (BitVec.ofInt 32 v).toInt := by
  have hfield : uField (leS 4 v) 0 4 = (BitVec.ofInt 32 v).toNat := by
    rw [leS, uField_le, BitVec.toNat_ofInt]
    omega
  rw [i32, sField, hfield, signed, BitVec.toInt]
  omega

theorem i32_append_left {l m : List Byte} {o : Nat} (h : o + 4 ≤ l.length) : i32 (l ++ m) o = i32 l o := by
  rw [i32, sField, uField_append_left h]
  rfl
theorem i32_append_right {l m : List Byte} {o : Nat} (h : l.length ≤ o) : i32 (l ++ m) o = i32 m (o - l.length) := by
  rw [i32, sField, uField_append_right h]
  rfl

theorem advanceTo_skew (t : Nat) (s : State) : (advanceTo t s).skew = s.skew := by simp

/-! What leaves the buffers (R240). -/

/-- A frame that leaves the buffers is taken by the tenants; of the skew buffers only what is held changes. -/
theorem extractFrame_skew (f : Nat) (a b : Option HeldFrame) (s : State) : (extractFrame f a b s).skew = (dropHeld f s).skew := by
  refine foldl_leaves (f := State.skew) (fun u t => ?_) _ _
  split <;> simp

theorem extractFrame_mrg (f : Nat) (a b : Option HeldFrame) (s : State) : (extractFrame f a b s).mrg = s.mrg := by
  refine (foldl_leaves (f := State.mrg) (fun u t => ?_) _ _).trans rfl
  split <;> simp

/-! Schedules (R241, R244). -/

@[simp] theorem putSched_skew (c : Carrier) (fc : Nat) (t arr : Option Int) (s : State) :
    (putSched c fc t arr s).skew.state = s.skew.state ∧ (putSched c fc t arr s).skew.sched = pset s.skew.sched c t ∧
      (putSched c fc t arr s).skew.readFc = pset s.skew.readFc c fc := ⟨rfl, rfl, rfl⟩

/-- A schedule on its target stays there. -/
theorem moveTo_self (s : State) (n x : Int) : moveTo s n x x = x := by
  have hm : 0 ≤ s.skew.use.ramp * ppmUnits * max 1 n :=
    mul_nonneg (mul_nonneg (Int.natCast_nonneg _) (by decide)) (le_max_of_le_left (by decide))
  simp only [moveTo, clampInt, sub_self]
  omega

theorem guardUnits_nonneg (s : State) : 0 ≤ guardUnits s := mul_nonneg (Int.natCast_nonneg _) (by decide)

/-- Equal arrivals can be held. -/
theorem cannotHold_self (s : State) (x : Int) : cannotHold s (x + guardUnits s) x x = false := by
  have hlim : 0 ≤ (skewLimit s.mode.cur : Int) * unitNs := mul_nonneg (Int.natCast_nonneg _) (by decide)
  simp only [cannotHold, min_self, decide_eq_false_iff_not]
  omega

theorem readJoint_of_none (fc : Nat) (s : State) :
    readJoint fc none none s = putSched .b fc (schedBase s .a fc none) none (putSched .a fc (schedBase s .a fc none) none s) := by
  unfold readJoint
  cases schedBase s .a fc none <;> rfl

/-- Two arrivals at once that lie on their target: the joint schedule reads on. -/
theorem readJoint_of_onTarget {fc : Nat} {x b : Int} {s : State} (hbase : schedBase s .a fc (some x) = some b)
    (htarget : x + guardUnits s = b) : readJoint fc (some x) (some x) s =
      noteTarget [(some b, some b)] (putSched .b fc (some b) (some x) (putSched .a fc (some b) (some x) s)) := by
  have hlate : ¬ b < max x x := by
    have := guardUnits_nonneg s
    rw [max_self]
    omega
  have hheld : cannotHold s b x x = false := by rw [← htarget, cannotHold_self]
  rw [max_self] at hlate
  simp only [readJoint, hbase, max_self, if_neg hlate, htarget, moveTo_self, hheld]
  rfl

theorem exec_scheduleFrameRead {fc : Nat} {a b : Option Int} {s : State} (hd : domOn s 2 = true) (hm : s.mode.cur ≠ .merge) :
    exec (.scheduleFrameRead fc a b) s = .next (extractFrame (fc % 2 ^ 24) (heldFrame s .a (fc % 2 ^ 24)) (heldFrame s .b (fc % 2 ^ 24))
      (moveSchedules (fc % 2 ^ 24) (if syncOn s .a then a.map (· * unitNs) else none)
        (if syncOn s .b then b.map (· * unitNs) else none) s)) :=
  next_congr ((if_neg (by simp [hd])).trans (if_neg (by simpa using hm)))

theorem moveSchedules_aligned {f : Nat} {a b : Option Int} {s : State} (hm : s.mode.cur ≠ .merge) (hr : rampingDown s = false)
    (hal : s.skew.state = .aligned) : moveSchedules f a b s = readJoint f a b s := by
  simp [moveSchedules, hm, hr, hal]

/-- A measured skew, as it is noted; the settings apply. -/
def skewTaken (x : Int) (s : State) : State :=
  { s with skew := { s.skew with use := s.skew.set, value := roundDiv x 256, valid := true } }

theorem exec_skewUpdate {x : Int} {s : State} (hd : domOn s 2 = true) (ha : syncOn s .a = true) (hb : syncOn s .b = true)
    (ht : trafficMode s.mode.cur = true) : exec (.skewUpdate x) s = .next (
      if s.skew.state == .off then skewTaken x s
      else if skewLimit s.mode.cur < (roundDiv x 256).natAbs then
        enterExcess { skewTaken x s with skew := { (skewTaken x s).skew with within := none } }
      else if s.skew.state == .excess then
        { skewTaken x s with skew := { (skewTaken x s).skew with within :=
          if 100 * (roundDiv x 256).natAbs ≤ 95 * (skewLimit s.mode.cur) then some (s.skew.within.getD s.now) else none } }
      else skewTaken x s) := by
  have hboth : ¬ (!(syncOn s .a && syncOn s .b && trafficMode s.mode.cur)) = true := by simp [ha, hb, ht]
  exact next_congr ((if_neg (by simp [hd])).trans (if_neg hboth))

theorem exec_excessEnd {t : Nat} {s : State} (hstate : s.skew.state = .excess) (hwithin : s.skew.within = some t) :
    exec .excessEnd s = .next (leaveExcess (advanceTo (t + 100 * msNs) s)) := by
  have hexec : exec .excessEnd s = execExcessEnd s := rfl
  rw [hexec, execExcessEnd, hstate, hwithin]

theorem leaveExcess_skew {s u : State} (h : u.skew = s.skew) (halarm : s.skew.alarm = true) :
    (leaveExcess u).skew = { s.skew with state := .ramp, alarm := false, within := none } := by
  simp [leaveExcess, clearExcess, h, halarm]

/-- Settles O26. -/
theorem skewRowsComplete : Obligations.SkewRowsComplete := by
  refine ⟨?setSkewConfig, ?getSkewStatus, ?skewUpdate, ?excessEnd, ?readWithoutArrival, ?readOnTarget⟩
  case setSkewConfig =>
    intro pk s hs hcheck
    exact ⟨_, next_congr (serve_done hs hcheck rfl), by simp⟩
  case getSkewStatus =>
    intro pk s hs hcheck
    refine ⟨_, _, next_congr (serve_doneWith hs hcheck rfl), by simp [leS_length], ?code, ?value, ?steps, by simp⟩
    case code => simp [u8_append_left, Nat.mod_eq_of_lt (groupCode_lt _)]
    case value => simp [i32_append_left, i32_append_right, leS_length, i32_leS]
    case steps => simp [u16_append_left, u16_append_right, leS_length]
  case skewUpdate =>
    intro x s hd ha hb ht
    refine ⟨fun hnear hstate => ?near, fun hfar hoff hstate => ?far⟩
    case near =>
      refine ⟨_, (exec_skewUpdate hd ha hb ht).trans (next_congr (?_ : _ = skewTaken x s)), rfl⟩
      by_cases hoff : s.skew.state = .off
      · exact if_pos (by simp [hoff])
      · rw [if_neg (by simpa using hoff), if_neg hnear.not_gt, if_neg (by simpa using hstate)]
    case far =>
      refine ⟨_, (exec_skewUpdate hd ha hb ht).trans (next_congr ((if_neg (by simpa using hoff)).trans (if_pos hfar))), rfl⟩
  case excessEnd =>
    intro t s hstate hwithin hdue halarm
    exact ⟨_, exec_excessEnd hstate hwithin, leaveExcess_skew (advanceTo_skew _ _) halarm⟩
  case readWithoutArrival =>
    intro fc t s hd hm hr hal hsched
    refine ⟨_, exec_scheduleFrameRead hd hm, ?_⟩
    rw [extractFrame_skew, moveSchedules_aligned hm hr hal]
    simp only [Option.map_none, ite_self, readJoint_of_none]
    simp [dropHeld, schedBase, hsched, hal, pset, pget]
  case readOnTarget =>
    intro fc t arr s hd ha hb hm hr hal hsched hdist htarget
    refine ⟨_, exec_scheduleFrameRead hd hm, ?_⟩
    rw [extractFrame_skew, moveSchedules_aligned hm hr hal, if_pos ha, if_pos hb, Option.map_some,
      readJoint_of_onTarget (b := t + frameUnits) _ htarget]
    · simp [dropHeld, noteTarget, pset, hal]
    · simp only [schedBase, pget, hsched, hdist, one_mul]

end Sys2Proof.Machine
end

section
/-! SUPPORT and PROOF. The merge (R249 to R253, R260, R262): the selector's choice, and where each row completes. -/

namespace Sys2Proof.Machine

/-- A good copy on the selected leg is taken where no leg is preferred (R252). -/
theorem selectLeg_selected {s : State} {fc : Nat} {a b : LegCopy} (hmode : s.skew.use.mode = 0) (hsel : s.mrg.selB = false)
    (helig : (legGet s .a).eligible = true) (hpresent : a.present = true) (hgood : a.good = true) :
    selectLeg s fc a b = some (.a, true) := by
  simp [selectLeg, preferred, hmode, hsel, legUsable, helig, hpresent, hgood]

/-- A good copy of the selected leg without an announcement only counts (R252, R254). -/
theorem takenFrame_selected {s : State} (hsel : s.mrg.selB = false) (hloss : s.mrg.loss = false) :
    takenFrame .a true none s = { s with mrg := { s.mrg with absentRun := 0, goodRun := s.mrg.goodRun + 1 } } := by
  simp [takenFrame, noteLossEnd, hsel, hloss]

theorem legUpd_keeps {s u : State} (h : u.mrg = s.mrg) (c : Carrier) (f : Leg → Leg) :
    legGet (legUpd c f u) c = f (legGet s c) ∧ legGet (legUpd c f u) (otherCarrier c) = legGet s (otherCarrier c) := by
  cases c <;> simp [legGet, legUpd, pget, pupd, pset, otherCarrier, h]

theorem advanceTo_mrg (t : Nat) (s : State) : (advanceTo t s).mrg = s.mrg := by simp

theorem preferA_fields {s u : State} (hm : u.mrg = s.mrg) (hs : u.skew = s.skew) :
    (preferA u).mrg = { s.mrg with prefA := true } ∧ (preferA u).skew = s.skew := by
  simp [preferA, hm, hs]

theorem exec_legHoldExpiry {c : Carrier} {t : Nat} {s : State} (h : (legGet s c).holdAt = some t) :
    exec (.legQualificationHoldExpiry c) s = .next (legUpd c (fun l => { l with holdAt := none }) (advanceTo t s)) := by
  have hexec : exec (.legQualificationHoldExpiry c) s = execLegQualificationHoldExpiry c s := rfl
  rw [hexec, execLegQualificationHoldExpiry, h]

theorem exec_mergeWtrExpiry {t : Nat} {s : State} (h : s.mrg.legs.a.eligSince = some t) (hm : s.mode.cur = .merge)
    (hmode : s.skew.use.mode = 1) : exec .mergeWtrExpiry s = .next (preferA (advanceTo (t + s.skew.use.wtr * secNs) s)) := by
  have hexec : exec .mergeWtrExpiry s = execMergeWtrExpiry s := rfl
  rw [hexec, execMergeWtrExpiry, h]
  exact next_congr (if_neg (by simp [hm, hmode]))

/-- The frame that the selector takes from the selected leg. -/
theorem exec_mergeFrameSelect {fc l : Nat} {x : HeldFrame} {s : State} (hm : s.mode.cur = .merge) (hd : domOn s 2 = true)
    (hslip : slipDue s = false) (hlast : s.mrg.lastFc = some l) (hdist : 0 < fcDist l (fc % 2 ^ 24)) (hmode : s.skew.use.mode = 0)
    (hsel : s.mrg.selB = false) (helig : s.mrg.legs.a.eligible = true) (hheld : heldFrame s .a (fc % 2 ^ 24) = some x)
    (hgood : x.good = true) (hann : x.ann = none) :
    exec (.mergeFrameSelect fc) s = .next (takenFrame .a true none (extractFrame (fc % 2 ^ 24) (some x) none
      { s with mrg := { s.mrg with lastFc := some (fc % 2 ^ 24) } })) := by
  have hexec : exec (.mergeFrameSelect fc) s = execMergeFrameSelect fc s := rfl
  generalize hs1 : ({ s with mrg := { s.mrg with lastFc := some (fc % 2 ^ 24) } } : State) = s1
  have hcopy : legCopy s1 .a (fc % 2 ^ 24) = ⟨true, x.good, x.ann⟩ := by
    rw [legCopy, show heldFrame s1 .a (fc % 2 ^ 24) = some x by rw [← hs1]; exact hheld]
  have hheld1 : heldFrame s1 .a (fc % 2 ^ 24) = some x := by rw [← hs1]; exact hheld
  have hchoice := selectLeg_selected (s := s1) (fc := fc % 2 ^ 24) (a := legCopy s1 .a (fc % 2 ^ 24))
    (b := legCopy s1 .b (fc % 2 ^ 24)) (by rw [← hs1]; exact hmode) (by rw [← hs1]; exact hsel) (by rw [← hs1]; exact helig)
    (by rw [hcopy]) (by rw [hcopy]; exact hgood)
  rw [hexec, execMergeFrameSelect, if_neg (by simp [hm, hd])]
  simp only [hslip, Bool.false_eq_true, if_false, hlast, hdist, decide_true, Bool.not_true, hs1, hchoice]
  rw [hcopy, hann, hheld1]

/-- Settles O27. -/
theorem mergeRowsComplete : Obligations.MergeRowsComplete := by
  refine ⟨?setMergeConfig, ?getMergeStatus, ?frameSelect, ?holdExpiry, ?wtrExpiry⟩
  case setMergeConfig =>
    intro pk s hs hcheck
    exact ⟨_, next_congr (serve_done hs hcheck rfl), by simp [legUpd]⟩
  case getMergeStatus =>
    intro pk s hs hcheck
    refine ⟨_, _, next_congr (serve_doneWith hs hcheck rfl), ?length, fun hm i hi => ?other, fun hm => ?merge, by simp⟩
    case length =>
      simp only [List.length_append, le_length, leS_length]
      split_ifs <;> rfl
    case other =>
      simp only [begun_frame]
      rw [if_neg (by simpa using hm)]
      simp only [List.append_assoc]
      rw [u8_append_left (by rw [le_length]; omega)]
      interval_cases i <;> rfl
    case merge =>
      simp only [begun_frame]
      rw [if_pos (by simpa using hm)]
      simp [u8_append_left, u8_append_right, Nat.mod_eq_of_lt ((b2n_lt _).trans (by decide : 2 < 256))]
  case frameSelect =>
    intro fc l x s hm hd hslip hlast hdist hmode hsel helig hheld hgood hann hloss
    have hkept := extractFrame_mrg (fc % 2 ^ 24) (some x) none { s with mrg := { s.mrg with lastFc := some (fc % 2 ^ 24) } }
    refine ⟨_, exec_mergeFrameSelect hm hd hslip hlast hdist hmode hsel helig hheld hgood hann, ?_⟩
    rw [takenFrame_selected (by rw [hkept]; exact hsel) (by rw [hkept]; exact hloss)]
    simp only [hkept]
  case holdExpiry =>
    intro c t s hhold hdue
    exact ⟨_, exec_legHoldExpiry hhold, legUpd_keeps (advanceTo_mrg t s) c _⟩
  case wtrExpiry =>
    intro t s hsince hm hmode hdue
    exact ⟨_, exec_mergeWtrExpiry hsince hm hmode, preferA_fields (advanceTo_mrg _ _) (advanceTo_skew _ _)⟩

end Sys2Proof.Machine
end

section
/-! SUPPORT and PROOF. The commands of the Turret (R314 to R321): registers of a slot, and where each command completes. -/

namespace Sys2Proof.Machine

/-! Registers of a slot. -/

@[simp] theorem keyReg_setReg_same (k : KeySlot) (i : Nat) (r : KeyReg) : keyReg (setReg k i r) i = r := by
  simp only [keyReg, setReg]
  split_ifs <;> rfl

theorem keyReg_default (i : Nat) : keyReg {} i = {} := by
  simp only [keyReg]
  split_ifs <;> rfl

/-- A slot with a register that is not empty is read back. -/
theorem keySlot_keyUpd_of_reg {k i : Nat} {f : KeySlot → KeySlot} {s : State} (h : (keyReg (f (keySlot s k)) i).state ≠ 0) :
    keySlot (keyUpd k f s) k = f (keySlot s k) :=
  tget_tset_same_of_ne _ _ fun hf => h (by rw [keySlot, hf, keyReg_default])

@[simp] theorem keySlot_begun (op : Nat) (pk : Packet) (s : State) (k : Nat) : keySlot (begun op pk s) k = keySlot s k :=
  begun_congr (f := fun u => keySlot u k) (fun _ => rfl) op pk s
@[simp] theorem kekAt_begun (op : Nat) (pk : Packet) (s : State) (i : Nat) : kekAt (begun op pk s) i = kekAt s i :=
  begun_congr (f := fun u => kekAt u i) (fun _ => rfl) op pk s

/-- A loaded register has both counts at 0. -/
theorem keyReg_loadReg (t target : Nat) (k1 : List Byte) (saltTx saltRx keyId : Nat) (s : State) :
    keyReg (keySlot (loadReg t target k1 saltTx saltRx keyId s) t) (targetReg (keySlot s t) target) =
      { k1 := k1, saltTx := saltTx, saltRx := saltRx, state := 1, keyId := keyId, used := target == 0 } := by
  rw [loadReg, keySlot_keyUpd_of_reg (i := targetReg (keySlot s t) target), keyReg_setReg_same]
  rw [keyReg_setReg_same]
  exact Nat.one_ne_zero

theorem u64_append_right {l m : List Byte} {o : Nat} (h : l.length ≤ o) : u64 (l ++ m) o = u64 m (o - l.length) := uField_append_right h
theorem u64_append_left {l m : List Byte} {o : Nat} (h : o + 8 ≤ l.length) : u64 (l ++ m) o = u64 l o := uField_append_left h
@[simp] theorem u64_le (v : Nat) : u64 (le 8 v) 0 = v % 2 ^ 64 := uField_le 8 v

/-- Settles O30. -/
theorem turretCommandsComplete : Obligations.TurretCommandsComplete := by
  refine ⟨?establishKek, ?loadKey, ?generateKey, ?rotateKey, ?eraseKey, ?setTenantCipher, ?getKeyStatus, ?getTurretStatus⟩
  case establishKek =>
    intro pk s hs hcheck
    exact ⟨_, next_congr (serve_later hs hcheck rfl), by simp⟩
  case loadKey =>
    intro pk s l hs hcheck hplain
    have hblob : blobPlain (begun 0x0702 pk s) pk.params = some l := by rw [blobPlain, kekAt_begun, hplain]
    have hload := keyReg_loadReg pk.tenant (u8 pk.params 0) (l.take 32)
      (if (u8 pk.params 2).testBit 0 then beNat (slice l 36 4) else beNat (slice l 32 4))
      (if (u8 pk.params 2).testBit 0 then beNat (slice l 32 4) else beNat (slice l 36 4)) (beNat (slice l 44 4)) (begun 0x0702 pk s)
    rw [keySlot_begun] at hload
    refine ⟨_, _, next_congr (serve_done hs hcheck (by simp only [runLoadKey, ctxOf_pk, hblob, Option.getD_some]; rfl)), rfl, ?_⟩
    rw [hload]
    refine ⟨rfl, rfl, rfl, rfl, rfl, rfl, fun hpeer => ?_, fun hpeer => ?_⟩
    · simp only [hpeer, Bool.false_eq_true, if_false, and_self]
    · simp only [hpeer, if_true, and_self]
  case generateKey =>
    intro pk s hs hcheck
    exact ⟨_, next_congr (serve_later hs hcheck rfl), by simp⟩
  case rotateKey =>
    intro pk s hs hcheck
    exact ⟨_, next_congr (serve_later hs hcheck rfl), by simp⟩
  case eraseKey =>
    intro pk s hs hcheck
    refine ⟨fun hnext => next_congr (serve_done hs hcheck ?_), fun hboth => next_congr (serve_done hs hcheck ?_)⟩
    · simp only [runEraseKey, ctxOf_pk, hnext, if_true]
    · simp only [runEraseKey, ctxOf_pk, hboth, if_false]
  case setTenantCipher =>
    intro pk s hs hcheck
    exact ⟨_, next_congr (serve_done hs hcheck rfl), by simp⟩
  case getKeyStatus =>
    intro pk s hs hcheck
    refine ⟨_, next_congr (serve_doneWith hs hcheck rfl), by simp, by simp [u8_append_left], fun hinternal => ?_⟩
    simp [u64_append_left, u64_append_right, hinternal.not_gt]
  case getTurretStatus =>
    intro pk s hs hcheck
    refine ⟨_, _, next_congr (serve_doneWith hs hcheck rfl), by simp, ?_⟩
    simp [u8_append_left, u8_append_right]

end Sys2Proof.Machine
end

section
/-! SUPPORT and PROOF. The commands of stored-data protection (R345 to R349): stacks, regions and their remap entries, and where each
command completes. -/

namespace Sys2Proof.Machine

/-! Stacks and regions. -/

@[simp] theorem journalAdd_mem (type key : Nat) (body : List Byte) (ref : Option Ref) (s : State) :
    (journalAdd type key body ref s).mem = s.mem := by
  simp only [journalAdd]
  split_ifs <;> rfl

theorem domeGet_of_mem {s u : State} (h : u.mem = s.mem) (d : Nat) : domeGet u d = domeGet s d := by simp only [domeGet, h]
theorem regionGet_of_mem {s u : State} (h : u.mem = s.mem) (r : Nat) : regionGet u r = regionGet s r := by simp only [regionGet, h]

@[simp] theorem domeGet_domeUpd (d : Nat) (f : Dome → Dome) (s : State) : domeGet (domeUpd d f s) d = f (domeGet s d) := by
  simp only [domeGet, domeUpd]
  split_ifs <;> rfl

theorem regionGet_regionUpd {r : Nat} {s : State} (h : r < s.mem.regions.length) (f : Region → Region) :
    regionGet (regionUpd r f s) r = f (regionGet s r) := getD_lupd_same h ..

@[simp] theorem domeGet_begun (op : Nat) (pk : Packet) (s : State) (d : Nat) : domeGet (begun op pk s) d = domeGet s d :=
  domeGet_of_mem (by simp) d
@[simp] theorem regionGet_begun (op : Nat) (pk : Packet) (s : State) (r : Nat) : regionGet (begun op pk s) r = regionGet s r :=
  regionGet_of_mem (by simp) r
@[simp] theorem targetScrub_begun (op : Nat) (pk : Packet) (s : State) (t : Nat) : targetScrub (begun op pk s) t = targetScrub s t := by
  simp only [targetScrub, domeGet_begun, regionGet_begun]
@[simp] theorem targetRemap_begun (op : Nat) (pk : Packet) (s : State) (t : Nat) : targetRemap (begun op pk s) t = targetRemap s t := by
  simp only [targetRemap, domeGet_begun, regionGet_begun]

/-! Remap entries. -/

theorem mem_lupd {α : Type} {l : List α} {i : Nat} (h : i < l.length) (d : α) (f : α → α) : f (l.getD i d) ∈ lupd l i f := by
  rw [← getD_lupd_same h d f, List.getD_eq_getElem _ _ (by simpa using h)]
  exact List.getElem_mem _

/-- A released entry is empty. -/
theorem getD_released (l : List RemapEntry) (i : Nat) : (lupd l i fun _ => {}).getD i {} = {} := by
  by_cases h : i < l.length
  · exact getD_lupd_same h ..
  · exact List.getD_eq_default _ _ (by simpa using h)

/-- A table that is not full has a first free entry. -/
theorem find_free {l : List RemapEntry} {n : Nat} (hn : l.length = n) (h : l.all (·.valid) = false) :
    ∃ i, (List.range n).find? (fun i => !(l.getD i {}).valid) = some i ∧ i < n := by
  obtain ⟨e, he, hv⟩ := List.all_eq_false.1 h
  obtain ⟨j, hj, rfl⟩ := List.getElem_of_mem he
  have hsome : ((List.range n).find? fun i => !(l.getD i {}).valid).isSome := by
    rw [List.find?_isSome]
    exact ⟨j, List.mem_range.2 (hn ▸ hj), by rw [List.getD_eq_getElem _ _ hj]; simpa using hv⟩
  obtain ⟨i, hi⟩ := Option.isSome_iff_exists.1 hsome
  exact ⟨i, hi, List.mem_range.1 (List.mem_of_find?_eq_some hi)⟩

/-- An entry just written serves its line. -/
theorem domeEntry_isSome {s : State} {d i addr : Nat} (hi : i < 16) (hv : ((domeGet s d).remap.getD i {}).valid = true)
    (ha : ((domeGet s d).remap.getD i {}).addr = addr) : (domeEntry s d addr).isSome := by
  rw [domeEntry, List.find?_isSome]
  exact ⟨i, List.mem_range.2 hi, by simp only [hv, ha, beq_self_eq_true, Bool.and_self]⟩

theorem releaseLine_entry (d i : Nat) (s : State) : (domeGet (releaseLine d i s) d).remap.getD i {} = {} := by
  have hkept : domeGet (releaseLine d i s) d = domeGet (domeUpd d (fun x => { x with
      remap := lupd x.remap i fun _ => {}, scrub := { x.scrub with full := false },
      log := x.log.map fun e => if e.addr = ((domeGet s d).remap.getD i {}).addr then { e with remapped := false } else e }) s) d := by
    refine domeGet_of_mem ?_ d
    simp only [releaseLine]
    split_ifs <;> simp
  rw [hkept, domeGet_domeUpd]
  exact getD_released ..

/-- A line that no entry serves takes the first free entry. -/
theorem remapLine_entry {d addr : Nat} {s : State} (hlen : (domeGet s d).remap.length = 16)
    (hfree : (domeGet s d).remap.all (·.valid) = false) : (domeEntry (remapLine d addr false s) d addr).isSome := by
  by_cases hserved : (domeEntry s d addr).isSome = true
  · obtain ⟨i, hi⟩ := Option.isSome_iff_exists.1 hserved
    have hlt : i < 16 := List.mem_range.1 (List.mem_of_find?_eq_some hi)
    have hentry := List.find?_some hi
    simp only [Bool.and_eq_true, beq_iff_eq] at hentry
    rw [remapLine, if_pos hserved]
    have hget : (domeGet (domeUpd d (fun x => { x with remap := x.remap.map fun e =>
        if e.valid && e.addr = addr then { e with poison := e.poison || false } else e }) s) d).remap.getD i {} = (domeGet s d).remap.getD i {} := by
      simp
    exact domeEntry_isSome hlt (by rw [hget]; exact hentry.1) (by rw [hget]; exact hentry.2)
  · obtain ⟨i, hfind, hlt⟩ := find_free hlen hfree
    rw [remapLine, if_neg hserved, hfind]
    have hget : ∀ u : State, u.mem = (domeUpd d (fun x => { x with
          remap := lupd x.remap i fun _ => { valid := true, poison := false, journalled := false, addr := addr },
          log := x.log.map fun e => if e.addr = addr then { e with remapped := true } else e }) s).mem →
        (domeGet u d).remap.getD i {} = { valid := true, poison := false, journalled := false, addr := addr } := by
      intro u hu
      rw [domeGet_of_mem hu, domeGet_domeUpd]
      exact getD_lupd_same (hlen ▸ hlt) ..
    exact domeEntry_isSome hlt (by rw [hget _ (by simp [postEv])]) (by rw [hget _ (by simp [postEv])])

theorem releaseWord_entry {r i : Nat} {s : State} (hr : r < s.mem.regions.length) :
    (regionGet (releaseWord r i s) r).remap.getD i {} = {} := by
  have hkept : regionGet (releaseWord r i s) r = regionGet (regionUpd r (fun g => { g with
      remap := lupd g.remap i fun _ => {}, scrub := { g.scrub with full := false } }) s) r := by
    refine regionGet_of_mem ?_ r
    simp only [releaseWord]
    split_ifs <;> simp
  rw [hkept, regionGet_regionUpd hr]
  exact getD_released ..

theorem remapWord_entry {r word : Nat} {s : State} (hr : r < s.mem.regions.length) (hlen : (regionGet s r).remap.length = 8)
    (hfree : (regionGet s r).remap.all (·.valid) = false) :
    ((regionGet (remapWord r word false s) r).remap.any fun e => e.valid && e.addr == word) = true := by
  by_cases hserved : ((regionGet s r).remap.any fun e => e.valid && e.addr == word) = true
  · simp only [remapWord]
    rw [if_pos hserved, regionGet_regionUpd hr]
    simpa using hserved
  · obtain ⟨i, hfind, hlt⟩ := find_free hlen hfree
    simp only [remapWord]
    rw [if_neg hserved, hfind]
    simp only
    rw [regionGet_of_mem (by simp [postEv]; rfl), regionGet_regionUpd hr]
    refine List.any_eq_true.2 ⟨_, mem_lupd (hlen ▸ hlt) {} fun _ => { valid := true, poison := false, journalled := false, addr := word }, ?_⟩
    simp

theorem u8_slice_zero {l : List Byte} {n : Nat} (hn : 0 < n) (hl : 0 < l.length) : u8 (slice l 0 n) 0 = u8 l 0 := by
  cases l with
  | nil => simp at hl
  | cons b r =>
    obtain ⟨m, rfl⟩ := Nat.exists_eq_succ_of_ne_zero hn.ne'
    rfl

/-- The lowest flag of a target's status tells whether its domain is ON (R346). -/
theorem testBit_statusFlags (on : Bool) (a b c : Nat) : ((b2n on + 2 * a + 4 * b + 8 * c) % 256).testBit 0 = on := by
  rw [Nat.testBit_zero]
  cases on
  · rw [decide_eq_false_iff_not, b2n]; simp only [Bool.false_eq_true, if_false]; omega
  · rw [decide_eq_true_eq, b2n]; simp only [if_true]; omega

/-- What SET_REMAP makes of its target (R348): its entry released, or its line or word remapped. -/
def remapped (p : List Byte) (s : State) : State :=
  if u8 p 1 = 0 then (if u8 p 0 ≤ 1 then releaseLine (u8 p 0) (u8 p 2) s else releaseWord (u8 p 0 - 16) (u8 p 2) s)
  else if u8 p 0 ≤ 1 then remapLine (u8 p 0) (u32 p 4) false s else remapWord (u8 p 0 - 16) (u32 p 4) false s

theorem runSetRemap_eq (c : Ctx) (s : State) : runSetRemap c s = done (remapped c.pk.params s) := by
  simp only [runSetRemap, remapped]
  by_cases h : u8 c.pk.params 1 = 0
  · rw [if_pos h, if_pos h]
  · rw [if_neg h, if_neg h]

/-- Settles O32. -/
theorem memoryCommandsComplete : Obligations.MemoryCommandsComplete := by
  refine ⟨?setMemoryConfig, ?getMemoryStatus, ?getCeLog, ?setRemap, ?repairRow⟩
  case setMemoryConfig =>
    intro pk s hs hcheck
    exact ⟨_, next_congr (serve_done hs hcheck rfl), by simp⟩
  case getMemoryStatus =>
    intro pk s hs hcheck
    refine ⟨_, next_congr (serve_doneWith hs hcheck rfl), by simp, ?_, ?_⟩
    · simp only [List.append_assoc, targetScrub_begun, targetRemap_begun, domOn_begun, domeGet_begun, ctxOf_pk]
      rw [u8_append_left (by simp), u8_le]
      exact testBit_statusFlags ..
    · simp [u32_append_left, u32_append_right]
  case getCeLog =>
    intro pk s hs hcheck
    refine ⟨_, if (u8 pk.params 1).testBit 0 then domeUpd (u8 pk.params 0) (fun d => { d with log := [] }) (begun 0x0803 pk s)
      else begun 0x0803 pk s, next_congr (serve_doneWith hs hcheck rfl), slice_length .., ?_, ?_⟩
    · rw [u8_slice_zero (by decide) (by simp)]
      simp [u8_append_left]
    · by_cases hclear : (u8 pk.params 1).testBit 0 = true
      · rw [if_pos hclear, if_pos hclear, domeGet_domeUpd]
      · rw [if_neg hclear, if_neg hclear, domeGet_begun]
  case setRemap =>
    intro pk s hs hcheck
    have hok := (of_gated_eq_stOk hcheck).2
    simp only [firstBad_cons_eq_stOk (show stBadParam ≠ stOk by decide), firstBad_cons_eq_stOk (show stBadState ≠ stOk by decide),
      Bool.or_eq_false_iff, ctxOf_pk, targetRemap_begun] at hok
    obtain ⟨⟨⟨⟨⟨htarget, -⟩, -⟩, -⟩, -⟩, -, -, hfree, -⟩ := hok
    simp only [targetOk, Bool.not_eq_eq_eq_not, Bool.not_false, Bool.or_eq_true, Bool.and_eq_true, decide_eq_true_eq] at htarget
    refine ⟨remapped pk.params (begun 0x0804 pk s), next_congr (serve_done hs hcheck (runSetRemap_eq ..)),
      fun hstack hlen => ⟨fun hrel => ?stackRelease, fun hmap => ?stackRemap⟩,
      fun hregion hn hlen => ⟨fun hrel => ?regionRelease, fun hmap => ?regionRemap⟩⟩
    case stackRelease =>
      rw [remapped, if_pos hrel, if_pos hstack]
      exact releaseLine_entry ..
    case stackRemap =>
      rw [remapped, if_neg (by omega), if_pos hstack]
      refine remapLine_entry (by rw [domeGet_begun]; exact hlen) ?_
      simpa [hmap, targetRemap, hstack] using hfree
    case regionRelease =>
      rw [remapped, if_pos hrel, if_neg hregion.not_ge]
      exact releaseWord_entry (by simp only [begun_frame]; omega)
    case regionRemap =>
      rw [remapped, if_neg (by omega), if_neg hregion.not_ge]
      refine remapWord_entry (by simp only [begun_frame]; omega) (by rw [regionGet_begun]; exact hlen) ?_
      simpa [hmap, targetRemap, hregion.not_ge] using hfree
  case repairRow =>
    intro pk s hs hcheck
    exact ⟨_, next_congr (serve_later hs hcheck rfl), by simp⟩

end Sys2Proof.Machine
end

section
/-! SUPPORT and PROOF. The commands of loops, patterns, capture and buses (R538 to R545): what each makes of the test settings, and where it
completes. -/

namespace Sys2Proof.Machine

/-! Loops (R523, R538). -/

@[simp] theorem frmHunt_test (c : Carrier) (s : State) : (frmHunt c s).test = s.test := by
  simp only [frmHunt]
  split_ifs <;> rfl

@[simp] theorem switchFraming_test (c : Carrier) (on : Bool) (s : State) : (switchFraming c on s).test = s.test := by
  simp only [switchFraming]
  split_ifs <;> simp

theorem pget_linePatUpd (c : Carrier) (f : LinePat → LinePat) (s : State) :
    pget (linePatUpd c f s).test.line c = f (pget s.test.line c) := pget_pupd_same ..

@[simp] theorem loopOn_begun (op : Nat) (pk : Packet) (s : State) (k obj : Nat) : loopOn (begun op pk s) k obj = loopOn s k obj :=
  begun_congr (f := fun t => loopOn t k obj) (fun _ => rfl) op pk s

/-- The object of SET_LOOP takes a loop, or loses it. -/
def loopSet (p : List Byte) (on : Bool) (s : State) : State :=
  if u8 p 0 = 2 then switchFraming (carrierOf (u8 p 1)) on (setLineLoop (carrierOf (u8 p 1)) (u8 p 0) (u8 p 3) on s)
  else setLineLoop (carrierOf (u8 p 1)) (u8 p 0) (u8 p 3) on s

/-- The loop of a lane, or of a port, as it is set. -/
def laneLoopSet (p : List Byte) (on : Bool) (s : State) : State :=
  { s with test := { s.test with laneLoop := tset 0 s.test.laneLoop (u8 p 1) (if on then u8 p 0 else 0) } }

@[inherit_doc laneLoopSet]
def portLoopSet (p : List Byte) (on : Bool) (s : State) : State :=
  { s with test := { s.test with portLoop := pset s.test.portLoop (carrierOf (u8 p 1)) on } }

section setLoop
variable {c : Ctx} {s : State} {on : Bool}

/-- A loop is set, or one that is set is removed (R538). -/
theorem runSetLoop_acts (hon : (u8 c.pk.params 2 == 1) = on)
    (hacts : on = true ∨ loopOn s (u8 c.pk.params 0) (u8 c.pk.params 1) = some (u8 c.pk.params 0)) : runSetLoop c s =
      if u8 c.pk.params 0 < 3 then done (loopSet c.pk.params on s)
      else if u8 c.pk.params 0 < 5 then done (laneLoopSet c.pk.params on s)
      else done (linkDown (portOf (u8 c.pk.params 1)) (portLoopSet c.pk.params on s)) := by
  subst hon
  refine (if_neg ?_).trans rfl
  obtain h | h := hacts <;> simp [h]

theorem runSetLoop_idle (hoff : u8 c.pk.params 2 = 0)
    (hnone : loopOn s (u8 c.pk.params 0) (u8 c.pk.params 1) ≠ some (u8 c.pk.params 0)) : runSetLoop c s = done s :=
  if_pos (by simp [hoff, hnone])

end setLoop

theorem loopSet_line (p : List Byte) (on : Bool) (s : State) :
    (pget (loopSet p on s).test.line (carrierOf (u8 p 1))).loop = (if on then some (u8 p 0) else none) ∧
      (u8 p 0 ≠ 2 → (pget (loopSet p on s).test.line (carrierOf (u8 p 1))).timing =
        if !on then 0 else if u8 p 0 = 1 then 1 else u8 p 3) := by
  have htest : (loopSet p on s).test = (setLineLoop (carrierOf (u8 p 1)) (u8 p 0) (u8 p 3) on s).test := by
    simp only [loopSet]
    split_ifs <;> simp
  rw [htest, setLineLoop, pget_linePatUpd]
  exact ⟨rfl, fun h => if_neg h⟩

/-! Patterns (R540). -/

/-- Generator, checker and injection of a host lane or a Calond port, as SET_LANE_PATTERN writes them. -/
def lanePatSet (p : List Byte) (x : LanePat) : LanePat :=
  { x with
    pattern := u8 p 2
    gen := (u8 p 3).testBit 0
    rateInj := (u8 p 3).testBit 3
    single := (u8 p 3).testBit 2
    cnt := 0
    k := u8 p 4
    rate := u8 p 5
    chk := addInjected (b2n ((u8 p 3).testBit 2)) (switchChecker ((u8 p 3).testBit 1) x.chk) }

/-- A host lane takes its pattern. -/
def lanesPatSet (p : List Byte) (s : State) : State :=
  { s with test := { s.test with lanes := tupd {} s.test.lanes (u8 p 1) (lanePatSet p) } }

/-- A Calond port takes its pattern. -/
def portPatSet (p : List Byte) (s : State) : State :=
  { s with test := { s.test with ports := pupd s.test.ports (carrierOf (u8 p 1)) (lanePatSet p) } }

/-! Capture (R530 to R534). -/

theorem captureResult_test (r n : Nat) (s : State) : (captureResult r n s).2.test = s.test := by
  simp only [captureResult]
  split <;> rfl

/-- A capture that has ended is IDLE. -/
theorem endCapture_state (reason : Nat) (s : State) : (endCapture reason s).test.cap.state = 0 := by
  simp only [endCapture]
  by_cases h : (!captureRuns s) = true
  · rw [if_pos h]
    simpa [captureRuns] using h
  · rw [if_neg h]
    split <;> simp

/-- A trigger starts the run of an ARMED capture. -/
theorem takeTrigger_armed {s : State} (h : s.test.cap.state = 1) : (takeTrigger s).test = { s.test with cap := { s.test.cap with
    state := 2, trigPos := some (capIndex s), trigTod := s.tod, preHeld := min (capIndex s) s.test.cap.pre } } := by
  simp only [takeTrigger, h]
  simp [postEv, capUpd]

@[simp] theorem capIndex_begun (op : Nat) (pk : Packet) (s : State) : capIndex (begun op pk s) = capIndex s :=
  begun_congr (fun _ => rfl) op pk s
@[simp] theorem captureRate_begun (op : Nat) (pk : Packet) (s : State) (a b : Nat) (c : Carrier) :
    captureRate (begun op pk s) a b c = captureRate s a b c := begun_congr (f := fun t => captureRate t a b c) (fun _ => rfl) op pk s
@[simp] theorem smallestKeep_begun (op : Nat) (pk : Packet) (s : State) (r : Nat × Nat) :
    smallestKeep (begun op pk s) r = smallestKeep s r := begun_congr (f := fun t => smallestKeep t r) (fun _ => rfl) op pk s
@[simp] theorem checkerGet_begun (op : Nat) (pk : Packet) (s : State) (k i : Nat) : checkerGet (begun op pk s) k i = checkerGet s k i :=
  begun_congr (f := fun t => checkerGet t k i) (fun _ => rfl) op pk s

/-- Settles O34. -/
theorem testCommandsComplete : Obligations.TestCommandsComplete := by
  refine ⟨?setLoop, ?setLinePattern, ?setLanePattern, ?setTenantPattern, ?getPatternStatus, ?startCapture, ?triggerCapture,
    ?stopCapture, ?busTransfer⟩
  case setLoop =>
    intro pk s hs hcheck
    have hdone : ∀ {u : State}, runSetLoop (ctxOf pk s) (begun 0x0C01 pk s) = done u →
        exec (.setLoop pk) s = .next (endsOk pk [] s u) := fun hrun => next_congr (serve_done hs hcheck hrun)
    have hset := fun hon : u8 pk.params 2 = 1 => runSetLoop_acts (c := ctxOf pk s) (s := begun 0x0C01 pk s) (on := true)
      (by simp [hon]) (.inl rfl)
    have hclear := fun (hoff : u8 pk.params 2 = 0) (hloop : loopOn s (u8 pk.params 0) (u8 pk.params 1) = some (u8 pk.params 0)) =>
      runSetLoop_acts (c := ctxOf pk s) (s := begun 0x0C01 pk s) (on := false) (by simp [hoff]) (.inr (by rw [loopOn_begun]; exact hloop))
    refine ⟨fun hon hk => ?lineSet, fun hon hk hk5 => ?laneSet, fun hon hk => ?portSet, fun hoff hk hloop => ?lineClear,
      fun hoff hk hk5 hwf hloop => ?laneClear, fun hoff hk hloop => ?portClear, fun hoff hloop => ?idle⟩
    case lineSet =>
      obtain ⟨hloop, htiming⟩ := loopSet_line pk.params true (begun 0x0C01 pk s)
      refine ⟨_, hdone ((hset hon).trans (if_pos hk)), hloop, fun h0 => ?_, fun h1 => ?_⟩
      · exact (htiming (by omega)).trans (by simp [h0])
      · exact (htiming (by omega)).trans (by simp [h1])
    case laneSet =>
      refine ⟨_, hdone ((hset hon).trans ((if_neg hk.not_gt).trans (if_pos hk5))), ?_⟩
      exact tget_tset_same_of_ne _ _ (by show u8 pk.params 0 ≠ 0; omega)
    case portSet =>
      refine ⟨_, hdone ((hset hon).trans ((if_neg (by simp [hk])).trans (if_neg (by simp [hk])))), ?_⟩
      exact pget_pset_same ..
    case lineClear =>
      obtain ⟨hnone, -⟩ := loopSet_line pk.params false (begun 0x0C01 pk s)
      exact ⟨_, hdone ((hclear hoff hloop).trans (if_pos hk)), hnone⟩
    case laneClear =>
      refine ⟨_, hdone ((hclear hoff hloop).trans ((if_neg hk.not_gt).trans (if_pos hk5))), ?_⟩
      simp [laneLoopSet, tget_tset hwf]
    case portClear =>
      refine ⟨_, hdone ((hclear hoff hloop).trans ((if_neg (by simp [hk])).trans (if_neg (by simp [hk])))), ?_⟩
      exact pget_pset_same ..
    case idle => exact hdone (runSetLoop_idle hoff (by rw [loopOn_begun]; exact hloop))
  case setLinePattern =>
    intro pk s hs hcheck
    refine ⟨linePatUpd (carrierOf (u8 pk.params 0)) (fun x => { x with
        prbs := u8 pk.params 1 == 2
        m := u32 pk.params 4
        timing := u8 pk.params 3
        fallback := false
        single := (u8 pk.params 2).testBit 1
        chk := switchChecker ((u8 pk.params 2).testBit 0) x.chk }) (begun 0x0C02 pk s),
      fun h0 => next_congr (serve_done hs hcheck (congrArg done (if_pos h0))),
      fun h0 => next_congr (serve_done hs hcheck (congrArg done (if_neg h0))), ?_⟩
    rw [pget_linePatUpd]
    exact ⟨rfl, rfl, rfl⟩
  case setLanePattern =>
    intro pk s hs hcheck
    by_cases hport : u8 pk.params 0 = 0
    · refine ⟨lanesPatSet pk.params (begun 0x0C03 pk s), fun _ => next_congr (serve_done hs hcheck (if_pos hport)),
        fun h => absurd hport h, fun _ hwf => ?_, fun h => absurd hport h⟩
      rw [lanesPatSet, begun_test, tupd, tget_tset hwf, if_pos rfl]
      exact ⟨rfl, rfl⟩
    · refine ⟨portPatSet pk.params (begun 0x0C03 pk s),
        fun h => next_congr (serve_done hs hcheck ((if_neg hport).trans (congrArg done (if_pos (h.resolve_left hport))))),
        fun _ h => next_congr (serve_done hs hcheck ((if_neg hport).trans (congrArg done (if_neg h)))), fun h => absurd h hport,
        fun _ => ?_⟩
      rw [portPatSet, pget_pupd_same]
      exact ⟨rfl, rfl⟩
  case setTenantPattern =>
    intro pk s hs hcheck
    exact ⟨_, next_congr (serve_done hs hcheck rfl), by simp⟩
  case getPatternStatus =>
    intro pk s hs hcheck
    refine ⟨_, _, next_congr (serve_doneWith hs hcheck rfl), by simp, ?_⟩
    simp [u8_append_left, u64_append_left, u64_append_right]
    exact ⟨rfl, rfl⟩
  case startCapture =>
    intro pk s k hs hcheck hk
    refine ⟨fun hfits => ?fits, fun hover => ?refused⟩
    case fits =>
      refine ⟨_, next_congr (serve_later hs hcheck (if_neg (by simp [← hk, hfits.not_gt]))), ?_⟩
      simp
    case refused =>
      refine next_congr ?_
      rw [serve_runs hs hcheck, runStartCapture, if_pos (by simpa [← hk] using hover)]
      simp [answer, ← hk]
  case triggerCapture =>
    intro pk s hs hcheck
    refine ⟨_, next_congr (serve_done hs hcheck rfl), fun harmed => ?_⟩
    rw [takeTrigger_armed (by rw [begun_test]; exact harmed)]
    simp
  case stopCapture =>
    intro pk s hs hcheck
    exact ⟨_, next_congr (serve_done hs hcheck rfl), endCapture_state _ _⟩
  case busTransfer =>
    intro pk s hs hcheck
    exact ⟨_, next_congr (serve_waits hs hcheck rfl), by simp⟩

end Sys2Proof.Machine
end

section
/-! SUPPORT and PROOF. The commands of Belfry (R370 to R379): references, the figures of the status, and where each command completes. -/

namespace Sys2Proof.Machine

theorem refGet_refUpd {r : Nat} {s : State} (h : r < s.bel.refs.length) (f : BelRef → BelRef) :
    refGet (refUpd r f s) r = f (refGet s r) := getD_lupd_same h ..

@[simp] theorem refGet_begun (op : Nat) (pk : Packet) (s : State) (r : Nat) : refGet (begun op pk s) r = refGet s r :=
  begun_congr (f := fun u => refGet u r) (fun _ => rfl) op pk s

@[simp] theorem refStatus_length (s : State) (r : Nat) : (refStatus s r).length = 12 := by
  simp only [refStatus, List.length_append, le_length, leS_length]

theorem dpllCode_lt (d : DpllState) : dpllCode d < 256 := by cases d <;> decide

@[simp] theorem ncoNow_bel (s : State) : (ncoNow s).2.bel = s.bel := by
  simp only [ncoNow]
  split_ifs <;> rfl

/-- SET_LEARNING clears the model, or keeps it (R379). -/
def learningSet (p : List Byte) (s : State) : State :=
  if u8 p 0 = 0 then belUpd (fun b => { b with model := {}, tMin := none, tMax := none, modelAt := none, fit := [] }) s else s

/-- Settles O36. -/
theorem belfryCommandsComplete : Obligations.BelfryCommandsComplete := by
  refine ⟨?setRefConfig, ?setDpllConfig, ?setSelection, ?stepPhase, ?setTime, ?setTodConfig, ?getTimingStatus, ?getTime, ?setLearning⟩
  case setRefConfig =>
    intro pk s hs hcheck hlen
    have hok := (of_gated_eq_stOk hcheck).2
    simp only [firstBad_cons_eq_stOk (show stBadParam ≠ stOk by decide), Bool.or_eq_false_iff, ctxOf_pk] at hok
    obtain ⟨⟨⟨⟨⟨⟨⟨⟨⟨⟨⟨href, -⟩, -⟩, -⟩, -⟩, -⟩, -⟩, -⟩, -⟩, -⟩, -⟩, -⟩ := hok
    have hlt : ¬ 9 < u8 pk.params 0 := of_decide_eq_false href
    have hrefs : (begun 0x0901 pk s).bel.refs.length = 10 := by simp only [begun_frame, hlen]
    refine ⟨_, next_congr (serve_done hs hcheck rfl), ?_⟩
    rw [ctxOf_pk, refGet_refUpd (by omega), refGet_begun]
    simp
  case setDpllConfig =>
    intro pk s hs hcheck
    exact ⟨_, next_congr (serve_done hs hcheck rfl), by simp [belUpd]⟩
  case setSelection =>
    intro pk s hs hcheck
    refine ⟨_, next_congr (serve_done hs hcheck rfl), ?_⟩
    simp [belUpd]
    rfl
  case stepPhase =>
    intro pk s hs hcheck
    refine ⟨fun h => next_congr (serve_done hs hcheck (congrArg done (if_pos h))),
      fun h => ⟨_, next_congr (serve_done hs hcheck (congrArg done (if_neg h))), by simp [belUpd]⟩⟩
  case setTime =>
    intro pk s hs hcheck
    exact ⟨_, next_congr (serve_later hs hcheck rfl), by simp [belUpd]⟩
  case setTodConfig =>
    intro pk s hs hcheck
    exact ⟨_, next_congr (serve_done hs hcheck rfl), by simp [belUpd]⟩
  case getTimingStatus =>
    intro pk s hs hcheck
    refine ⟨_, _, next_congr (serve_doneWith hs hcheck rfl), ?length, ?state, ?selected, ?cleared⟩
    case length => simp [List.length_flatMap, leS_length]
    case state => simp [u8_append_left, Nat.mod_eq_of_lt (dpllCode_lt _)]
    case selected => simp [u8_append_left, u8_append_right]
    case cleared => simp [belUpd]
  case getTime =>
    intro pk s hs hcheck
    refine ⟨_, _, next_congr (serve_doneWith hs hcheck rfl), by simp [leS_length], ?seconds, ?nanoseconds, by simp⟩
    case seconds =>
      simp only [List.append_assoc, begun_frame]
      rw [uField_append_left (by simp), uField_le, show 256 ^ 6 = 2 ^ 48 by norm_num]
    case nanoseconds =>
      simp only [List.append_assoc, begun_frame]
      rw [u32_append_right (by simp), u32_append_right (by simp), u32_append_left (by simp)]
      simp only [le_length]
      exact (u32_le _).trans (Nat.mod_eq_of_lt ((Nat.mod_lt _ (by norm_num)).trans (by norm_num)))
  case setLearning =>
    intro pk s hs hcheck
    refine ⟨learningSet pk.params (begun 0x0909 pk s), next_congr (serve_done hs hcheck rfl), fun h => ?_, fun h => ?_⟩
    · rw [learningSet, if_pos h]
      simp [belUpd]
    · rw [learningSet, if_neg h]
      simp

end Sys2Proof.Machine
end

section
/-! SUPPORT. What the start of a command, records, events and messages leave of the ring. -/

namespace Sys2Proof.Machine

/-! The start of a command leaves the ring alone (R382, R384, R385): only the records of the relay FIFO belong to it. -/

@[simp] theorem hostStore_ring (a : Nat) (l : List Byte) (s : State) : (hostStore a l s).ring = s.ring := by simp [hostStore]

@[simp] theorem noteStatus_ring (old s : State) : (noteStatus old s).ring = s.ring := by
  simp only [noteStatus, apply_ite State.ring, raiseVector_frame, ite_self]

@[simp] theorem violation_ring (n : Nat) (s : State) : (violation n s).ring = s.ring := noteStatus_ring _ _

@[simp] theorem appendOpen_ring (q : QueueId) (l : List Byte) (s : State) : (appendOpen q l s).ring = s.ring := by
  simp [appendOpen]

@[simp] theorem takeHead_ring (q : QueueId) (w : WaitPk) (s : State) : (takeHead q w s).ring = s.ring := by
  by_cases h : q = .relay <;> simp [takeHead, h]

@[simp] theorem writeRingRecord_ring (q : QueueId) (r : Rec) (s : State) : (writeRingRecord q r s).ring = s.ring := by
  simp [writeRingRecord]

@[simp] theorem writePad_ring (q : QueueId) (r : Rec) (s : State) : (writePad q r s).ring = s.ring := by
  simp [writePad, apply_ite State.ring]

theorem writeRecord_ring {q : QueueId} (hq : q ≠ .relay) (r : Rec) (s : State) : (writeRecord q r s).ring = s.ring := by
  cases q with
  | q0 => exact writeRingRecord_ring _ _ _
  | q1 => exact writeRingRecord_ring _ _ _
  | q2 => exact writeRingRecord_ring _ _ _
  | q3 => rfl
  | relay => exact absurd rfl hq

theorem emit_ring {q : QueueId} (hq : q ≠ .relay) (r : Rec) (s : State) : (emit q r s).ring = s.ring := by
  simp [emit, apply_ite State.ring, writeRecord_ring hq]

theorem closePacket_ring {q : QueueId} (hq : q ≠ .relay) (n u : Nat) (s : State) : (closePacket q n u s).ring = s.ring := by
  simp [closePacket, apply_ite State.ring, emit_ring hq]

theorem submit_ring {q : QueueId} (hq : q ≠ .relay) (l : List Byte) (s : State) : (submit q l s).ring = s.ring := by
  simp only [submit, apply_ite State.ring, closePacket_ring hq, appendOpen_ring, ite_self,
    foldl_leaves (f := State.ring) (fun t _ => violation_ring _ t)]

theorem begun_ring {op : Nat} {pk : Packet} {s : State} (hs : starts op pk s) : (begun op pk s).ring = s.ring := by
  obtain ⟨hq, -⟩ := (starts_iff op pk s).1 hs
  rw [begun, takeHead_ring, submitted, submit_ring hq]

/-! What messages, events and records leave of the ring. -/

/-- A ring port without the messages that wait and those that it has sent. -/
def quiet (r : RingPort) : RingPort := { r with waiting := [], sent := [] }

/-- The ring without what messages, events, records and the end of relays change in it. -/
def msgCore (s : State) : Ring :=
  { s.ring with ports := ⟨quiet s.ring.ports.a, quiet s.ring.ports.b⟩, relays := [], log := [], resp := [], evOut := [], pairJobs := [] }

theorem msgCore_of_ring {s t : State} (h : t.ring = s.ring) : msgCore t = msgCore s := by simp only [msgCore, h]

theorem msgCore_fields {s t : State} (h : msgCore t = msgCore s) : t.ring.workers = s.ring.workers ∧
    t.ring.bind = s.ring.bind ∧ t.ring.pairs = s.ring.pairs ∧ ∀ p, quiet (portGet t p) = quiet (portGet s p) := by
  simp only [msgCore, Ring.mk.injEq, Pair.mk.injEq] at h
  refine ⟨by simp only [h], by simp only [h], by simp only [h], fun p => ?_⟩
  cases p with
  | east => simp only [portGet, portSlot, pget, h]
  | west => simp only [portGet, portSlot, pget, h]

theorem portUpd_msg {p : Port} {f : RingPort → RingPort} (hf : ∀ r, quiet (f r) = quiet r) (s : State) :
    msgCore (portUpd p f s) = msgCore s := by
  cases p <;> simp [msgCore, portUpd, portSlot, pupd, pset, pget, hf]

@[simp] theorem countSrc_msg (a b n : Nat) (s : State) : msgCore (countSrc a b n s) = msgCore s :=
  msgCore_of_ring (by simp)

@[simp] theorem qset_msg (s : State) (q : QueueId) (v : Queue) : msgCore (qset s q v) = msgCore s :=
  msgCore_of_ring (by simp)

@[simp] theorem qupd_msg (s : State) (q : QueueId) (f : Queue → Queue) : msgCore (qupd s q f) = msgCore s :=
  msgCore_of_ring (by simp)

/-! A message at its port (R441, R446). -/

theorem sendMsg_of_up {p : Port} {s : State} (h : (portGet s p).state = .up) (m : RingMsg) :
    sendMsg p m s = portUpd p (fun r => { r with
        sent := if pget s.test.portLoop (portSlot p) then r.sent else portChars (msgBytes m) :: r.sent })
      (countSrc 0x0A (58 + portNum p) (msgLength m) s) := by
  simp only [sendMsg, h]

theorem sendMsg_of_down {p : Port} {s : State} (h : (portGet s p).state = .down) (m : RingMsg) : sendMsg p m s = s := by
  simp only [sendMsg, h]

theorem sendMsg_of_waits {p : Port} {s : State} (hu : (portGet s p).state ≠ .up) (hd : (portGet s p).state ≠ .down)
    (m : RingMsg) : sendMsg p m s = portUpd p (fun r => { r with waiting := enqueueMsg m r.waiting }) s := by
  unfold sendMsg
  cases h : (portGet s p).state with
  | up => exact absurd h hu
  | down => exact absurd h hd
  | align => simp only [h]
  | step => simp only [h]

/-- What a message can do: it is sent, it waits, or it is lost. -/
theorem sendMsg_cases (p : Port) (m : RingMsg) (s : State) :
    (∃ f n, sendMsg p m s = portUpd p f (countSrc 0x0A (58 + portNum p) n s) ∧ ∀ r, quiet (f r) = quiet r) ∨
      (∃ f, sendMsg p m s = portUpd p f s ∧ ∀ r, quiet (f r) = quiet r) ∨ sendMsg p m s = s := by
  by_cases hu : (portGet s p).state = .up
  · exact .inl ⟨_, _, sendMsg_of_up hu m, fun _ => rfl⟩
  · by_cases hd : (portGet s p).state = .down
    · exact .inr (.inr (sendMsg_of_down hd m))
    · exact .inr (.inl ⟨_, sendMsg_of_waits hu hd m, fun _ => rfl⟩)

@[simp] theorem sendMsg_msg (p : Port) (m : RingMsg) (s : State) : msgCore (sendMsg p m s) = msgCore s := by
  obtain ⟨f, n, h, hf⟩ | ⟨f, h, hf⟩ | h := sendMsg_cases p m s
  · rw [h, portUpd_msg hf, countSrc_msg]
  · rw [h, portUpd_msg hf]
  · rw [h]

@[simp] theorem writeEvent_ring (e : EvRec) (s : State) : (writeEvent e s).ring = s.ring := by simp [writeEvent]

@[simp] theorem deliverEvent_ring (e : EvRec) (s : State) : (deliverEvent e s).ring = s.ring := by
  simp [deliverEvent, apply_ite State.ring]

@[simp] theorem streamEvent_msg (e : EvRec) (s : State) : msgCore (streamEvent e s) = msgCore s := by
  unfold streamEvent
  split_ifs
  · rfl
  · exact sendMsg_msg _ _ _
  · rfl

@[simp] theorem post_msg (code : Nat) (set : Bool) (args : List Nat) (s : State) :
    msgCore (post code set args s) = msgCore s :=
  (streamEvent_msg _ _).trans (msgCore_of_ring (deliverEvent_ring _ _))

@[simp] theorem postEv_msg (code : Nat) (args : List Nat) (s : State) : msgCore (postEv code args s) = msgCore s :=
  post_msg _ _ _ _

@[simp] theorem sendNear_msg (p : Port) (n : Nat) (l : List Byte) (s : State) : msgCore (sendNear p n l s) = msgCore s :=
  sendMsg_msg _ _ _

@[simp] theorem sendResponse_msg (o : RespOut) (s : State) : msgCore (sendResponse o s) = msgCore s := sendMsg_msg _ _ _

@[simp] theorem writeRelayRecord_msg (r : Rec) (s : State) : msgCore (writeRelayRecord r s) = msgCore s := by
  simp only [writeRelayRecord, apply_ite msgCore, sendResponse_msg, ite_self]
  rfl

@[simp] theorem writeRecord_msg (q : QueueId) (r : Rec) (s : State) : msgCore (writeRecord q r s) = msgCore s := by
  by_cases hq : q = .relay
  · subst hq
    exact writeRelayRecord_msg _ _
  · exact msgCore_of_ring (writeRecord_ring hq _ _)

@[simp] theorem writePad_msg (q : QueueId) (r : Rec) (s : State) : msgCore (writePad q r s) = msgCore s :=
  msgCore_of_ring (writePad_ring _ _ _)

@[simp] theorem emit_msg (q : QueueId) (r : Rec) (s : State) : msgCore (emit q r s) = msgCore s := by
  simp [emit, apply_ite msgCore]

@[simp] theorem completeFrom_msg (src : Nat) (r : Ref) (st : Nat) (l : List Byte) (s : State) :
    msgCore (completeFrom src r st l s) = msgCore s := by
  unfold completeFrom
  split
  · rfl
  · simp [apply_ite msgCore]

@[simp] theorem pairAnswer_msg (k w st : Nat) (s : State) : msgCore (pairAnswer k w st s) = msgCore s := by
  unfold pairAnswer
  split
  · rfl
  · simp only [complete, apply_ite msgCore, completeFrom_msg]
    exact ite_self _

@[simp] theorem relayAnswer_msg (r : Relay) (st : Nat) (l : List Byte) (s : State) :
    msgCore (relayAnswer r st l s) = msgCore s := by
  unfold relayAnswer
  split
  · exact pairAnswer_msg _ _ _ _
  · exact completeFrom_msg _ _ _ _ _

/-! The settings of the ring. -/

/-- The ring without its ports and workers, and without what messages, records and the end of relays change in it. -/
def ringCore (s : State) : Ring := { msgCore s with ports := ⟨{}, {}⟩, workers := [] }

theorem ringCore_of_msg {s t : State} (h : msgCore t = msgCore s) : ringCore t = ringCore s := by rw [ringCore, h, ringCore]

theorem ringCore_fields {s t : State} (h : ringCore t = ringCore s) :
    t.ring.role = s.ring.role ∧ t.ring.ceilE = s.ring.ceilE ∧ t.ring.ceilW = s.ring.ceilW ∧ t.ring.sleep = s.ring.sleep ∧
    t.ring.pmDma = s.ring.pmDma ∧ t.ring.number = s.ring.number ∧ t.ring.epoch = s.ring.epoch ∧ t.ring.bind = s.ring.bind := by
  simp only [ringCore, msgCore, Ring.mk.injEq] at h
  simp only [h, and_self]

@[simp] theorem portUpd_core (p : Port) (f : RingPort → RingPort) (s : State) : ringCore (portUpd p f s) = ringCore s := rfl

@[simp] theorem workerUpd_core (w : Nat) (f : WorkerSt → WorkerSt) (s : State) : ringCore (workerUpd w f s) = ringCore s := rfl

@[simp] theorem postEv_core (code : Nat) (args : List Nat) (s : State) : ringCore (postEv code args s) = ringCore s :=
  ringCore_of_msg (postEv_msg _ _ _)

@[simp] theorem sendNear_core (p : Port) (n : Nat) (l : List Byte) (s : State) : ringCore (sendNear p n l s) = ringCore s :=
  ringCore_of_msg (sendNear_msg _ _ _ _)

@[simp] theorem noteGone_core (s : State) : ringCore (noteGone s) = ringCore s := by
  unfold noteGone
  exact foldl_leaves (f := ringCore) (fun t w => workerUpd_core w _ t) _ _

@[simp] theorem linkDown_core (p : Port) (s : State) : ringCore (linkDown p s) = ringCore s := by
  simp [linkDown, apply_ite ringCore]

@[simp] theorem planStep_core (p : Port) (s : State) : ringCore (planStep p s) = ringCore s := rfl

@[simp] theorem dropRelays_core (w : Nat) (s : State) : ringCore (dropRelays w s) = ringCore s := by
  unfold dropRelays
  refine foldl_leaves (f := ringCore) (fun t r => ?_) _ _
  exact (ringCore_of_msg (relayAnswer_msg _ _ _ _)).trans rfl

@[simp] theorem journalAdd_ring (k n : Nat) (l : List Byte) (r : Option Ref) (s : State) :
    (journalAdd k n l r s).ring = s.ring := by
  simp [journalAdd, apply_ite State.ring]

@[simp] theorem journalRing_ring (s : State) : (journalRing s).ring = s.ring := journalAdd_ring _ _ _ _ _

end Sys2Proof.Machine
end

section
/-! PROOF. Where the commands of the Calond ring complete (R455, R459 to R464). -/

namespace Sys2Proof.Machine

@[simp] theorem settlePort_core (old : Nat) (p : Port) (s : State) : ringCore (settlePort old s p) = ringCore s := by
  simp [settlePort, apply_ite ringCore]

/-- The ring once SET_RING_ROLE has stored its settings, before the links follow. -/
def storeRole (p : List Byte) (s : State) : State :=
  let s1 := { s with ring := { s.ring with ceilE := u8 p 1, ceilW := u8 p 2, sleep := u8 p 3, pmDma := u8 p 4 } }
  if u8 p 0 = s.ring.role then s1 else changeRole (u8 p 0) s1

/-- The links follow the settings that SET_RING_ROLE stored. -/
def settleLinks (s t : State) : State :=
  if domOn t 31 then settlePort (portCeil s .west) (settlePort (portCeil s .east) t .east) .west else t

theorem runSetRingRole_eq (c : Ctx) (s : State) :
    runSetRingRole c s = done (applyUsed (settleLinks s (storeRole c.pk.params s))) := rfl

theorem settleLinks_core (s t : State) : ringCore (settleLinks s t) = ringCore t := by
  simp [settleLinks, apply_ite ringCore]

theorem changeRole_ring (r : Nat) (s : State) :
    (changeRole r s).ring.role = r ∧ (changeRole r s).ring.number = none ∧ (changeRole r s).ring.ceilE = s.ring.ceilE ∧
      (changeRole r s).ring.ceilW = s.ring.ceilW ∧ (changeRole r s).ring.sleep = s.ring.sleep ∧
      (changeRole r s).ring.pmDma = s.ring.pmDma := by
  by_cases h : r = 1
  · simp [changeRole, h, nextEpoch]
  · simp [changeRole, h]

theorem storeRole_ring (p : List Byte) (s : State) :
    (storeRole p s).ring.role = u8 p 0 ∧ (storeRole p s).ring.ceilE = u8 p 1 ∧ (storeRole p s).ring.ceilW = u8 p 2 ∧
      (storeRole p s).ring.sleep = u8 p 3 ∧ (storeRole p s).ring.pmDma = u8 p 4 ∧
      (u8 p 0 ≠ s.ring.role → (storeRole p s).ring.number = none) := by
  by_cases h : u8 p 0 = s.ring.role
  · simp [storeRole, h]
  · simp [storeRole, h, changeRole_ring]

/-- The binding that ASSIGN_WORKER leaves, before the journal and ROSTER follow. -/
def bindWorker (p : List Byte) (s : State) : State :=
  let w := u8 p 0
  if u8 p 1 = 0 then forgetWorker w (dropRelays w { s with ring := { s.ring with bind := terase s.ring.bind w } })
  else
    let t := { s with ring := { s.ring with bind := tset [] s.ring.bind w (slice p 4 11) } }
    if tget [] s.ring.bind w == slice p 4 11 then t else forgetWorker w t

theorem runAssignWorker_eq (c : Ctx) (s : State) :
    runAssignWorker c s = done (sendRoster (journalRing (bindWorker c.pk.params s))) := rfl

@[simp] theorem forgetWorker_core (w : Nat) (s : State) : ringCore (forgetWorker w s) = ringCore s := by
  simp only [forgetWorker, workerUpd_core, portUpd_core]

theorem bindWorker_bind (p : List Byte) (s : State) : (bindWorker p s).ring.bind =
    if u8 p 1 = 0 then terase s.ring.bind (u8 p 0) else tset [] s.ring.bind (u8 p 0) (slice p 4 11) := by
  by_cases h : u8 p 1 = 0
  · simp only [bindWorker, if_pos h]
    obtain ⟨-, -, -, -, -, -, -, hbind⟩ := ringCore_fields ((forgetWorker_core _ _).trans (dropRelays_core _ _))
    exact hbind
  · simp only [bindWorker, if_neg h, apply_ite (fun t : State => t.ring.bind)]
    exact ite_self _

theorem slice_ne_nil (l : List Byte) (o : Nat) {n : Nat} (h : 0 < n) : slice l o n ≠ [] :=
  List.ne_nil_of_length_pos (by rw [slice_length]; exact h)

theorem portBytes_length (s : State) (p : Port) : (portBytes s p).length = 16 := by simp [portBytes]

theorem workerBytes_length (s : State) (w : Nat) : (workerBytes s w).length = 8 := by
  unfold workerBytes
  split_ifs
  · simp
  · simp

/-- Settles O39. -/
theorem ringCommandsComplete : Obligations.RingCommandsComplete := by
  refine ⟨?setRole, ?assign, ?status, ?outcome, ?setProtect, ?getProtect⟩
  case setRole =>
    intro pk s hs hcheck
    obtain ⟨hrole, hE, hW, hsleep, hdma, hnum⟩ := storeRole_ring pk.params (begun 0x0A01 pk s)
    obtain ⟨krole, kE, kW, ksleep, kdma, knum, -⟩ :=
      ringCore_fields (settleLinks_core (begun 0x0A01 pk s) (storeRole pk.params (begun 0x0A01 pk s)))
    refine ⟨_, next_congr (serve_done hs hcheck (runSetRingRole_eq _ _)), krole.trans hrole, kE.trans hE, kW.trans hW,
      ksleep.trans hsleep, kdma.trans hdma, fun hne => knum.trans (hnum ?_)⟩
    rwa [begun_ring hs]
  case assign =>
    intro pk s hs hcheck
    refine ⟨_, next_congr (serve_done hs hcheck (runAssignWorker_eq _ _)), fun h1 => ?_, fun h0 => ?_⟩
    · rw [ctxOf_pk, bindWorker_bind, if_neg (by rw [h1]; decide),
        tget_tset_same_of_ne _ _ (slice_ne_nil _ _ (by decide))]
    · rw [ctxOf_pk, bindWorker_bind, if_pos h0, begun_ring hs]
  case status =>
    intro pk s hs hcheck
    refine ⟨_, _, next_congr (serve_doneWith hs hcheck rfl), ?_, ?_, ?_, rfl, rfl⟩
    · simp [portBytes_length, workerBytes_length, List.length_flatMap]
    · simp [u8_append_left, begun_ring hs]
    · simp [u16_append_left, u16_append_right, begun_ring hs]
  case outcome =>
    intro pk s l hs hcheck hl
    refine ⟨fun hnone => ?_, fun e he => ?_⟩
    · exact next_congr (serve_doneWith hs hcheck (by simp [runGetOutcome, ← hl, hnone]))
    · refine ⟨_, next_congr (serve_doneWith hs hcheck (by simp only [runGetOutcome, ctxOf_pk, ← hl, he]; rfl)), ?_, ?_, ?_⟩
      · simp
      · simp [u8_append_left]
      · simp [u16_append_left, u16_append_right]
  case setProtect =>
    intro pk s t hs hcheck hrole ht
    have hrun : runSetRingProtect (ctxOf pk s) (begun 0x0A05 pk s) =
        { s := pairMember (ctxOf pk s) (pairMember (ctxOf pk s) t (u8 pk.params 4)) (u8 pk.params 5), final := none } := by
      simp [runSetRingProtect, begun_ring hs, hrole, ht]
    exact next_congr (serve_waits hs hcheck hrun)
  case getProtect =>
    intro pk s hs hcheck
    refine ⟨_, next_congr (serve_doneWith hs hcheck rfl), ?_, ?_, ?_⟩
    · simp
    · simp [u8_append_left, begun_ring hs]
      exact (b2n_lt _).trans (show 2 < 256 by decide)
    · simp [u16_append_left, u16_append_right, begun_ring hs]

end Sys2Proof.Machine
end

section
/-! PROOF. The final record of a command of a PCIe queue in host memory (R384, R385). -/

namespace Sys2Proof.Machine

/-! Host memory as a table of bytes. -/

theorem tget_memPut_other {m : Tbl Byte} (h : tblWf 0 m = true) (a x : Nat) (l : List Byte)
    (hx : ∀ i, i < l.length → x ≠ (a + i) % 2 ^ 64) : tget 0 (memPut m a l) x = tget 0 m x := by
  induction l generalizing m a with
  | nil => rfl
  | cons b r ih =>
    have hrest : ∀ i, i < r.length → x ≠ (a + 1 + i) % 2 ^ 64 := fun i hi => by
      rw [Nat.add_assoc, Nat.add_comm 1 i]
      exact hx (i + 1) (Nat.succ_lt_succ hi)
    rw [memPut, ih (tset_wf h _ _) _ hrest, tget_tset h, if_neg (show x ≠ a % 2 ^ 64 from hx 0 (Nat.succ_pos _))]

/-- Addresses less than 2^64 apart are distinct. -/
theorem address_ne {a i : Nat} (h0 : 0 < i) (h : i < 2 ^ 64) : a % 2 ^ 64 ≠ (a + i) % 2 ^ 64 := by
  omega

theorem tget_memPut {m : Tbl Byte} (h : tblWf 0 m = true) (a : Nat) (l : List Byte) (hl : l.length ≤ 2 ^ 64) (i : Nat)
    (hi : i < l.length) : tget 0 (memPut m a l) ((a + i) % 2 ^ 64) = l[i] := by
  induction l generalizing m a i with
  | nil => exact absurd hi (Nat.not_lt_zero _)
  | cons b r ih =>
    have hr : r.length < 2 ^ 64 := hl
    cases i with
    | zero =>
      have hrest : ∀ j, j < r.length → a % 2 ^ 64 ≠ (a + 1 + j) % 2 ^ 64 := fun j hj => by
        rw [Nat.add_assoc, Nat.add_comm 1 j]
        exact address_ne (Nat.succ_pos j) (by omega)
      show tget 0 (memPut (tset 0 m (a % 2 ^ 64) b) (a + 1) r) (a % 2 ^ 64) = b
      rw [tget_memPut_other (tset_wf h _ _) _ _ _ hrest, tget_tset h, if_pos rfl]
    | succ i =>
      have hnext := ih (tset_wf h (a % 2 ^ 64) b) (a + 1) hr.le i (Nat.lt_of_succ_lt_succ hi)
      rwa [Nat.add_assoc, Nat.add_comm 1 i] at hnext

theorem memGet_memPut {m : Tbl Byte} (h : tblWf 0 m = true) (a : Nat) (l : List Byte) (hl : l.length ≤ 2 ^ 64) :
    memGet (memPut m a l) a l.length = l := by
  refine List.ext_getElem (by simp [memGet]) fun i _ hi => ?_
  simp only [memGet, List.getElem_map, List.getElem_range]
  exact tget_memPut h a l hl i hi

/-! The record (R384, R385). -/

theorem recordBytes_length (r : Rec) (seq epoch : Nat) : (recordBytes r seq epoch).length = recordLength r := by
  simp only [recordBytes, recordLength, padTo, List.length_append, List.length_replicate, le_length]
  omega

theorem runs_complete {r : Ref} {t : State} {c : Running} (h : runningOf t r = some c) (hf : c.flags.testBit 1 = false)
    (hw : c.withheld = false) (st : Nat) (res : List Byte) :
    complete r st res t = emit r.queue ⟨c.opcode, c.tag, st, 0, 0, res, c.sub, true, c.accepted⟩ t := by
  simp [complete, completeFrom, h, hf, hw]

theorem recordRoom_ring {q : QueueId} (hq : q = .q0 ∨ q = .q1 ∨ q = .q2) {r : Rec} {t : State}
    (h : recordRoom q r t = true) : (qget t q).ring.tail + recordLength r ≤ ringSize (qget t q).ring := by
  obtain rfl | rfl | rfl := hq
  · simp only [recordRoom, Bool.and_eq_true, decide_eq_true_eq] at h
    exact h.1.2
  · simp only [recordRoom, Bool.and_eq_true, decide_eq_true_eq] at h
    exact h.1.2
  · simp only [recordRoom, Bool.and_eq_true, decide_eq_true_eq] at h
    exact h.1.2

theorem writeRecord_pcie {q : QueueId} (hq : q = .q0 ∨ q = .q1 ∨ q = .q2) (r : Rec) (t : State) :
    writeRecord q r t = writeRingRecord q r t := by
  obtain rfl | rfl | rfl := hq
  · rfl
  · rfl
  · rfl

/-- A record with room that no other waits before is written as it stands, without a pad. -/
theorem emit_of_room {q : QueueId} (hq : q = .q0 ∨ q = .q1 ∨ q = .q2) {r : Rec} {t : State} (hhold : (qget t q).hold = [])
    (hroom : recordRoom q r t = true) : emit q r t = writeRingRecord q r t := by
  have hpad : writePad q r t = t := by simp [writePad, Nat.not_lt.2 (recordRoom_ring hq hroom)]
  simp only [emit, hhold, hpad, hroom, List.isEmpty_nil, if_true, writeRecord_pcie hq]

theorem writeRingRecord_hostMem (q : QueueId) (r : Rec) (t : State) : (writeRingRecord q r t).hostMem =
    memPut t.hostMem ((qget t q).ring.base + (qget t q).ring.tail) (recordBytes r (qget t q).seq (qget t q).epoch) := by
  simp [writeRingRecord, hostStore]

theorem qget_writeRingRecord (q : QueueId) (r : Rec) (t : State) : qget (writeRingRecord q r t) q =
    { wrote r (qget t q) with ring := ringAdvance (qget t q).ring (recordLength r) } := by
  have hraise : ∀ (n : Nat) (x : State), (raiseVector n x).swiys = x.swiys := fun n x => by simp
  rw [writeRingRecord, qget_congr (hraise _ _), qget_qset_same]

/-- Settles O56. -/
theorem finalRecordIsStored : Obligations.FinalRecordIsStored := by
  intro pk st res s t c r v hq hv hmem hlen hrun hflag hwith hr hhold hroom u hu
  have hu : u = writeRingRecord pk.queue r t := by
    rw [hu, runs_complete hrun hflag hwith, ← hr]
    exact emit_of_room hq (hv ▸ hhold) hroom
  have hbound : (recordBytes r v.seq v.epoch).length ≤ 2 ^ 64 := by
    rw [recordBytes_length, hr]
    simp only [recordLength]
    omega
  subst hu
  rw [writeRingRecord_hostMem, qget_writeRingRecord, ← hv, ← recordBytes_length r v.seq v.epoch]
  refine ⟨memGet_memPut hmem _ _ hbound, by rw [recordBytes_length]; rfl, rfl, ?_, fun a ha => ?_⟩
  · simp [wrote, hr]
  · exact tget_memPut_other hmem _ _ _ ha

end Sys2Proof.Machine
end

section
/-! PROOF. The justification rule (R216) on a table that lists a tenant twice: the first entry is no container, and once it reads as the
default it gives way to the second. The statement reads the second entry, the period is sent from the first. -/

namespace Sys2Proof.Machine

section freq
variable {t : Nat} {s : State}

theorem tenGet_tenUpd_of_freq {f : Tenant → Tenant} (h : (f (tenGet s t)).tx.freq = true) :
    tenGet (tenUpd t f s) t = f (tenGet s t) :=
  tenGet_tenUpd_of_ne fun hd => by simp [hd] at h

theorem freq_declareFreq : (tenGet (declareFreq t s) t).tx.freq = true := by
  have hset := tenGet_tenUpd_of_freq (s := s) (t := t)
    (f := fun x => { x with tx := { (x.tx.refill x.tx.c) with freq := true, clean := 0 } }) rfl
  have hev : ∀ (n : Nat) (l : List Nat) (u : State), (postEv n l u).ten = u.ten := fun n l u => by simp [postEv]
  rw [declareFreq, tenGet_of_ten (hev _ _ _), tenGet_of_ten (pmCount_ten ..), tenCnt, tenGet_tenUpd_of_freq (by rw [hset]), hset]

variable (hf : (tenGet s t).tx.freq = true)
include hf

/-- Under TC-FREQ the stream of a client is replaced (R218, R219). -/
theorem freq_offerBlocks (l : List Block66) : (tenGet (offerBlocks t l s) t).tx.freq = true := by
  have hrep : streamReplaced s t = true := by simp [streamReplaced, hf]
  have hshim : ∀ (shim : List Block66) (n : Nat), (tenGet (tenUpd t (fun x => { x with tx := { x.tx with
      shim := shim, credit := n } }) s) t).tx.freq = true := fun shim n => by
    rw [tenGet_tenUpd_of_freq hf]
    exact hf
  rw [offerBlocks, if_pos hrep, feedStore, tenGet_tenUpd_of_freq (hshim _ _)]
  exact hshim _ _

/-- Under TC-FREQ nothing is justified (R218). -/
theorem jc_sendPeriod_of_freq : (tenGet (sendPeriod t s) t).tx.jc = 0 := by
  simp only [sendPeriod]
  rw [tenGet_of_ten (txPeriod_ten ..), tenGet_of_ten (pmCount_ten ..), tenCnt, tenGet_tenUpd_of_freq, tenGet_tenUpd_of_freq]
  · exact if_pos hf
  · exact hf
  · rw [tenGet_tenUpd_of_freq]
    · exact hf
    · exact hf

end freq

/-- Tenant 0 listed twice: an entry of no container that holds a block, then a container of size 1 with 10 words. -/
def listedTwice : State :=
  { State.reset with
    power := { State.reset.power with doms := [(2, { state := .on })] }
    cal := { State.reset.cal with t0 := ⟨[(0, 0x8000)], []⟩ }
    ten := [(0, { tx := { shim := [⟨false, []⟩] } }), (0, { tx := { c := 1, store := List.replicate 10 0 } })] }

/-- The store of the second entry, which the statement reads. -/
theorem tenGet_offerBlocks_listedTwice :
    (tenGet (offerBlocks 0 [] listedTwice) 0).tx = { c := 1, store := List.replicate 10 0 } := by
  rfl

/-- The period leaves from the first entry, which declares TC-FREQ: its level 0 is the bound of its size 0. -/
theorem exec_pointerPeriodTransmit_listedTwice : exec (.pointerPeriodTransmit 0 []) listedTwice =
    .next (sendPeriod 0 (offerBlocks 0 [] (declareFreq 0 (transmitStart 0 listedTwice)))) := by
  refine next_congr ((if_neg (by decide)).trans ?_)
  exact congrArg (fun u => sendPeriod 0 (offerBlocks 0 [] u)) (if_pos rfl)

/-- Refutes O54: on a tenant table that is not in canonical form the period is not that of the store that the statement reads: a
level of 10 words at size 1 asks for NEG, and the period carries none. -/
theorem not_justificationRule : ¬ Obligations.JustificationRule := by
  intro h
  obtain ⟨u, hu, hjc, -⟩ := h 0 1 10 [] _ listedTwice (by decide) rfl (by decide) rfl rfl tenGet_offerBlocks_listedTwice.symm
    rfl rfl (by decide) (by decide)
  rw [exec_pointerPeriodTransmit_listedTwice] at hu
  obtain rfl := Host.Outcome.next.inj hu
  rw [jc_sendPeriod_of_freq (freq_offerBlocks freq_declareFreq [])] at hjc
  exact absurd hjc (by decide)

end Sys2Proof.Machine
end

section
/-! SUPPORT. What messages, events and the state of a link leave of a ring port (R441 to R446). -/

namespace Sys2Proof.Machine

@[simp] theorem portGet_portUpd_same (p : Port) (f : RingPort → RingPort) (s : State) :
    portGet (portUpd p f s) p = f (portGet s p) := pget_pupd_same _ _ _

theorem portSlot_ne {p q : Port} (h : p ≠ q) : portSlot p ≠ portSlot q := by
  cases p with
  | east => cases q with
    | east => exact absurd rfl h
    | west => decide
  | west => cases q with
    | east => decide
    | west => exact absurd rfl h

theorem portGet_portUpd_other {p q : Port} (h : q ≠ p) (f : RingPort → RingPort) (s : State) :
    portGet (portUpd p f s) q = portGet s q := pget_pupd_other _ (portSlot_ne h) _

theorem portGet_of_ring {s t : State} (h : t.ring = s.ring) (p : Port) : portGet t p = portGet s p := by
  rw [portGet, h, portGet]

@[simp] theorem portGet_countSrc (a b n : Nat) (s : State) (p : Port) : portGet (countSrc a b n s) p = portGet s p :=
  portGet_of_ring (by simp) p

@[simp] theorem portGet_countIn (q : Port) (n : Nat) (s : State) (p : Port) : portGet (countIn q n s) p = portGet s p :=
  portGet_countSrc _ _ _ _ _

@[simp] theorem portGet_workerUpd (w : Nat) (f : WorkerSt → WorkerSt) (s : State) (p : Port) :
    portGet (workerUpd w f s) p = portGet s p := rfl

@[simp] theorem portGet_noteGone (s : State) (p : Port) : portGet (noteGone s) p = portGet s p := by
  unfold noteGone
  exact foldl_leaves (f := fun u => portGet u p) (fun t w => portGet_workerUpd w _ t p) _ _

/-- A message out of one port leaves the other alone. -/
theorem portGet_sendMsg_other {p q : Port} (h : p ≠ q) (m : RingMsg) (s : State) :
    portGet (sendMsg q m s) p = portGet s p := by
  obtain ⟨f, n, he, -⟩ | ⟨f, he, -⟩ | he := sendMsg_cases q m s
  · rw [he, portGet_portUpd_other h, portGet_countSrc]
  · rw [he, portGet_portUpd_other h]
  · rw [he]

/-- The port without the messages that it has sent. -/
def unsent (r : RingPort) : RingPort := { r with sent := [] }

/-- Where a link is UP or DOWN, a message changes only what its port has sent. -/
theorem unsent_sendMsg {p : Port} {s : State} (h : (portGet s p).state = .up ∨ (portGet s p).state = .down) (q : Port)
    (m : RingMsg) : unsent (portGet (sendMsg q m s) p) = unsent (portGet s p) := by
  by_cases hq : p = q
  · subst hq
    obtain hu | hd := h
    · rw [sendMsg_of_up hu, portGet_portUpd_same, portGet_countSrc]
      rfl
    · rw [sendMsg_of_down hd]
  · rw [portGet_sendMsg_other hq]

theorem unsent_post {p : Port} {s : State} (h : (portGet s p).state = .up ∨ (portGet s p).state = .down) (code : Nat)
    (set : Bool) (l : List Nat) : unsent (portGet (post code set l s) p) = unsent (portGet s p) := by
  unfold post
  simp only
  generalize hu : deliverEvent _ _ = u
  have hget : portGet u p = portGet s p := by
    rw [← hu]
    exact portGet_of_ring (deliverEvent_ring _ _) p
  rw [← hget] at h ⊢
  unfold streamEvent
  split_ifs
  · rfl
  · refine (unsent_sendMsg ?_ _ _).trans rfl
    exact h
  · rfl

/-- A link that goes DOWN (R441): what it lost is counted. -/
theorem unsent_linkDown {p : Port} {s : State} (h : (portGet s p).state ≠ .down) :
    unsent (portGet (linkDown p s) p) = unsent { portGet s p with
      state := .down, rate := 0, farCeil := none, linkCeil := 3, deadline := none, delays := [], t1 := none, waiting := [],
      timing := none, downs := satAdd 16 (portGet s p).downs 1 } := by
  have hset := portGet_portUpd_same p (fun r => { r with
    state := .down, rate := 0, farCeil := none, linkCeil := 3, deadline := none, delays := [], t1 := none, waiting := [],
    timing := none, downs := satAdd 16 r.downs 1 }) s
  rw [linkDown, if_neg h, portGet_noteGone, postEv, unsent_post (.inr (by rw [hset])), hset]

theorem state_of_unsent {r x : RingPort} (h : unsent r = unsent x) : r.state = x.state := by
  simp only [unsent, RingPort.mk.injEq] at h
  exact h.1

theorem fields_of_unsent {r x : RingPort} (h : unsent r = unsent x) : r.state = x.state ∧ r.rate = x.rate ∧
    r.linkCeil = x.linkCeil ∧ r.waiting = x.waiting ∧ r.downs = x.downs := by
  simp only [unsent, RingPort.mk.injEq] at h
  simp only [h, and_self]

/-- Messages that leave through an UP port leave the link as it is. -/
theorem unsent_sendAll {p : Port} (l : List RingMsg) {s : State} (h : (portGet s p).state = .up) :
    unsent (portGet (l.foldl (fun t m => sendMsg p m t) s) p) = unsent (portGet s p) := by
  induction l generalizing s with
  | nil => rfl
  | cons m r ih =>
    have hone := unsent_sendMsg (.inl h) p m
    rw [List.foldl_cons, ih ((state_of_unsent hone).trans h), hone]

/-- A link that comes UP (R441). -/
theorem unsent_linkUp (p : Port) (rate : Nat) (s : State) :
    unsent (portGet (linkUp p rate s) p) = unsent { portGet s p with
      state := .up, rate := rate, farCeil := none, deadline := none, delays := [], t1 := none, waiting := [] } := by
  have hset := portGet_portUpd_same p (fun r => { r with
    state := .up, rate := rate, farCeil := none, deadline := none, delays := [], t1 := none, waiting := [] }) s
  simp only [linkUp, portGet_noteGone, sendNear, postEv]
  generalize hs1 : portUpd p _ s = s1
  rw [hs1] at hset
  have hup : (portGet s1 p).state = .up := by rw [hset]
  have hpost := unsent_post (.inl hup) 0x0A01 false [portNum p, 1, rate]
  have hheld := unsent_sendAll (portGet s p).waiting ((state_of_unsent hpost).trans hup)
  have hlast := unsent_sendMsg (.inl ((state_of_unsent hheld).trans ((state_of_unsent hpost).trans hup))) p
  rw [hlast, hheld, hpost, hset]

end Sys2Proof.Machine
end

section
/-! PROOF. Where the rows of the links, of delay and of time on the ring complete (R438, R441 to R446, R453, R454). -/

namespace Sys2Proof.Machine

@[simp] theorem advanceOpt_of_le {o : Option Nat} {d : Nat} {s : State} (h : o = some d) (hd : d ≤ s.now) :
    advanceOpt o s = s := by
  subst h
  exact advanceTo_of_le hd

@[simp] theorem domOn_countIn (p : Port) (n : Nat) (s : State) (d : Nat) : domOn (countIn p n s) d = domOn s d := by
  simp [domOn, domGet, countIn]

theorem up_of_arrives {p : Port} {s : State} (h : arrives s p = true) : domOn s 31 = true ∧ (portGet s p).state = .up := by
  simpa [arrives] using h

/-- A pending step changes the deadline alone. -/
theorem portGet_planStep (p : Port) (s : State) :
    portGet (planStep p s) p = { portGet s p with deadline := if stepsOn s p then some (s.now + msNs) else none } :=
  portGet_portUpd_same _ _ _

theorem stepsOn_planStep (p : Port) (s : State) : stepsOn (planStep p s) p = stepsOn s p := by
  simp only [stepsOn, portGet_planStep]
  rfl

/-- A link that is lost for missing commas or code errors (R442). -/
theorem exec_ringLink_lost {p : Port} {n : Nat} {s : State} (hup : (portGet s p).state = .up) (hn : n = 0 ∨ 16 ≤ n) :
    exec (.ringLink p n) s = .next (linkDown p (portUpd p (fun r => { r with codeErr := satAdd 16 r.codeErr n }) s)) := by
  refine next_congr ((if_neg (by simp [hup])).trans (if_pos ?_))
  simpa using hn

/-- The state of a port once TIMING has been taken from it. -/
def timingTaken (p : Port) (m : RingMsg) (sec ns : Nat) (s : State) : State :=
  portUpd p (fun r => { r with timing := some ⟨u8 m.body 13, u8 m.body 12, u8 m.body 14,
    ((sec * secNs + ns : Nat) : Int) - ((beNat (slice m.body 0 6) * secNs + beNat (slice m.body 6 4) : Nat) : Int)
      - roundDiv (linkDelay (portGet s p)) 10, s.now⟩ }) s

/-- The body of TIMING on a port (R454). -/
def timingBody (t : State) (p : Port) : List Byte :=
  be 6 (t.tod / secNs) ++ be 4 (t.tod % secNs) ++ be 2 (t.subns * 65536 / 10 ^ 8) ++ le 1 (portQl t p)
    ++ le 1 (timeDepth t) ++ le 1 (b2n t.pm.todUnset + 2 * b2n t.bel.coarse) ++ le 1 0

/-- TIMING as it leaves by a port. -/
def timingMsg (t : State) (p : Port) : RingMsg := mkMsg t 0x06 0xFF 0 (timingBody t p)

/-- TIMING where the east link alone is UP. -/
theorem exec_timingSend {s : State} (hd : domOn s 31 = true) (heast : (portGet s .east).state = .up)
    (hwest : (portGet s .west).state = .down) : exec .timingSend s = .next (sendMsg .east (timingMsg s .east) s) := by
  have hother := portGet_sendMsg_other (p := .west) (q := .east) (by decide) (timingMsg s .east) s
  have hskip : ((portGet (sendMsg .east (timingMsg s .east) s) .west).state != .up) = true := by
    rw [hother, hwest]
    rfl
  have hsend : (if (portGet s .east).state != .up then s else sendMsg .east (timingMsg s .east) s) =
      sendMsg .east (timingMsg s .east) s := if_neg (by simp [heast])
  refine next_congr ((if_neg (by simp [hd])).trans ?_)
  calc List.foldl (fun t p => if (portGet t p).state != .up then t else sendMsg p (timingMsg t p) t) s bothPorts
      = (fun t => if (portGet t .west).state != .up then t else sendMsg .west (timingMsg t .west) t)
          (if (portGet s .east).state != .up then s else sendMsg .east (timingMsg s .east) s) := rfl
    _ = sendMsg .east (timingMsg s .east) s := by rw [hsend]; exact if_pos hskip

/-- Settles O40. -/
theorem linkRowsComplete : Obligations.LinkRowsComplete := by
  refine ⟨?signal, ?align, ?stepStart, ?stepEnd, ?link, ?forward, ?neg, ?delay, ?delayResp, ?timingSend, ?timingReceive,
    ?broadcast⟩
  case signal =>
    intro p s hd hdown hfree
    exact next_congr (if_neg (by simp [hd, hdown, hfree]))
  case align =>
    intro p s hst
    refine ⟨?_, fun d hd hle => ?_⟩
    · obtain ⟨hstate, hrate, -, hwaiting, -⟩ := fields_of_unsent (unsent_linkUp p 0 s)
      exact ⟨_, next_congr (if_pos hst), hstate, hrate, hwaiting⟩
    · obtain ⟨hstate, -, -, -, hdowns⟩ := fields_of_unsent (unsent_linkDown (p := p) (s := s) (by simp [hst]))
      exact ⟨_, next_congr ((if_pos hst).trans (by rw [advanceOpt_of_le hd hle])), hstate, hdowns⟩
  case stepStart =>
    intro p d s hup hd hle hsteps
    refine next_congr ((if_neg (by simp [hup, hd, hsteps])).trans ?_)
    rw [advanceOpt_of_le hd hle]
  case stepEnd =>
    intro p s hst
    refine ⟨?_, fun d hd hle => ?_⟩
    · obtain ⟨hstate, hrate, -⟩ := fields_of_unsent (unsent_linkUp p ((portGet s p).rate + 1) s)
      exact ⟨_, next_congr ((if_neg (by simp [hst])).trans (if_pos rfl)), hstate, hrate⟩
    · have hexec : exec (.ringStepEnd p false) s =
          .next (linkUp p (portGet s p).rate (portUpd p (fun r => { r with linkCeil := r.rate }) s)) := by
        refine next_congr ((if_neg (by simp [hst])).trans ((if_neg (by decide)).trans ?_))
        rw [advanceOpt_of_le hd hle]
      obtain ⟨hstate, hrate, hceil, -⟩ := fields_of_unsent
        (unsent_linkUp p (portGet s p).rate (portUpd p (fun r => { r with linkCeil := r.rate }) s))
      rw [portGet_portUpd_same] at hceil
      exact ⟨_, hexec, hstate, hrate, hceil⟩
  case link =>
    intro p n s hup
    refine ⟨fun h1 h16 => ?_, fun hn => ?_⟩
    · exact next_congr ((if_neg (by simp [hup])).trans (if_neg (by simp; omega)))
    · obtain ⟨hstate, -, -, -, hdowns⟩ := fields_of_unsent (unsent_linkDown (p := p)
        (s := portUpd p (fun r => { r with codeErr := satAdd 16 r.codeErr n }) s) (by simp [hup]))
      rw [portGet_portUpd_same] at hdowns
      exact ⟨_, exec_ringLink_lost hup hn, hstate, hdowns⟩
  case forward =>
    intro p l s harr
    refine ⟨fun hbad => ?_, fun m hm hdst hself => ⟨fun hhops hsrc hother => ?_, fun hdrop => ?_⟩⟩
    · refine next_congr ((if_neg (by simp [harr])).trans ?_)
      simp only [hbad]
    · have hself' : ringSelf (countIn p l.length s) = ringSelf s := by simp [ringSelf, countIn]
      refine next_congr ((if_neg (by simp [harr])).trans ?_)
      simp [hm, hdst, hself, hself', hsrc, hother, Nat.not_le.2 hhops]
    · have hself' : ringSelf (countIn p l.length s) = ringSelf s := by simp [ringSelf, countIn]
      refine next_congr ((if_neg (by simp [harr])).trans ?_)
      simp only [hm, hdst, hself, hself', portGet_countIn]
      exact (if_neg (by decide)).trans (if_pos (by simpa [or_assoc] using hdrop))
  case neg =>
    intro p c s harr
    refine ⟨_, next_congr (if_neg (by simp [harr])), ?_, ?_⟩
    · rw [portGet_planStep, portGet_portUpd_same]
    · rw [stepsOn_planStep, portGet_planStep]
      simp only [portUpd_frame, countIn, countSrc_frame]
      rfl
  case delay =>
    intro p a b s harr
    exact ⟨next_congr (if_pos harr), next_congr (if_pos harr)⟩
  case delayResp =>
    intro p t1 t2 t3 t4 s harr ht1
    have hexec : exec (.delayRespReceive p t2 t3 t4) s = .next (portUpd p (fun r => { r with
        t1 := none
        delays := ((((t4 : Int) - t1) - ((t3 : Int) - t2)) / 2 :: r.delays).take 16 }) (countIn p 44 s)) := by
      refine next_congr ((if_neg (by simp [harr])).trans ?_)
      simp only [portGet_countIn, ht1]
    refine ⟨_, hexec, ?_, ?_⟩
    · rw [portGet_portUpd_same]
    · rw [portGet_portUpd_same, portGet_countIn]
  case timingSend =>
    intro s hd heast hwest
    have hother := portGet_sendMsg_other (p := .west) (q := .east) (by decide) (timingMsg s .east) s
    refine ⟨_, timingMsg s .east, exec_timingSend hd heast hwest, rfl, by simp [timingMsg, timingBody, mkMsg], rfl, ?_, ?_⟩
    · rw [sendMsg_of_up heast, portGet_portUpd_same, portGet_countSrc]
    · rw [hother]
  case timingReceive =>
    intro p m sec ns s harr hrole
    have hexec : exec (.timingReceive p m sec ns) s = .next (timingTaken p m sec ns (countIn p (msgLength m) s)) := by
      refine next_congr ((if_neg (by simp [harr])).trans (if_pos ?_))
      simpa [portUpd, countIn] using hrole
    refine ⟨_, hexec, ?_⟩
    rw [timingTaken, portGet_portUpd_same, portGet_countIn]
    simp [countIn]
  case broadcast =>
    intro s hd
    exact ⟨next_congr (if_neg (by simp [hd])), fun hrole => next_congr ((if_pos hd).trans (if_pos hrole))⟩

end Sys2Proof.Machine
end

section
/-! PROOF. Where the rows of managers and workers and of protection complete (R438, R439, R447 to R452, R456, R457). -/

namespace Sys2Proof.Machine

/-! What a message leaves of the ring. -/

/-- A message changes nothing of the ring but its ports. -/
theorem sendMsg_ring (p : Port) (m : RingMsg) (s : State) :
    (sendMsg p m s).ring = { s.ring with ports := (sendMsg p m s).ring.ports } := by
  obtain ⟨f, n, h, -⟩ | ⟨f, h, -⟩ | h := sendMsg_cases p m s
  · rw [h]
    simp [portUpd]
  · rw [h]
    rfl
  · rw [h]

theorem sendEither_ring (p : Port) (m : RingMsg) (s : State) :
    (sendEither p m s).ring = { s.ring with ports := (sendEither p m s).ring.ports } := by
  unfold sendEither
  split_ifs
  · exact sendMsg_ring _ _ _
  · exact sendMsg_ring _ _ _

/-! What the end of relays leaves of workers and ports. -/

@[simp] theorem sendCopy_msg (p : Port) (w tag : Nat) (s : State) : msgCore (sendCopy p w tag s) = msgCore s := by
  unfold sendCopy
  split
  · rfl
  · exact (sendMsg_msg _ _ _).trans rfl

@[simp] theorem nextRelay_msg (w : Nat) (s : State) : msgCore (nextRelay w s) = msgCore s := by
  unfold nextRelay
  split
  · rfl
  · rw [apply_ite msgCore, sendCopy_msg, ite_self]

@[simp] theorem endRelay_msg (r : Relay) (st : Nat) (l : List Byte) (s : State) :
    msgCore (endRelay r st l s) = msgCore s :=
  (nextRelay_msg _ _).trans ((relayAnswer_msg _ _ _ _).trans rfl)

@[simp] theorem dropUnready_msg (w : Nat) (s : State) : msgCore (dropUnready w s) = msgCore s := by
  unfold dropUnready
  exact foldl_leaves (f := msgCore) (fun t r => endRelay_msg r _ _ t) _ _

/-! Workers. -/

theorem tget_terase_other {α : Type} (d : α) (t : Tbl α) {k x : Nat} (h : x ≠ k) : tget d (terase t k) x = tget d t x := by
  induction t with
  | nil => rfl
  | cons e r ih =>
    by_cases hk : e.1 = k
    · simp [terase, tget, hk, h.symm]
    · simp only [terase, tget, if_neg hk, ih]

theorem tget_tupd_other {α : Type} [DecidableEq α] (d : α) (t : Tbl α) {k x : Nat} (h : x ≠ k) (f : α → α) :
    tget d (tupd d t k f) x = tget d t x := by
  rw [tupd, tset]
  split_ifs
  · exact tget_terase_other d t h
  · rw [tget_tput, if_neg h]

theorem workerGet_workerUpd_of_ne {w : Nat} {f : WorkerSt → WorkerSt} {s : State}
    (h : f (tget {} s.ring.workers w) ≠ {}) : tget {} (workerUpd w f s).ring.workers w = f (tget {} s.ring.workers w) :=
  tget_tset_same_of_ne _ _ h

theorem joined_ne {k : WorkerSt} (h : k.joined = true) : k ≠ {} := fun hd => by simp [hd] at h

/-- A worker that has joined keeps its flags while it is noted who is gone (R448, R451). -/
theorem noteGone_status {w : Nat} {s : State} (h : (tget {} s.ring.workers w).joined = true) :
    (tget {} (noteGone s).ring.workers w).joined = true ∧
      (tget {} (noteGone s).ring.workers w).ready = (tget {} s.ring.workers w).ready := by
  unfold noteGone
  generalize boundWorkers s = l
  induction l generalizing s with
  | nil => exact ⟨h, rfl⟩
  | cons x r ih =>
    rw [List.foldl_cons]
    generalize hs1 : workerUpd x _ s = s1
    have hone : (tget {} s1.ring.workers w).joined = true ∧
        (tget {} s1.ring.workers w).ready = (tget {} s.ring.workers w).ready := by
      by_cases hx : w = x
      · subst hx
        rw [← hs1, workerGet_workerUpd_of_ne (joined_ne h)]
        exact ⟨h, rfl⟩
      · rw [← hs1]
        simp only [workerUpd, tget_tupd_other _ _ hx]
        exact ⟨h, trivial⟩
    obtain ⟨hj, hr⟩ := ih hone.1
    exact ⟨hj, hr.trans hone.2⟩

theorem heard_of_quiet {r x : RingPort} (h : quiet r = quiet x) : r.heard = x.heard := by
  simp only [quiet, RingPort.mk.injEq] at h
  simp only [h]

/-- The flags of a STATUS as the manager notes them (R451); a worker that becomes READY starts its sequence numbers anew. -/
def flagsNoted (was : WorkerSt) (flags : Nat) (k : WorkerSt) : WorkerSt :=
  let rise := flags.testBit 0 && !was.ready
  { k with
    ready := flags.testBit 0, dormant := flags.testBit 1, joined := true
    evSeq := if rise then none else k.evSeq
    pmSeq := if rise then none else k.pmSeq }

/-- A worker is heard through a port (R447). -/
def portHears (w now hops : Nat) (r : RingPort) : RingPort :=
  { r with heard := tset 0 r.heard w (now + 1), hops := tset 0 r.hops w (hops + 1) }

/-- A STATUS of a bound worker as it is noted (R447, R451). -/
def noteStatusOf (p : Port) (w hops flags : Nat) (s : State) : State :=
  noteGone (workerUpd w (flagsNoted (tget {} s.ring.workers w) flags) (portUpd p (portHears w s.now hops) s))

theorem noteStatusOf_spec (p : Port) (w hops flags : Nat) (s : State) :
    (tget {} (noteStatusOf p w hops flags s).ring.workers w).joined = true ∧
      (tget {} (noteStatusOf p w hops flags s).ring.workers w).ready = flags.testBit 0 ∧
      tget 0 (portGet (noteStatusOf p w hops flags s) p).heard w = s.now + 1 := by
  have hset : ∀ was u, tget {} (workerUpd w (flagsNoted was flags) u).ring.workers w =
      flagsNoted was flags (tget {} u.ring.workers w) := fun was u => workerGet_workerUpd_of_ne (joined_ne rfl)
  obtain ⟨hj, hr⟩ := noteGone_status (w := w) (s := workerUpd w (flagsNoted (tget {} s.ring.workers w) flags)
    (portUpd p (portHears w s.now hops) s)) (by rw [hset]; rfl)
  refine ⟨hj, hr.trans (by rw [hset]; rfl), ?_⟩
  rw [noteStatusOf, portGet_noteGone, portGet_workerUpd, portGet_portUpd_same]
  exact tget_tset_same_of_ne _ _ (Nat.succ_ne_zero _)

/-- RING_WORKER and what waits for the worker change neither its flags nor when it was heard. -/
theorem heardWorker_msg (p : Port) (w hops flags : Nat) (s : State) :
    msgCore (heardWorker p w hops flags s) = msgCore (noteStatusOf p w hops flags s) := by
  unfold heardWorker
  simp only [apply_ite msgCore, nextRelay_msg, dropUnready_msg, postEv_msg, ite_self]
  rfl

/-! Epoch, requests and acknowledgements. -/

theorem takeEpoch_epoch (e : Nat) (s : State) : (takeEpoch e s).ring.epoch = e := by
  unfold takeEpoch
  split_ifs with h
  · exact h.symm
  · rfl

theorem takeEpoch_of_eq {e : Nat} {s : State} (h : e = s.ring.epoch) : takeEpoch e s = s := if_pos h

/-- A request that a worker takes (R448, R449): it waits in the relay FIFO, is logged, and is the highest tag. -/
def requestTaken (p : Port) (m : RingMsg) (s : State) : State :=
  let s1 := logRequest p m 1 (qupd s .relay fun q => { q with waiting := q.waiting ++ [⟨m.body, m.epoch * 2 ^ 16 + m.tag⟩] })
  { s1 with ring := { s1.ring with highest := some (m.epoch, m.tag) } }

theorem exec_requestReceive {p : Port} {m : RingMsg} {s : State} (harr : arrives s p = true) (hrole : s.ring.role = 2)
    (hnum : s.ring.number = some m.dst) (hepoch : m.epoch = s.ring.epoch)
    (hlog : (s.ring.log.find? fun e => e.epoch == m.epoch && e.tag == m.tag) = none) (hstale : tagStale s m = false)
    (hlines : linesFor m.body.length ≤ linesFree s .relay) : exec (.requestReceive p m) s =
      .next (sendReceipt p m false (requestTaken p m (countIn p (msgLength m) s))) := by
  have hring : (countIn p (msgLength m) s).ring = s.ring := by simp [countIn]
  have hstale' : tagStale (countIn p (msgLength m) s) m = false := by rw [tagStale, hring]; exact hstale
  have hfree : ¬ linesFree (countIn p (msgLength m) s) .relay < linesFor m.body.length := by
    rw [linesFree, countIn, qget_countSrc]
    exact Nat.not_lt.2 hlines
  refine next_congr ((if_neg (by simp [harr, hrole, hnum])).trans ?_)
  rw [takeEpoch_of_eq (by rw [hring]; exact hepoch)]
  simp only [hring, hlog, hstale', if_neg hfree, Bool.false_eq_true, if_false]
  rfl

/-- What an acknowledgement on the ring leaves of relays, workers and counts. -/
theorem acked_ring (p q : Port) (m : RingMsg) (n : Nat) (s : State) :
    (sendEither p m (countIn q n s)).ring = { s.ring with ports := (sendEither p m (countIn q n s)).ring.ports } := by
  rw [sendEither_ring]
  simp [countIn]

theorem seqTaken_ne {k : WorkerSt} {n : Nat} (h : k.evSeq = some n ∨ k.pmSeq = some n) : k ≠ {} := fun hd => by
  simp [hd] at h

theorem exec_responseReceive {p : Port} {m : RingMsg} {r : Relay} {s : State} (harr : arrives s p = true) (hrole : s.ring.role = 1)
    (hepoch : m.epoch = s.ring.epoch) (hrelay : relayOf s m.src m.tag = some r) (hfinal : u8 m.body 14 ≠ 1) :
    exec (.responseReceive p m) s = .next (endRelay r (u16 m.body 4) (slice m.body 16 (u16 m.body 6))
      (relayUpd m.src m.tag (fun r => { r with receipt := true, nextAt := none })
        (sendEither p { (mkMsg s 0x13 m.src m.tag []) with epoch := m.epoch } (countIn p (msgLength m) s)))) := by
  have hring := acked_ring p p { (mkMsg s 0x13 m.src m.tag []) with epoch := m.epoch } (msgLength m) s
  have hrelay1 : relayOf (sendEither p { (mkMsg s 0x13 m.src m.tag []) with epoch := m.epoch }
    (countIn p (msgLength m) s)) m.src m.tag = some r := by rw [relayOf, hring]; exact hrelay
  have hepoch1 : m.epoch = (sendEither p { (mkMsg s 0x13 m.src m.tag []) with epoch := m.epoch }
    (countIn p (msgLength m) s)).ring.epoch := by rw [hring]; exact hepoch
  refine next_congr ((if_neg (by simp [harr, hrole])).trans ?_)
  simp only [if_pos hepoch1, hrelay1, if_neg hfinal]

/-- A PM record of a worker that is delivered (R452). -/
def pmDelivered (m : RingMsg) (s : State) : State :=
  let s1 := workerUpd m.src (fun k => { k with pmSeq := some (u32 m.body 20) }) s
  let s2 := chanUpd s.ring.pmDma (fun x => { x with stream := x.stream ++
    [⟨s.pcie.posted, 8, pmEnvelope m.src s.ring.rseq m.body⟩] }) s1
  { s2 with
    pcie := { s2.pcie with posted := s2.pcie.posted + 1 }
    ring := { s2.ring with rseq := (s2.ring.rseq + 1) % 2 ^ 32 } }

theorem pmDelivered_ring (m : RingMsg) (s : State) :
    (tget {} (pmDelivered m s).ring.workers m.src).pmSeq = some (u32 m.body 20) ∧
      (pmDelivered m s).ring.rseq = (s.ring.rseq + 1) % 2 ^ 32 := by
  have hset := workerGet_workerUpd_of_ne (w := m.src) (s := s) (f := fun k => { k with pmSeq := some (u32 m.body 20) })
    (seqTaken_ne (.inr rfl))
  simp only [pmDelivered, chanUpd_frame]
  exact ⟨by rw [hset], rfl⟩

/-- Settles O41. -/
theorem relayRowsComplete : Obligations.RelayRowsComplete := by
  refine ⟨?status, ?resume, ?left, ?unreached, ?roster, ?request, ?receipt, ?retry, ?gone, ?response, ?acked, ?records,
    ?streamAck, ?resend, ?protect, ?protectSend, ?protectWtr, ?partner⟩
  case status =>
    intro p m s harr hrole hmanager hlow hhigh hsrc hbind
    have hexec : exec (.ringStatusReceive p m) s = .next (heardWorker p m.src m.hops (u8 m.body 13) s) := by
      rw [hsrc] at hbind
      refine next_congr ((if_neg (by simp [harr, hrole])).trans ((if_neg hmanager).trans ((if_pos ?_).trans ?_)))
      · simp [hlow, hhigh, hsrc, hbind]
      · rw [hsrc]
    obtain ⟨hworkers, -, -, hports⟩ := msgCore_fields (heardWorker_msg p m.src m.hops (u8 m.body 13) s)
    obtain ⟨hj, hr, hh⟩ := noteStatusOf_spec p m.src m.hops (u8 m.body 13) s
    exact ⟨_, hexec, by rw [hworkers, hj], by rw [hworkers, hr], by rw [heard_of_quiet (hports p), hh]⟩
  case resume =>
    intro t s hconf hle
    refine ⟨_, rfl, ?_⟩
    simp only [hconf, advanceTo_of_le hle]
  case left =>
    intro w t s hgone hjoined hun hle
    refine next_congr ?_
    simp only [hgone, hjoined, hun, Bool.and_self, if_true, advanceTo_of_le hle]
  case unreached =>
    intro w p s hheard hle
    exact next_congr ((if_neg hheard).trans (by rw [advanceTo_of_le hle]))
  case roster =>
    intro m s hd hrole hsrc
    exact ⟨_, next_congr (if_neg (by simp [hd, hrole, hsrc])), takeEpoch_epoch _ _, rfl⟩
  case request =>
    intro p m s harr hrole hnum hepoch hlog hstale hlines
    refine ⟨_, exec_requestReceive harr hrole hnum hepoch hlog hstale hlines, ?_, rfl⟩
    rw [← qget_countSrc 0x09 (58 + portNum p) (msgLength m) s]
    rfl
  case receipt =>
    intro p w g s harr hrole
    refine ⟨next_congr ((if_neg (by simp [harr, hrole])).trans (if_neg (by decide))), ?_⟩
    refine next_congr ((if_neg (by simp [harr, hrole])).trans ((if_pos rfl).trans ?_))
    simp only [countIn, countSrc_frame]
  case retry =>
    intro w d r s hfind hnext hle hconf
    refine ⟨fun hmany => ?_, fun p hone hfew hdir => ?_, fun hnone hreach => ?_⟩
    · refine next_congr ?_
      simp only [hfind, advanceOpt_of_le hnext hle, hmany, if_true]
    · refine next_congr ?_
      simp [hfind, advanceOpt_of_le hnext hle, Nat.not_le.2 hfew, hconf, Nat.one_le_iff_ne_zero.1 hone, hdir]
    · refine next_congr ?_
      simp [hfind, advanceOpt_of_le hnext hle, hconf, hnone, hreach]
  case gone =>
    intro w t s hgone hun hle
    refine next_congr ?_
    simp only [hgone, hun, if_true, advanceTo_of_le hle]
  case response =>
    intro p m r s harr hrole hepoch hrelay hfinal
    exact ⟨_, exec_responseReceive harr hrole hepoch hrelay hfinal⟩
  case acked =>
    intro p o s harr hrole hresp
    obtain ⟨hd, -⟩ := up_of_arrives harr
    refine ⟨?_, ?_⟩
    · have herase : s.ring.resp.eraseP (fun x => x.epoch == o.epoch && x.tag == o.tag) = [] := by simp [hresp]
      refine ⟨{ countIn p 20 s with ring := { s.ring with resp := [] } },
        next_congr ((if_neg (by simp [harr, hrole])).trans ?_), rfl⟩
      simp only [countIn, countSrc_frame, herase, List.find?_nil]
    · refine next_congr ((if_neg (by simp [hd, hrole])).trans ?_)
      simp only [hresp, List.map_cons, List.map_nil]
      rfl
  case records =>
    intro p m s harr hrole
    have hring := fun n type seq => acked_ring p p (mkMsg (countIn p n s) 0x22 m.src 0 (le 1 type ++ be 4 seq)) n s
    refine ⟨fun hnew => ?_, fun hnew => ?_⟩
    · have hring1 := hring (msgLength m) 0x20 (u32 m.body 4)
      generalize hs1 : sendEither p _ (countIn p (msgLength m) s) = s1 at hring1
      have hworkers : s1.ring.workers = s.ring.workers := by rw [hring1]
      refine ⟨workerUpd m.src (fun k => { k with evSeq := some (u32 m.body 4) }) s1,
        next_congr ((if_neg (by simp [harr, hrole])).trans ?_), ?_⟩
      · simp only [sendStreamAck, hs1]
        exact if_neg (by simp [hworkers, hnew])
      · rw [workerGet_workerUpd_of_ne (seqTaken_ne (.inl rfl))]
    · have hring1 := hring (msgLength m) 0x21 (u32 m.body 20)
      generalize hs1 : sendEither p _ (countIn p (msgLength m) s) = s1 at hring1
      have hworkers : s1.ring.workers = s.ring.workers := by rw [hring1]
      obtain ⟨hseq, hrseq⟩ := pmDelivered_ring m s1
      refine ⟨pmDelivered m s1, next_congr ((if_neg (by simp [harr, hrole])).trans ?_), hseq, ?_⟩
      · simp only [sendStreamAck, hs1]
        exact if_neg (by simp [hworkers, hnew])
      · rw [hrseq, hring1]
  case streamAck =>
    intro p q s harr hrole
    refine ⟨⟨_, next_congr ((if_neg (by simp [harr, hrole])).trans (if_pos rfl)), ?_⟩,
      ⟨_, next_congr ((if_neg (by simp [harr, hrole])).trans ((if_neg (by decide)).trans (if_pos rfl))), ?_⟩⟩
    · simp [countIn]
    · simp [countIn]
  case resend =>
    intro e s t hworker hev hpm ht
    subst ht
    refine next_congr ((if_neg (by simp [hworker])).trans ?_)
    simp only [hev, hpm, List.foldl_cons, List.foldl_nil]
  case protect =>
    intro m x s hd hx hheld hlost hsrc hmember
    subst hx
    refine ⟨_, next_congr ((if_neg (by simp [hd, hheld, hsrc, hmember])).trans
      (congrArg (pairRule (u8 m.body 0) false) (if_neg (by simp [hlost])))), ?_⟩
    refine (tget_tset_same_of_ne _ _ fun hdef => ?_).trans ?_
    · have hheld' := congrArg PPair.held hdef
      simp [hheld] at hheld'
    · simp only [hlost]
  case protectSend => exact fun k s => rfl
  case protectWtr =>
    intro k t s hwtr hle
    refine next_congr ?_
    simp only [hwtr, advanceTo_of_le hle]
  case partner =>
    intro k t s hheard hheld hlost hle
    refine next_congr ?_
    simp [hheard, hheld, hlost, advanceTo_of_le hle]

end Sys2Proof.Machine
end

section
/-! PROOF. Where the events of performance monitoring complete (R264, R268 to R270, R275). -/

namespace Sys2Proof.Machine

/-! The end of a second (R264 to R267). -/

theorem advanceTod_pm (goal : Nat) (s : State) : (advanceTod goal s).pm = s.pm := by
  simp only [advanceTod, apply_ite State.pm, advanceTo_frame, ite_self]

theorem advanceTod_line (goal : Nat) (s : State) : (advanceTod goal s).line = s.line := by
  simp only [advanceTod, apply_ite State.line, advanceTo_frame, ite_self]

theorem advanceTod_of_le {goal : Nat} {s : State} (h : goal ≤ s.tod) : advanceTod goal s = s := if_neg (Nat.not_lt.2 h)

/-- Performance monitoring without what each entity has on record. -/
def pmRest (s : State) : Pm := { s.pm with ents := [] }

theorem endSecond_rest (lq : Pair (Option LqSecond)) (t : Nat) (s : State) (e : Nat) :
    pmRest (endSecond lq t s e) = pmRest s ∧ (endSecond lq t s e).line = s.line := by
  unfold endSecond
  extract_lets x line s1
  have hs1 : pmRest s1 = pmRest s ∧ s1.line = s.line := by
    by_cases h : (x.acc.whole && pmActive s e) = true
    · simp only [s1, if_pos h]
      exact ⟨rfl, rfl⟩
    · simp only [s1, if_neg h, and_self]
  exact hs1

theorem lineGet_endFecSecond (c : Carrier) (s : State) : (lineGet (endFecSecond c s) c).fec.sec = {} := by
  rw [endFecSecond, lineGet_fecUpd]

theorem lineGet_endFecSecond_other {c d : Carrier} (h : d ≠ c) (s : State) : lineGet (endFecSecond c s) d = lineGet s d :=
  pget_pupd_other _ h _

theorem applyDayOffset_rest (n : Nat) (s : State) : (applyDayOffset n s).pm.curSec = s.pm.curSec ∧
    (applyDayOffset n s).pm.lq = s.pm.lq ∧ (applyDayOffset n s).pm.seq = s.pm.seq ∧ (applyDayOffset n s).line = s.line := by
  unfold applyDayOffset
  split_ifs
  · exact ⟨rfl, rfl, rfl, rfl⟩
  · exact ⟨rfl, rfl, rfl, rfl⟩

/-- The link quality of both carriers over a second (R280). -/
def secondQuality (ax ay bx byy : Nat) (s : State) : Pair LinkQuality :=
  let ok (c : Carrier) : Bool := !(tget {} s.pm.ents (carrierNum c)).acc.spoiled && lockedOn s c && alignedOn s c
  ⟨linkQuality s .a (ok .a) ax ay, linkQuality s .b (ok .b) bx byy⟩

/-- The second of every entity ends (R265). -/
def secondsEnded (t : Nat) (q : Pair LinkQuality) (s : State) : State :=
  (pmTouched s).foldl (endSecond ⟨lqSecond s .a q.a, lqSecond s .b q.b⟩ t) { s with pm := { s.pm with lq := q } }

theorem secondsEnded_rest (t : Nat) (q : Pair LinkQuality) (s : State) :
    (secondsEnded t q s).pm.lq = q ∧ (secondsEnded t q s).pm.seq = s.pm.seq := by
  have hrest := foldl_leaves (f := pmRest) (fun u e => (endSecond_rest ⟨lqSecond s .a q.a, lqSecond s .b q.b⟩ t u e).1)
    (pmTouched s) { s with pm := { s.pm with lq := q } }
  rw [← secondsEnded] at hrest
  simp only [pmRest, Pm.mk.injEq] at hrest
  simp only [hrest, and_self]

/-- The decoders' seconds end and the next second runs (R149, R282). -/
def nextSecond (t : Nat) (s : State) : State :=
  let s2 := endFecSecond .b (endFecSecond .a s)
  applyDayOffset (t + 1) { s2 with pm := { s2.pm with curSec := t + 1 } }

theorem countedSecond_eq (t ax ay bx byy : Nat) (s : State) :
    countedSecond t ax ay bx byy s = nextSecond t (secondsEnded t (secondQuality ax ay bx byy s) s) := rfl

theorem nextSecond_rest (t : Nat) (s : State) : (nextSecond t s).pm.curSec = t + 1 ∧
    (lineGet (nextSecond t s) .a).fec.sec = {} ∧ (lineGet (nextSecond t s) .b).fec.sec = {} ∧
    (nextSecond t s).pm.lq = s.pm.lq ∧ (nextSecond t s).pm.seq = s.pm.seq := by
  obtain ⟨hcur, hlq, hseq, hline⟩ := applyDayOffset_rest (t + 1)
    { endFecSecond .b (endFecSecond .a s) with pm := { s.pm with curSec := t + 1 } }
  have hget : ∀ c, lineGet (nextSecond t s) c = lineGet (endFecSecond .b (endFecSecond .a s)) c := fun c =>
    congrArg (fun l => pget l c) hline
  refine ⟨hcur, ?_, ?_, hlq, hseq⟩
  · rw [hget, lineGet_endFecSecond_other (by decide), lineGet_endFecSecond]
  · rw [hget, lineGet_endFecSecond]

/-- While no boundary is set at which counting resumes, a frozen second only runs out (R278). -/
theorem frozenSecond_of_none {t : Nat} {s : State} (h : s.pm.resumeAt = none) :
    (frozenSecond t s).pm = { s.pm with curSec := t + 1 } := by
  have hwait : (endFecSecond .b (endFecSecond .a s)).pm.resumeAt = none := h
  rw [frozenSecond, hwait]
  rfl

/-! Settling (R268, R269). -/

theorem updBin_find {t : Nat} {l : List PmBin} {b : PmBin} (h : l.find? (fun b => decide (t < b.endAt)) = some b) :
    updBin t (fun _ => b) l = l := by
  induction l with
  | nil => rfl
  | cons x r ih =>
    by_cases hx : t < x.endAt
    · simp only [List.find?_cons, hx, decide_true, Option.some.injEq] at h
      rw [updBin, if_pos hx, h]
    · simp only [List.find?_cons, hx, decide_false] at h
      rw [updBin, if_neg hx, ih h]

section settle
variable {e : Nat} {s : State} (hwf : tblWf {} s.pm.ents = true)
include hwf

theorem entity_pmUpd (f : PmEntity → PmEntity) : tget {} (pmUpd e f s).pm.ents e = f (tget {} s.pm.ents e) := by
  simp only [pmUpd, tupd, tget_tset hwf, if_true]

theorem pmUpd_wf (f : PmEntity → PmEntity) : tblWf {} (pmUpd e f s).pm.ents = true := tset_wf hwf _ _

/-- Without thresholds a settled second is judged without effect on its entity. -/
theorem judgeBin_of_noThr (hthr : s.pm.thr = []) (period t : Nat) :
    tget {} (judgeBin e period t s).pm.ents e = tget {} s.pm.ents e ∧ tblWf {} (judgeBin e period t s).pm.ents = true ∧
      (judgeBin e period t s).pm.thr = [] := by
  unfold judgeBin
  extract_lets x bins
  split
  · exact ⟨rfl, hwf, hthr⟩
  · next b hb =>
    have hput : (if period = 0 then { x with bins15 := updBin t (fun _ => b) x.bins15 }
        else { x with bins24 := updBin t (fun _ => b) x.bins24 } : PmEntity) = x := by
      by_cases hp : period = 0
      · rw [if_pos hp, updBin_find (by simpa [bins, hp] using hb)]
      · rw [if_neg hp, updBin_find (by simpa [bins, hp] using hb)]
    simp only [hthr, tget, bne_self_eq_false, Bool.false_and, List.filter_false, List.foldl_nil]
    exact ⟨(entity_pmUpd hwf _).trans hput, pmUpd_wf hwf _, hthr⟩

/-- The only second that waits settles, and enters both bins of its entity. -/
theorem settleOldest_one {p : PmSecond} (hthr : s.pm.thr = []) (hp : (tget {} s.pm.ents e).pend = [p]) :
    tget {} (settleOldest true e s).pm.ents e = { tget {} s.pm.ents e with
      pend := []
      bins15 := updBin p.sec (addSecond (decide (e < 2)) p) (tget {} s.pm.ents e).bins15
      bins24 := updBin p.sec (addSecond (decide (e < 2)) p) (tget {} s.pm.ents e).bins24 } := by
  have hput := entity_pmUpd (e := e) hwf (fun x => { x with
    pend := [], bins15 := updBin p.sec (addSecond (decide (e < 2)) p) x.bins15,
    bins24 := updBin p.sec (addSecond (decide (e < 2)) p) x.bins24 })
  simp only [settleOldest, hp, if_true]
  generalize hs1 : pmUpd e _ s = s1 at hput ⊢
  have hwf1 : tblWf {} s1.pm.ents = true := by rw [← hs1]; exact pmUpd_wf hwf _
  obtain ⟨h0, hwf2, hthr2⟩ := judgeBin_of_noThr (e := e) hwf1 (by rw [← hs1]; exact hthr) 0 p.sec
  rw [(judgeBin_of_noThr (e := e) hwf2 hthr2 1 p.sec).1, h0, hput]

end settle

/-! The close of a bin (R269, R270, R275). -/

@[simp] theorem drawOf_pm (n : Nat) (l : List Nat) (s : State) : (drawOf n l s).2.pm = s.pm := by
  induction n generalizing l s with
  | zero => rfl
  | succ n ih => exact (ih _ _).trans rfl

@[simp] theorem maskBlocks_pm (n : Nat) (s : State) : (maskBlocks n s).pm = s.pm := by
  unfold maskBlocks
  split_ifs
  · rfl
  · simp [drawNat]

@[simp] theorem countBlocks_pm (n : Nat) (s : State) : (countBlocks n s).pm = s.pm := by
  simp [countBlocks, drawBool]

@[simp] theorem sectorWrite_pm (n : Nat) (l : List Byte) (s : State) : (sectorWrite n l s).pm = s.pm := by
  simp only [sectorWrite, apply_ite State.pm, domeUpd_frame, countSrc_frame, ite_self]

@[simp] theorem historyWrite_pm (e k : Nat) (l : List Byte) (s : State) : (historyWrite e k l s).pm = s.pm := by
  simp only [historyWrite, apply_ite State.pm, sectorWrite_pm, countBlocks_pm, countSrc_frame, ite_self]

theorem postBin_pm {b : PmBin} (h : b.elapsed ≠ 0) (e k n : Nat) (s : State) :
    (postBin e k n b s).pm.seq = (s.pm.seq + 1) % 2 ^ 32 ∧ (postBin e k n b s).pm.ents = s.pm.ents := by
  simp only [postBin, if_neg h, apply_ite State.pm, sendMsg_frame, ite_self, historyWrite_pm, and_self]

/-- The bins of the period that end at a time leave their entity. -/
def drop15 (d : Nat) (x : PmEntity) : PmEntity := { x with bins15 := x.bins15.filter fun b => b.endAt != d }

theorem postEnd_one {e d : Nat} {b : PmBin} {s : State} (he : pmEntities s = [e])
    (hb : (tget {} s.pm.ents e).bins15.find? (fun b => b.endAt == d) = some b) :
    postEnd 0 0 d false s = pmUpd e (drop15 d) (postBin e 0 (binFlags e 0 0 false b) b s) := by
  simp only [postEnd, he, List.foldl_cons, List.foldl_nil, if_true, hb]
  rfl

/-- Where no bin of a period ends, nothing is posted. -/
theorem postEnd_none {d : Nat} {s : State} (h : ∀ e ∈ pmEntities s, (tget {} s.pm.ents e).bins24 = []) :
    postEnd 1 0 d false s = s := by
  unfold postEnd
  generalize pmEntities s = l at h
  induction l with
  | nil => rfl
  | cons e r ih =>
    rw [List.foldl_cons]
    have hone : (tget {} s.pm.ents e).bins24 = [] := h e (List.mem_cons_self ..)
    simp only [Nat.one_ne_zero, if_false, hone, List.find?_nil]
    exact ih fun e' he' => h e' (List.mem_cons_of_mem _ he')

/-- The keys of a table with one entry, once that is updated. -/
theorem tupd_single {e : Nat} {x : PmEntity} (f : PmEntity → PmEntity) :
    tupd {} [(e, x)] e f = if f x = {} then [] else [(e, f x)] := by
  have hget : tget {} [(e, x)] e = x := if_pos rfl
  rw [tupd, hget, tset]
  by_cases h : f x = {}
  · rw [if_pos h, if_pos h, terase, if_pos rfl]
  · rw [if_neg h, if_neg h, tput, if_pos rfl]

theorem entity_single {e : Nat} {x : PmEntity} (f : PmEntity → PmEntity) :
    tget {} (tupd {} [(e, x)] e f) e = f x ∧ ∀ k ∈ (tupd {} [(e, x)] e f).map (·.1), k = e := by
  rw [tupd_single]
  by_cases h : f x = {}
  · simp [h, tget]
  · simp [h, tget]

theorem exec_pmSecondEnd_counted {ax ay bx byy : Nat} {s : State} (hd : domOn s 2 = true) (h : s.pm.frozen = false) :
    exec (.pmSecondEnd ax ay bx byy) s =
      .next (countedSecond s.pm.curSec ax ay bx byy (advanceTod ((s.pm.curSec + 1) * secNs) s)) :=
  next_congr ((if_neg (by simp [hd])).trans (if_neg (by rw [advanceTod_pm, h]; decide)))

theorem exec_pmSecondEnd_frozen {ax ay bx byy : Nat} {s : State} (hd : domOn s 2 = true) (h : s.pm.frozen = true) :
    exec (.pmSecondEnd ax ay bx byy) s = .next (frozenSecond s.pm.curSec (advanceTod ((s.pm.curSec + 1) * secNs) s)) :=
  next_congr ((if_neg (by simp [hd])).trans (if_pos (by rw [advanceTod_pm, h])))

/-- The pending seconds of every entity up to a second settle. -/
def settledBefore (t : Nat) (s : State) : State := (pmEntities s).foldl (settleBefore true (t + 1)) s

theorem exec_pmSecondSettle {s : State} {t : Nat} (h : oldestPending s = some t) (hle : (t + 11) * secNs ≤ s.tod) :
    exec .pmSecondSettle s = .next (settledBefore t s) := by
  have hbranch : execPmSecondSettle s = .next (settledBefore t (advanceTod ((t + 11) * secNs) s)) := by
    rw [execPmSecondSettle, h]
    rfl
  exact hbranch.trans (congrArg (fun u => Host.Outcome.next (settledBefore t u)) (advanceTod_of_le hle))

theorem exec_pmBinClose {s : State} {d : Nat} {r : List Nat}
    (h : (binEnds s).filter (fun d => decide (d ≤ s.pm.curSec)) = d :: r) (hle : (d + 10) * secNs ≤ s.tod) :
    exec .pmBinClose s = .next (postEnd 1 0 d false (postEnd 0 0 d false ((pmEntities s).foldl (settleBefore true d) s))) := by
  refine next_congr ?_
  rw [h]
  simp only
  rw [advanceTod_of_le hle]

/-- Settles O29. -/
theorem pmEventsComplete : Obligations.PmEventsComplete := by
  refine ⟨?counted, ?frozen, ?settle, ?close⟩
  case counted =>
    intro ax ay bx byy s hd hrun
    have hpm := advanceTod_pm ((s.pm.curSec + 1) * secNs) s
    have hline := advanceTod_line ((s.pm.curSec + 1) * secNs) s
    have hexec := exec_pmSecondEnd_counted (ax := ax) (ay := ay) (bx := bx) (byy := byy) hd hrun
    generalize advanceTod ((s.pm.curSec + 1) * secNs) s = s1 at hpm hline hexec
    rw [countedSecond_eq] at hexec
    generalize hq : secondQuality ax ay bx byy s1 = q at hexec
    have hiEff : q.a.iEff = iEff (lineGet s1 .a).fec := by rw [← hq]; rfl
    obtain ⟨hlq, hseq⟩ := secondsEnded_rest s.pm.curSec q s1
    obtain ⟨kcur, ka, kb, klq, kseq⟩ := nextSecond_rest s.pm.curSec (secondsEnded s.pm.curSec q s1)
    refine ⟨_, hexec, kcur, ka, kb, ?_, by rw [kseq, hseq, hpm]⟩
    rw [klq, hlq, hiEff, lineGet, hline, lineGet]
  case frozen =>
    intro ax ay bx byy s hd hfrozen hresume
    have hpm := advanceTod_pm ((s.pm.curSec + 1) * secNs) s
    have hexec := exec_pmSecondEnd_frozen (ax := ax) (ay := ay) (bx := bx) (byy := byy) hd hfrozen
    refine ⟨_, hexec, ?_⟩
    rw [frozenSecond_of_none (by rw [hpm, hresume]), hpm]
  case settle =>
    intro e x p s hents hpend hthr hle
    have hget : tget {} s.pm.ents e = x := by simp [hents, tget]
    have hwf : tblWf {} s.pm.ents = true := by
      have hx : x ≠ {} := fun h => by simp [h] at hpend
      simp [hents, tblWf, tblAbove, hx]
    have hold : oldestPending s = some p.sec := by simp [oldestPending, hents, hpend]
    have hexec : exec .pmSecondSettle s = .next (settleOldest true e s) := by
      rw [exec_pmSecondSettle hold hle]
      simp only [settledBefore, pmEntities, hents, List.map_cons, List.map_nil, List.foldl_cons, List.foldl_nil]
      simp [settleBefore, hget, hpend]
    have hone := settleOldest_one hwf hthr (hget ▸ hpend)
    rw [hget] at hone
    exact ⟨_, hexec, by rw [hone], by rw [hone], by rw [hone]⟩
  case close =>
    intro e x b s hents hpend h15 h24 hend hel hle
    have hget : tget {} s.pm.ents e = x := by simp [hents, tget]
    have hends : binEnds s = [b.endAt] := by simp [binEnds, hents, h15, h24, insNat]
    have hexec : exec .pmBinClose s = .next (postEnd 1 0 b.endAt false (postEnd 0 0 b.endAt false s)) := by
      rw [exec_pmBinClose (d := b.endAt) (r := []) (by simp [hends, hend]) hle]
      simp only [pmEntities, hents, List.map_cons, List.map_nil, List.foldl_cons, List.foldl_nil]
      simp [settleBefore, hget, hpend]
    have hpost := postEnd_one (d := b.endAt) (show pmEntities s = [e] by simp [pmEntities, hents])
      (b := b) (by simp [hget, h15])
    obtain ⟨hseq, hkept⟩ := postBin_pm hel e 0 (binFlags e 0 0 false b) s
    obtain ⟨hone, hkeys⟩ := entity_single (e := e) (x := x) (drop15 b.endAt)
    have hents1 : (postEnd 0 0 b.endAt false s).pm.ents = tupd {} [(e, x)] e (drop15 b.endAt) := by
      rw [hpost, pmUpd, hkept, hents]
    rw [postEnd_none fun k hk => by
      rw [pmEntities, hents1] at hk
      rw [hkeys k hk, hents1, hone]
      exact h24] at hexec
    refine ⟨_, hexec, ?_, ?_⟩
    · rw [hents1, hone]
      simp [drop15, h15]
    · rw [hpost]
      exact hseq

end Sys2Proof.Machine
end

section
/-! PROOF. Where the events of test and diagnostics complete (R526, R528, R531 to R535). -/

namespace Sys2Proof.Machine

/-! Capture (R531 to R534). -/

theorem endCapture_gen (reason : Nat) (s : State) : (endCapture reason s).test.cap.gen = s.test.cap.gen := by
  simp only [endCapture]
  by_cases h : (!captureRuns s) = true
  · rw [if_pos h]
  · rw [if_neg h]
    split
    · simp only [complete_frame]
    · rfl

/-- The end of the run after the last trigger (R531). -/
def runEnd (p : Nat) (s : State) : Nat :=
  let c := s.test.cap
  if c.num = 0 then s.now
  else c.start + ((p + (c.length - c.pre)) * c.den * c.keep * 4096 + c.num - 1) / c.num

theorem exec_capturePostDone {p : Nat} {s : State} (hst : s.test.cap.state = 2) (hp : s.test.cap.trigPos = some p) :
    exec .capturePostDone s = .next (endCapture 0 (advanceTo (runEnd p s) s)) := by
  refine next_congr ?_
  simp only [hst, hp]
  rfl

theorem advanceTo_test (t : Nat) (s : State) : (advanceTo t s).test = s.test := by simp

theorem captureLost_cap (s : State) : (captureLost s).test.cap.state = 0 ∧ (captureLost s).test.cap.extents = [] :=
  ⟨endCapture_state 3 s, rfl⟩

/-! Checkers (R528). -/

/-- A checker that runs still runs after a bit. -/
theorem checkerBit_runs (e : Bool) {k : Checker} (h : k.state ≠ 0) : (checkerBit e k).1.state ≠ 0 := by
  unfold checkerBit
  split
  · next h1 =>
    split_ifs
    · exact h
    · exact two_ne_zero
    · exact h
  · next h2 =>
    extract_lets w k1
    split_ifs
    · exact one_ne_zero
    · exact h
  · exact h

theorem checkerBits_runs (l : List Bool) {k : Checker} (h : k.state ≠ 0) : (checkerBits l k).1.state ≠ 0 := by
  induction l generalizing k with
  | nil => exact h
  | cons e r ih => exact ih (checkerBit_runs e h)

/-- A checker of a lane or of a port reads as it was written, where it runs. -/
theorem checkerGet_checkerUpd {k i : Nat} (hk : k ≤ 1) {c : Checker} (h : c.state ≠ 0) (s : State) :
    checkerGet (checkerUpd k i (fun _ => c) s) k i = c := by
  have hone : k = 0 ∨ k = 1 := by omega
  obtain rfl | rfl := hone
  · have hset := tget_tset_same_of_ne (d := {}) (v := { tget {} s.test.lanes i with chk := c }) s.test.lanes i
      fun hd => by
        have hchk := congrArg (fun x => x.chk.state) hd
        exact h hchk
    exact congrArg (fun x => x.chk) hset
  · exact congrArg (fun x => x.chk) (pget_pupd_same s.test.ports (carrierOf i) fun x => { x with chk := c })

theorem exec_patternLock {k i : Nat} {s : State} (hk : k ≤ 1) (h : (checkerGet s k i).state ≠ 0) (l : List Bool) :
    exec (.patternLock k i l) s = .next (takeChecker k i (checkerBits l (checkerGet s k i)) s) :=
  next_congr (if_neg (by simp [hk, h]))

/-- The only transfer that waits ends (R535, R545). -/
theorem endTransfer_one {j : BusJob} {s : State} (h : s.test.buses = [j]) (st : Nat) (l : List Byte) :
    endTransfer j.bus st l s = complete j.ref stOk (le 1 st ++ if st = 0 then slice l 0 j.read else le j.read 0)
      { s with test := { s.test with buses := [] } } := by
  simp [endTransfer, h]

/-- Settles O35. -/
theorem testEventsComplete : Obligations.TestEventsComplete := by
  refine ⟨?trigger, ?post, ?early, ?bits, ?gains, ?fallback, ?bus⟩
  case trigger =>
    intro c s hst htrig harg
    have htest := takeTrigger_armed hst
    refine ⟨_, next_congr (if_neg (by simp [captureRuns, hst, trigMatches, htrig, harg])), ?_⟩
    rw [htest]
    exact ⟨rfl, rfl, rfl⟩
  case post =>
    intro p s hst hpos
    exact ⟨_, exec_capturePostDone hst hpos, endCapture_state _ _, by rw [endCapture_gen, advanceTo_test]⟩
  case early =>
    intro s hrun
    refine ⟨⟨_, rfl, endCapture_state 2 s⟩, fun hoff => ?_, fun hmode => ?_⟩
    · exact ⟨_, next_congr (if_neg (by simp [hoff])), captureLost_cap s⟩
    · exact ⟨_, next_congr (if_neg (by simp [hmode])), endCapture_state 4 s⟩
  case bits =>
    intro k i l r s hk hst hr
    subst hr
    exact ⟨_, exec_patternLock hk hst l, checkerGet_checkerUpd hk (checkerBits_runs l hst) s⟩
  case gains =>
    intro k i s hk hst hrun
    have hst' : (checkerGet s k i).state ≠ 0 := by rw [hst]; exact one_ne_zero
    have hbits : checkerBits [false] (checkerGet s k i) =
        ({ checkerGet s k i with state := 2, run := 0, win := [] }, [true]) := by
      simp [checkerBits, checkerBit, hst, hrun]
    refine ⟨_, (exec_patternLock hk hst' [false]).trans (by rw [hbits]; rfl), ?_⟩
    rw [checkerGet_checkerUpd hk two_ne_zero]
    exact ⟨rfl, rfl⟩
  case fallback =>
    intro c s hmode htiming htrack hwas
    have hclock : timingClock s c = some c := by simp [timingClock, hmode, htiming]
    have hexec : exec (.timingFallback c) s = .next (postEv 0x0C04 [carrierNum c] (linePatUpd c (fun p => { p with
        fallback := true
        fallbacks := satAdd 32 p.fallbacks 1 }) s)) := by
      refine next_congr ?_
      simp [hmode, hclock, htrack, hwas]
    exact ⟨_, hexec, pget_linePatUpd _ _ _⟩
  case bus =>
    intro j st l s hbuses hst
    have hstuck : endTransfer j.bus 3 [] s =
        complete j.ref stOk (le 1 3 ++ le j.read 0) { s with test := { s.test with buses := [] } } :=
      endTransfer_one hbuses 3 []
    exact ⟨⟨_, next_congr ((if_neg (Nat.not_lt.2 hst)).trans (endTransfer_one hbuses st l)), rfl⟩,
      ⟨_, next_congr hstuck, rfl⟩⟩

end Sys2Proof.Machine
end

section
/-! PROOF. Where the events of the references, of the DPLL and of its model complete (R350 to R364). -/

namespace Sys2Proof.Machine

/-! References (R350 to R356). -/

theorem refUpd_congr {r : Nat} {s : State} {f g : BelRef → BelRef} (h : f (refGet s r) = g (refGet s r)) :
    refUpd r f s = refUpd r g s := by
  have hrefs : lupd s.bel.refs r f = lupd s.bel.refs r g := lupd_congr (d := ({} : BelRef)) h
  simp only [refUpd, belUpd, hrefs]

/-- A reference once a phase has been measured (R353). -/
def phaseTaken (x ppb : Int) (s : State) (v : BelRef) : BelRef :=
  let far := decide (1000 * s.bel.use.fMon < ppb.natAbs)
  { v with offset := ppb, hist := (x :: v.hist).take 100, out := far, outAt := if far = v.out then v.outAt else s.now }

/-- A phase that jumps (R354). -/
def phaseJumps (x : Int) (v : BelRef) : BelRef :=
  { v with hist := [x], jumps := satAdd 16 v.jumps 1, jumped := true }

theorem exec_refPhaseMeasure_follows {r : Nat} {x ppb : Int} {s : State} (hr : r < 10) (hd : domOn s 1 = true)
    (hv : (refGet s r).valid = true) (hh : (refGet s r).hist = []) :
    exec (.refPhaseMeasure r x ppb) s = .next (followRef r x ppb (refUpd r (phaseTaken x ppb s) s)) := by
  refine next_congr ((if_neg (by simp [hr.not_ge, hd, hv])).trans ?_)
  simp only [hh, extrapolate]
  exact if_neg (Nat.not_lt_zero _)

theorem exec_refPhaseMeasure_jumps {r : Nat} {x ppb e : Int} {s : State} (hr : r < 10) (hd : domOn s 1 = true)
    (hv : (refGet s r).valid = true) (hh : (refGet s r).hist = [e]) (hj : (refGet s r).use.jump * 1000 < (x - e).natAbs) :
    exec (.refPhaseMeasure r x ppb) s = .next (evaluateRef 2 (startWtr r (postEv 0x0901 [r, sArg (x - e)]
      (refUpd r (phaseJumps x) (refUpd r (phaseTaken x ppb s) s))))) := by
  refine next_congr ((if_neg (by simp [hr.not_ge, hd, hv])).trans ?_)
  simp only [hh, extrapolate]
  exact if_pos hj

theorem refUpd_length (r : Nat) (f : BelRef → BelRef) (s : State) : (refUpd r f s).bel.refs.length = s.bel.refs.length :=
  lupd_length ..

theorem followRef_selected {r : Nat} {x ppb : Int} {s : State} (hs : s.bel.selected = some r) (hl : s.bel.state = .locked) :
    followRef r x ppb s = belUpd (fun b => { b with
      phaseErr := x
      nco := clampInt (-250000000) 250000000 (ppb * 1000)
      samples := (clampInt (-250000000) 250000000 (ppb * 1000) :: b.samples).take 61000 }) s := by
  simp [followRef, hs, hl]

theorem exec_refFreqCheck {r : Nat} {s : State} (hr : r < 10) (hd : domOn s 1 = true) (hv : (refGet s r).valid = true)
    (hchange : ((refGet s r).freqOk == !(refGet s r).out) = false)
    (hle : (refGet s r).outAt + (if (refGet s r).out then 100 * msNs else secNs) ≤ s.now) :
    exec (.refFreqCheck r) s = .next (evaluateRef 3 (if (refGet s r).out then
      refFail r (refUpd r (fun v => { v with freqOk := !v.out }) s)
      else refRecover r (refUpd r (fun v => { v with freqOk := !v.out }) s))) := by
  refine next_congr ((if_neg (by simp [hr.not_ge, hd, hv, hchange])).trans ?_)
  rw [advanceTo_of_le hle]

theorem exec_refWtrExpiry {r t : Nat} {s : State} (h : (refGet s r).wtrAt = some t) (hle : t ≤ s.now) :
    exec (.refWtrExpiry r) s = .next (evaluateRef 5 (refUpd r (fun v => { v with wtrAt := none, jumped := false }) s)) := by
  refine next_congr ?_
  simp only [h, advanceTo_of_le hle]

theorem exec_holdOffExpiry {t : Nat} {s : State} (h : s.bel.holdOffAt = some t) (hle : t ≤ s.now) :
    exec .holdOffExpiry s = .next (evaluateRef 6 (belUpd (fun b => { b with holdOffAt := none }) s)) := by
  refine next_congr ?_
  simp only [h, advanceTo_of_le hle]

theorem refGet_applyBel (r : Nat) (s : State) : (refGet (applyBel s) r).use = (refGet (applyBel s) r).set := by
  simp only [refGet, applyBel, belUpd, List.getD_eq_getElem?_getD, List.getElem?_map]
  cases s.bel.refs[r]? with
  | none => rfl
  | some v => rfl

/-! The DPLL (R360). -/

/-- Belfry without the ESMC of the groups. -/
def belCore (s : State) : Belfry := { s.bel with esmc := [] }

theorem noteQlOut_core (s : State) : belCore (noteQlOut s) = belCore s := by
  unfold noteQlOut
  split_ifs
  · rfl
  · refine foldl_leaves (f := belCore) (fun t g => ?_) _ _
    simp only [apply_ite belCore]
    exact ite_self _

theorem setDpll_locked {s : State} (h : s.bel.state = .acquiring) : (setDpll .locked 0 s).bel =
    { s.bel with state := .locked, cause := 0, holdCorr := 0, lockedSince := some s.now } := by
  simp [setDpll, h, belUpd, postEv]

theorem exec_dpllLock {s : State} (hd : domOn s 1 = true) (hst : s.bel.state = .acquiring)
    (hle : s.bel.selAt + 2 * secNs ≤ s.now) : exec .dpllLock s = .next (noteQlOut (setDpll .locked 0 s)) := by
  refine next_congr ((if_neg (by simp [hd, hst])).trans ?_)
  rw [advanceTo_of_le hle]

/-- What follows a failure to lock (R360). -/
def lockFailed (r : Nat) (s : State) : State :=
  evaluateRef 7 (startWtr r (refUpd r (fun v => { v with lockFail := satAdd 16 v.lockFail 1 }) s))

theorem exec_lockFail {r : Nat} {s : State} (hd : domOn s 1 = true) (hst : s.bel.state = .acquiring)
    (hsel : s.bel.selected = some r) (hle : s.bel.selAt + 60 * secNs ≤ s.now) : exec .lockFail s =
      .next (if (lockFailed r s).bel.selected = some r then
        belUpd (fun b => { b with selAt := (lockFailed r s).now }) (lockFailed r s) else lockFailed r s) := by
  refine next_congr ?_
  simp only [hsel]
  refine (if_neg (by simp [hd, hst])).trans ?_
  rw [advanceTo_of_le hle]
  rfl

theorem exec_holdoverReady {t : Nat} {s : State} (hd : domOn s 1 = true) (hready : s.bel.ready = false)
    (hsince : s.bel.lockedSince = some t) (hle : t + (10 * secNs - s.bel.lockedSum) ≤ s.now) :
    exec .holdoverReady s = .next (belUpd (fun b => { b with ready := true }) s) := by
  refine next_congr ((if_neg (by simp [hd, hready])).trans ?_)
  rw [hsince]
  simp only
  rw [advanceTo_of_le hle]

/-! The model (R362 to R364). -/

/-- Belfry once the temperature and the frequency of a second are known (R363). -/
def secondMeasured (f x : Int) (s : State) : State :=
  belUpd (fun b => { b with temp := x, nco := if b.state = .locked then f else b.nco }) s

theorem learns_secondMeasured (f x : Int) (s : State) : learns (secondMeasured f x s) = learns s := rfl

theorem locked_of_learns {s : State} (h : learns s = true) : s.bel.state = .locked := by
  simp only [learns, Bool.and_eq_true, beq_iff_eq] at h
  obtain ⟨⟨⟨⟨⟨-, hlocked⟩, -⟩, -⟩, -⟩, -⟩ := h
  exact hlocked

theorem exec_modelJournal {t : Nat} {s : State} (hd : domOn s 1 = true) (hlearn : s.bel.use.learn = true)
    (hat : s.bel.modelAt = some t) (hle : t ≤ s.now) : exec .modelJournal s =
      .next (journalModel (belUpd (fun b => { b with modelAt := some (s.now + 3600 * secNs) }) s)) := by
  refine next_congr ?_
  simp only [hat]
  refine (if_neg (by simp [hd, hlearn])).trans ?_
  rw [advanceTo_of_le hle]

section temperature
variable {x : Int} {s : State} (hd : domOn s 1 = true)
include hd

theorem exec_holdoverCorrection (hst : s.bel.state = .holdover) : exec (.holdoverCorrectionUpdate x) s =
    .next (belUpd (fun b => { b with holdCorr := predicted b s.now, nco := b.holdFreq - predicted b s.now })
      (belUpd (fun b => { b with temp := x }) s)) := by
  have hst1 : (belUpd (fun b => { b with temp := x }) s).bel.state = .holdover := hst
  refine next_congr ((if_neg (by simp [hd])).trans ?_)
  simp only [hst1]
  rfl

theorem exec_freeRunCorrection (hst : s.bel.state = .freeRun) : exec (.holdoverCorrectionUpdate x) s =
    .next (belUpd (fun b => { b with nco := freeRunNco b }) (belUpd (fun b => { b with temp := x }) s)) := by
  have hst1 : (belUpd (fun b => { b with temp := x }) s).bel.state = .freeRun := hst
  refine next_congr ((if_neg (by simp [hd])).trans ?_)
  simp only [hst1]

theorem exec_learningSample (f x : Int) : exec (.learningSample f x) s = .next (if learns s then
    belUpd (fun b => { takeSample x b with
      fit := fitAdd (fitRow (s.now / secNs) f x) b.fit, modelAt := some (b.modelAt.getD (s.now + 3600 * secNs)) })
      (secondMeasured f x s)
    else secondMeasured f x s) := by
  refine next_congr ((if_neg (by simp [hd])).trans ?_)
  by_cases h : learns s = true
  · rw [if_pos h]
    refine if_neg ?_
    rw [← secondMeasured, learns_secondMeasured, h]
    decide
  · rw [if_neg h]
    refine if_pos ?_
    rw [← secondMeasured, learns_secondMeasured]
    simpa using h

end temperature

/-- Settles O37. -/
theorem referenceEventsComplete : Obligations.ReferenceEventsComplete := by
  refine ⟨?phase, ?freq, ?signal, ?wtr, ?holdOff, ?select, ?lock, ?lockFail, ?ready, ?correct, ?sample, ?update, ?journal⟩
  case phase =>
    intro r x ppb s hr hlen hd hv
    have hin : r < s.bel.refs.length := hlen ▸ hr
    refine ⟨fun hh hsel hlocked => ?_, fun e hh hj => ?_⟩
    · refine ⟨_, exec_refPhaseMeasure_follows hr hd hv hh, ?_⟩
      rw [followRef_selected (s := refUpd r (phaseTaken x ppb s) s) hsel hlocked]
      refine ⟨rfl, rfl, (refGet_refUpd hin (phaseTaken x ppb s)).trans ?_⟩
      simp [phaseTaken, hh]
    · refine ⟨_, exec_refPhaseMeasure_jumps hr hd hv hh hj, ?_⟩
      rw [refGet_refUpd (by rw [refUpd_length]; exact hin), refGet_refUpd hin]
      rfl
  case freq =>
    intro r s hr hd hv
    refine ⟨fun hok hout hle => ?_, fun hok hout hle => ?_⟩
    · rw [exec_refFreqCheck hr hd hv (by simp [hok, hout]) (by rw [hout]; exact hle), if_neg (by simp [hout]),
        refUpd_congr (g := fun v => { v with freqOk := true }) (by simp only [hout]; rfl)]
    · rw [exec_refFreqCheck hr hd hv (by simp [hok, hout]) (by rw [hout]; exact hle), if_pos hout,
        refUpd_congr (g := fun v => { v with freqOk := false }) (by simp only [hout]; rfl)]
  case signal =>
    intro r v s
    exact ⟨fun h6 h9 => next_congr (congrArg (evaluateRef 4) (if_pos (by simp [h6, h9]))),
      fun h6 => next_congr (congrArg (evaluateRef 4) (if_neg (by simp [h6.not_ge])))⟩
  case wtr => exact fun r t s h hle => exec_refWtrExpiry h hle
  case holdOff => exact fun t s h hle => exec_holdOffExpiry h hle
  case select => exact fun s hd => ⟨applyBel s, next_congr (if_pos hd), rfl, fun r => refGet_applyBel r s⟩
  case lock =>
    intro s hd hst hle
    have hcore := noteQlOut_core (setDpll .locked 0 s)
    rw [belCore, belCore, setDpll_locked hst] at hcore
    simp only [Belfry.mk.injEq] at hcore
    refine ⟨_, exec_dpllLock hd hst hle, ?_⟩
    simp only [hcore, and_self]
  case lockFail =>
    intro r s t hd hst hsel hle ht
    subst ht
    exact ⟨fun hne => (exec_lockFail hd hst hsel hle).trans (congrArg Host.Outcome.next (if_neg hne)),
      fun heq => (exec_lockFail hd hst hsel hle).trans (congrArg Host.Outcome.next (if_pos heq))⟩
  case ready => exact fun t s hd hready hsince hle => ⟨_, exec_holdoverReady hd hready hsince hle, rfl⟩
  case correct =>
    intro x s hd
    exact ⟨fun hst => ⟨_, exec_holdoverCorrection hd hst, rfl, rfl⟩, fun hst => ⟨_, exec_freeRunCorrection hd hst, rfl, rfl⟩⟩
  case sample =>
    intro f x s hd
    refine ⟨fun hlearns => ?_, fun hidle => ?_⟩
    · have hlocked := locked_of_learns hlearns
      have hnco : (secondMeasured f x s).bel.nco = f := if_pos hlocked
      refine ⟨_, exec_learningSample hd f x, ?_⟩
      rw [if_pos hlearns]
      exact ⟨hnco, rfl, rfl⟩
    · refine ⟨_, exec_learningSample hd f x, ?_⟩
      rw [if_neg (by simp [hidle])]
      exact ⟨rfl, rfl⟩
  case update =>
    intro m s hd hlearn hsamples hfit
    have hexec : exec .modelUpdate s = .next (belUpd (takeFit m) s) := by
      refine next_congr ((if_neg (by simp [hd, hlearn, hsamples])).trans ?_)
      simp only [fitNow, hfit]
    exact ⟨_, hexec, rfl, rfl, by simp [belUpd, takeFit], by simp [belUpd, takeFit], by simp [belUpd, takeFit]⟩
  case journal => exact fun t s hd hlearn hat hle => ⟨_, exec_modelJournal hd hlearn hat hle, rfl⟩

end Sys2Proof.Machine
end

section
/-! PROOF. Where the events of the time of day and of ESMC complete (R352, R365 to R369, R375). -/

namespace Sys2Proof.Machine

/-! A slew (R365). -/

@[simp] theorem addTod_bel (d : Int) (s : State) : (addTod d s).bel = s.bel := rfl

/-- A slew that has the time for what remains of it is done. -/
theorem slewTime_done {n : Nat} {s : State} (h : s.bel.slew ≠ 0) (hn : s.bel.slew.natAbs ≤ n * s.bel.use.slew) :
    (slewTime n s).bel.slew = 0 := by
  rw [slewTime, if_neg h, Nat.min_eq_left hn]
  simp only [addTod_bel]
  split_ifs with hneg
  · omega
  · omega

theorem advanceTo_bel {t : Nat} {s : State} (h : s.now < t) : (advanceTo t s).bel =
    (slewTime (t - s.now) { s with now := t, tod := (s.tod + (t - s.now)) % (2 ^ 48 * secNs) }).bel := by
  rw [advanceTo, if_neg (Nat.not_le.2 h)]
  simp only [countSrc_frame, apply_ite State.bel, ite_self]

theorem slewTime_now (n : Nat) (s : State) : (slewTime n s).now = s.now := by
  by_cases h : s.bel.slew = 0
  · rw [slewTime, if_pos h]
  · rw [slewTime, if_neg h]
    rfl

theorem advanceTo_now {t : Nat} {s : State} (h : s.now < t) : (advanceTo t s).now = t := by
  rw [advanceTo, if_neg (Nat.not_le.2 h)]
  simp only [countSrc_frame, apply_ite State.now, slewTime_now, ite_self]

/-- The time that a remainder takes at a rate. -/
theorem slew_time {a r : Nat} (ha : a ≠ 0) (hr : 0 < r) : 0 < (a + r - 1) / r ∧ a ≤ (a + r - 1) / r * r := by
  have hle : r ≤ a + r - 1 := by omega
  refine ⟨Nat.div_pos hle hr, ?_⟩
  have hdiv := Nat.div_add_mod (a + r - 1) r
  have hmod := Nat.mod_lt (a + r - 1) hr
  rw [Nat.mul_comm] at hdiv
  omega

/-! A second boundary (R366, R370, R375). -/

theorem exec_todSecond {s : State} (hd : domOn s 1 = true) (hat : s.tod % secNs = 0) (hnew : s.tod / secNs ≠ s.bel.lastSec) :
    exec .todSecond s = .next (atSecond s) := by
  refine next_congr ((if_neg (by simp [hd])).trans (congrArg atSecond (if_pos ?_)))
  simp only [hat, decide_true, Bool.true_and, bne_iff_ne]
  exact hnew

/-- The settings that a second boundary applies. -/
def secondSet (s : State) : State :=
  belUpd (fun b => { b with
    todUse := b.todSet, ppsRise := if b.todSet.out then some s.now else none, lastSec := s.tod / secNs,
    ppsLast := if b.todSet.source = 1 && b.todUse.source != 1 then some s.now else b.ppsLast,
    cands := if b.todSet.source = b.todUse.source then b.cands else [] }) s

theorem atSecond_of_none {s : State} (h : s.bel.setTime = none) : atSecond s = secondSet s := by
  have h1 : (secondSet s).bel.setTime = none := h
  rw [secondSet] at h1 ⊢
  rw [atSecond]
  simp only [h1]

theorem atSecond_of_some {s : State} {j : TimeJob} (h : s.bel.setTime = some j) (hm : j.mode = 0 ∨ j.mode = 2) :
    ∃ d, atSecond s = finishSetTime j d (secondSet s) := by
  have h1 : (secondSet s).bel.setTime = some j := h
  have hstep : atSecond s = if j.mode = 0 then
      finishSetTime j (((j.secs : Int) - (s.tod / secNs : Nat)) * (secNs * 10 ^ 8 : Nat)) (secondSet s)
      else if j.mode = 2 then finishSetTime j (signed 48 j.secs * (secNs * 10 ^ 8 : Nat)) (secondSet s)
      else secondSet s := by
    rw [secondSet] at h1 ⊢
    rw [atSecond]
    simp only [h1]
  obtain hm | hm := hm
  · exact ⟨_, hstep.trans (if_pos hm)⟩
  · exact ⟨_, hstep.trans ((if_neg (by rw [hm]; decide)).trans (if_pos hm))⟩

/-! An edge of 1PPS_IN (R367). -/

/-- What Belfry keeps of an edge for its alignment. -/
def ppsCore (s : State) : Belfry := { s.bel with ppsPulse := none, ppsGood := 0, ppsLoss := false }

theorem countPulse_core (s : State) : ppsCore (countPulse s) = ppsCore s ∧ (countPulse s).power = s.power := by
  unfold countPulse
  extract_lets near n s1
  by_cases h : (s.bel.ppsLoss && decide (3 ≤ n)) = true
  · rw [if_pos h]
    simp only [ppsCore, post_frame]
    exact ⟨rfl, rfl⟩
  · rw [if_neg h]
    exact ⟨rfl, rfl⟩

/-- An edge within half a second of its second is off by what is measured. -/
theorem edgeOffset {x : Int} (h : x.natAbs ≤ 1000000) :
    (x + 0 + 500000000000) % (2 * 500000000000) - 500000000000 = x := by
  omega

/-- An edge as it is noted, within 10 us of its second. -/
def edgeNoted (x : Int) (s : State) : State := countPulse (belUpd (fun b => { b with ppsOffset := x, ppsLast := some s.now }) s)

theorem edgeNoted_spec (x : Int) (s : State) : (edgeNoted x s).bel.ppsOffset = x ∧ (edgeNoted x s).bel.ppsLast = some s.now ∧
    (edgeNoted x s).bel.setTime = s.bel.setTime ∧ (edgeNoted x s).bel.todUse = s.bel.todUse ∧
    (edgeNoted x s).power = s.power := by
  obtain ⟨hcore, hpower⟩ := countPulse_core (belUpd (fun b => { b with ppsOffset := x, ppsLast := some s.now }) s)
  rw [← edgeNoted] at hcore hpower
  simp only [ppsCore, Belfry.mk.injEq] at hcore
  refine ⟨?_, ?_, ?_, ?_, hpower⟩
  · simp only [hcore]
    rfl
  · simp only [hcore]
    rfl
  · simp only [hcore]
    rfl
  · simp only [hcore]
    rfl

theorem exec_ppsInEdge {x : Int} {s : State} (hd : domOn s 1 = true) (hsrc : s.bel.todUse.source = 1)
    (hcomp : s.bel.todUse.inComp = 0) (hset : s.bel.setTime = none) (hx : x.natAbs ≤ 1000000) :
    exec (.ppsInEdge x) s = .next (alignPps x (edgeNoted x s)) := by
  obtain ⟨-, -, kset, kuse, kpower⟩ := edgeNoted_spec x s
  have hdom : domOn (edgeNoted x s) 1 = true := by
    rw [domOn, domGet, kpower]
    exact hd
  have haligned : ppsAligned (edgeNoted x s) = true := by simp [ppsAligned, hdom, kuse, hsrc]
  have hnear : x.natAbs ≤ 10000000 := hx.trans (by decide)
  have hnoted : countPulse (belUpd (fun b => { b with
      ppsOffset := x, ppsLast := if x.natAbs ≤ 10000000 then some s.now else b.ppsLast }) s) = edgeNoted x s := by
    rw [edgeNoted]
    simp only [if_pos hnear]
  refine next_congr ((if_neg (by simp [hd])).trans ?_)
  simp only [hcomp, edgeOffset hx, hnoted, kset, hset, haligned]
  rfl

theorem alignPps_near {x : Int} (s : State) (hx : x.natAbs ≤ 1000000) : (alignPps x s).bel =
    { s.bel with outliers := satAdd 32 s.bel.outliers s.bel.cands.length, cands := [], coarse := false } := by
  rw [alignPps, if_pos hx]
  rfl

/-- Settles O38. -/
theorem timeEventsComplete : Obligations.TimeEventsComplete := by
  refine ⟨?slew, ?second, ?setTime, ?edgeTimeout, ?edge, ?loss, ?ringLoss, ?esmc, ?pdu⟩
  case slew =>
    intro s hd hslew hrate
    obtain ⟨hpos, hreach⟩ := slew_time (Int.natAbs_ne_zero.2 hslew) hrate
    refine ⟨_, next_congr (if_neg (by simp [hd, hslew])), ?_, advanceTo_now (Nat.lt_add_of_pos_right hpos)⟩
    rw [advanceTo_bel (Nat.lt_add_of_pos_right hpos), Nat.add_sub_cancel_left]
    exact slewTime_done hslew hreach
  case second =>
    intro s hd hat hnew hset
    refine ⟨_, (exec_todSecond hd hat hnew).trans (congrArg Host.Outcome.next (atSecond_of_none hset)), ?_⟩
    exact ⟨rfl, rfl, rfl, rfl⟩
  case setTime =>
    intro j s hd hat hnew hset hmode
    obtain ⟨d, hfinish⟩ := atSecond_of_some hset hmode
    refine ⟨_, (exec_todSecond hd hat hnew).trans (congrArg Host.Outcome.next hfinish), ?_⟩
    exact ⟨rfl, rfl, rfl⟩
  case edgeTimeout =>
    intro j s hset hmode hle
    refine next_congr ?_
    simp only [hset]
    exact (if_neg (by simp [hmode])).trans (by rw [advanceTo_of_le hle])
  case edge =>
    intro x s hd hsrc hcomp hset hx
    obtain ⟨koff, klast, -⟩ := edgeNoted_spec x s
    refine ⟨_, exec_ppsInEdge hd hsrc hcomp hset hx, ?_⟩
    rw [alignPps_near _ hx]
    exact ⟨koff, klast, rfl, rfl⟩
  case loss =>
    intro t s hd hsrc hloss hlast hle
    have hat : s.bel.ppsLast.getD 0 + 3 * secNs ≤ s.now := by rw [hlast]; exact hle
    exact next_congr ((if_neg (by simp [ppsAligned, hd, hsrc, hloss])).trans (by rw [advanceTo_of_le hat]))
  case ringLoss =>
    intro t s hd hsrc hrole hheard hle
    have hat : s.ring.heardTiming.getD 0 + 10 * secNs ≤ s.now := by rw [hheard]; exact hle
    exact next_congr ((if_neg (by simp [hd, hsrc, hrole])).trans (by rw [advanceTo_of_le hat]))
  case esmc =>
    intro g t s hat hle
    refine next_congr ?_
    simp only [hat, advanceTo_of_le hle]
  case pdu =>
    intro g s hg hnum hd
    have hput := tget_tset_same_of_ne (d := ({} : EsmcOut))
      (v := { last := some (groupQl s g), sent := (tget {} s.bel.esmc g).sent + 1 }) s.bel.esmc g (by simp)
    refine ⟨_, next_congr (if_neg (by simp [hg.not_ge, hnum, hd])), ?_⟩
    exact ⟨congrArg EsmcOut.last hput, congrArg EsmcOut.sent hput⟩

end Sys2Proof.Machine
end

section
/-! PROOF. Where the events of stored-data protection complete (R308, R322, R329, R331, R332, R334, R338, R340, R342). -/

namespace Sys2Proof.Machine

/-! Sectors (R308, R329). -/

/-- What the masking of cipher blocks changes is the order of blocks and the number of draws. -/
theorem drawOf_frame (n : Nat) (l : List Nat) (s : State) : (drawOf n l s).2 = { s with free := (drawOf n l s).2.free } := by
  induction n generalizing l s with
  | zero => rfl
  | succ n ih => exact (ih _ _).trans rfl

theorem maskBlocks_reads (n : Nat) (s : State) : (maskBlocks n s).mem = s.mem ∧ (maskBlocks n s).test = s.test ∧
    (maskBlocks n s).power = s.power ∧ (maskBlocks n s).turret.keep = s.turret.keep := by
  unfold maskBlocks
  split_ifs
  · exact ⟨rfl, rfl, rfl, rfl⟩
  · simp only
    rw [drawOf_frame 16, drawOf_frame]
    exact ⟨rfl, rfl, rfl, rfl⟩

theorem countBlocks_reads (n : Nat) (s : State) : (countBlocks n s).mem = s.mem ∧ (countBlocks n s).test = s.test ∧
    (countBlocks n s).power = s.power ∧ (countBlocks n s).turret.keep = s.turret.keep := by
  obtain ⟨hmem, htest, hpower, hkeys⟩ := maskBlocks_reads n (drawBool 289 s).2
  simp only [countBlocks, countSrc_frame]
  exact ⟨hmem, htest, hpower, hkeys⟩

section reads
variable {s t : State} (hmem : t.mem = s.mem) (htest : t.test = s.test) (hkeys : t.turret.keep = s.turret.keep)
include hmem htest hkeys

theorem sectorPlain_congr (k : Nat) : sectorPlain t k = sectorPlain s k := by
  have hplain (n : Nat) : unlistedPlain t n = unlistedPlain s n := by simp only [unlistedPlain, captureOf, htest]
  have hread (k a : Nat) : lineRead t k a = lineRead s k a := by
    simp only [lineRead, unlistedSector, hplain, domeKey, keySlot, domeGet, hmem, hkeys]
  have hkey : domeKey t = domeKey s := by simp only [domeKey, keySlot, hkeys]
  rw [sectorPlain, sectorPlain, domeGet_of_mem hmem, hplain, hkey]
  simp only [hread]

end reads

/-- A whole-sector read as it counts (R291, R430). -/
def sectorTaken (k : Nat) (s : State) : State := countBlocks 257 (countSrc 0x0A (61 + k % 2) 4096 s)

theorem sectorRead_taken {k : Nat} {s : State} (hu : sectorUsable s k = true) : sectorRead (sectorTaken k s) k =
    if sectorPoisoned s k then (zeroBytes, true) else (sectorPlain s k, false) := by
  obtain ⟨hmem, htest, hpower, hkeys⟩ := countBlocks_reads 257 (countSrc 0x0A (61 + k % 2) 4096 s)
  rw [← sectorTaken] at hmem htest hpower hkeys
  simp only [countSrc_frame] at hmem htest hpower hkeys
  have husable : sectorUsable (sectorTaken k s) k = true := by
    rw [← hu]
    simp only [sectorUsable, domOn, domGet, domeGet, hmem, hpower]
  have hpoisoned : sectorPoisoned (sectorTaken k s) k = sectorPoisoned s k := by simp only [sectorPoisoned, domeGet, hmem]
  rw [sectorRead, husable, hpoisoned, sectorPlain_congr hmem htest hkeys]
  rfl

theorem sectorTaken_mem (k : Nat) (s : State) : (sectorTaken k s).mem = s.mem := by
  obtain ⟨hmem, -⟩ := countBlocks_reads 257 (countSrc 0x0A (61 + k % 2) 4096 s)
  rw [← sectorTaken] at hmem
  simpa using hmem

/-- A whole-sector read as its consumer takes it. -/
def sectorGiven (k : Nat) (b : List Byte) (lost : Bool) (s : State) : State :=
  { sectorTaken k s with mem := { (sectorTaken k s).mem with given := some ⟨k, b, lost⟩ } }

theorem sectorGiven_mem (k : Nat) (b : List Byte) (lost : Bool) (s : State) :
    (sectorGiven k b lost s).mem = { s.mem with given := some ⟨k, b, lost⟩ } := by
  rw [sectorGiven, sectorTaken_mem]

theorem exec_domeCipherRequest_read {k : Nat} {d : List Byte} {s : State} (hk : k < 2097152) (hu : sectorUsable s k = true)
    {r : List Byte × Bool} (hr : sectorRead (sectorTaken k s) k = r) : exec (.domeCipherRequest k false d) s =
      .next (if r.2 then frameSectorLost k (sectorGiven k r.1 r.2 s) else sectorGiven k r.1 r.2 s) := by
  subst hr
  exact next_congr (if_neg (by simp [hk.not_ge, hu]))

/-! Lines and stacks (R322, R331, R332, R334). -/

theorem readLine_clean {k a : Nat} {s : State} (h : (domeEntry s k a).isNone) :
    readLine k a [] s = (false, false, countSrc 0x0A (61 + k) 64 s) := by
  have hnone : (domeEntry (countSrc 0x0A (61 + k) 64 s) k a).isSome = false := by
    have hsame : domeEntry (countSrc 0x0A (61 + k) 64 s) k a = domeEntry s k a := by simp [domeEntry, domeGet]
    rw [hsame]
    simpa using h
  have hflips (n : Nat) : rsDecode (codewordFlips n []) = .clean := show rsDecode [] = .clean by decide
  unfold readLine
  simp [hnone, hflips]

theorem scrubBack_clean (k a : Nat) (s : State) : scrubBack k a [] s = s := by
  have hflips (n : Nat) : miscorrected (codewordFlips n []) (rsDecode (codewordFlips n [])) = false :=
    show miscorrected [] (rsDecode []) = false by decide
  unfold scrubBack
  simp [hflips]

/-- The accesses of a verifying pass as they count (R430). -/
def stackMoved (k : Nat) (s : State) : State := countSrc 0x0A (61 + k) (2 ^ 32) (countSrc 0x09 (61 + k) (2 ^ 32) s)

/-- A stack after a verifying pass without failures (R332). -/
def stackVerified (k : Nat) (s : State) : State :=
  domeUpd k (fun d => { d with ready := true, refreshAt := (stackMoved k s).now + 3900 }) (stackMoved k s)

theorem exec_domeStackReady_nil {k : Nat} {s : State} (hk : k < 2) (hinit : (domGet s (stackDom k)).state = .init)
    (hkey : (domeKey s).state = 1) : exec (.domeStackReady k []) s = .next (domainUp (stackDom k) (stackVerified k s)) :=
  next_congr (if_neg (by simp [hk.not_ge, hinit, hkey]))

theorem stackMoved_mem (k : Nat) (s : State) : (stackMoved k s).mem = s.mem := by simp [stackMoved]

theorem stackMoved_now (k : Nat) (s : State) : (stackMoved k s).now = s.now := by simp [stackMoved]

theorem domeGet_stackVerified (k : Nat) (s : State) : domeGet (stackVerified k s) k =
    { domeGet s k with ready := true, refreshAt := s.now + 3900 } := by
  rw [stackVerified, domeGet_domeUpd, stackMoved_now, domeGet_of_mem (stackMoved_mem k s)]

/-! Scrubbers (R342). -/

theorem targetScrub_scrubUpd {k : Nat} {s : State} (hk : targetOk k) (hwf : s.mem.regions.length = 14) (f : Scrub → Scrub) :
    targetScrub (scrubUpd k f s) k = f (targetScrub s k) := by
  simp only [targetOk, Bool.or_eq_true, Bool.and_eq_true, decide_eq_true_eq] at hk
  unfold targetScrub scrubUpd
  by_cases hlow : k ≤ 1
  · simp [hlow, domeCount]
  · simp only [hlow, if_false]
    rw [regionGet_regionUpd (by omega)]

theorem targetScrub_of_mem {s u : State} (h : u.mem = s.mem) (k : Nat) : targetScrub u k = targetScrub s k := by
  simp only [targetScrub, domeGet_of_mem h, regionGet_of_mem h]

theorem targetOk_of_scrubbed {k : Nat} {s : State} (h : scrubbed s k) : targetOk k := by
  simp only [scrubbed, Bool.and_eq_true] at h
  exact h.1.1

/-- A scrub pass as it starts (R342). -/
def passStarted (k : Nat) (s : State) : State :=
  scrubUpd k (fun x => { x with passAt := some s.now, period := scrubPeriod s k, pos := 0, finished := false }) s

theorem exec_scrubPassStart_first {k : Nat} {s : State} (hs : scrubbed s k) (hpass : (targetScrub s k).passAt = none) :
    exec (.scrubPassStart k) s = .next (passStarted k s) := by
  refine next_congr ((if_neg (by simp [hs])).trans ?_)
  simp only [hpass]
  rfl

theorem exec_scrubVisit_clean {k a : Nat} {s : State} (hk : k ≤ 1) (hs : scrubbed s k) (ha : a + 1 < 2 ^ 26)
    (hentry : (domeEntry s k a).isNone) (hlog : ((domeGet s k).log.any fun e => e.addr == a) = false) :
    exec (.scrubVisit k a []) s = .next (scrubStep k a (countSrc 0x0A (61 + k) 64 s)) := by
  have hwords : targetWords k = 2 ^ 26 := if_pos hk
  have hvisit : visitLine k a false (countSrc 0x0A (61 + k) 64 s) = countSrc 0x0A (61 + k) 64 s := by
    have hfind : (domeGet s k).log.find? (fun e => e.addr == a) = none := by
      rw [List.find?_eq_none]
      simpa [List.any_eq_false] using hlog
    rw [visitLine, domeGet_of_mem (u := countSrc 0x0A (61 + k) 64 s) (s := s) (by simp), hfind]
  refine next_congr ((if_neg ?_).trans ((if_pos hk).trans ?_))
  · simp only [hs, hwords, Bool.not_true, Bool.false_or, decide_eq_true_eq]
    omega
  · rw [scrubBack_clean, readLine_clean hentry]
    simp [hvisit]

theorem domeGet_scrubStep {k a : Nat} {s : State} (hk : k ≤ 1) (ha : a + 1 < 2 ^ 26) (hfin : (targetScrub s k).finished = false) :
    domeGet (scrubStep k a s) k = { domeGet s k with scrub := { (domeGet s k).scrub with pos := a + 1 } } := by
  have hwords : a + 1 < targetWords k := ha.trans_eq (if_pos hk).symm
  have hstep : scrubStep k a s = scrubUpd k (fun x => { x with pos := a + 1 }) s :=
    (if_neg (by simp [hfin])).trans (if_pos hwords)
  rw [hstep, scrubUpd, if_pos hk, domeCount, domeGet_domeUpd]

theorem exec_scrubLate_of_late {k t : Nat} {s : State} (hk : targetOk k) (hpass : (targetScrub s k).passAt = some t)
    (hfin : (targetScrub s k).finished = false) (hlate : (targetScrub s k).late = false)
    (hle : t + (targetScrub s k).period * 11 / 10 ≤ s.now) :
    exec (.scrubLate k) s = .next (post 0x0804 true [k] (scrubUpd k (fun x => { x with late := true }) s)) := by
  refine next_congr ?_
  simp only [hpass]
  rw [if_neg (by simp [hk, hfin, hlate]), advanceTo_of_le hle]

/-! Words on die and rows (R338, R340). -/

theorem exec_rowRepairDone_nil {r : RowRepair} {s : State} (hr : s.mem.repair = some r)
    (hremap : (domeGet s r.stack).remap = List.replicate 16 {}) : exec (.rowRepairDone []) s =
      .next (complete r.ref stOk (le 1 1 ++ le 1 0 ++ le 2 0) { s with mem := { s.mem with
        repair := none
        spareUsed := tupd 0 s.mem.spareUsed (bankKey r.stack r.pc r.bank) (· + 1) } }) := by
  have hfree : ((List.range 16).filter fun i => ((domeGet s r.stack).remap.getD i {}).valid &&
      !((domeGet s r.stack).remap.getD i {}).poison && ((domeGet s r.stack).remap.getD i {}).addr / 16 == rowLine r 0 / 16) = [] := by
    have hget {i : Nat} (hi : i < 16) : (List.replicate 16 ({} : RemapEntry)).getD i {} = {} := List.getD_replicate _ hi
    rw [List.filter_eq_nil_iff, hremap]
    intro i hi
    rw [hget (List.mem_range.mp hi)]
    simp
  refine next_congr ?_
  simp only [hr, hfree]
  rfl

/-- Settles O33. -/
theorem memoryEventsComplete : Obligations.MemoryEventsComplete := by
  refine ⟨?sector, ?line, ?stackReady, ?refresh, ?passStart, ?visit, ?late, ?sram, ?repair⟩
  case sector =>
    intro k d s hk hu
    refine ⟨⟨countBlocks 257 s, next_congr (if_neg (by simp [hk.not_ge, hu])), (countBlocks_reads 257 s).1⟩, fun hp => ?_, fun hp => ?_,
      ⟨_, next_congr (if_neg (by simp [hk.not_ge, hu])), rfl⟩⟩
    · have hread := (sectorRead_taken hu).trans (if_neg (by simp [hp]))
      exact ⟨_, exec_domeCipherRequest_read hk hu hread, sectorGiven_mem ..⟩
    · have hread := (sectorRead_taken hu).trans (if_pos hp)
      exact ⟨_, exec_domeCipherRequest_read hk hu hread, sectorGiven_mem ..⟩
  case line =>
    intro k a s hk ha hon hready
    have hnot : ¬ (decide (2 ≤ k) || decide (2 ^ 26 ≤ a) || !domOn s (stackDom k) || !(domeGet s k).ready) = true := by
      simpa [hk.not_ge, hon, hready] using ha
    refine ⟨fun d => next_congr (if_neg hnot), fun hentry => ⟨countSrc 0x0A (61 + k) 64 s, next_congr ((if_neg hnot).trans ?_), by simp⟩⟩
    simp only [readLine_clean hentry]
    rfl
  case stackReady =>
    intro k s hk hinit hkey
    refine ⟨_, exec_domeStackReady_nil hk hinit hkey, ?_⟩
    rw [domeGet_stackVerified]
    exact ⟨rfl, rfl, rfl⟩
  case refresh =>
    intro k h s hk hon hle
    refine next_congr ((if_neg (by simp [hk.not_ge, hon])).trans ?_)
    rw [advanceTo_of_le hle]
  case passStart =>
    intro k s hs hwf hpass
    exact ⟨_, exec_scrubPassStart_first hs hpass, targetScrub_scrubUpd (targetOk_of_scrubbed hs) hwf _⟩
  case visit =>
    intro k a s hk hs ha hfin hentry hlog
    have hmem : (countSrc 0x0A (61 + k) 64 s).mem = s.mem := by simp
    refine ⟨_, exec_scrubVisit_clean hk hs ha hentry hlog, ?_⟩
    rw [domeGet_scrubStep hk ha ((congrArg _ (targetScrub_of_mem hmem k)).trans hfin), domeGet_of_mem hmem]
  case late =>
    intro k t s hk hwf hpass hfin hlate hle
    exact ⟨_, exec_scrubLate_of_late hk hpass hfin hlate hle, targetScrub_scrubUpd hk hwf _⟩
  case sram =>
    intro r w x s hr hw hx hon hwf
    exact ⟨_, next_congr (if_neg (by simp [hr.not_ge, hw.not_ge, hx, hon])), regionGet_regionUpd (hwf ▸ hr) _⟩
  case repair =>
    intro r s hr hremap
    refine ⟨_, exec_rowRepairDone_nil hr hremap, rfl, ?_, rfl, rfl⟩
    exact tget_tset_same_of_ne _ _ (Nat.succ_ne_zero _)

end Sys2Proof.Machine
end

section
/-! PROOF. Where the events of the Turret complete (R291, R292, R295, R300, R302, R305, R307, R310, R311). -/

namespace Sys2Proof.Machine

/-! The DRBG (R310). -/

theorem drbgBlocks_length (key : List Byte) (v n : Nat) : (drbgBlocks key v n).length = 16 * n := by
  simp [drbgBlocks, List.length_flatten, Function.comp_def, Nat.mul_comm]

theorem drbgUpdate_key_length (x : List Byte) (st : List Byte × Nat) : (drbgUpdate x st).1.length = 32 := by
  simp [drbgUpdate, xorBytes, drbgBlocks_length, slice_length]

theorem generate_length (n : Nat) (s : State) : (generate n s).1.length = n := slice_length ..

theorem generate_key_ne_nil (n : Nat) (s : State) : (generate n s).2.turret.drbg.1 ≠ [] :=
  List.ne_nil_of_length_pos ((drbgUpdate_key_length [] _).symm ▸ Nat.succ_pos 31)

theorem reseed_key_ne_nil (s : State) : (reseed s).turret.drbg.1 ≠ [] :=
  List.ne_nil_of_length_pos ((drbgUpdate_key_length (blockDf _) _).symm ▸ Nat.succ_pos 31)

theorem generate_seeded {n : Nat} {s : State} (hkey : s.turret.drbg.1 ≠ []) (hcalls : s.turret.calls < 4096) : (generate n s).2 =
    { s with turret := { s.turret with drbg := (drbgGenerate n s.turret.drbg).2, calls := s.turret.calls + 1 } } := by
  simp [generate, hkey, hcalls.not_ge]

theorem generate_calls {n : Nat} {s : State} (hkey : s.turret.drbg.1 ≠ []) (hcalls : s.turret.calls < 4096) :
    (generate n s).2.turret.calls = s.turret.calls + 1 := by
  rw [generate_seeded hkey hcalls]

/-- The Turret without the state of the DRBG. -/
def drbgRest (s : State) : Turret := { s.turret with drbg := ([], 0), calls := 0 }

theorem generate_drbgRest (n : Nat) (s : State) : drbgRest (generate n s).2 = drbgRest s := by
  simp only [generate]
  split_ifs <;> rfl

theorem generateOther_drbgRest (old : List Byte) (f : Nat) (s : State) : drbgRest (generateOther old f s).2 = drbgRest s := by
  induction f generalizing s with
  | zero => rfl
  | succ f ih =>
    simp only [generateOther]
    split_ifs
    · exact (ih _).trans (generate_drbgRest ..)
    · exact generate_drbgRest ..

/-- What of the Turret the jobs read does not depend on the DRBG. -/
theorem turret_of_drbgRest {s t : State} (h : drbgRest t = drbgRest s) : t.turret.keep = s.turret.keep ∧ t.turret.jobs = s.turret.jobs ∧
    t.turret.rng = s.turret.rng ∧ t.turret.degraded = s.turret.degraded ∧ t.turret.maskAt = s.turret.maskAt := by
  simp only [drbgRest, Turret.mk.injEq] at h
  simp only [h, and_self]

theorem generateOther_length (old : List Byte) (f : Nat) (s : State) (hold : old ≠ []) :
    (generateOther old f s).1.length = old.length := by
  induction f generalizing s with
  | zero =>
    obtain ⟨b, r, rfl⟩ := List.exists_cons_of_ne_nil hold
    rfl
  | succ f ih =>
    simp only [generateOther]
    split_ifs
    · exact ih _
    · exact generate_length ..

theorem generateOther_ne (old : List Byte) (f : Nat) (s : State) (hold : old ≠ []) : (generateOther old f s).1 ≠ old := by
  induction f generalizing s with
  | zero =>
    obtain ⟨b, r, rfl⟩ := List.exists_cons_of_ne_nil hold
    simp [generateOther]
  | succ f ih =>
    simp only [generateOther]
    split_ifs with heq
    · exact ih _
    · exact heq

theorem generateOther_calls (old : List Byte) (f : Nat) {s : State} (hkey : s.turret.drbg.1 ≠ []) (hcalls : s.turret.calls + f < 4096) :
    s.turret.calls ≤ (generateOther old f s).2.turret.calls ∧
      (f ≠ 0 → s.turret.calls < (generateOther old f s).2.turret.calls) := by
  induction f generalizing s with
  | zero => exact ⟨le_rfl, fun h => absurd rfl h⟩
  | succ f ih =>
    have hnext := generate_calls (n := old.length) hkey (Nat.lt_of_le_of_lt (Nat.le_add_right ..) hcalls)
    have hmore : s.turret.calls < (generateOther old (f + 1) s).2.turret.calls := by
      simp only [generateOther]
      split_ifs
      · have hrest := (ih (generate_key_ne_nil old.length s) (by omega)).1
        omega
      · omega
    exact ⟨hmore.le, fun _ => hmore⟩

theorem leNat_inj {l k : List Byte} (hlen : l.length = k.length) (h : leNat l = leNat k) : l = k := by
  induction l generalizing k with
  | nil => exact (List.length_eq_zero_iff.mp hlen.symm).symm
  | cons b l ih =>
    match k with
    | c :: k =>
      simp only [leNat] at h
      have hb := b.isLt
      have hc := c.isLt
      rw [show b = c from BitVec.eq_of_toNat_eq (by omega), ih (Nat.succ.inj hlen) (by omega)]

theorem beNat_ne {l k : List Byte} (hlen : l.length = k.length) (h : l ≠ k) : beNat l ≠ beNat k := fun heq =>
  h (List.reverse_injective (leNat_inj (by simpa using hlen) heq))

/-! Periods, pipelines and the Keep (R291, R292, R295, R300). -/

theorem countBlocks_miss (n : Nat) (s : State) : (countBlocks n s).turret.miss = s.turret.miss := by
  have hmask (t : State) : (maskBlocks n t).turret.miss = t.turret.miss := by
    unfold maskBlocks
    split_ifs
    · rfl
    · simp only
      rw [drawOf_frame 16, drawOf_frame]
      rfl
  simp only [countBlocks, countSrc_frame]
  exact hmask _

theorem keySlot_of_turret {s t : State} (h : t.turret = s.turret) (k : Nat) : keySlot t k = keySlot s k := by simp only [keySlot, h]

theorem keySlot_postEv (code : Nat) (args : List Nat) (s : State) (k : Nat) : keySlot (postEv code args s) k = keySlot s k :=
  keySlot_of_turret (by simp [postEv]) k

theorem setReg_pTx (k : KeySlot) (i : Nat) (r : KeyReg) : (setReg k i r).pTx = k.pTx := by
  simp only [setReg]
  split_ifs <;> rfl

/-- A note of the life of a register leaves what it counts. -/
theorem noteLife_reads {t i : Nat} {s : State} (h : (keyReg (keySlot s t) i).state = 1) :
    (keySlot (noteLife t i s) t).pTx = (keySlot s t).pTx ∧
    (keyReg (keySlot (noteLife t i s) t) i).invoc = (keyReg (keySlot s t) i).invoc ∧
    (noteLife t i s).turret.miss = s.turret.miss := by
  simp only [noteLife]
  split_ifs
  · rw [keySlot_postEv, keySlot_keyUpd_of_reg (i := i) (by simp [h])]
    simp [setReg_pTx, postEv, keyUpd]
  · exact ⟨rfl, rfl, rfl⟩

/-- A served period of a transmitter with a key: its register counts an invocation (R300). -/
def periodServed (t n : Nat) (s : State) : State :=
  keyUpd t (fun k => setReg k k.pTx { keyReg (keySlot s t) (keySlot s t).pTx with
    invoc := ((keyReg (keySlot s t) (keySlot s t).pTx).invoc + 1) % 2 ^ 64 }) (countBlocks n s)

theorem keySlot_countBlocks (n t : Nat) (s : State) : keySlot (countBlocks n s) t = keySlot s t := by
  obtain ⟨-, -, -, hkeep⟩ := countBlocks_reads n s
  simp only [keySlot, hkeep]

theorem keySlot_periodServed {t n : Nat} {s : State} (h : (keyReg (keySlot s t) (keySlot s t).pTx).state = 1) :
    keySlot (periodServed t n s) t = setReg (keySlot s t) (keySlot s t).pTx { keyReg (keySlot s t) (keySlot s t).pTx with
      invoc := ((keyReg (keySlot s t) (keySlot s t).pTx).invoc + 1) % 2 ^ 64 } := by
  rw [periodServed, keySlot_keyUpd_of_reg (i := (keySlot s t).pTx), keySlot_countBlocks]
  simp [keySlot_countBlocks, h]

theorem exec_framerCipherRequest_served {t : Nat} {s : State} (ht : t < 1024) (hon : domOn s 25 || domOn s 26)
    (hkey : (keyReg (keySlot s t) (keySlot s t).pTx).state = 1) : exec (.framerCipherRequest t true true) s =
      .next (noteLife t (keySlot s t).pTx (periodServed t (64 * sizeTx s t) s)) := by
  refine next_congr ((if_neg ?_).trans ((if_neg (by simp)).trans ?_))
  · simp only [hon, ht.not_ge, decide_false, Bool.not_true, Bool.or_false, Bool.false_eq_true, not_false_eq_true]
  · simp only [keySlot_countBlocks]
    exact if_pos (by simp [hkey])

theorem keySlot_setReg_fault {k r : Nat} (s : State) :
    (keyReg (keySlot (keyUpd k (fun x => setReg x r { keyReg x r with state := 2 }) s) k) r).state = 2 := by
  rw [keySlot_keyUpd_of_reg (i := r) (by simp), keyReg_setReg_same]

/-! Rotations (R302). -/

/-- The slot of a tenant as it flips, before its old register is given up (R302). -/
def flippedSlot (t : Nat) (s : State) : KeySlot :=
  { setReg (keySlot s t) (1 - (keySlot s t).pTx) { keyReg (keySlot s t) (1 - (keySlot s t).pTx) with
      wTx := 0, counts := holdsSlot s t, used := true } with
    pTx := 1 - (keySlot s t).pTx
    txOld := if holdsSlot s t then some ((keySlot s t).pTx, 1) else none }

/-- The state in which a rotation has completed (R302). -/
def flipped (t : Nat) (s : State) : State :=
  keyUpd t (fun _ => releaseReg (flippedSlot t s) (keySlot s t).pTx)
    { s with turret := { s.turret with rotations := s.turret.rotations.filter fun x => x.tenant != t } }

theorem flipKey_eq (r : Rotation) (t fc : Nat) (s : State) : flipKey r t fc s = postEv 0x0705 [t, fc % 2 ^ 24]
    (complete r.ref stOk (le 4 (fc % 2 ^ 24) ++ le 1 (1 - (keySlot s t).pTx) ++ le 3 0) (flipped t s)) := rfl

theorem keyReg_setReg_other {i j : Nat} (hi : i ≤ 1) (hj : j ≤ 1) (hne : i ≠ j) (k : KeySlot) (r : KeyReg) :
    keyReg (setReg k j r) i = keyReg k i := by
  have hzero : i = 0 ↔ ¬ j = 0 := by omega
  by_cases hj0 : j = 0 <;> simp [keyReg, setReg, hzero, hj0]

theorem releaseReg_keeps {k : KeySlot} {i j : Nat} (hi : i ≤ 1) (hj : j ≤ 1) (hne : i ≠ j) :
    keyReg (releaseReg k j) i = keyReg k i ∧ (releaseReg k j).pTx = k.pTx := by
  simp only [releaseReg]
  split_ifs
  · exact ⟨rfl, rfl⟩
  · exact ⟨keyReg_setReg_other hi hj hne .., setReg_pTx ..⟩

theorem flippedSlot_reg (t : Nat) (s : State) : keyReg (flippedSlot t s) (1 - (keySlot s t).pTx) =
    { keyReg (keySlot s t) (1 - (keySlot s t).pTx) with wTx := 0, counts := holdsSlot s t, used := true } :=
  keyReg_setReg_same ..

theorem keySlot_flipped {t : Nat} {s : State} (h : (keySlot s t).pTx ≤ 1) :
    (keySlot (flipped t s) t).pTx = 1 - (keySlot s t).pTx ∧
      (keyReg (keySlot (flipped t s) t) (1 - (keySlot s t).pTx)).wTx = 0 := by
  obtain ⟨hreg, hptx⟩ := releaseReg_keeps (k := flippedSlot t s) (i := 1 - (keySlot s t).pTx) (Nat.sub_le ..) h (by omega)
  have hslot : keySlot (flipped t s) t = releaseReg (flippedSlot t s) (keySlot s t).pTx := by
    refine tget_tset_same_of_ne _ _ fun hempty => ?_
    have hused := congrArg KeyReg.used (hreg.symm.trans (congrArg (keyReg · (1 - (keySlot s t).pTx)) hempty))
    rw [flippedSlot_reg, keyReg_default] at hused
    exact Bool.noConfusion hused
  rw [hslot, hreg, hptx, flippedSlot_reg]
  exact ⟨rfl, rfl⟩

/-! Key exchange and generation (R305, R307). -/

/-- The state that a job has left. -/
def jobTaken (j : KeyJob) (s : State) : State :=
  { s with turret := { s.turret with jobs := s.turret.jobs.filter (· != j) } }

/-- The secret scalar of an exchange (R305). -/
def exchangePriv (s : State) : Nat := beNat (generate 48 (reseed s)).1 % (pOrder - 1) + 1

/-- The public key that the host of an exchange sent (R305). -/
def exchangeHost (j : KeyJob) : Nat × Nat := (beNat (slice j.params 5 48), beNat (slice j.params 53 48))

/-- The KEK of an exchange (R305). -/
def exchangeKek (j : KeyJob) (s : State) : List Byte :=
  deriveKek (pointMul (exchangePriv s) (exchangeHost j)).1 (u8 j.params 0) (pointMul (exchangePriv s) pBase).1 (exchangeHost j).1

/-- The state after an exchange. -/
def exchanged (j : KeyJob) (s : State) : State :=
  keyUpd (slotKek + u8 j.params 0) (fun k => { k with r0 := { k1 := exchangeKek j s, state := 1 } })
    (jobTaken j (generate 48 (reseed s)).2)

theorem exec_kekEstablished {j : KeyJob} {s : State} (hjobs : s.turret.jobs = [j]) (hkek : j.kek) (hrng : s.turret.rng = 0) :
    exec .kekEstablished s = .next (complete j.ref stOk
      (pointBytes (pointMul (exchangePriv s) pBase) ++ le 3 0 ++ kekCheck (exchangeKek j s)) (exchanged j s)) := by
  have hfind : s.turret.jobs.find? (fun j => j.kek) = some j := by simp [hjobs, hkek]
  refine next_congr ?_
  simp only [hfind]
  exact if_neg (by simp [hrng])

theorem exchanged_calls (j : KeyJob) (s : State) : (exchanged j s).turret.calls = 1 := by
  have hcalls : (generate 48 (reseed s)).2.turret.calls = (reseed s).turret.calls + 1 :=
    generate_calls (reseed_key_ne_nil s) (Nat.succ_pos _)
  simp only [exchanged, keyUpd, jobTaken, hcalls]
  rfl

theorem kekAt_exchanged (j : KeyJob) (s : State) :
    kekAt (exchanged j s) (u8 j.params 0) = { k1 := exchangeKek j s, state := 1 } := by
  have hslot := keySlot_keyUpd_of_reg (k := slotKek + u8 j.params 0) (i := 0)
    (f := fun k => { k with r0 := { k1 := exchangeKek j s, state := 1 } })
    (s := jobTaken j (generate 48 (reseed s)).2) (by simp [keyReg])
  rw [kekAt, exchanged, hslot]

/-- The draws of a generated key: the key itself, the transmit salt and a receive salt that differs (R307). -/
def keyDrawn (s : State) : List Byte × State := generate 32 (reseed s)
def saltDrawn (s : State) : List Byte × State := generate 4 (keyDrawn s).2
def otherDrawn (s : State) : List Byte × State := generateOther (saltDrawn s).1 4 (saltDrawn s).2

/-- The state after a key was generated. -/
def keyMade (t : Nat) (j : KeyJob) (s : State) : State :=
  loadReg t (u8 j.params 0) (keyDrawn s).1 (beNat (saltDrawn s).1) (beNat (otherDrawn s).1) (u32 j.params 4)
    (jobTaken j (otherDrawn s).2)

theorem exec_keyGenerated {t : Nat} {j : KeyJob} {s : State} (hjobs : s.turret.jobs = [j]) (hkek : j.kek = false) (ht : j.tenant = t)
    (hrng : s.turret.rng = 0) : exec (.keyGenerated t) s = .next (complete j.ref stOk
      (keyWrap (kekAt (jobTaken j (otherDrawn s).2) (u8 j.params 1)).k1
        ((keyDrawn s).1 ++ (saltDrawn s).1 ++ (otherDrawn s).1 ++ be 4 t ++ be 4 (u32 j.params 4))) (keyMade t j s)) := by
  have hfind : s.turret.jobs.find? (fun j => !j.kek && j.tenant == t) = some j := by simp [hjobs, hkek, ht]
  refine next_congr ?_
  simp only [hfind]
  exact if_neg (by simp [hrng])

theorem otherDrawn_drbgRest (s : State) : drbgRest (otherDrawn s).2 = drbgRest s :=
  (generateOther_drbgRest ..).trans ((generate_drbgRest ..).trans ((generate_drbgRest ..).trans rfl))

theorem three_le_calls (s : State) : 3 ≤ (otherDrawn s).2.turret.calls := by
  have hkey : (keyDrawn s).2.turret.calls = 1 := generate_calls (reseed_key_ne_nil s) (Nat.succ_pos _)
  have hsalt : (saltDrawn s).2.turret.calls = 2 :=
    (generate_calls (generate_key_ne_nil _ _) (hkey.trans_lt (by decide))).trans (congrArg (· + 1) hkey)
  have hother := (generateOther_calls (saltDrawn s).1 4 (s := (saltDrawn s).2) (generate_key_ne_nil _ _) (by omega)).2 (by decide)
  rw [hsalt] at hother
  exact hother

theorem salts_ne (s : State) : beNat (saltDrawn s).1 ≠ beNat (otherDrawn s).1 := by
  have hlen : (saltDrawn s).1.length = 4 := generate_length ..
  have hsalt : (saltDrawn s).1 ≠ [] := List.ne_nil_of_length_pos (hlen ▸ by decide)
  exact beNat_ne (generateOther_length _ _ _ hsalt).symm (generateOther_ne _ _ _ hsalt).symm

theorem be_beNat (l : List Byte) : be l.length (beNat l) = l := by
  refine List.reverse_injective (leNat_inj (by simp [be]) ?_)
  have hlt := leNat_lt l.reverse
  rw [be, List.reverse_reverse, leNat_le, beNat, Nat.mod_eq_of_lt (by simpa using hlt)]

/-! Blocking, health tests and masks (R308 to R312). -/

/-- The state in which the command that waited longest has failed (R311). -/
def jobFailed (j : KeyJob) (s : State) : State :=
  { s with turret := { s.turret with jobs := s.turret.jobs.filter (· != j), entropy := satAdd 32 s.turret.entropy 1 } }

theorem exec_entropyTimeout_single {j : KeyJob} {s : State} (hjobs : s.turret.jobs = [j]) (hrng : s.turret.rng ≠ 0)
    (hdraw : s.turret.domeDraw = none) (hle : j.deadline ≤ s.now) :
    exec .entropyTimeout s = .next (complete j.ref stEntropy [] (jobFailed j s)) := by
  have hold : oldestJob s = some j := by simp [oldestJob, hjobs]
  refine next_congr ((if_neg hrng).trans ?_)
  simp only [hold, hdraw, advanceTo_of_le hle, jobFailed]

/-- One order of the fixed mode drawn (R312). -/
def orderDrawn (s : State) : State :=
  { (drawOf 16 (List.range 16) s).2 with turret := { (drawOf 16 (List.range 16) s).2.turret with
    orders := ((drawOf 16 (List.range 16) s).1 :: (drawOf 16 (List.range 16) s).2.turret.orders).take 16 } }

/-- The Turret without the orders of the fixed mode. -/
def ordersRest (s : State) : Turret := { s.turret with orders := [] }

theorem orderDrawn_rest (s : State) : ordersRest (orderDrawn s) = ordersRest s := by
  have hdrawn : (drawOf 16 (List.range 16) s).2.turret = s.turret := by rw [drawOf_frame]
  simp only [ordersRest, orderDrawn, hdrawn]

theorem drawOrders_rest (s : State) : ordersRest (drawOrders s) = ordersRest s :=
  foldl_leaves (g := fun t (_ : Nat) => orderDrawn t) (fun t _ => orderDrawn_rest t) (List.range 16) s

/-- Drawing orders changes nothing else of the Turret. -/
theorem drawOrders_turret (s : State) : (drawOrders s).turret = { s.turret with orders := (drawOrders s).turret.orders } :=
  congrArg (fun t : Turret => { t with orders := (drawOrders s).turret.orders }) (drawOrders_rest s)

/-- The state after raw samples that fail no test. -/
def noiseTaken (l : List Bool) (s : State) : State :=
  { s with turret := { s.turret with noise := (noiseRun l s.turret.noise).1 } }

/-- The state in which a failed health test blocks the output (R311). -/
def blockedAt (t : Nat) (o s : State) : State :=
  { o with turret := { o.turret with
    rng := 1, retests := 0, retestAt := some t, healthFails := satAdd 32 s.turret.healthFails 1, fixed := true, degraded := true } }

theorem exec_trngHealthFail_degraded {l : List Bool} {s : State} (hbad : (noiseRun l s.turret.noise).2) (hrng : s.turret.rng = 0)
    (hdeg : s.turret.degraded) : exec (.trngHealthFail l) s =
      .next (blockedAt (s.now + 10 * msNs) (drawOrders (noiseTaken l s)) s) := by
  refine next_congr ?_
  simp only [hbad, hrng, hdeg, bne_self_eq_false, Bool.not_true, Bool.false_eq_true, if_false, if_true, blockedAt, noiseTaken]

theorem noiseRun_failed {l : List Bool} {t : NoiseTest} (h : (noiseRun l t).2) : (noiseRun l t).1 = {} := by
  induction l generalizing t with
  | nil => exact absurd h Bool.false_ne_true
  | cons b l ih =>
    simp only [noiseRun] at h ⊢
    split_ifs at h ⊢
    · rfl
    · exact ih h

/-- The state after a retest passed (R311). -/
def retestPassed (s : State) : State := reseed { s with turret := { s.turret with rng := 0, retests := 0, retestAt := none } }

/-- The state after a retest failed: how the output blocks, and when the next one comes (R311). -/
def retestFailed (rng at_ : Nat) (s : State) : State :=
  { s with turret := { s.turret with rng := rng, retests := s.turret.retests + 1, retestAt := some at_ } }

section retest
variable {t : Nat} {l : List Bool} {s : State} (hat : s.turret.retestAt = some t) (hle : t ≤ s.now) (hrng : s.turret.rng = 1)
include hat hle hrng

theorem exec_trngRetest_pass (hdraw : s.turret.domeDraw = none) (hgood : startupOk l) :
    exec (.trngRetest l) s = .next (retestPassed s) := by
  refine next_congr ?_
  simp only [hat, advanceTo_of_le hle, hgood, hrng, hdraw, if_true, Option.isSome_none, Bool.false_eq_true, if_false, OfNat.one_ne_ofNat,
    retestPassed]

theorem exec_trngRetest_fail (hbad : startupOk l = false) (hfew : s.turret.retests < 2) :
    exec (.trngRetest l) s = .next (retestFailed 1 (t + 10 * msNs) s) := by
  refine next_congr ?_
  simp only [hat, advanceTo_of_le hle, hbad, Bool.false_eq_true, if_false, Nat.succ_lt_succ hfew, if_true, retestFailed, hrng]

theorem exec_trngRetest_alarm (hbad : startupOk l = false) (hmany : 2 ≤ s.turret.retests) :
    exec (.trngRetest l) s = .next (post 0x0706 true [] (retestFailed 2 (t + 10 * secNs) s)) := by
  refine next_congr ?_
  simp only [hat, advanceTo_of_le hle, hbad, Bool.false_eq_true, if_false, (Nat.succ_le_succ hmany).not_gt, hrng, OfNat.one_ne_ofNat,
    retestFailed]

end retest

/-- A mask key drawn anew (R310). -/
def maskRekeyed (i : Nat) (s : State) : State :=
  keyUpd (slotMask + i) (fun k => { k with r0 := { k.r0 with k1 := (generate 32 s).1, state := 1 } }) (generate 32 s).2

theorem maskRekeyed_drbg {i : Nat} {s : State} (hkey : s.turret.drbg.1 ≠ []) (hcalls : s.turret.calls < 4096) :
    (maskRekeyed i s).turret.drbg.1 ≠ [] ∧ (maskRekeyed i s).turret.calls = s.turret.calls + 1 ∧
      (maskRekeyed i s).turret.rng = s.turret.rng ∧ (maskRekeyed i s).turret.degraded = s.turret.degraded ∧
      (maskRekeyed i s).turret.maskAt = s.turret.maskAt := by
  have hnext := generate_key_ne_nil 32 s
  have hcount := generate_calls (n := 32) hkey hcalls
  obtain ⟨-, -, hrng, hdeg, hmask⟩ := turret_of_drbgRest (generate_drbgRest 32 s)
  simp only [maskRekeyed, keyUpd]
  exact ⟨hnext, hcount, hrng, hdeg, hmask⟩

theorem keySlot_maskRekeyed (i : Nat) (s : State) : (keySlot (maskRekeyed i s) (slotMask + i)).r0.state = 1 := by
  have hslot := keySlot_keyUpd_of_reg (k := slotMask + i) (i := 0)
    (f := fun k => { k with r0 := { k.r0 with k1 := (generate 32 s).1, state := 1 } }) (s := (generate 32 s).2) (by simp [keyReg])
  rw [maskRekeyed, hslot]

theorem keySlot_maskRekeyed_other {i j : Nat} (h : j ≠ i) (s : State) :
    keySlot (maskRekeyed i s) (slotMask + j) = keySlot s (slotMask + j) := by
  obtain ⟨hkeep, -⟩ := turret_of_drbgRest (generate_drbgRest 32 s)
  simp only [keySlot, maskRekeyed, keyUpd]
  rw [tget_tupd_other _ _ (by omega), hkeep]

/-- The state in which the rekeying of the masks begins. -/
def maskStarted (s : State) : State := { s with turret := { s.turret with maskAt := s.now } }

theorem exec_maskRekey_both {s : State} (hlow : domOn s 25) (hhigh : domOn s 26) (hrng : s.turret.rng = 0)
    (hkey : s.turret.drbg.1 ≠ []) (hcalls : s.turret.calls < 4094) (hdeg : s.turret.degraded = false)
    (hle : s.turret.maskAt + msNs ≤ s.now) : exec .maskRekey s = .next (maskRekeyed 1 (maskRekeyed 0 (maskStarted s))) := by
  obtain ⟨hkey1, hcalls1, -, hdeg1, -⟩ := maskRekeyed_drbg (i := 0) (s := maskStarted s) hkey (by
    exact hcalls.trans (by decide))
  have hdeg2 := (maskRekeyed_drbg (i := 1) hkey1 (by
    rw [hcalls1]
    exact (Nat.succ_lt_succ hcalls).trans (by decide))).2.2.2.1
  have hsound : (maskRekeyed 1 (maskRekeyed 0 (maskStarted s))).turret.degraded = false := hdeg2.trans (hdeg1.trans hdeg)
  refine next_congr ((if_neg (by simp [hlow, b2n])).trans ?_)
  rw [advanceTo_of_le hle]
  refine (if_neg (by simp [hrng])).trans ?_
  rw [if_pos hlow, if_pos hhigh]
  exact if_neg (by simp only [maskRekeyed, maskStarted] at hsound; simp [hsound])

/-- Settles O31. -/
theorem turretEventsComplete : Obligations.TurretEventsComplete := by
  refine ⟨?missed, ?served, ?fenced, ?ecc, ?rotated, ?kek, ?key, ?entropy, ?health, ?retest, ?mask⟩
  case missed =>
    intro t x s ht hon
    refine ⟨_, next_congr ((if_neg ?_).trans (if_pos rfl)), ?_⟩
    · simp only [hon, ht.not_ge, decide_false, Bool.not_true, Bool.or_false, Bool.false_eq_true, not_false_eq_true]
    · split_ifs <;> rfl
  case served =>
    intro t s ht hon hkey
    have hslot := keySlot_periodServed (n := 64 * sizeTx s t) hkey
    obtain ⟨hptx, hinvoc, hmiss⟩ := noteLife_reads (t := t) (i := (keySlot s t).pTx) (s := periodServed t (64 * sizeTx s t) s)
      (by rw [hslot, keyReg_setReg_same]; exact hkey)
    refine ⟨_, exec_framerCipherRequest_served ht hon hkey, ?_, ?_, hmiss.trans (countBlocks_miss _ s)⟩
    · rw [hptx, hslot, setReg_pTx]
    · rw [hinvoc, hslot, keyReg_setReg_same]
  case fenced =>
    intro p s hp hfresh hon
    exact ⟨_, next_congr (if_neg (by rw [hfresh, hon]; simp [hp.not_ge])), rfl⟩
  case ecc =>
    intro k r s hk hr hon
    have hnot : ¬ (decide (1056 ≤ k) || decide (2 ≤ r) || !(domOn s 25 || domOn s 26)) = true := by
      simp only [hon, hk.not_ge, hr.not_ge, decide_false, Bool.not_true, Bool.or_false, Bool.false_eq_true, not_false_eq_true]
    refine ⟨⟨_, next_congr (if_neg hnot), rfl⟩, ⟨_, next_congr (if_neg hnot), keySlot_setReg_fault s⟩, fun hall =>
      ⟨_, next_congr ((if_neg hnot).trans (if_pos hall)), rfl⟩⟩
  case rotated =>
    intro t fc r s hrot ht hle hptx
    have hfind : s.turret.rotations.find? (fun r => r.tenant == t) = some r := by simp [hrot, ht]
    obtain ⟨hflip, hwrap⟩ := keySlot_flipped hptx
    refine ⟨flipped t s, next_congr ?_, hflip, hwrap, ?_⟩
    · simp only [hfind, advanceTod_of_le hle]
      exact flipKey_eq ..
    · simp [flipped, keyUpd, hrot, ht]
  case kek =>
    intro j s hjobs hkek hrng
    refine ⟨_, _, exec_kekEstablished hjobs hkek hrng, ?_, ?_, ?_, ?_⟩
    · have hkept := (turret_of_drbgRest ((generate_drbgRest 48 (reseed s)).trans rfl : drbgRest _ = drbgRest s)).2.1
      simp [exchanged, keyUpd, jobTaken, hkept, hjobs]
    · exact exchanged_calls j s
    · rw [kekAt_exchanged]
    · rw [kekAt_exchanged]
      exact List.drop_left' (by simp [pointBytes])
  case key =>
    intro t j s hjobs hkek ht hrng
    obtain ⟨hkeep, hkept, -⟩ := turret_of_drbgRest (otherDrawn_drbgRest s)
    have hslot : keySlot (jobTaken j (otherDrawn s).2) t = keySlot s t := by simp only [keySlot, jobTaken, hkeep]
    have hkekAt : kekAt (jobTaken j (otherDrawn s).2) (u8 j.params 1) = kekAt s (u8 j.params 1) := by
      simp only [kekAt, keySlot, jobTaken, hkeep]
    have hreg := keyReg_loadReg t (u8 j.params 0) (keyDrawn s).1 (beNat (saltDrawn s).1) (beNat (otherDrawn s).1) (u32 j.params 4)
      (jobTaken j (otherDrawn s).2)
    rw [hslot, ← keyMade] at hreg
    refine ⟨_, _, _, exec_keyGenerated hjobs hkek ht hrng, ?_, three_le_calls s, rfl, ?_⟩
    · simp [keyMade, loadReg, keyUpd, jobTaken, hkept, hjobs]
    · rw [hreg, hkekAt]
      have hsalt : (saltDrawn s).1.length = 4 := generate_length ..
      have hother : (otherDrawn s).1.length = 4 :=
        (generateOther_length _ _ _ (List.ne_nil_of_length_pos (hsalt ▸ by decide))).trans hsalt
      have hbs := be_beNat (saltDrawn s).1
      have hbo := be_beNat (otherDrawn s).1
      rw [hsalt] at hbs
      rw [hother] at hbo
      exact ⟨rfl, rfl, salts_ne s, by simp only [hbs, hbo]⟩
  case entropy =>
    intro j s hjobs hrng hdraw hle
    exact ⟨_, exec_entropyTimeout_single hjobs hrng hdraw hle, by simp [jobFailed, hjobs]⟩
  case health =>
    intro l s
    refine ⟨fun hgood => ⟨noiseTaken l s, next_congr (if_pos (by simp [hgood])), rfl⟩, fun hbad hrng hdeg => ?_⟩
    refine ⟨_, exec_trngHealthFail_degraded hbad hrng hdeg, ?_⟩
    rw [blockedAt, drawOrders_turret]
    simp only [noiseTaken, noiseRun_failed hbad, hdeg]
  case retest =>
    intro t l s hat hle hrng hdraw
    refine ⟨fun hgood => ⟨_, exec_trngRetest_pass hat hle hrng hdraw hgood, rfl⟩,
      fun hbad hfew => ⟨_, exec_trngRetest_fail hat hle hrng hbad hfew, by simp only [retestFailed, hrng]⟩,
      fun hbad hmany => ⟨_, exec_trngRetest_alarm hat hle hrng hbad hmany, ?_⟩⟩
    simp only [post_frame, retestFailed, and_self]
  case mask =>
    intro s hlow hhigh hrng hkey hcalls hdeg hle
    obtain ⟨hkey1, hcalls1, -, -, hmask1⟩ := maskRekeyed_drbg (i := 0) (s := maskStarted s) hkey (hcalls.trans (by decide))
    obtain ⟨-, hcalls2, -, -, hmask2⟩ := maskRekeyed_drbg (i := 1) hkey1 (by
      rw [hcalls1]
      exact (Nat.succ_lt_succ hcalls).trans (by decide))
    refine ⟨_, exec_maskRekey_both hlow hhigh hrng hkey hcalls hdeg hle, ?_, ?_, ?_, keySlot_maskRekeyed 1 _⟩
    · exact hcalls2.trans (congrArg (· + 1) hcalls1)
    · exact hmask2.trans hmask1
    · exact (congrArg (·.r0.state) (keySlot_maskRekeyed_other (i := 1) (j := 0) (by decide) _)).trans (keySlot_maskRekeyed 0 _)

end Sys2Proof.Machine
end

section
/-! PROOF. Where the events of the host side complete (R182, R183, R185, R186, R192, R193, R196, R198). -/

namespace Sys2Proof.Machine

/-! Lanes (R182, R183). -/

theorem laneGet_laneUpd_same {l : Nat} {s : State} (h : l < s.host.lanes.length) (f : HostLane → HostLane) :
    laneGet (laneUpd l f s) l = f (laneGet s l) := getD_lupd_same h ..

/-- A lane with what foreground adaptation found (R182). -/
def laneFound (base : Nat) (vs : List (List Int)) (h : HostLane) : HostLane :=
  { (((List.range 5).zip vs).flatMap fun e => ((List.range (laneItemSize e.1)).zip e.2).map fun x => (e.1, x.1, x.2)).foldl
      (fun a e =>
        if laneInBound e.1 e.2.1 e.2.2 then
          { a with vals := tset 0 a.vals (16 * e.1 + e.2.1) e.2.2, kept := tset 0 a.kept (base + (16 * e.1 + e.2.1)) e.2.2,
                   accepted := satAdd 16 a.accepted 1 }
        else { a with failed := satAdd 16 a.failed 1 }) h with
    adapt := .background
    fgEnd := none
    spoiled := false }

theorem laneFound_taps (base : Nat) (vs : List (List Int)) (h : HostLane) : (laneFound base vs h).taps = h.taps := by
  refine foldl_leaves (f := HostLane.taps) (fun a e => ?_) _ h
  split_ifs <;> rfl

theorem exec_laneForegroundAdaptDone {l : Nat} {vs : List (List Int)} {s : State} (h : (laneGet s l).adapt = .foreground) :
    exec (.laneForegroundAdaptDone l vs) s =
      .next (noteLane l (laneUpd l (laneFound (keptBase (quadGet s (l / 4))) vs) s)) :=
  next_congr (if_neg (by simp [h]))

/-- A lane whose accepted update has been applied (R182). -/
def laneApplied (base : Nat) (h : HostLane) : HostLane :=
  { h.next.foldl (fun a e => { a with
      old := tset none a.old e.1 (some (tget 0 h.vals e.1))
      vals := tset 0 a.vals e.1 (e.2.getD 0)
      kept := tset 0 a.kept (base + e.1) (e.2.getD 0) }) h with
    next := [] }

theorem laneApplied_single {base k : Nat} {v : Int} {h : HostLane} (hnext : h.next = [(k, some v)]) : laneApplied base h = { h with
    old := tset none h.old k (some (tget 0 h.vals k))
    vals := tset 0 h.vals k v
    kept := tset 0 h.kept (base + k) v
    next := [] } := by
  simp only [laneApplied, hnext, List.foldl_cons, List.foldl_nil, Option.getD_some]

theorem exec_laneAdaptApply {l : Nat} {s : State} (hback : (laneGet s l).adapt = .background) (hphy : (phyAt s l).isSome) :
    exec (.laneAdaptApply l) s = .next (laneUpd l (laneApplied (keptBase (quadGet s (l / 4)))) s) :=
  next_congr (if_neg (by simp [hback, Option.isNone_eq_false_iff.mpr hphy]))

/-! PHYs and groups (R185, R186, R192, R193). -/

/-- An update that leaves a PHY of some kind shows in the table. -/
theorem phyOf_phyUpd_of_kind {p : Nat} {f : Phy → Phy} {s : State} (h : (f (phyOf s p)).kind ≠ 0) :
    phyOf (phyUpd p f s) p = f (phyOf s p) :=
  tget_tset_same_of_ne _ _ fun hf => h (congrArg Phy.kind hf)

theorem phyOf_of_phys {s t : State} (h : t.host.phys = s.host.phys) (p : Nat) : phyOf t p = phyOf s p := by simp only [phyOf, h]

theorem takeStream_phys (t : Nat) (b : List (List Bool)) (s : State) : (takeStream t b s).host.phys = s.host.phys := by
  simp only [takeStream, countClient]
  split_ifs
  · rfl
  · split
    · simp [feedStore]
    · simp [feedStore]

theorem phyOf_countCodeword_corrected {p n : Nat} {s : State} (hkind : (phyOf s p).kind ≠ 0) (hn : 1 ≤ n) :
    phyOf (countCodeword p (some n) s) p = { phyOf s p with
      cwCorr := satAdd 64 (phyOf s p).cwCorr 1
      symCorr := satAdd 64 (phyOf s p).symCorr n } := by
  obtain ⟨m, rfl⟩ := Nat.exists_eq_add_of_le' hn
  refine (phyOf_of_phys ?_ p).trans (phyOf_phyUpd_of_kind (s := s) (f := fun k => { k with
    cwCorr := satAdd 64 k.cwCorr 1
    symCorr := satAdd 64 k.symCorr (m + 1) }) hkind)
  simp only [countCodeword, countSrc_frame]

theorem phyOf_countCodeword_lost {p : Nat} {s : State} (hkind : (phyOf s p).kind ≠ 0) :
    phyOf (countCodeword p none s) p = { phyOf s p with cwUncorr := satAdd 32 (phyOf s p).cwUncorr 1 } := by
  have hcount (l : List Nat) (t : State) :
      phyOf (l.foldl (fun t x => pmCount (pmTen x) (fun a => { a with cwUncorr := a.cwUncorr + 1 }) t) t) p = phyOf t p :=
    foldl_leaves (f := fun t => phyOf t p) (fun t x => phyOf_of_phys (by rw [pmCount_host]) p) l t
  rw [countCodeword, hcount, phyOf_phyUpd_of_kind hkind]

/-- What a PHY notes of a codeword that it took: its place, the last levels, what its lanes send (R185, R523). -/
def codewordTaken (last : List Nat) (k : Phy) : Phy :=
  { k with
    cwIn := (k.cwIn + 1) % (markerShape k.type).2
    rxLast := last
    tx := { k.tx with out := (List.range (max k.lanes k.tx.out.length)).map fun i => k.tx.out.getD i [] } }

/-- The state in which a decoded codeword has been counted and noted. -/
def codewordNoted (p : Nat) (bits : List (List Bool × Nat)) (d : List Nat × Option Nat) (s : State) : State :=
  phyUpd p (codewordTaken (bits.map (·.2))) (countCodeword p d.2 s)

/-- A decoded codeword counts, then updates its PHY without its counts, then goes to its clients (R186). -/
theorem exec_rsFecCodeword {p : Nat} {r : List (List Nat)} {bits : List (List Bool × Nat)} {d : List Nat × Option Nat} {s : State}
    (hkind : (phyOf s p).kind ≠ 0) (hon : domOn s (quadDom (p / 4))) (hloa : (phyOf s p).declared.testBit 2 = false)
    (hloop : s.test.laneLoop = [])
    (hbits : bits = ((List.range (phyOf s p).lanes).map fun i =>
      takeLevels ((quadGet s ((p + i) / 4)).precode.testBit ((p + i) % 4)) ((quadGet s ((p + i) / 4)).polarity.testBit ((p + i) % 4))
        ((phyOf s p).rxLast.getD i 0) (r.getD i [])))
    (hd : d = hostDecode (fromLanes (phyOf s p).type ((phyOf s p).marks.map fun m => (m.getD (0, 0)).1) (bits.map (·.1)))) :
    exec (.rsFecCodeword p r) s = .next ((clientsWhere (codewordNoted p bits d s) fun c => c.kind == 1 && c.place == p).foldl
      (fun t x => takeStream x (codewordBlocks (phyOf s p) d) t) (codewordNoted p bits d s)) := by
  have hnone (i : Nat) : tget 0 s.test.laneLoop i = 0 := by
    rw [hloop]
    rfl
  refine next_congr ((if_neg (by simp [hkind, hon, hloa])).trans ?_)
  simp only [hnone, OfNat.zero_ne_ofNat, if_false]
  rw [← hbits, ← hd]
  rfl

/-! FlexE overhead (R192, R193). -/

theorem notePhy_keeps {p : Nat} {s : State} (hkind : (phyOf s p).kind ≠ 0) :
    (phyOf (notePhy p s) p).caRun = (phyOf s p).caRun ∧ (notePhy p s).host.groups = s.host.groups := by
  simp only [notePhy]
  split_ifs
  · exact ⟨rfl, rfl⟩
  · simp only [postEv, post_frame, phyOf, and_true]
    exact (congrArg Phy.caRun (tget_tset_same_of_ne _ _ fun h => hkind (congrArg Phy.kind h))).trans rfl

theorem groupOf_congr {s t : State} (h : t.host.groups = s.host.groups) (g : Nat) : groupOf t g = groupOf s g := by simp only [groupOf, h]

/-- A group with a switch stands in the table. -/
theorem group_lt_of_switch {g : Nat} {w : FlexSwitch} {s : State} (h : (groupOf s g).switch = some w) : g < s.host.groups.length := by
  by_contra hlong
  rw [groupOf, List.getD_eq_default _ _ (Nat.le_of_not_lt hlong)] at h
  cases h

/-- What a group notes of its peer's change request leaves its own switch (R193). -/
theorem takePeerCr_group {g : Nat} {s : State} (h : g < s.host.groups.length) (oh : FlexeOh) :
    (groupOf (takePeerCr g oh s) g).switch = (groupOf s g).switch ∧ (groupOf (takePeerCr g oh s) g).inUse = (groupOf s g).inUse := by
  rw [takePeerCr, groupOf_groupUpd_same h]
  cases oh.cr <;> exact ⟨rfl, rfl⟩

/-- A good frame with CA of a PHY with the right identity, as the PHY notes it (R193). -/
theorem takeOhPhy_caRun {oh : FlexeOh} {k : Phy} (hca : oh.ca) (hid : oh.idOk) (hbad : k.declared.testBit 6 = false) :
    (takeOhPhy oh k).caRun = k.caRun + 1 ∧ (takeOhPhy oh k).kind = k.kind := by
  simp [takeOhPhy, hca, hid, hbad]

/-- The state of a PHY's group after a frame with CA has been noted. -/
def ohNoted (p g : Nat) (oh : FlexeOh) (s : State) : State := takePeerCr g oh (notePhy p (phyUpd p (takeOhPhy oh) s))

/-- The peer's CA accepts the switch of a group (R193). -/
def switchAccepted (g : Nat) (s : State) : State :=
  groupUpd g (fun x => { x with switch := x.switch.map fun w => { w with accepted := true } }) s

section accepted
variable {p g : Nat} {oh : FlexeOh} {s : State} (hkind : (phyOf s p).kind = 2) (hca : oh.ca) (hid : oh.idOk)
  (hbad : (phyOf s p).declared.testBit 6 = false)
include hkind hca hid hbad

theorem ohNoted_caRun : (phyOf (ohNoted p g oh s) p).caRun = (phyOf s p).caRun + 1 := by
  obtain ⟨hrun, hkept⟩ := takeOhPhy_caRun hca hid hbad
  have hne : (takeOhPhy oh (phyOf s p)).kind ≠ 0 := by rw [hkept, hkind]; decide
  have hphy := phyOf_phyUpd_of_kind hne
  have hkeeps := (notePhy_keeps (s := phyUpd p (takeOhPhy oh) s) (by rw [hphy]; exact hne)).1
  rw [hphy, hrun] at hkeeps
  exact hkeeps

theorem ohNoted_group {w : FlexSwitch} (hswitch : (groupOf s g).switch = some w) : g < (ohNoted p g oh s).host.groups.length ∧
    (groupOf (ohNoted p g oh s) g).switch = some w ∧ (groupOf (ohNoted p g oh s) g).inUse = (groupOf s g).inUse := by
  obtain ⟨-, hkept⟩ := takeOhPhy_caRun hca hid hbad
  have hne : (takeOhPhy oh (phyOf s p)).kind ≠ 0 := by rw [hkept, hkind]; decide
  have hgroups := (notePhy_keeps (s := phyUpd p (takeOhPhy oh) s) (by rw [phyOf_phyUpd_of_kind hne]; exact hne)).2
  have hlt := group_lt_of_switch hswitch
  obtain ⟨hsame, huse⟩ := takePeerCr_group (g := g) (s := notePhy p (phyUpd p (takeOhPhy oh) s)) (by rw [hgroups]; exact hlt) oh
  rw [groupOf_congr (hgroups.trans rfl)] at hsame huse
  have hlen : (ohNoted p g oh s).host.groups.length = s.host.groups.length := (lupd_length ..).trans (congrArg List.length hgroups)
  exact ⟨hlt.trans_eq hlen.symm, hsame.trans hswitch, huse⟩

theorem exec_flexeOverheadFrameRx_accept (hok : oh.ok) (hcal : oh.cal = none) (hssm : oh.ssm = none) (hrun : 2 ≤ (phyOf s p).caRun)
    (hgroup : groupOfPhy s p = some g) :
    exec (.flexeOverheadFrameRx p oh) s = .next (sendOverhead g (switchAccepted g (ohNoted p g oh s))) := by
  have hthird : 3 ≤ (phyOf (ohNoted p g oh s) p).caRun := by
    rw [ohNoted_caRun hkind hca hid hbad]
    omega
  refine next_congr ((if_neg (by simp [hkind])).trans ((if_neg (by simp [hok])).trans ?_))
  simp only [hgroup, hcal, hssm]
  exact congrArg (sendOverhead g) (if_pos hthird)

end accepted

/-- Settles O23. -/
theorem hostEventsComplete : Obligations.HostEventsComplete := by
  refine ⟨?foreground, ?spoiled, ?apply, ?laneDefect, ?clientDefect, ?codeword, ?badFrame, ?accept, ?boundary, ?timeout⟩
  case foreground =>
    intro l vs s hadapt hl
    have hlane := laneGet_laneUpd_same hl (laneFound (keptBase (quadGet s (l / 4))) vs)
    refine ⟨_, exec_laneForegroundAdaptDone hadapt, ?_⟩
    rw [hlane]
    exact ⟨rfl, rfl, rfl, laneFound_taps ..⟩
  case spoiled =>
    intro l o s hadapt hspoiled
    exact next_congr ((if_neg (by simp [hadapt])).trans (if_pos hspoiled))
  case apply =>
    intro l k v s hadapt hphy hl hnext
    have hlane := laneGet_laneUpd_same hl (laneApplied (keptBase (quadGet s (l / 4))))
    rw [laneApplied_single hnext] at hlane
    refine ⟨_, exec_laneAdaptApply hadapt hphy, ?_⟩
    rw [hlane]
    exact ⟨rfl, rfl, rfl⟩
  case laneDefect =>
    intro l d i s hadapt
    exact next_congr (if_neg (by simp [hadapt]))
  case clientDefect =>
    intro t d i s hkind
    exact ⟨_, next_congr (if_neg hkind), tget_tset_same_of_ne _ _ fun h => hkind (congrArg Client.kind h)⟩
  case codeword =>
    intro p n r bits d s hkind hon hloa hloop hbits hd
    have hexec := exec_rsFecCodeword hkind hon hloa hloop hbits hd
    have hphy (hcount : (phyOf (countCodeword p d.2 s) p).kind ≠ 0) :=
      (foldl_leaves (f := fun t => phyOf t p) (fun t x => phyOf_of_phys (takeStream_phys x (codewordBlocks (phyOf s p) d) t) p)
        (clientsWhere (codewordNoted p bits d s) fun c => c.kind == 1 && c.place == p) (codewordNoted p bits d s)).trans (phyOf_phyUpd_of_kind hcount)
    refine ⟨_, hexec, fun hcorr hn => ?_, fun hlost => ?_⟩
    · have hcount := phyOf_countCodeword_corrected hkind hn
      rw [← hcorr] at hcount
      rw [hphy (by rw [hcount]; exact hkind), hcount]
      exact ⟨rfl, rfl, rfl⟩
    · have hcount := phyOf_countCodeword_lost hkind
      rw [← hlost] at hcount
      rw [hphy (by rw [hcount]; exact hkind), hcount]
      exact ⟨rfl, rfl⟩
  case badFrame =>
    intro p oh s hkind hbad
    have hphy : phyOf (phyUpd p (fun k => { k with caRun := 0 }) s) p = { phyOf s p with caRun := 0 } :=
      phyOf_phyUpd_of_kind (by simp [hkind])
    exact ⟨phyUpd p (fun k => { k with caRun := 0 }) s, next_congr ((if_neg (by simp [hkind])).trans (if_pos (by simp [hbad]))),
      congrArg Phy.caRun hphy, rfl⟩
  case accept =>
    intro p g oh w s hkind hok hca hid hcal hssm hbad hrun hgroup hswitch
    obtain ⟨hlt, hsame, huse⟩ := ohNoted_group hkind hca hid hbad hswitch
    refine ⟨_, exec_flexeOverheadFrameRx_accept hkind hca hid hbad hok hcal hssm hrun hgroup, ?_⟩
    rw [groupOf_sendOverhead, switchAccepted, groupOf_groupUpd_same hlt]
    exact ⟨by simp only [hsame, Option.map_some], huse⟩
  case boundary =>
    intro g w s hswitch hacc huse
    refine next_congr ?_
    simp only [hswitch, hacc, if_true]
  case timeout =>
    intro g w s hswitch hacc hle
    refine next_congr ?_
    simp only [hswitch, hacc, Bool.false_eq_true, if_false, advanceTo_of_le hle, endSwitch]

end Sys2Proof.Machine
end
